-- ==== Sys2Proof/Word.lean ====
section
/-! DEFINITION. The plainest data types of the KX-9640 model: memory words of the widths the
manual names (R6: little-endian, bit 0 least significant) and the finite map every table of the
device is held in. -/

namespace Sys2Proof

/-- 64 data bytes, byte 0 in bits 7:0 (R6, R289): one memory line. -/
abbrev Line := BitVec 512

/-- A stored line of Table 17.1: 80 bytes, byte 0 in bits 7:0 (R289). -/
abbrev Stored := BitVec 640

/-- A vector register: 256 lanes of 32 bits, lane 0 in bits 31:0 (Table 7.1). -/
abbrev VReg := BitVec 8192

/-- A sparse table: pairs of a key and an entry, keys strictly rising. The canonical form is
`NMap.wf`; the operations are in `Machine/NMap.lean`. -/
abbrev NMap (α : Type) := List (Nat × α)

end Sys2Proof
end

