-- ==== Sys2Proof/Fields.lean ====
section
/-! DEFINITION. The fields of the commands: requests, packets, parameter blocks, descriptors and
bundles as the manual's tables give them, reserved bits summed into `rsvd`. -/

namespace Sys2Proof

/-- Status codes (Table 14.6, R257). -/
inductive Status
  | ok | late | deferred | throttled | busy | noAccess | revoked | leaseExpired | readOnly
  | staleVersion | conflict | fault | align | badDescriptor | uncorrectable | integrity | lost
  | failedOver | domainDown | aborted | killed | unsupported | invalid | emergency | notReady
  deriving DecidableEq, Repr, Inhabited

/-- Memory tiers (Table 6.2 TIER): tier 1, tier 2, staging SRAM. -/
inductive Tier
  | t1 | t2 | staging
  deriving DecidableEq, Repr, Inhabited

/-- Tier policies (Table 3.4). -/
inductive Policy
  | t1Only | t1Prefer | t2Only | staging
  deriving DecidableEq, Repr, Inhabited

/-- Draft segment modes (Table 5.2). -/
inductive SegMode
  | inherit | copy | zero | raw
  deriving DecidableEq, Repr, Inhabited

/-- The path by which a mailbox request reaches the device: a link packet (R246), the I3C
sideband (R350) or the TAP's DBG_MBX (R351). -/
inductive Via
  | link | i3c | tap
  deriving DecidableEq, Repr, Inhabited

/-- A mailbox request: the packet envelope (R246, R247) and the header of Table 2.2. -/
structure Req where
  via       : Via := .link
  port      : Nat
  ep        : Nat
  pktDeckle : Nat
  deckle    : Nat
  tag       : Nat
  ext       : Bool := false
  evreg     : Bool := false
  plen      : Nat
  paramPva  : Nat := 0
  cookie    : Nat := 0
  resultPva : Nat := 0
  resultLen : Nat := 0
  rsvd      : Nat := 0
  deriving DecidableEq, Repr, Inhabited

/-- A packet header (Table 14.2) with the port and virtual channel it arrived on; `len` is LEN. -/
structure Hdr where
  port   : Nat
  vc     : Nat
  ep     : Nat
  deckle : Nat
  tag    : Nat
  cls    : Nat := 0
  len    : Nat
  rsvd   : Nat := 0
  deriving DecidableEq, Repr, Inhabited

/-- The memory extension (Table 14.3). -/
structure MemExt where
  addr      : Nat
  addrHi    : Nat := 0
  lines     : Nat := 0
  masked    : Bool := false
  ver       : Bool := false
  aop       : Nat := 0
  asize16   : Bool := false
  handle    : Nat := 0
  firstMask : BitVec 64 := 0#64
  lastMask  : BitVec 64 := 0#64
  rsvd      : Nat := 0
  deriving DecidableEq, Repr, Inhabited

/-- The lode extension (Table 14.4) as a partner sends it. -/
structure LodeExt where
  addr  : Nat
  data  : Bool := false
  dirty : Bool := false
  rsvd  : Nat := 0
  deriving DecidableEq, Repr, Inhabited

/-- DEVICE_CONFIGURE parameters (Table 2.7). -/
structure DevCfgP where
  setProfile : Bool
  bulk       : Bool
  setWedge   : Bool
  wedgeMs    : Nat
  rsvd       : Nat := 0
  deriving DecidableEq, Repr, Inhabited

/-- DRIVER_ATTACH parameters (Table 2.8) less ACTION, which the row names. -/
structure AttachP where
  nonce : Nat
  rsvd  : Nat := 0
  deriving DecidableEq, Repr, Inhabited

/-- FW_STAGE and FW_ACTIVATE parameters (Table 2.10). -/
structure FwP where
  imagePva    : Nat := 0
  imageLen    : Nat := 0
  auto        : Bool := false
  cancel      : Bool := false
  fillAtStart : Bool := false
  rsvd        : Nat := 0
  deriving DecidableEq, Repr, Inhabited

/-- Bedrock parameters (Table 2.12): CONFIRM of BR_ZEROISE or OFFSET of BR_DUMP READ. -/
structure BrP where
  word : Nat := 0
  rsvd : Nat := 0
  deriving DecidableEq, Repr, Inhabited

/-- EXTENT_MIGRATE parameters (Table 3.6). -/
structure MigrateP where
  deckle : Nat
  extent : Nat
  target : Nat
  rsvd   : Nat := 0
  deriving DecidableEq, Repr, Inhabited

/-- DECKLE_CREATE parameters (Table 4.1). -/
structure DeckleCreateP where
  deckle          : Nat
  operatorVisible : Bool
  kernelKeyValid  : Bool
  ctrlGranules    : Nat
  ctrlPva         : Nat
  qT1 : Nat
  qT2 : Nat
  qStg : Nat
  qLodeMib : Nat
  epCount : Nat
  epList : List Nat
  leaseMs : Nat
  graceMs : Nat
  kernelKey : Nat
  rsvd : Nat := 0
  deriving DecidableEq, Repr, Inhabited

/-- DECKLE_QUOTA parameters (Table 4.3). -/
structure QuotaP where
  deckle : Nat
  qT1 : Nat
  qT2 : Nat
  qStg : Nat
  qLodeMib : Nat
  rsvd : Nat := 0
  deriving DecidableEq, Repr, Inhabited

/-- An 8-byte parameter that names a deckle only (DECKLE_QUERY R357, DECKLE_DISSOLVE). -/
structure DeckleP where
  deckle : Nat
  rsvd : Nat := 0
  deriving DecidableEq, Repr, Inhabited

/-- EXTENT_ALLOC parameters (Table 4.6). -/
structure AllocP where
  deckle   : Nat
  granules : Nat
  policy   : Policy
  mir      : Bool
  zero     : Bool
  held     : Bool
  holder   : Nat
  rsvd     : Nat := 0
  deriving DecidableEq, Repr, Inhabited

/-- EXTENT_FREE and EXTENT_REVOKE parameters (Table 4.12). -/
structure RevokeP where
  deckle    : Nat
  extent    : Nat
  timeoutUs : Nat
  rsvd      : Nat := 0
  deriving DecidableEq, Repr, Inhabited

/-- LEASE_GRANT and LEASE_QUERY parameters (Table 4.9). -/
structure LeaseP where
  deckle     : Nat
  endpoint   : Nat
  durationMs : Nat := 0
  graceMs    : Nat := 0
  rsvd       : Nat := 0
  deriving DecidableEq, Repr, Inhabited

/-- REGION_CREATE parameters (Table 5.1) less OP. -/
structure RegionP where
  deckle      : Nat
  policy      : Policy := .t1Only
  mir         : Bool := false
  region      : Nat := 0
  segments    : Nat := 0
  segGranules : Nat := 0
  retainCount : Nat := 0
  retainMs    : Nat := 0
  rsvd        : Nat := 0
  deriving DecidableEq, Repr, Inhabited

/-- REGION_DRAFT parameters (Table 5.3) less OP; `modes` is MODE_VECTOR when VECTOR is set. -/
structure DraftP where
  deckle      : Nat
  defaultMode : SegMode := .inherit
  vector      : Bool := false
  region      : Nat
  draft       : Nat := 0
  base        : Nat := 0
  modes       : List SegMode := []
  rsvd        : Nat := 0
  deriving DecidableEq, Repr, Inhabited

/-- REGION_PUBLISH parameters (Table 5.6). -/
structure PublishP where
  deckle : Nat
  region : Nat
  draft  : Nat
  base   : Nat
  rsvd   : Nat := 0
  deriving DecidableEq, Repr, Inhabited

/-- REGION_OPEN parameters (Table 5.8) less OP; REGION_CLOSE uses `id` as HANDLE. -/
structure OpenP where
  deckle  : Nat
  ofDraft : Bool := false
  region  : Nat
  id      : Nat := 0
  version : Nat := 0
  rsvd    : Nat := 0
  deriving DecidableEq, Repr, Inhabited

/-- REGION_GRANT parameters (Table 5.11) less OP. -/
structure GrantP where
  deckle       : Nat
  closeHandles : Bool := false
  region       : Nat
  grantee      : Nat
  rsvd         : Nat := 0
  deriving DecidableEq, Repr, Inhabited

/-- LODE_CREATE parameters (Table 5.12) less OP. -/
structure LodeP where
  deckle    : Nat
  extent    : Nat := 0
  offset64k : Nat := 0
  size64k   : Nat := 0
  snoopUs   : Nat := 0
  lode      : Nat := 0
  rsvd      : Nat := 0
  deriving DecidableEq, Repr, Inhabited

/-- LODE_JOIN and LODE_LEAVE parameters (Table 5.13). -/
structure LodeMemP where
  deckle   : Nat
  endpoint : Nat
  caching  : Bool := false
  lode     : Nat
  rsvd     : Nat := 0
  deriving DecidableEq, Repr, Inhabited

/-- LODE_SALVAGE parameters (Table 5.18) less OP. -/
structure SalvageP where
  deckle     : Nat
  lode       : Nat
  destExtent : Nat := 0
  destOffset : Nat := 0
  rsvd       : Nat := 0
  deriving DecidableEq, Repr, Inhabited

/-- A page entry of TABLE_SYNC (Table 6.6). -/
structure PageEntry where
  table    : Nat
  level    : Nat
  remove   : Bool
  imagePva : Nat
  rsvd     : Nat := 0
  deriving DecidableEq, Repr, Inhabited

/-- TABLE_SYNC parameters (Table 6.5) with its page entries. -/
structure SyncP where
  deckle  : Nat
  setRoot : Bool
  root    : Nat
  entries : List PageEntry
  rsvd    : Nat := 0
  deriving DecidableEq, Repr, Inhabited

/-- TABLE_READBACK parameters (Table 6.9). -/
structure ReadbackP where
  deckle : Nat
  faults : Bool
  rsvd   : Nat := 0
  deriving DecidableEq, Repr, Inhabited

/-- FAULT_RESUME and FAULT_ABORT parameters (Table 6.12). -/
structure FaultP where
  deckle : Nat
  fault  : Nat
  rsvd   : Nat := 0
  deriving DecidableEq, Repr, Inhabited

/-- KERNEL_LOAD (Table 8.13) and KERNEL_UNLOAD (R142) parameters. -/
structure KernelP where
  deckle   : Nat
  imagePva : Nat := 0
  imageLen : Nat := 0
  handle   : Nat := 0
  rsvd     : Nat := 0
  deriving DecidableEq, Repr, Inhabited

/-- LAUNCH body (Table 8.15). `args` is the 256-byte argument block, byte 0 in bits 7:0. -/
structure LaunchB where
  gang     : Bool
  anyCore  : Bool
  kernel   : Nat
  core     : Nat
  engines  : Nat
  windows  : Nat
  coreMask : Nat
  capUs    : Nat
  cplEp    : Nat
  ctag     : Nat
  estUj    : Nat
  args     : BitVec 2048
  rsvd     : Nat := 0
  deriving DecidableEq, Repr, Inhabited

/-- WORK_CANCEL body (Table 8.19). -/
structure CancelB where
  cplEp : Nat
  ctag  : Nat
  rsvd  : Nat := 0
  deriving DecidableEq, Repr, Inhabited

/-- ATTN_POOL_SET parameters (Table 9.3). -/
structure PoolSetP where
  deckle     : Nat
  setWindows : Bool
  windows    : Nat
  setMax     : Bool
  maxSeq     : Nat
  rsvd       : Nat := 0
  deriving DecidableEq, Repr, Inhabited

/-- ATTN_OPEN body (Table 9.4). -/
structure AttnOpenB where
  anyCore   : Bool
  core      : Nat
  headDim   : Nat
  format    : Nat
  pvBf16    : Bool
  kvHeads   : Nat
  group     : Nat
  layers    : Nat
  maxTokens : Nat
  window    : Nat
  sinks     : Nat
  scale     : BitVec 32
  ptPva     : Nat
  ptStride  : Nat
  cplEp     : Nat
  ctag      : Nat
  posBase   : Nat
  rsvd      : Nat := 0
  deriving DecidableEq, Repr, Inhabited

/-- ATTN_APPEND body (Table 9.5). -/
structure AttnAppendB where
  copy    : Bool
  seq     : Nat
  layer   : Nat
  nTokens : Nat
  srcPva  : Nat
  cplEp   : Nat
  ctag    : Nat
  rsvd    : Nat := 0
  deriving DecidableEq, Repr, Inhabited

/-- ATTN_STEP body (Table 9.7) with its inline query bytes (`inlineLen` bytes). -/
structure AttnStepB where
  inl       : Bool
  qryFp32   : Bool
  outFp32   : Bool
  outPva    : Bool
  cores     : Nat
  qposSet   : Bool
  nQ        : Nat
  seq       : Nat
  layer     : Nat
  engines   : Nat
  capUs     : Nat
  queryPva  : Nat
  outAddr   : Nat
  cplEp     : Nat
  ctag      : Nat
  qpos      : Nat
  inlineLen : Nat := 0
  queries   : List Line := []
  rsvd      : Nat := 0
  deriving DecidableEq, Repr, Inhabited

/-- ATTN_CLOSE body (Table 9.6) less OP. -/
structure AttnCloseB where
  seq       : Nat
  newLength : Nat := 0
  cplEp     : Nat
  ctag      : Nat
  rsvd      : Nat := 0
  deriving DecidableEq, Repr, Inhabited

/-- A pin entry of a map descriptor (Table 10.2). -/
structure PinEntry where
  region  : Nat
  version : Nat
  basePva : Nat
  deriving DecidableEq, Repr, Inhabited

/-- A tensor entry of a map descriptor (Table 10.3). -/
structure TensorEntry where
  layer     : Nat
  tensor    : Nat
  pin       : Nat
  format    : Nat
  axisCols  : Bool
  adaptable : Bool
  rows      : Nat
  cols      : Nat
  offset    : Nat
  tscale    : BitVec 32
  codebook  : BitVec 128
  rsvd      : Nat := 0
  deriving DecidableEq, Repr, Inhabited

/-- A map descriptor (Table 10.1) with its tensor entries; REPLACE is the row's. -/
structure MapP where
  magic   : Nat
  fmt     : Nat
  deckle  : Nat
  mapUid  : Nat
  slices  : Nat
  slice   : Nat
  layers  : Nat
  pins    : List PinEntry
  tensors : List TensorEntry
  rsvd    : Nat := 0
  deriving DecidableEq, Repr, Inhabited

/-- MAP_RETIRE parameters (R171). -/
structure MapRetireP where
  deckle : Nat
  mapUid : Nat
  rsvd   : Nat := 0
  deriving DecidableEq, Repr, Inhabited

/-- ADAPTER_REGISTER parameters (Table 10.5) less OP. -/
structure AdapterP where
  deckle     : Nat
  fp8        : Bool := false
  rank       : Nat := 0
  adapter    : Nat
  mapUid     : Nat
  region     : Nat := 0
  version    : Nat := 0
  entries    : Nat := 0
  alpha      : BitVec 32 := 0#32
  basePva    : Nat := 0
  descOffset : Nat := 0
  rsvd       : Nat := 0
  deriving DecidableEq, Repr, Inhabited

/-- A FORM program (Table 10.7). -/
structure FormProg where
  mapUid    : Nat
  layer     : Nat
  tensor    : Nat
  outFmt    : Nat
  transpose : Bool
  adapter   : Nat
  alpha     : BitVec 32
  row0      : Nat
  rows      : Nat
  col0      : Nat
  cols      : Nat
  outPitch  : Nat
  engines   : Nat
  rsvd      : Nat := 0
  deriving DecidableEq, Repr, Inhabited

/-- INDEX_DEFINE parameters (Table 11.1) less OP. -/
structure IndexP where
  deckle      : Nat
  format      : Nat := 0
  filterValid : Bool := false
  index       : Nat := 0
  region      : Nat := 0
  version     : Nat := 0
  dim         : Nat := 0
  rows        : Nat := 0
  tscale      : BitVec 32 := 0#32
  basePva     : Nat := 0
  offset      : Nat := 0
  idBase      : Nat := 0
  filterPva   : Nat := 0
  rsvd        : Nat := 0
  deriving DecidableEq, Repr, Inhabited

/-- TOPK_QUERY body (Table 11.3). -/
structure TopkB where
  metric     : Nat
  rescore    : Bool
  outPva     : Bool
  cores      : Nat
  firstCore  : Nat
  index      : Nat
  rindex     : Nat
  q          : Nat
  k          : Nat
  cand       : Nat
  engines    : Nat
  capUs      : Nat
  queryPva   : Nat
  qscalePva  : Nat
  rqueryPva  : Nat
  rqscalePva : Nat
  filterPva  : Nat
  outAddr    : Nat
  cplEp      : Nat
  ctag       : Nat
  rsvd       : Nat := 0
  deriving DecidableEq, Repr, Inhabited

/-- A couch descriptor (Table 12.2), bits 1023:960 left out (R197). -/
structure Desc where
  srcKind      : Nat
  dstEndpoint  : Bool
  barrier      : Bool
  mirRequired  : Bool
  haltOnBad    : Bool
  notify       : Bool
  writeback    : Bool
  retries      : Nat
  retrySet     : Bool
  tag          : Nat
  nextPva      : Nat
  srcAddr      : Nat
  srcLineLen   : Nat
  srcStride    : Nat
  srcLines     : Nat
  remoteEp     : Nat
  remoteDeckle : Nat
  remoteHandle : Nat
  dstAddr      : Nat
  dstLineLen   : Nat
  dstStride    : Nat
  dstLines     : Nat
  dstEp        : Nat
  rsvd         : Nat := 0
  deriving DecidableEq, Repr, Inhabited

/-- COUCH body (Table 12.1) less OP. -/
structure CouchB where
  anyChannel : Bool := false
  core       : Nat := 0
  channel    : Nat := 0
  chainPva   : Nat := 0
  cplEp      : Nat
  ctag       : Nat
  inl        : Option Desc := none
  rsvd       : Nat := 0
  deriving DecidableEq, Repr, Inhabited

/-- Acknowledgement fields of a bypass flit (Table 13.3). -/
structure BypassHdr where
  bseq    : Nat := 0
  seqd    : Bool := false
  back    : Option (Bool × Nat) := none
  mack    : Option (Bool × Nat) := none
  rstart  : Option Nat := none
  rsvd    : Nat := 0
  deriving DecidableEq, Repr, Inhabited

/-- A received DATA flit (Table 13.2): `credits` are the credits of the packets it completes. -/
structure DataFlit where
  seq     : Nat
  vc      : Nat
  ackReq  : Bool
  enc     : Bool
  epoch   : Bool
  fill    : Nat
  rsvd    : Nat := 0
  credits : Nat := 0
  good    : Bool := true
  deriving DecidableEq, Repr, Inhabited

/-- PARAM_A (Table 13.5). -/
structure ParamA where
  linkId      : Nat
  lanes       : Nat
  maxWidth    : Nat
  encRequired : Bool
  encCapable  : Bool
  poolDevice  : Bool
  rsvd        : Nat := 0
  deriving DecidableEq, Repr, Inhabited

/-- QUEUE_MAP parameters (Table 15.1) less OP. -/
structure QueueMapP where
  deckle    : Nat := 0
  classMask : Nat := 0
  queue     : Nat
  weight    : Nat := 0
  rsvd      : Nat := 0
  deriving DecidableEq, Repr, Inhabited

/-- SHAPER_SET and POLICER_SET parameters (Table 15.2). -/
structure BucketP where
  deckle       : Nat
  targetDeckle : Bool
  allPorts     : Bool
  enable       : Bool
  resetFill    : Bool
  port         : Nat
  queue        : Nat
  cir          : Nat
  pir          : Nat
  cbs          : Nat
  pbs          : Nat
  rsvd         : Nat := 0
  deriving DecidableEq, Repr, Inhabited

/-- ENERGY_SET parameters (Table 15.4). -/
structure EnergyP where
  deckle     : Nat
  enable     : Bool
  resetFill  : Bool
  queueLimit : Nat
  cerMw      : Nat
  perMw      : Nat
  cebUj      : Nat
  pebUj      : Nat
  rsvd       : Nat := 0
  deriving DecidableEq, Repr, Inhabited

/-- ENERGY_READ parameters (Table 15.5). -/
structure EnergyReadP where
  deckle : Nat
  device : Bool
  rsvd   : Nat := 0
  deriving DecidableEq, Repr, Inhabited

/-- POWER_CAP parameters (Table 15.6). -/
structure PowerCapP where
  capW  : Nat
  force : Bool
  rsvd  : Nat := 0
  deriving DecidableEq, Repr, Inhabited

/-- TIME_MASTER_SET parameters (Table 16.2). -/
structure TimeMasterP where
  role     : Nat
  autoPort : Bool
  port     : Nat
  ppsNs    : Nat
  rsvd     : Nat := 0
  deriving DecidableEq, Repr, Inhabited

/-- LAID_LOAD parameters (Table 16.6). -/
structure LaidLoadP where
  slot      : Nat
  checkOnly : Bool
  imagePva  : Nat
  imageLen  : Nat
  rsvd      : Nat := 0
  deriving DecidableEq, Repr, Inhabited

/-- LAID_ACTIVATE parameters (Table 16.8) less OP. -/
structure LaidActP where
  slot    : Nat := 0
  startNs : Nat := 0
  rsvd    : Nat := 0
  deriving DecidableEq, Repr, Inhabited

/-- LAID_STATUS parameters (Table 16.12). -/
structure LaidStatusP where
  slot         : Nat
  records      : Bool
  degradedOnly : Bool
  rsvd         : Nat := 0
  deriving DecidableEq, Repr, Inhabited

/-- SCRUB parameters (Table 17.7). -/
structure ScrubP where
  deckle  : Nat
  group   : Nat
  pva     : Bool
  rewrite : Bool
  parity  : Bool
  share   : Nat
  start   : Nat
  length  : Nat
  rsvd    : Nat := 0
  deriving DecidableEq, Repr, Inhabited

/-- INJECT parameters (Table 17.9) less CANCEL. -/
structure InjectP where
  group : Nat
  unit  : Nat
  kind  : Nat := 0
  isMatch : Bool := false
  row   : Nat := 0
  mask  : BitVec 640 := 0#640
  rsvd  : Nat := 0
  deriving DecidableEq, Repr, Inhabited

/-- CE_CONFIG parameters (Table 17.4) less OP. -/
structure CeP where
  group        : Nat := 0
  unit         : Nat := 0
  bucketSize   : Nat := 0
  leakMs       : Nat := 0
  rebuildShare : Nat := 0
  sealShare    : Nat := 0
  failUe       : Nat := 0
  rsvd         : Nat := 0
  deriving DecidableEq, Repr, Inhabited

/-- POISON_LIST parameters (R295). -/
structure PoisonP where
  deckle : Nat
  extent : Nat
  rsvd   : Nat := 0
  deriving DecidableEq, Repr, Inhabited

/-- PAIR_FORM parameters (Table 18.1) less OP. -/
structure PairP where
  partnerId   : Nat := 0
  resyncShare : Nat := 0
  rsvd        : Nat := 0
  deriving DecidableEq, Repr, Inhabited

/-- WITNESS_REGISTER parameters (Table 18.6) less OP. -/
structure WitnessP where
  lost      : Bool := false
  witnesses : List Nat := []
  lostNs    : Nat := 0
  rsvd      : Nat := 0
  deriving DecidableEq, Repr, Inhabited

/-- FAILOVER parameters (Table 18.8) less OP. -/
structure FailoverP where
  drainUs : Nat := 0
  rsvd    : Nat := 0
  deriving DecidableEq, Repr, Inhabited

/-- A standby health report (Table 18.5), the fields R313 grades by and the rest as one number. -/
structure Health where
  hubOk       : Bool
  securityOk  : Bool
  pairPorts   : Nat
  patrolLate  : Bool
  ceStorm     : Bool
  coresOk     : Nat
  stacksOk    : Nat
  channelsOk  : Nat
  groups      : List Nat
  appliedMseq : Nat
  lagNs       : Nat
  lanesFailed : Nat
  tjMax       : Nat
  reportNs    : Nat
  deriving DecidableEq, Repr, Inhabited

/-- A mirror extension (Table 18.3). -/
structure MirExt where
  mseq    : Nat := 0
  phys    : Nat := 0
  tier    : Tier := .t1
  ep      : Nat := 0
  rtag    : Nat := 0
  lastRec : Bool := false
  resync  : Bool := false
  hubOk   : Bool := true
  promote : Bool := false
  solo    : Bool := false
  fw      : Bool := false
  term    : Nat := 0
  deriving DecidableEq, Repr, Inhabited

/-- One mirrored stored line as the stream carries it (Table 17.1, CHECK zero, R308): its fields
and whether it is the poisoned pattern. -/
structure MirLine where
  data     : Line
  deckle   : Nat
  epoch    : Nat
  gen      : Nat
  poisoned : Bool := false
  deriving DecidableEq, Repr, Inhabited

/-- Kinds of pair control messages (Table 18.2, MIR_CTRL). -/
inductive MirCtrlKind
  | armed | form | formAck | promote | promoted | resyncStart | resyncEnd | dissolve
  deriving DecidableEq, Repr, Inhabited

/-- ATTEST parameters (Table 19.8). -/
structure AttestP where
  deckle      : Nat
  perDeckle   : Bool
  firstDeckle : Nat
  nonce       : Nat
  rsvd        : Nat := 0
  deriving DecidableEq, Repr, Inhabited

/-- KEY_ROTATE parameters (Table 19.3) less OP. -/
structure KeyP where
  deckle  : Nat := 0
  strict  : Bool := false
  confirm : Nat := 0
  target  : Nat := 0
  pubkey  : Nat := 0
  rsvd    : Nat := 0
  deriving DecidableEq, Repr, Inhabited

/-- DEBUG_OPEN parameters (Table 19.6) less OP. -/
structure DebugP where
  space     : Nat := 0
  tier      : Nat := 0
  deckle    : Nat := 0
  timeoutMs : Nat := 0
  addr      : Nat := 0
  len       : Nat := 0
  rsvd      : Nat := 0
  deriving DecidableEq, Repr, Inhabited

/-- Pair partner facts a FORM compares (R2, R17, R305), as MIR_CTRL brings them. -/
structure PartnerInfo where
  linkId   : Nat
  order    : Nat
  stepping : Nat
  bulk     : Bool
  farPop   : List (Nat × Nat)
  laid62   : Bool
  deriving DecidableEq, Repr, Inhabited

/-- A KEYX message (R233): epoch, ephemeral public key, signature and the bytes that must be zero. -/
structure KeyxMsg where
  epoch  : Nat
  pubkey : Nat
  sig    : Nat
  rsvd   : Nat := 0
  deriving DecidableEq, Repr, Inhabited

/-- Periodic standby self-tests (Table 18.4). -/
inductive SelfTest
  | patrol (tier2 : Bool) (late : Bool)
  | arrayKat (core : Nat) | loopback (port lane : Nat) | hubCheck | securityKat
  deriving DecidableEq, Repr, Inhabited

end Sys2Proof
end

