-- ==== Sys2Proof/Objects.lean ====
section
/-! DEFINITION. The objects of the machine that the pair mirrors as metadata (R309): answers and
outstanding commands, deckles, extents, granules, leases, regions, lodes, kernels, contexts, maps,
adapters, indexes and laid tables. -/

namespace Sys2Proof.Machine

/-- An answer to a mailbox command (Table 2.3): status, DETAIL, inline result. -/
structure Ans where
  status : Status
  detail : Nat := 0
  /-- RLEN in bytes -/
  rlen   : Nat := 0
  /-- the inline result, byte 0 in bits 7:0 -/
  bits   : Nat := 0
  /-- length of the result-area entries in bytes -/
  area   : Nat := 0
  /-- length of one entry -/
  entry  : Nat := 16
  /-- the entries, byte 0 in bits 7:0 -/
  content : Nat := 0
  trunc  : Bool := false
  deriving DecidableEq, Repr, Inhabited

/-- How far an outstanding command has come (R36): not started, committed and running on, or
committed with its result. -/
inductive Progress
  | waiting | running | committed (a : Ans)
  deriving DecidableEq, Repr, Inhabited

/-- An outstanding mailbox command (R24). `box` is the mailbox: a deckle, 4096 the bedrock
mailbox of the link, 4097 that of I3C. -/
structure Outst where
  box      : Nat
  req      : Req
  code     : Nat
  accepted : Nat
  progress : Progress
  /-- highest MSEQ its metadata commit produced, to be acknowledged first (R310) -/
  mseq     : Option Nat := none
  deriving DecidableEq, Repr, Inhabited

/-- A running migration (R53). -/
structure Migration where
  tier     : Tier
  first    : Nat
  /-- the copy has completed (EV_MIGRATE_DONE raised) -/
  done     : Bool
  /-- a TABLE_SYNC switched to the new frames; the old frames drain -/
  switched : Bool
  /-- copy cursor in bytes -/
  cursor   : Nat
  poisoned : Nat
  deriving DecidableEq, Repr, Inhabited

/-- A pair of byte token buckets (R263): rates in MB/s, sizes in bytes, tokens in thousandths of
a byte, last accrual time. -/
structure Bucket where
  enable : Bool
  cir : Nat
  pir : Nat
  cbs : Nat
  pbs : Nat
  ctok : Nat
  ptok : Nat
  last : Nat
  resetFill : Bool
  deriving DecidableEq, Repr, Inhabited

/-- Energy buckets of a deckle (R268): rates in mW, sizes in µJ, tokens in pJ, signed. -/
structure EnergyB where
  enable : Bool
  cer : Nat
  per : Nat
  ceb : Nat
  peb : Nat
  queueLimit : Nat
  ctok : Int
  ptok : Int
  last : Nat
  /-- effective refill rates set by the power loop, mW (R272) -/
  effC : Nat
  effP : Nat
  resetFill : Bool
  deriving DecidableEq, Repr, Inhabited

/-- A sweep of a key rotation (R331). -/
structure Sweep where
  oldEpoch : Nat
  oldKey   : Nat
  start    : Nat
  /-- lines re-encrypted so far -/
  lines    : Nat
  deriving DecidableEq, Repr, Inhabited

/-- A translation table of the device copy (R92): its level and its 64-bit entries, absent 0. -/
structure XTable where
  level   : Nat
  entries : NMap Nat
  deriving DecidableEq, Repr, Inhabited

/-- A dissolve in progress (R334). -/
structure Dissolve where
  reply   : Nat
  start   : Nat
  stopped : Nat
  extents : Nat
  bytes   : Nat
  deriving DecidableEq, Repr, Inhabited

/-- A deckle (R57–R61). A deckle that is not listed is FREE. -/
structure Deckle where
  /-- DISSOLVING, with the dissolve's record -/
  dissolving : Option Dissolve
  operatorVisible : Bool
  kernelKey : Option Nat
  /-- current key epoch and the serial of the key (R331) -/
  epoch : Nat
  key   : Nat
  sweep : Option Sweep
  qT1 : Nat
  qT2 : Nat
  qStg : Nat
  qLodeMib : Nat
  ctrlExtent : Nat
  ctrlPva : Nat
  ctrlGranules : Nat
  /-- queue of each class 0–7 (R262) -/
  classMap : List Nat
  policer : Bucket
  shaper  : Bucket
  energy  : EnergyB
  /-- energy per class and per kind since creation (R271), in pJ -/
  usedClass : List Nat
  usedKind  : List Nat
  /-- activity since the last ledger interval by class × 8 + kind, pJ by the nominal coefficients (R270);
  class 8 and up: class + 8 of work that passed no admission (R269) -/
  activity : NMap Nat
  /-- EV_ENERGY_QUEUE_FULL: refusals since the last event and its time (R269) -/
  refused : Nat
  refusedAt : Option Nat
  /-- device copy of the translation tables (R98) -/
  tables : NMap XTable
  root   : Nat
  /-- the copy units not yet switched still use (R101): old tables, old root, reply -/
  oldCopy : Option (NMap XTable × Nat)
  syncReply : Option Nat
  syncSeq : Nat
  mismatches : Nat
  /-- granules of the translation store and of the context store (R98, R152), first and count -/
  store  : List (Nat × Nat)
  ctxStore : List (Nat × Nat)
  maxSeq : Nat
  deriving DecidableEq, Repr

/-- Extent states (Table 4.8). -/
inductive ExtState
  | zeroing (reply : Option Nat) | allocated | revoking
  deriving DecidableEq, Repr, Inhabited

/-- A revocation in progress (R69). `cause`: 0 EXTENT_REVOKE, 1 lease reclaim, 2 any other. -/
structure Revoke where
  reply     : Option Nat
  point     : Nat
  timeout   : Nat
  cause     : Nat
  drained   : Nat
  discarded : Nat
  stopped   : Nat
  deriving DecidableEq, Repr, Inhabited

/-- An extent (R62). -/
structure Extent where
  deckle   : Nat
  tier     : Tier
  first    : Nat
  granules : Nat
  gen      : Nat
  mir      : Bool
  policy   : Policy
  holder   : Option Nat
  state    : ExtState
  revoke   : Option Revoke
  /-- draft the extent belongs to (R74) -/
  draft    : Option Nat
  /-- extent of a published version (R77) -/
  published : Option Nat
  /-- answers ST_LOST after a promotion (Table 18.7) -/
  lost     : Bool
  /-- granules of the extent written while solo (R316) -/
  dirty    : List Nat
  deriving DecidableEq, Repr, Inhabited

/-- What a line was formed under: deckle, epoch, key serial and generation. -/
structure Stamp where
  deckle : Nat
  epoch  : Nat
  key    : Nat
  gen    : Nat
  deriving DecidableEq, Repr, Inhabited

/-- A granule that has been allocated at least once (R62). -/
structure Granule where
  gen      : Nat
  /-- zeroed: every line not listed in `Mem.cells` is a zero line formed under this (R64) -/
  zero     : Option Stamp
  /-- retired: waits to become allocatable -/
  retired  : Bool
  /-- time at which it last held its generation -/
  lastHeld : Nat
  /-- last owning deckle -/
  owner    : Nat
  /-- its last extent belonged to a version that was retired (R81) -/
  ofRetired : Bool
  deriving DecidableEq, Repr, Inhabited

/-- Lease states (Table 4.10) other than NONE. -/
inductive LeaseState
  | held | grace | expired
  deriving DecidableEq, Repr, Inhabited

/-- Reclaim in progress (R67). -/
structure Reclaim where
  reply    : Option Nat
  revoked  : Nat
  closed   : Nat
  down     : Nat
  graceEnd : Nat
  deriving DecidableEq, Repr, Inhabited

/-- A lease (R66). -/
structure Lease where
  state    : LeaseState
  duration : Nat
  grace    : Nat
  deadline : Nat
  deriving DecidableEq, Repr, Inhabited

/-- A published version (R80). -/
structure Version where
  publisher : Nat
  publishedAt : Nat
  segs : List Nat
  deriving DecidableEq, Repr, Inhabited

/-- A REGION_PUBLISH that waits for an earlier one of its region (R76). -/
structure PubWait where
  reply : Nat
  draft : Nat
  base  : Nat
  ep    : Nat
  deriving DecidableEq, Repr, Inhabited

/-- A region (R72). -/
structure Region where
  deckle : Nat
  policy : Policy
  mir    : Bool
  segments : Nat
  segGranules : Nat
  retainCount : Nat
  retainMs : Nat
  current : Nat
  /-- retained versions by number (R81) -/
  versions : NMap Version
  deleted : Bool
  grantees : List Nat
  /-- publishes that wait for an earlier one -/
  queue : List PubWait := []
  deriving DecidableEq, Repr, Inhabited

/-- A draft (R74). -/
structure Draft where
  region : Nat
  holder : Nat
  base   : Nat
  /-- mode and extent of each segment; INHERIT segments name the base's extent -/
  segs   : List (SegMode × Nat)
  /-- REGION_DRAFT OPEN not yet answered, and the extents its COPY segments are copied from (0 for other modes) -/
  opening : Option Nat
  copyFrom : List Nat
  /-- sealed by a publish: its reply (R77) -/
  sealed : Option Nat
  deriving DecidableEq, Repr, Inhabited

/-- A version handle (R79). -/
structure Handle where
  deckle  : Nat
  ep      : Nat
  region  : Nat
  version : Nat
  deriving DecidableEq, Repr, Inhabited

/-- Directory states of a lode line (Table 5.14). An unlisted line is UNCACHED. -/
inductive DirState
  | shared (sharers : List Nat)
  | ownedExcl (owner : Nat)
  | ownedShared (owner : Nat) (sharers : List Nat)
  deriving DecidableEq, Repr, Inhabited

/-- A request at the home of a lode line (R86). -/
inductive LodeReq
  | rds | rdx
  | wb (data : Line)
  /-- a line of an RD, WR or ATOM: job and line -/
  | job (j i : Nat)
  /-- the recall of a line from an agent that leaves (R84) -/
  | recall
  deriving DecidableEq, Repr, Inhabited

/-- A request being served or waiting at the home (R87). -/
structure LodeWork where
  ep   : Nat
  tag  : Nat
  /-- line index within the lode -/
  line : Nat
  req  : LodeReq
  addr : Nat
  /-- snoops sent and not answered: endpoint, snoop tag, FWD kind (none INV) -/
  snoops : List (Nat × Nat × Option Nat)
  started : Bool
  /-- the requester was a sharer when it was started -/
  held : Bool
  /-- executed: the MSEQ that must be acknowledged before it is answered -/
  ans : Option Nat
  /-- an answer brought data: data and dirty -/
  got : Option (Line × Bool)
  /-- time the snoops were sent -/
  at_ : Nat
  deriving DecidableEq, Repr, Inhabited

/-- A lode (R83). -/
structure Lode where
  deckle  : Nat
  extent  : Nat
  offset  : Nat
  size    : Nat
  snoopUs : Nat
  /-- PVA of its first line as the last lode request named it, for recalls (log 31) -/
  pva     : Nat
  /-- DOWN: the down point, may-be-stale lines -/
  down    : Option (Nat × List Nat)
  /-- caching agents: agent index and endpoint -/
  agents  : NMap Nat
  uncached : List Nat
  dir     : NMap DirState
  work    : List LodeWork
  /-- members leaving: endpoint and reply (R84) -/
  leaving : List (Nat × Nat)
  /-- salvage copy running: reply, rearm, destination extent, offset (R90) -/
  salvage : Option (Nat × Bool × Nat × Nat)
  deriving DecidableEq, Repr, Inhabited

/-- A loaded kernel (R140, R142). -/
structure Kernel where
  deckle : Nat
  signer : Nat
  code   : List (BitVec 128)
  consts : List Line
  constOffset : Nat
  minEngines : Nat
  maxEngines : Nat
  gang   : Bool
  windows : Nat
  estUj  : Nat
  version : Nat
  name   : Nat
  digest : BitVec 512
  unloading : Bool
  deriving DecidableEq, Repr, Inhabited

/-- A sequence context (R151–R155). -/
structure SeqCtx where
  deckle : Nat
  home   : Nat
  cfg    : AttnOpenB
  length : Nat
  pending : Nat
  nextLayer : Nat
  deriving DecidableEq, Repr, Inhabited

/-- The binding a forming work item took at admission (R177). -/
structure FormBind where
  owner  : Nat
  entry  : TensorEntry
  slices : Nat
  basePva : Nat
  /-- adapter part: rank, fp8, α, B and A PVA -/
  part   : Option (Nat × Bool × BitVec 32 × Nat × Nat)
  /-- pins held: (region, version) -/
  pins   : List (Nat × Nat)
  deriving DecidableEq, Repr, Inhabited

/-- An index binding (R183). -/
structure IndexB where
  deckle  : Nat
  format  : Nat
  region  : Nat
  version : Nat
  dim     : Nat
  rows    : Nat
  tscale  : BitVec 32
  basePva : Nat
  offset  : Nat
  idBase  : Nat
  filter  : Option Nat
  deriving DecidableEq, Repr, Inhabited

/-- A model map (R167). -/
structure MMap where
  deckle : Nat
  slices : Nat
  slice  : Nat
  layers : Nat
  /-- pins: region, version, BASE_PVA -/
  pins   : List (Nat × Nat × Nat)
  tensors : List TensorEntry
  deriving DecidableEq, Repr, Inhabited

/-- An adapter entry (Table 10.6). -/
structure AdEntry where
  layer  : Nat
  tensor : Nat
  bOff   : Nat
  aOff   : Nat
  deriving DecidableEq, Repr, Inhabited

/-- A registered adapter (R172). -/
structure Adapter where
  mapUid : Nat
  id     : Nat
  fp8    : Bool
  rank   : Nat
  region : Nat
  version : Nat
  alpha  : BitVec 32
  basePva : Nat
  entries : List AdEntry
  pinned : Bool
  /-- reply of the PIN waiting for its parts (R172) -/
  pinReply : Option Nat
  deriving DecidableEq, Repr, Inhabited

/-- A laid entry (Table 16.5). -/
structure LaidEntry where
  offset : Nat
  port   : Nat
  inbound : Bool
  lateDrop : Bool
  form   : Bool
  target : Nat
  deckle : Nat
  shedPrio : Nat
  addr   : Nat
  srcPva : Nat
  length : Nat
  slack  : Nat
  id     : Nat
  formCore : Nat
  engines : Nat
  rsvd   : Nat
  deriving DecidableEq, Repr, Inhabited

/-- Run state of a laid entry (Table 16.12). -/
structure LaidRun where
  /-- LAID_DEGRADED with its reason and since when -/
  degraded : Option (Nat × Nat)
  shed   : Bool
  /-- shed by a forced cap, not by an emergency (R275) -/
  shedCap : Bool
  removed : Bool
  lastReason : Nat
  slips  : Nat
  /-- consecutive cycles with a slip, and on time (R288) -/
  slipRun : Nat
  okRun  : Nat
  lastLate : Nat
  lastSlip : Nat
  onTime : Nat
  /-- the slot of this cycle has begun or was skipped; INBOUND: its last byte has arrived (R282) -/
  done : Bool
  /-- a SLIP was sent in this cycle (R287) -/
  slipped : Bool
  /-- transfer in progress: bytes not sent, tiles sent -/
  left   : Option Nat
  /-- the lead has passed and the source is being read (R282) -/
  lead   : Bool
  deriving DecidableEq, Repr, Inhabited

/-- A table slot (R284). -/
structure LaidTable where
  tableId : Nat
  cycle  : Nat
  refPeriod : Nat
  refLen : Nat
  refOffset : Nat
  entries : List LaidEntry
  run    : List LaidRun
  /-- programs of FORM entries with their bindings, by entry -/
  forms  : NMap (FormProg × FormBind)
  /-- energy of each entry per cycle in pJ (R284) -/
  pjs    : List Nat
  digest : BitVec 256
  mw     : Nat
  widths : List (Nat × Nat)
  /-- START_NS, 0 when not activated -/
  start  : Nat
  cycles : Nat
  slips  : Nat
  unscheduled : Nat
  deriving DecidableEq, Repr, Inhabited

/-- What the pair mirrors of an admitted WORK item, so that the new active can complete it (Table 18.7):
its completion's kind, endpoint and CTAG, and its `arg`: the sequence, the first core, or
8 × core + channel. -/
structure ItemRec where
  kind   : Nat
  deckle : Nat
  cplEp  : Nat
  ctag   : Nat
  cls    : Nat
  queue  : Nat
  arg    : Nat
  deriving DecidableEq, Repr, Inhabited

/-- Time roles (Table 16.2). -/
inductive Role
  | follower | internal | pps
  deriving DecidableEq, Repr, Inhabited

end Sys2Proof.Machine
end

