-- ==== Sys2Proof/Syntax.lean ====
section
/-! DEFINITION. The commands of the KX-9640 (one constructor of `Instr` per row of
spec/opcode_table.json) and the operand structures they carry: mailbox requests with the
parameter structure of their command, packets, work messages, link messages, events of the
device's own timers and engines, pins and TAP instructions. Field names and ranges are those of
the manual's tables. `rsvd` stands for all rsvd bits of a structure read as one number (R8). -/

namespace Sys2Proof

/-- A metadata record of the mirror stream (Table 18.2 MIR_META). The record's own format is internal to
the firmware, so the model carries the object that a commit left under its number, or none where the
object is gone (log 51). -/
inductive MetaRec
  | deckle   (id : Nat) (x : Option Machine.Deckle)
  | extent   (id : Nat) (x : Option Machine.Extent)
  | granule  (key : Nat) (x : Option Machine.Granule)
  | lease    (key : Nat) (x : Option Machine.Lease)
  | reclaim  (key : Nat) (x : Option Machine.Reclaim)
  /-- identity and port -/
  | endpoint (id : Nat) (x : Option (Nat × Nat))
  | migration (extent : Nat) (x : Option Machine.Migration)
  | region   (id : Nat) (x : Option Machine.Region)
  | draft    (id : Nat) (x : Option Machine.Draft)
  | handle   (id : Nat) (x : Option Machine.Handle)
  | lode     (id : Nat) (x : Option Machine.Lode)
  | kernel   (id : Nat) (x : Option Machine.Kernel)
  | seq      (id : Nat) (x : Option Machine.SeqCtx)
  | map      (id : Nat) (x : Option Machine.MMap)
  | index    (id : Nat) (x : Option Machine.IndexB)
  | adapters (l : List Machine.Adapter)
  | witnesses (eps : List Nat)
  | trust    (linkId : Nat) (x : Option Nat)
  | laidSlot (slot : Nat) (x : Option Machine.LaidTable)
  | laidRun  (role : Machine.Role) (active pend stopAt : Option Nat)
  /-- last identifiers given: extents, regions, drafts, handles, lodes, kernels, sequences, indexes, keys -/
  | ids      (l : List Nat)
  /-- a WORK item admitted, or one that has ended -/
  | item     (x : Machine.ItemRec) (ended : Bool)
  /-- a mailbox request accepted or committed, or one that has been answered -/
  | request  (reply : Nat) (x : Option Machine.Outst)
  deriving DecidableEq, Repr, Inhabited

/-- The commands, one per row of spec/opcode_table.json. Those with operands come first: compiled code
can build at most 245 constructors that carry data. -/
inductive Instr
  /-- A WR to the load window under the boot ROM stores image bytes and may make its sender the loader. (R20) -/
  | loadWindowWrite (h : Hdr) (m : MemExt) (data : List Line)
  /-- FW_ACTIVATE under the boot ROM checks the header form and starts verification of the loaded image. (R21) -/
  | bootFwActivate (q : Req) (p : FwP)
  /-- Returns the device state summary of Table 2.6. (R23) -/
  | deviceQuery (q : Req)
  /-- Changes the pool profile and applies its credit, share, encryption and policing effects. (R18) -/
  | deviceConfigureProfile (q : Req) (p : DevCfgP)
  /-- Sets WEDGE_RESTART_MS. (R36) -/
  | deviceConfigureWedge (q : Req) (p : DevCfgP)
  /-- Writes the device attestation report and changes nothing else. (R28) -/
  | driverAttachAttestOnly (q : Req) (p : AttachP)
  /-- Writes the report, makes the sender the attached driver, starts the driver lease and sets the event endpoint. (R28) -/
  | driverAttachAdopt (q : Req) (p : AttachP)
  /-- Writes the report, answers ST_OK and performs a device-scope BR_RESET. (R28) -/
  | driverAttachReset (q : Req) (p : AttachP)
  /-- Ends the driver lease of the attached driver and enters unattended operation. (R28) -/
  | driverDetach (q : Req)
  /-- Copies an image into the staging slot and checks it. (R31) -/
  | fwStage (q : Req) (p : FwP)
  /-- Starts live activation of the staged image on hub cores 4 to 7, or defers it during an emergency. (R33) -/
  | fwActivate (q : Req) (p : FwP)
  /-- Clears a pending AUTO activation. (R31) -/
  | fwActivateCancel (q : Req) (p : FwP)
  /-- Returns the running and staged firmware state. (R31) -/
  | fwStatus (q : Req)
  /-- Returns the bedrock status of Table 2.13. (R37) -/
  | brStatus (q : Req)
  /-- Dumps hub state to the crash-dump area, overwriting an uncleared dump. (R38) -/
  | brDump (q : Req) (p : BrP)
  /-- Returns 128 bytes of the crash-dump area at OFFSET. (R38) -/
  | brDumpRead (q : Req) (p : BrP)
  /-- Zeroes the crash-dump area and clears DUMP_VALID. (R38) -/
  | brDumpClear (q : Req) (p : BrP)
  /-- Destroys every key, aborts uncommitted commands, takes encrypted ports down and enters the zeroised phase. (R38) -/
  | brZeroise (q : Req) (p : BrP)
  /-- The active sends PROMOTE on both pair ports and fences itself. (R317) -/
  | brFailoverOut (q : Req)
  /-- Stops and restarts the hub cores without a dump. (R36) -/
  | brResetHub (q : Req) (p : BrP)
  /-- Answers and then performs a warm reset of the device. (R38) -/
  | brResetDevice (q : Req) (p : BrP)
  /-- A stack, channel or staging controller accepts written lines, making them visible and releasing waiting answers. (R46) -/
  | lineWriteAccepted (job : Nat)
  /-- A controller returns a line, which passes the poison, decode, metadata and tag steps. (R291) -/
  | lineRead (job : Nat) (flip : Stored)
  /-- The row's other lines arrive and the candidate is served, left unformed or poisoned. (R292) -/
  | reconstructionDone (job : Nat)
  /-- A request not accepted by its memory controller within 10 ms of admission is discarded and answered ST_ABORTED. (R62) -/
  | requestStaleDiscard (job : Nat)
  /-- Allocates new frames for an extent and starts the copy as deferrable work. (R53) -/
  | extentMigrate (q : Req) (p : MigrateP) (hint : Nat)
  /-- Ends a running migration at the next tile boundary and frees the new frames. (R56) -/
  | extentMigrateCancel (q : Req) (p : MigrateP)
  /-- The migration copy completes and EV_MIGRATE_DONE is raised. (R54) -/
  | migrateCopyDone (extent : Nat)
  /-- After the switch, the last request on the old frames completes and they return to the free pool. (R55) -/
  | migrateOldFramesFree (extent : Nat)
  /-- Creates a deckle with its key, control extent and initial leases. (R59) -/
  | deckleCreate (q : Req) (p : DeckleCreateP) (hint : Nat)
  /-- Returns a deckle's state, usage and member endpoints. (R357) -/
  | deckleQuery (q : Req) (p : DeckleP)
  /-- Replaces the four quotas of a tenant deckle. (R60) -/
  | deckleQuota (q : Req) (p : QuotaP)
  /-- Commits DISSOLVING, revokes every extent and stops all the deckle's work. (R334) -/
  | deckleDissolve (q : Req) (p : DeckleP)
  /-- The last drain ends, the key is destroyed, the identifier becomes FREE and EV_DECKLE_DISSOLVED is raised. (R334) -/
  | dissolveComplete (deckle : Nat)
  /-- Checks quota, places an extent by its policy and sets its generation, starting zeroing when needed. (R63) -/
  | extentAlloc (q : Req) (p : AllocP) (hint : Nat)
  /-- The last zero line is written, the extent becomes ALLOCATED and EXTENT_ALLOC is answered. (R64) -/
  | extentZeroDone (extent : Nat)
  /-- Starts revocation of an extent with the default timeout. (R69) -/
  | extentFree (q : Req) (p : RevokeP)
  /-- Starts revocation of an extent with the named REVOKE_TIMEOUT. (R69) -/
  | extentRevoke (q : Req) (p : RevokeP)
  /-- No admitted request or tile remains; granules are retired, returned and the revoking command answered. (R69) -/
  | revokeDrainEnd (extent : Nat)
  /-- REVOKE_TIMEOUT passes after the revocation point and the drain ends with remaining requests discarded. (R69) -/
  | revokeTimeout (extent : Nat)
  /-- A retired granule becomes allocatable once 11 ms have passed since it last held its generation. (R62) -/
  | granuleReturn (tier : Tier) (granule : Nat)
  /-- Creates or changes a lease, renewing it into HELD. (R66) -/
  | leaseGrant (q : Req) (p : LeaseP)
  /-- LEASE_GRANT with DURATION_MS 0 releases a lease, running reclaim without grace. (R66) -/
  | leaseRelease (q : Req) (p : LeaseP)
  /-- Returns a lease's state and deadline. (R66) -/
  | leaseQuery (q : Req) (p : LeaseP)
  /-- A bypass LEASE message stamped by the port die renews one lease. (R68) -/
  | lease (port ep deckle stamp rsvd : Nat)
  /-- A HELD lease's deadline passes with no LEASE message and it enters GRACE. (R66) -/
  | leaseDeadline (deckle ep : Nat)
  /-- Grace ends, the lease becomes EXPIRED and reclaim starts. (R67) -/
  | leaseGraceEnd (deckle ep : Nat)
  /-- All reclaim revocations complete and EV_LEASE_EXPIRED is raised; a release goes to NONE and is answered. (R67) -/
  | leaseReclaimDone (deckle ep : Nat)
  /-- Creates a region with version 0. (R73) -/
  | regionCreate (q : Req) (p : RegionP)
  /-- Replaces a region's retention values. (R73) -/
  | regionRetain (q : Req) (p : RegionP)
  /-- Deletes a region, discarding drafts and retiring versions as they are released. (R73) -/
  | regionDelete (q : Req) (p : RegionP)
  /-- Creates a draft on a base version and allocates its COPY, ZERO and RAW segment extents. (R74) -/
  | regionDraftOpen (q : Req) (p : DraftP) (hint : Nat)
  /-- Every COPY and ZERO segment of a new draft is complete and REGION_DRAFT OPEN is answered. (R74) -/
  | draftCopyDone (draft : Nat)
  /-- Moves a draft's base to the current version and repoints its INHERIT segments. (R75) -/
  | regionDraftRebase (q : Req) (p : DraftP)
  /-- Revokes a draft's new extents and ends the draft. (R75) -/
  | regionDraftDiscard (q : Req) (p : DraftP)
  /-- Checks a publish and seals the draft. (R76) -/
  | regionPublish (q : Req) (p : PublishP)
  /-- No write on the sealed draft remains; it is committed as version BASE + 1 and answered. (R77) -/
  | publishCommit (draft : Nat)
  /-- Creates a version handle for the requesting endpoint. (R79) -/
  | regionOpen (q : Req) (p : OpenP)
  /-- Moves a handle atomically to another version. (R79) -/
  | regionReopen (q : Req) (p : OpenP)
  /-- Writes the segment entries of a version or draft. (R79) -/
  | regionList (q : Req) (p : OpenP)
  /-- Releases a version handle. (R79) -/
  | regionClose (q : Req) (p : OpenP)
  /-- Gives a deckle read access to a region. (R82) -/
  | regionGrant (q : Req) (p : GrantP)
  /-- Stops a grantee's new opens and optionally closes its handles. (R82) -/
  | regionWithdraw (q : Req) (p : GrantP)
  /-- Creates a lode in a tier-1 extent, UP with no members. (R83) -/
  | lodeCreate (q : Req) (p : LodeP)
  /-- Deletes a lode with no members. (R83) -/
  | lodeDelete (q : Req) (p : LodeP)
  /-- Joins an endpoint to a lode domain as a caching agent or uncached member. (R84) -/
  | lodeJoin (q : Req) (p : LodeMemP)
  /-- Removes a member, recalling a caching agent's lines. (R84) -/
  | lodeLeave (q : Req) (p : LodeMemP)
  /-- A leaving agent's recall completes and LODE_LEAVE is answered. (R84) -/
  | lodeRecallDone (lode ep : Nat)
  /-- A caching agent's shared read of a lode line is served by the directory. (R86) -/
  | rds (h : Hdr) (x : LodeExt)
  /-- A caching agent's exclusive read of a lode line invalidates or forwards as the directory rules. (R86) -/
  | rdx (h : Hdr) (x : LodeExt)
  /-- A caching agent writes back a lode line. (R86) -/
  | wb (h : Hdr) (x : LodeExt) (data : Line)
  /-- An agent's answer to INV or FWD is received, delivering data as LGRANT and completing the home's flow. (R244) -/
  | snpRsp (h : Hdr) (x : LodeExt) (data : Line)
  /-- A snoop is not answered within SNOOP_TIMEOUT and the lode domain goes down. (R88) -/
  | lodeSnoopTimeout (lode ep : Nat)
  /-- Copies a down lode's memory and stale bitmap to a destination. (R90) -/
  | lodeSalvageCopy (q : Req) (p : SalvageP)
  /-- Copies a down lode and then brings it UP empty. (R90) -/
  | lodeSalvageCopyRearm (q : Req) (p : SalvageP)
  /-- Brings a down lode UP with no members and every line UNCACHED. (R90) -/
  | lodeSalvageRearm (q : Req) (p : SalvageP)
  /-- Removes a down lode. (R90) -/
  | lodeSalvageDelete (q : Req) (p : SalvageP)
  /-- A salvage copy completes and LODE_SALVAGE is answered. (R90) -/
  | salvageCopyDone (lode : Nat)
  /-- Builds and checks a new device copy of a deckle's tables and commits it. (R99) -/
  | tableSync (q : Req) (p : SyncP) (hint : Nat)
  /-- Every translation unit has switched to the new copy; TABLE_SYNC is answered and old pages freed. (R101) -/
  | tableSyncSwitched (deckle : Nat)
  /-- Returns the digest of the device copy and optionally the open fault records. (R103) -/
  | tableReadback (q : Req) (p : ReadbackP)
  /-- A table walk for a tile completes; the tile starts or a fault record opens or is joined. (R104) -/
  | translationWalkDone (core unit slot : Nat) (couch : Bool)
  /-- Closes a fault record and retranslates every waiter's tile. (R107) -/
  | faultResume (q : Req) (p : FaultP)
  /-- Closes a fault record and ends every waiter's work with ST_FAULT. (R107) -/
  | faultAbort (q : Req) (p : FaultP)
  /-- A record open for 1 s of unwedged time is aborted by the device. (R107) -/
  | faultAutoAbort (fault : Nat)
  /-- An island stretches its clock on supply droop. (R11) -/
  | clockDroopStretch (island : Nat)
  /-- The core scheduler starts a queued launch when its engines and windows are free, zeroising on a change of deckle. (R121) -/
  | launchStart (work : Nat)
  /-- An engine issues one bundle, its four slots in one cycle. (R130) -/
  | bundleIssue (core engine : Nat)
  /-- The last engine arrives and every engine of the barrier is released. (R133) -/
  | barrierRelease (work core : Nat) (gang : Bool)
  /-- A stream tile lands whole in the engine store or at its destination. (R138) -/
  | streamTileLand (core engine slot : Nat)
  /-- A stream slot's last tile lands or becomes visible, releasing stalls on it. (R139) -/
  | streamSlotComplete (core engine slot : Nat)
  /-- Verifies a kernel image and loads it into every engine. (R140) -/
  | kernelLoad (q : Req) (p : KernelP)
  /-- Refuses new launches of a handle and frees its code after its last launch. (R142) -/
  | kernelUnload (q : Req) (p : KernelP)
  /-- A LAUNCH work message is checked, admitted and queued. (R143) -/
  | launch (h : Hdr) (b : LaunchB)
  /-- Cancels queued or running work matched by CPL_EP and CTAG. (R148) -/
  | workCancel (h : Hdr) (b : CancelB)
  /-- A launch, step or query reaches its time cap and stops with ST_KILLED. (R147) -/
  | workTimeCap (work : Nat)
  /-- The last engine ends and the launch completion is committed and sent. (R146) -/
  | launchComplete (work : Nat)
  /-- Sets context spill windows and a deckle's MAX_SEQ. (R153) -/
  | attnPoolSet (q : Req) (p : PoolSetP) (hint : Nat)
  /-- Creates a sequence context and answers its handle. (R154) -/
  | attnOpen (h : Hdr) (b : AttnOpenB)
  /-- Appends tokens to one layer of a sequence. (R156) -/
  | attnAppend (h : Hdr) (b : AttnAppendB)
  /-- An append completes and the context counters advance. (R155) -/
  | attnAppendDone (work : Nat)
  /-- Starts an attention step over the attended set. (R158) -/
  | attnStep (h : Hdr) (b : AttnStepB)
  /-- A step's output area is complete and its completion sent. (R164) -/
  | attnStepComplete (work : Nat)
  /-- Frees a sequence context. (R156) -/
  | attnClose (h : Hdr) (b : AttnCloseB)
  /-- Sets a sequence's LENGTH to NEW_LENGTH. (R156) -/
  | attnTruncate (h : Hdr) (b : AttnCloseB)
  /-- Reports a sequence's counters. (R156) -/
  | attnQuery (h : Hdr) (b : AttnCloseB)
  /-- Defines a model map and pins its versions. (R169) -/
  | mapDefine (q : Req) (p : MapP)
  /-- Rebinds a live map atomically to new pins and formats. (R171) -/
  | mapReplace (q : Req) (p : MapP)
  /-- Retires a map, ending its adapters and releasing pins. (R171) -/
  | mapRetire (q : Req) (p : MapRetireP)
  /-- Registers an adapter on a map and pins its version. (R172) -/
  | adapterRegister (q : Req) (p : AdapterP)
  /-- Ends an adapter registration. (R172) -/
  | adapterUnregister (q : Req) (p : AdapterP)
  /-- Makes every part of an adapter resident and keeps it so. (R172) -/
  | adapterPin (q : Req) (p : AdapterP)
  /-- Releases an adapter's pinned parts. (R172) -/
  | adapterUnpin (q : Req) (p : AdapterP)
  /-- An adapter part load into the cache completes, releasing waiting forming work. (R173) -/
  | adapterPartLoadDone (mapUid adapter layer tensor : Nat)
  /-- A formed read request is checked and its FORM program queued on the home core. (R177) -/
  | rdf (h : Hdr) (f : FormProg)
  /-- A formed tile is complete and its bytes are emitted. (R176) -/
  | formTileFormed (work : Nat)
  /-- Defines an index and pins its version. (R184) -/
  | indexDefine (q : Req) (p : IndexP)
  /-- Rebinds an index atomically. (R185) -/
  | indexReplace (q : Req) (p : IndexP)
  /-- Retires an index. (R185) -/
  | indexRetire (q : Req) (p : IndexP)
  /-- A retrieval query is checked and started on its cores. (R187) -/
  | topkQuery (h : Hdr) (b : TopkB)
  /-- A query's output area is complete and its completion sent. (R191) -/
  | topkComplete (work : Nat)
  /-- A COUCH SUBMIT is checked and its chain queued on a channel. (R196) -/
  | couchSubmit (h : Hdr) (b : CouchB)
  /-- Stops the sender deckle's running chain and discards its queued chains on a channel. (R196) -/
  | couchAbort (h : Hdr) (b : CouchB)
  /-- A free channel takes its next chain. (R195) -/
  | couchChainStart (core channel : Nat)
  /-- A descriptor is read and checked before any byte moves. (R198) -/
  | couchDescStart (core channel : Nat)
  /-- A couch tile lands or is answered, letting the next tile or descriptor proceed. (R199) -/
  | couchTileDone (core channel tile : Nat)
  /-- A tile has no answer within 1 ms and is treated as a transient error. (R202) -/
  | couchTileTimeout (core channel tile : Nat)
  /-- The retry back-off expires and the failing tile is reissued. (R202) -/
  | couchRetry (core channel : Nat)
  /-- At a flit boundary the port chooses and sends its next flit. (R258) -/
  | flitTransmit (port : Nat)
  /-- A regular DATA flit is received and accepted, discarded as duplicate or out of order, or NAKed. (R219) -/
  | dataFlitReceive (port : Nat) (f : DataFlit)
  /-- An IDLE flit is checked and discarded. (R212) -/
  | idleFlitReceive (port : Nat) (good : Bool)
  /-- A bypass flit is received, its sequence and acknowledgement fields processed. (R223) -/
  | bypassFlitReceive (port : Nat) (b : BypassHdr) (good : Bool)
  /-- A CREDIT message returns credits to the transmitter. (R214) -/
  | credit (port : Nat) (counts : List Nat)
  /-- The partner advertises its initial credits after full training. (R214) -/
  | creditInit (port : Nat) (counts : List Nat)
  /-- A RETRAIN message starts a fast retrain. (R227) -/
  | retrain (port linkId width cause rsvd : Nat)
  /-- The partner's expected sequence numbers are received after a retrain and replay proceeds. (R229) -/
  | resume (port nextMain nextBypass rsvd : Nat)
  /-- Training identity, lanes, width and encryption parameters are received. (R226) -/
  | paramA (port : Nat) (p : ParamA)
  /-- Training timer parameters are received and negotiated. (R224) -/
  | paramB (port ackTimer replayLimit downWindow rsvd : Nat)
  /-- A complete key-exchange message is received and the link keys derived. (R233) -/
  | keyx (port : Nat) (m : KeyxMsg)
  /-- KEYX does not complete within 10 ms in open mode and the port goes down with CAUSE 3. (R232) -/
  | keyxTimeout (port : Nat)
  /-- ACK_TIMER passes since the oldest unacknowledged accepted flit and an acknowledgement is due. (R220) -/
  | ackTimerExpire (port : Nat)
  /-- NAK_TIMER passes and the receiver may NAK again. (R221) -/
  | nakTimerExpire (port : Nat) (bypass : Bool)
  /-- No acknowledgement advances for REPLAY_TIMER and the transmitter replays from the oldest stored flit. (R222) -/
  | replayTimerExpire (port : Nat) (bypass : Bool)
  /-- 100 ns pass with credits owed and a CREDIT message is sent. (R218) -/
  | creditReturnTimer (port : Nat)
  /-- Some active lanes lose signal for 1 µs and a fast retrain starts. (R227) -/
  | laneSignalLoss (port lanes : Nat)
  /-- A lane's uncorrectable codewords exceed 1 in 10^6 over 1 ms and a fast retrain starts. (R227) -/
  | laneErrorRate (port lane : Nat)
  /-- Every active lane loses signal for 1 µs and the link goes down. (R227) -/
  | allLanesSignalLoss (port : Nat)
  /-- 10 ms after going down the port enters DETECT. (R227) -/
  | linkDownWaitExpire (port : Nat)
  /-- Every 10 ms a port in DETECT checks for the partner's signal and begins training when found. (R227) -/
  | detectPoll (port : Nat) (signal : Bool)
  /-- Transmitter equalisation ends and ALIGN begins. (R226) -/
  | equaliseDone (port : Nat)
  /-- Lock, deskew and lane test end, excluding failed lanes, and PARAM begins. (R226) -/
  | alignDone (port passed : Nat)
  /-- A training state exceeds its bound or identities conflict and the link goes down. (R227) -/
  | trainingFail (port : Nat)
  /-- 1 ms after ACTIVE with no partner claim, the port raises EV_READY. (R242) -/
  | peerClaimTimeout (port : Nat)
  /-- Every 5 ms the device sends LEASE for each deckle named as a REMOTE_DECKLE on the port. (R242) -/
  | deviceEndpointLeaseTick (port : Nat)
  /-- A read request is admitted, translated and served. (R239) -/
  | rd (h : Hdr) (m : MemExt)
  /-- A remote device's version-offset read is checked and served under R80. (R241) -/
  | rdVersion (h : Hdr) (m : MemExt)
  /-- A write request is admitted, translated and applied. (R239) -/
  | wr (h : Hdr) (m : MemExt) (data : List Line)
  /-- An atomic request executes at home and returns the old value. (R240) -/
  | atom (h : Hdr) (m : MemExt) (a b : BitVec 128)
  /-- A FENCE is received and waits for its endpoint's earlier requests. (R251) -/
  | fence (h : Hdr)
  /-- Every earlier request of the endpoint is answered and the FENCE is answered. (R251) -/
  | fenceDone (ep tag : Nat)
  /-- An answer to the device's own request or push tile is received and matched by TAG. (R244) -/
  | rsp (h : Hdr) (status : Status) (last : Bool) (data : List Line)
  /-- Assigns or rebinds an endpoint identifier. (R236) -/
  | epClaim (port vc identity rsvd : Nat)
  /-- Frees an endpoint identifier that holds no live lease. (R237) -/
  | epRelease (h : Hdr)
  /-- The remote device's answer to the device's own EP_CLAIM is received. (R242) -/
  | epAssign (port ep : Nat) (status : Status)
  /-- A VC2 laid write is served unanswered under the laid class, or counted as UNSCHEDULED. (R249) -/
  | laidInboundWr (h : Hdr) (m : MemExt) (data : List Line)
  /-- Maps a deckle's traffic classes to a queue. (R262) -/
  | queueMapMap (q : Req) (p : QueueMapP)
  /-- Sets a weighted queue's weight. (R262) -/
  | queueMapWeight (q : Req) (p : QueueMapP)
  /-- Sets a shaper bucket pair. (R264) -/
  | shaperSet (q : Req) (p : BucketP)
  /-- Sets a policer bucket pair. (R264) -/
  | policerSet (q : Req) (p : BucketP)
  /-- Sets a deckle's energy buckets. (R268) -/
  | energySet (q : Req) (p : EnergyP)
  /-- Returns energy counters and bucket state. (R271) -/
  | energyRead (q : Req) (p : EnergyReadP)
  /-- Sets the power cap, shedding laid entries if forced. (R273) -/
  | powerCap (q : Req) (p : PowerCapP)
  /-- Tokens accrue and the head of a deckle's energy queue is admitted. (R269) -/
  | energyQueueRelease (deckle : Nat)
  /-- Every 100 µs the hub attributes measured energy to deckles and debits buckets. (R270) -/
  | ledgerTick (measuredNj staticNj : Nat)
  /-- Every 1 s the ledger coefficients are refined. (R270) -/
  | ledgerRefine (coef : List Nat)
  /-- Every 1 ms the power loop sets refill rates, clock ceiling and emergency state. (R272) -/
  | powerLoopTick (powerW staticW deferW : Nat)
  /-- Package power above 1,650 W for 2 ms engages the hardware clock floor and an emergency. (R274) -/
  | powerComparator (powerW : Nat)
  /-- A sensor at or above 105 °C engages the hardware clock floor and an emergency. (R274) -/
  | thermalComparator (sensor value : Nat)
  /-- Every 10 ms each core's engine clock step is set from its hottest sensor. (R276) -/
  | thermalLoopTick (sensors : List Nat)
  /-- An upstream SYNC is received and domain time slews or steps. (R280) -/
  | timeSync (port hops ns frac lateNs : Nat)
  /-- A peer-delay request is answered with PDELAY_RESP. (R279) -/
  | pdelayReq (port : Nat)
  /-- A peer-delay response yields a link delay measurement. (R279) -/
  | pdelayResp (port turnaround roundTrip : Nat)
  /-- Returns the domain time state. (R281) -/
  | timeStatus (q : Req)
  /-- Sets the device's time role and upstream choice. (R278) -/
  | timeMasterSet (q : Req) (p : TimeMasterP)
  /-- Checks a laid table image and stores it in a slot. (R284) -/
  | laidLoad (q : Req) (p : LaidLoadP)
  /-- Schedules a loaded table to begin at START_NS. (R285) -/
  | laidActivate (q : Req) (p : LaidActP)
  /-- Ends the active table at a cycle boundary. (R285) -/
  | laidStop (q : Req) (p : LaidActP)
  /-- Clears a pending activation. (R285) -/
  | laidCancel (q : Req) (p : LaidActP)
  /-- Returns laid table state and optionally entry records. (R285) -/
  | laidStatus (q : Req) (p : LaidStatusP)
  /-- At slot minus the lead the executor starts source reads or forming. (R282) -/
  | laidLead (entry : Nat)
  /-- A PUSH entry's slot begins and its transfer departs on VC2. (R282) -/
  | laidSlot (entry : Nat)
  /-- At each tile boundary the executor projects lateness and may send SLIP or stop. (R287) -/
  | laidTileBoundary (entry : Nat)
  /-- Starts scrubbing a range as deferrable work. (R301) -/
  | scrub (q : Req) (p : ScrubP)
  /-- A scrub finishes its range and is answered. (R301) -/
  | scrubDone (scrub : Nat)
  /-- Arms a unit to flip bits of its next matching line write. (R302) -/
  | inject (q : Req) (p : InjectP)
  /-- Disarms a unit. (R302) -/
  | injectCancel (q : Req) (p : InjectP)
  /-- Sets correctable-error and rebuild parameters for every unit. (R296) -/
  | ceConfigSet (q : Req) (p : CeP)
  /-- Fails out a named stack or channel. (R297) -/
  | ceConfigFailOut (q : Req) (p : CeP)
  /-- Returns rebuild and seal state per group. (R300) -/
  | rebuildStatus (q : Req)
  /-- Returns poisoned lines of a deckle or extent. (R295) -/
  | poisonList (q : Req) (p : PoisonP)
  /-- A controller loses training with its unit for 10 ms and the unit is failed out. (R297) -/
  | stackTrainingLost (group unit : Nat)
  /-- The rebuild reaches the last stripe, the position moves to the spare and EV_REBUILD_DONE is raised. (R299) -/
  | rebuildDone (group : Nat)
  /-- A group's seal pass completes and the group is sealed. (R303) -/
  | sealDone (group : Nat)
  /-- Arms a device to become a standby. (R305) -/
  | pairArm (q : Req) (p : PairP)
  /-- Forms a pair with an armed partner and starts the initial sync. (R305) -/
  | pairForm (q : Req) (p : PairP)
  /-- Both devices leave the pair. (R305) -/
  | pairDissolve (q : Req) (p : PairP)
  /-- Returns pair state and the GUARANTEE bit. (R322) -/
  | pairStatus (q : Req)
  /-- Returns the standby's health report. (R313) -/
  | healthReport (q : Req)
  /-- The active drains and hands over to the standby. (R320) -/
  | failoverHandover (q : Req) (p : FailoverP)
  /-- Promotes a detached or RED standby. (R320) -/
  | failoverForce (q : Req) (p : FailoverP)
  /-- Registers the pair's witness endpoints. (R314) -/
  | witnessSet (q : Req) (p : WitnessP)
  /-- A witness reports whether it has lost the active. (R314) -/
  | witnessReport (q : Req) (p : WitnessP)
  /-- The standby receives mirrored lines and applies them in MSEQ order. (R309) -/
  | mirData (port : Nat) (x : MirExt) (lines : List MirLine)
  /-- The standby receives a metadata record and applies it in MSEQ order. (R309) -/
  | mirMeta (port : Nat) (x : MirExt) (r : MetaRec)
  /-- The active receives an acknowledgement, releasing waiting answers and retention space. (R310) -/
  | mirAck (port mseq : Nat)
  /-- A heartbeat is received, checking TERM, PROMOTE and SOLO. (R319) -/
  | mirHb (port : Nat) (x : MirExt)
  /-- The active receives a standby health report and may raise EV_STANDBY_GRADE. (R313) -/
  | mirHealth (port : Nat) (r : Health)
  /-- The partner reads one line for a fetch and answers MIR_LINE. (R311) -/
  | mirFetch (port : Nat) (x : MirExt) (deckle gen : Nat)
  /-- A fetched partner line arrives and repairs a line or lets it be poisoned. (R311) -/
  | mirLine (port : Nat) (x : MirExt) (status : Status) (line : MirLine)
  /-- A pair control message for arm, form, promote or resync is received. (R320) -/
  | mirCtrl (port : Nat) (kind : MirCtrlKind) (x : MirExt) (info : PartnerInfo)
  /-- Every 100 ms the standby grades itself and sends its report. (R313) -/
  | healthReportTick
  /-- A periodic standby self-test of Table 18.4 runs and marks failures. (R313) -/
  | standbySelfTest (t : SelfTest) (pass : Bool)
  /-- Writes a signed attestation report. (R336) -/
  | attest (q : Req) (p : AttestP)
  /-- Generates a new deckle memory key epoch and starts the re-encryption sweep. (R331) -/
  | keyRotateDeckleKey (q : Req) (p : KeyP)
  /-- The sweep ends, the old key is destroyed and EV_KEY_ROTATED is raised. (R331) -/
  | keySweepDone (deckle : Nat)
  /-- Starts KEYX at once on the named ports. (R329) -/
  | linkRekey (q : Req) (p : KeyP)
  /-- Adds a link identity and key to the trust table. (R329) -/
  | trustAdd (q : Req) (p : KeyP)
  /-- Removes a link identity from the trust table. (R329) -/
  | trustRemove (q : Req) (p : KeyP)
  /-- Sets STRICT. (R329) -/
  | trustPolicy (q : Req) (p : KeyP)
  /-- Registers the operator kernel key in bulk mode. (R328) -/
  | operatorKernelKey (q : Req) (p : KeyP)
  /-- Raises the fused minimum security version to the running image's. (R327) -/
  | raiseSec (q : Req) (p : KeyP)
  /-- Opens an operator debug session and raises EV_DEBUG_OPENED. (R332) -/
  | debugOpen (q : Req) (p : DebugP)
  /-- Reads a debug space into the result area. (R333) -/
  | debugRead (q : Req) (p : DebugP)
  /-- Closes the debug session. (R332) -/
  | debugClose (q : Req)
  /-- COLD_RST_N low or PG_AON deasserted resets every part of the device. (R345) -/
  | coldReset (pgAonLost : Bool)
  /-- A sensor reaches 115 °C and the orderly power-down runs. (R347) -/
  | thermalTrip (sensor value : Nat)
  /-- A rail out of range, a PG deassertion or VSET_ALERT_N starts the orderly power-down. (R347) -/
  | supplyTrip (cause rail value : Nat)
  /-- A core passes its self-test and becomes ready. (R353) -/
  | coreReady (core : Nat)
  /-- Tier 1 becomes ready, possibly degraded or filled, and sealing begins in native mode. (R353) -/
  | tier1Ready (untrained : List Nat)
  /-- A far die finishes training, is checked against population rules and becomes ready. (R41) -/
  | farDieReady (die : Nat) (untrained : List Nat)
  /-- Assigns the I3C dynamic address. (R350) -/
  | setdasa (addr : Nat)
  /-- Samples or preloads the boundary register. (R351) -/
  | samplePreload (shiftIn : Nat)
  /-- Opens a debug session through the TAP and captures its status. (R332) -/
  | dbgOpen (timeoutMs : Nat)
  /-- Sends an operator-mailbox request through the TAP and captures the previous response. (R351) -/
  | dbgMbx (c : Instr)
  /-- The board regulator acknowledges a VDD_ENGn setting on the VSET bus, letting the device raise a core's clock step onto the raised rail. (R342) -/
  | vsetAck (die : Nat)
  /-- An assembly buffer open for 4 µs is written as one partial-stripe write. (R49) -/
  | asmWindowExpire (stripe : Nat)
  /-- Under a wedge, power above POWER_CAP for 2 ms engages the hardware clock floor. (R277) -/
  | wedgePowerFloor (powerW : Nat)
  /-- Every LEAK_MS a unit's correctable-error bucket falls by one. (R296) -/
  | ceBucketLeak (group unit : Nat)
  /-- The device sees the partner's ALIGN pattern on its lanes and follows into a fast retrain within 200 ns. (R227) -/
  | alignPatternSeen (port : Nat)
  /-- Boot ROM verification ends: the image starts and FW_ACTIVATE is answered, or the window reopens with the failure status. (R21) -/
  | bootImageVerified
  /-- The driver lease expires, EV_DRIVER_LOST is raised and the device enters unattended operation. (R29) -/
  | driverLeaseLapse
  /-- The new image reaches its switch point, takes all duties and answers FW_ACTIVATE. (R33) -/
  | fwSwitchPoint
  /-- The switch point is not reached within 100 ms, so the old image resumes and FW_ACTIVATE returns ST_ABORTED. (R34) -/
  | fwActivateTimeout
  /-- The watchdog is not refreshed for 100 ms; the bedrock controller stops the hub cores, freezes timers and starts the dump. (R35) -/
  | hubWedge
  /-- The crash dump completes, EV_HUB_WEDGED is raised and ALERT_N is asserted. (R35) -/
  | wedgeDumpDone
  /-- WEDGE_RESTART_MS after the dump, the hub cores restart the running image. (R36) -/
  | wedgeRestart
  /-- The restarted hub is ready, answers commands outstanding at the stop and resumes frozen timers. (R36) -/
  | hubRestartDone
  /-- Every 1 ms the hub retires versions that are no longer retained and revokes their unreferenced extents. (R81) -/
  | retentionTick
  /-- Every 1 ms each ACTIVE port sends SYNC and PDELAY_REQ. (R279) -/
  | timeTick
  /-- 3 ms pass with no accepted SYNC; the follower enters HOLDOVER and raises EV_TIME_LOST. (R281) -/
  | holdoverEntry
  /-- A PPS master aligns domain time to the TIME_PPS_IN edge. (R280) -/
  | timePpsIn
  /-- At each whole second of domain time TIME_PPS_OUT pulses. (R280) -/
  | ppsOutSecond
  /-- START_NS arrives; the new table's cycle 0 begins and the old table ends. (R285) -/
  | laidTableStart
  /-- A cycle boundary removes, resumes or stops entries and tables. (R288) -/
  | laidCycleBoundary
  /-- The firmware raises events and poison entries from the hardware integrity log in order. (R304) -/
  | integrityLogDrain
  /-- No FORM arrives within 10 s and the armed device returns to no pair. (R305) -/
  | pairArmTimeout
  /-- The handover drain ends and PROMOTE is sent with the final MSEQ. (R320) -/
  | handoverDrainEnd
  /-- The initial sync or resync copy ends, the pair is IN_SYNC and EV_RESYNC_DONE is raised. (R308) -/
  | syncCopyDone
  /-- 200 ns pass with an acknowledgement owed and the standby sends MIR_ACK. (R310) -/
  | mirAckTimer
  /-- Every 250 µs port die 3 sends MIR_HB on each trained pair port. (R312) -/
  | mirHbTick
  /-- No good heartbeat for 5 ms: the active goes solo or fences, and the standby may promote. (R315) -/
  | heartbeatLost
  /-- No MIR_ACK advances for 10 ms with records unacknowledged and the active goes solo or fences. (R315) -/
  | mirrorAckTimeout
  /-- A promotion completes with the outcomes of Table 18.7 and raises EV_PROMOTED. (R318) -/
  | promotionComplete
  /-- 300 ms pass with no report and the active raises EV_STANDBY_GRADE. (R313) -/
  | healthReportTimeout
  /-- TIMEOUT_MS after opening, the debug session closes. (R332) -/
  | debugSessionTimeout
  /-- COLD_RST_N rises and the readiness sequence begins. (R353) -/
  | coldResetRelease
  /-- WARM_RST_N low resets everything except the analogue die's kept state. (R345) -/
  | warmReset
  /-- WARM_RST_N rises and the readiness sequence begins. (R353) -/
  | warmResetRelease
  /-- The analogue PLLs lock and domain time starts counting. (R353) -/
  | pllLock
  /-- Staging SRAM is filled with blank lines and becomes ready. (R353) -/
  | stagingReady
  /-- The bedrock controller and I3C become ready. (R353) -/
  | bedrockReady
  /-- The hub becomes ready and raises EV_READY for every function already ready. (R354) -/
  | hubReady
  /-- The security block becomes ready and pending KEYX starts. (R353) -/
  | securityReady
  /-- A private read returns the oldest waiting bedrock response, or is NACKed. (R350) -/
  | i3cPrivateRead
  /-- Test-Logic-Reset selects IDCODE. (R351) -/
  | tapReset
  /-- Drives the boundary register while HEALTH_OK is low, otherwise acts as BYPASS. (R351) -/
  | extest
  /-- Selects the 32-bit IDCODE register. (R351) -/
  | idcode
  /-- Holds boundary outputs with bypass selected while HEALTH_OK is low. (R351) -/
  | clamp
  /-- Places outputs in high impedance with bypass selected. (R351) -/
  | highz
  /-- Closes the debug session through the TAP and captures its status. (R332) -/
  | dbgClose
  /-- Selects the 1-bit bypass register. (R351) -/
  | bypass
  deriving DecidableEq, Repr, Inhabited

end Sys2Proof
end

