-- ==== Sys2Proof/Decode.lean ====
section
/-! DEFINITION. The command a word spells by the bits of spec/opcode_table.json. No row of that
table has a field or a bit: commands reach the device as messages, packets, flits, pins and
events of its own, so no word spells one. -/

namespace Sys2Proof

/-- The command that `nbits` bits `w` spell by the opcode table: none, whatever the word. -/
def decodeTableWord (_nbits _w : Nat) : Option Instr := none

end Sys2Proof
end

