-- ==== Sys2Proof/Machine/Bits.lean ====
section
/-! DEFINITION. Bit fields and byte order (R6): packing the fields of a structure into a number
with its first field at bit 0, reading fields back, and moving bytes in and out of lines. -/

namespace Sys2Proof.Machine

/-- Packs fields given as width and value, the first at bit 0 (R6). A value wider than its field
is cut to it. -/
def pack : List (Nat × Nat) → Nat
  | [] => 0
  | (w, v) :: r => v % 2 ^ w + 2 ^ w * pack r

/-- Bits `hi:lo` of a number. -/
def bitsOf (x hi lo : Nat) : Nat := (x >>> lo) % 2 ^ (hi + 1 - lo)

/-- Bit `i` of a number. -/
def bitOf (x i : Nat) : Bool := x.testBit i

/-- A number cut off at the largest value of `w` bits: counters that saturate. -/
def sat (w x : Nat) : Nat := min x (2 ^ w - 1)

/-- An integer in two's complement of `w` bits, saturating at both ends. -/
def satInt (w : Nat) (x : Int) : Nat :=
  let lo : Int := -(2 ^ (w - 1)); let hi : Int := 2 ^ (w - 1) - 1
  ((max lo (min hi x)) % (2 ^ w : Int)).toNat

/-- `x` divided by `d`, rounded up. -/
def cdiv (x d : Nat) : Nat := (x + d - 1) / d

/-- `x` rounded up to a multiple of 64. -/
def up64 (x : Nat) : Nat := cdiv x 64 * 64

/-- Byte `i` of a number. -/
def byteOf (x i : Nat) : Nat := (x >>> (8 * i)) % 256

/-- `n` bytes of a number from byte `i` on. -/
def bytesFrom (x i n : Nat) : Nat := (x >>> (8 * i)) % 2 ^ (8 * n)

/-- Concatenates numbers of `w` bytes each, the first at byte 0. -/
def concatBytes (w : Nat) : List Nat → Nat
  | [] => 0
  | x :: r => x % 2 ^ (8 * w) + 2 ^ (8 * w) * concatBytes w r

/-- The lines a number of `n` bytes fills, the last one padded with zero. -/
def linesOf (x n : Nat) : List Line :=
  (List.range (cdiv n 64)).map fun i => BitVec.ofNat 512 (x >>> (512 * i))

/-- Lines read as one number, the first at byte 0. -/
def lineNat : List Line → Nat
  | [] => 0
  | l :: r => l.toNat + 2 ^ 512 * lineNat r

/-- A byte-enable mask widened to bits: bit i of the mask enables byte i (R239). -/
def maskBits (m : BitVec 64) : BitVec 512 :=
  (List.range 64).foldl (fun a i => if m.getLsbD i then a ||| (0xFF#512 <<< (8 * i)) else a) 0#512

/-- The enabled bytes of `new` over the others of `old` (R239). -/
def mergeLine (old new : Line) (m : BitVec 64) : Line :=
  (new &&& maskBits m) ||| (old &&& ~~~(maskBits m))

/-- The mask of `n` bytes from byte `i` on. -/
def maskRange (i n : Nat) : BitVec 64 := BitVec.ofNat 64 ((2 ^ n - 1) <<< i)

/-- A Bool as a field value. -/
def b2n (b : Bool) : Nat := if b then 1 else 0

/-- Writes position `i` of a list. -/
def setAt {α : Type} (l : List α) (i : Nat) (a : α) : List α := l.set i a

/-- Changes position `i` of a list. -/
def modAt {α : Type} (l : List α) (i : Nat) (f : α → α) : List α := l.modify i f

/-- Position `i` of a list of counters. -/
def at0 (l : List Nat) (i : Nat) : Nat := l.getD i 0

/-- No element occurs twice. -/
def noDup : List Nat → Bool
  | [] => true
  | x :: r => !r.contains x && noDup r

end Sys2Proof.Machine
end

