-- ==== Sys2Proof/Machine/Floats.lean ====
section
/-! DEFINITION. Number formats and their arithmetic (R110–R116, R123–R128): elements decoded to
exact values, IEEE rounding, widening and narrowing conversions, and the special functions with
their error bounds. -/

namespace Sys2Proof.Machine

/-! ## Values and formats (R123) -/

/-- A decoded element: a NaN, signalling or not, an infinity, or an exact number m × 2^e. -/
inductive Fp
  | nan (signalling : Bool)
  | inf (neg : Bool)
  | fin (neg : Bool) (m : Nat) (e : Int)
  deriving DecidableEq, Repr, Inhabited

/-- How a format encodes infinities and NaN (Table 7.6). -/
inductive Specials
  | ieee | lastCode | none
  deriving DecidableEq, Repr

/-- A format of Table 7.6. -/
structure Fmt where
  eb   : Nat
  mb   : Nat
  bias : Nat
  sp   : Specials
  deriving Repr

def Fmt.fp32 : Fmt := ⟨8, 23, 127, .ieee⟩
def Fmt.bf16 : Fmt := ⟨8, 7, 127, .ieee⟩
def Fmt.fp16 : Fmt := ⟨5, 10, 15, .ieee⟩
def Fmt.e4m3 : Fmt := ⟨4, 3, 7, .lastCode⟩
def Fmt.e5m2 : Fmt := ⟨5, 2, 15, .ieee⟩
def Fmt.e3m2 : Fmt := ⟨3, 2, 3, .none⟩
def Fmt.e2m3 : Fmt := ⟨2, 3, 1, .none⟩
def Fmt.e2m1 : Fmt := ⟨2, 1, 1, .none⟩

/-- Bits of an element. -/
def Fmt.width (f : Fmt) : Nat := 1 + f.eb + f.mb

/-- The code of the largest finite magnitude. -/
def Fmt.maxCode (f : Fmt) : Nat :=
  match f.sp with
  | .ieee => (2 ^ f.eb - 1) * 2 ^ f.mb - 1
  | .lastCode => 2 ^ (f.eb + f.mb) - 2
  | .none => 2 ^ (f.eb + f.mb) - 1

/-- Decodes an element (Table 7.6). -/
def Fmt.decode (f : Fmt) (x : Nat) : Fp :=
  let neg := x.testBit (f.eb + f.mb)
  let ef := x / 2 ^ f.mb % 2 ^ f.eb
  let mf := x % 2 ^ f.mb
  let top := ef = 2 ^ f.eb - 1
  if f.sp = .ieee ∧ top then
    if mf = 0 then .inf neg else .nan (!mf.testBit (f.mb - 1))
  else if f.sp = .lastCode ∧ top ∧ mf = 2 ^ f.mb - 1 then .nan false
  else if ef = 0 then .fin neg mf (1 - (f.bias : Int) - f.mb)
  else .fin neg (mf + 2 ^ f.mb) (ef - (f.bias : Int) - f.mb)

/-- Flag bits of VSTAT (Table 7.9). -/
def flagInv : Nat := 1
def flagSat : Nat := 2
def flagOvf : Nat := 4
def flagDivz : Nat := 8
def flagAccSat : Nat := 16

/-- The canonical FP32 NaN (R127). -/
def nan32 : Nat := 0x7FC00000

/-! ## Exact arithmetic -/

/-- The sign of a value. -/
def Fp.neg : Fp → Bool
  | .nan _ => false
  | .inf n => n
  | .fin n _ _ => n

/-- A value with its sign changed. -/
def Fp.negate : Fp → Fp
  | .nan s => .nan s
  | .inf n => .inf !n
  | .fin n m e => .fin (!n) m e

/-- A NaN that signals. -/
def Fp.signals : Fp → Bool
  | .nan s => s
  | _ => false

/-- The exact sum, and whether the operation is invalid. -/
def Fp.add (a b : Fp) : Fp × Bool :=
  match a, b with
  | .nan s, y => (.nan false, s || y.signals)
  | x, .nan s => (.nan false, s || x.signals)
  | .inf n, .inf k => if n = k then (.inf n, false) else (.nan false, true)
  | .inf n, _ => (.inf n, false)
  | _, .inf n => (.inf n, false)
  | .fin n m e, .fin k p f =>
    let g := min e f
    let x : Int := m * 2 ^ (e - g).toNat
    let y : Int := p * 2 ^ (f - g).toNat
    let z := (if n then -x else x) + (if k then -y else y)
    (.fin (if z = 0 then n && k else decide (z < 0)) z.natAbs g, false)

/-- The exact product, and whether the operation is invalid. -/
def Fp.mul (a b : Fp) : Fp × Bool :=
  match a, b with
  | .nan s, y => (.nan false, s || y.signals)
  | x, .nan s => (.nan false, s || x.signals)
  | .inf n, .inf k => (.inf (n != k), false)
  | .inf n, .fin k p _ => if p = 0 then (.nan false, true) else (.inf (n != k), false)
  | .fin n m _, .inf k => if m = 0 then (.nan false, true) else (.inf (n != k), false)
  | .fin n m e, .fin k p f => (.fin (n != k) (m * p) (e + f), false)

/-- A value times a power of two. -/
def Fp.scale (a : Fp) (k : Int) : Fp :=
  match a with
  | .fin n m e => .fin n m (e + k)
  | x => x

/-- Ordering of two values that are not NaN; −0 equals +0. -/
def Fp.cmp (a b : Fp) : Ordering :=
  match a, b with
  | .inf n, .inf k => if n = k then .eq else if n then .lt else .gt
  | .inf n, _ => if n then .lt else .gt
  | _, .inf n => if n then .gt else .lt
  | .fin n m e, .fin k p f =>
    let g := min e f
    let x : Int := m * 2 ^ (e - g).toNat
    let y : Int := p * 2 ^ (f - g).toNat
    compare (if n then -x else x) (if k then -y else y)
  | _, _ => .eq

/-- A value that is a NaN. -/
def Fp.isNan : Fp → Bool
  | .nan _ => true
  | _ => false

/-- A value that is zero. -/
def Fp.isZero : Fp → Bool
  | .fin _ m _ => m == 0
  | _ => false

/-! ## Rounding (R114, R127) -/

/-- m / 2^d rounded to nearest, ties to even. -/
def rneShift (m d : Nat) : Nat :=
  let q := m / 2 ^ d
  let r := m % 2 ^ d
  if 2 ^ d < 2 * r ∨ (2 * r = 2 ^ d ∧ q % 2 = 1) then q + 1 else q

/-- The exponent of a format's last place at a magnitude m × 2^e. -/
def Fmt.quantum (f : Fmt) (m : Nat) (e : Int) : Int :=
  max (e + Nat.log2 m - f.mb) (1 - (f.bias : Int) - f.mb)

/-- The code of a magnitude of `mant` units of 2^q. -/
def Fmt.codeAt (f : Fmt) (q : Int) (mant : Nat) : Nat := (q + f.mb + f.bias - 1).toNat * 2 ^ f.mb + mant

/-- The code of a magnitude rounded to nearest, beyond the largest finite code on overflow. -/
def Fmt.roundMag (f : Fmt) (m : Nat) (e : Int) : Nat :=
  if m = 0 then 0
  else
    let q := f.quantum m e
    f.codeAt q (if q ≤ e then m * 2 ^ (e - q).toNat else rneShift m (q - e).toNat)

/-- The code of the largest magnitude not above m × 2^e. -/
def Fmt.floorMag (f : Fmt) (m : Nat) (e : Int) : Nat :=
  if m = 0 then 0
  else
    let q := f.quantum m e
    min f.maxCode (f.codeAt q (if q ≤ e then m * 2 ^ (e - q).toNat else m / 2 ^ (q - e).toNat))

/-- The code of the smallest magnitude not below m × 2^e. -/
def Fmt.ceilMag (f : Fmt) (m : Nat) (e : Int) : Nat :=
  if m = 0 then 0
  else
    let q := f.quantum m e
    f.codeAt q (if q ≤ e then m * 2 ^ (e - q).toNat else cdiv m (2 ^ (q - e).toNat))

/-- A sign in front of a magnitude's code. -/
def Fmt.signed (f : Fmt) (neg : Bool) (code : Nat) : Nat := b2n neg * 2 ^ (f.eb + f.mb) + code

/-- The code of infinity of a format that has one. -/
def Fmt.infCode (f : Fmt) : Nat := (2 ^ f.eb - 1) * 2 ^ f.mb

/-- Rounds an arithmetic result to FP32, BF16 or FP16: the code and the flags (R114, R127). -/
def Fmt.result (f : Fmt) (x : Fp) : Nat × Nat :=
  match x with
  | .nan _ => ((2 ^ f.eb - 1) * 2 ^ f.mb + 2 ^ (f.mb - 1), 0)
  | .inf n => (f.signed n f.infCode, 0)
  | .fin n m e =>
    let c := f.roundMag m e
    if f.maxCode < c then (f.signed n f.infCode, flagOvf) else (f.signed n c, 0)

/-- A result and whether it was invalid, rounded. -/
def Fmt.finish (f : Fmt) (x : Fp × Bool) : Nat × Nat :=
  let r := f.result x.1
  (r.1, r.2 ||| (if x.2 then flagInv else 0))

/-- Narrowing to a float format of Table 7.8: the code and the flags. -/
def Fmt.narrow (f : Fmt) (x : Fp) : Nat × Nat :=
  match f.sp, x with
  | .ieee, _ =>
    if f.eb = 5 ∧ f.mb = 2 then
      match x with
      | .nan _ => (0x7E, 0)
      | .inf n => (f.signed n f.infCode, 0)
      | .fin n m e =>
        let c := f.roundMag m e
        if f.maxCode < c then (f.signed n f.maxCode, flagSat) else (f.signed n c, 0)
    else f.result x
  | .lastCode, .nan _ => (0x7F, 0)
  | .none, .nan _ => (0, flagInv)
  | _, .inf n => (f.signed n f.maxCode, flagSat)
  | _, .fin n m e =>
    let c := f.roundMag m e
    if f.maxCode < c then (f.signed n f.maxCode, flagSat) else (f.signed n c, 0)

/-- Narrowing to a two's-complement integer of `w` bits (Table 7.8). -/
def narrowInt (w : Nat) (trunc : Bool) (x : Fp) : Nat × Nat :=
  let sat := fun (n : Bool) => if n then (2 ^ (w - 1), flagSat) else (2 ^ (w - 1) - 1, flagSat)
  match x with
  | .nan _ => (0, flagInv)
  | .inf n => sat n
  | .fin n m e =>
    let k := if 0 ≤ e then m * 2 ^ e.toNat
      else if trunc then m / 2 ^ (-e).toNat else rneShift m (-e).toNat
    if n then (if 2 ^ (w - 1) < k then sat true else ((2 ^ w - k) % 2 ^ w, 0))
    else if 2 ^ (w - 1) ≤ k then sat false else (k, 0)

/-- A two's-complement integer of `w` bits. -/
def signedOf (w x : Nat) : Int := if x % 2 ^ w < 2 ^ (w - 1) then (x % 2 ^ w : Int) else (x % 2 ^ w : Int) - 2 ^ w

/-- An integer as a value. -/
def Fp.ofInt (z : Int) : Fp := .fin (decide (z < 0)) z.natAbs 0

/-- An E8M0 scale as a value (Table 7.6). -/
def e8m0 (x : Nat) : Fp := if x = 255 then .nan false else .fin false 1 ((x : Int) - 127)

/-- A value as FP32 bits. A NaN becomes canonical. -/
def fp32Of (x : Fp) : Nat := (Fmt.fp32.result x).1

/-! ## MX scales (R128) -/

/-- floor(log2) of a magnitude. -/
def floorLog2 (m : Nat) (e : Int) : Int := e + Nat.log2 m

/-- The E8M0 field of 32 values: none when the block has no finite value (R128 states no scale). -/
def mxScale (emax : Nat) (l : List Fp) : Option Nat :=
  if l.any Fp.isNan then some 255
  else
    let fins := l.filter fun x => match x with | .fin .. => true | _ => false
    if fins.isEmpty then none
    else
      let logs := fins.filterMap fun x => match x with
        | .fin _ m e => if m = 0 then none else some (floorLog2 m e)
        | _ => none
      match logs with
      | [] => some 0
      | a :: r => some (max 0 (min 254 (r.foldl max a - emax + 127))).toNat

/-! ## Special functions (R115) -/

/-- Integer square root from the bits up to `i`. -/
def isqrtFrom : Nat → Nat → Nat → Nat
  | 0, n, r => if (r + 1) * (r + 1) ≤ n then r + 1 else r
  | i + 1, n, r => isqrtFrom i n (if (r + 2 ^ (i + 1)) * (r + 2 ^ (i + 1)) ≤ n then r + 2 ^ (i + 1) else r)

/-- Integer square root. -/
def isqrt (n : Nat) : Nat := isqrtFrom (Nat.log2 n / 2 + 1) n 0

/-- Bits of precision the bounds are computed with. -/
def sfuBits : Nat := 200

/-- The product of 2^(2^−i) over the bits set of a fraction, `k` bits still to look at: `c` is the
factor of the next bit, `t` the product, both with `sfuBits` fraction bits. -/
def exp2Loop : Nat → Nat → Nat → Nat → Nat
  | 0, _, _, t => t
  | k + 1, f, c, t =>
    let c' := isqrt (c * 2 ^ sfuBits)
    exp2Loop k f c' (if f.testBit k then t * c' / 2 ^ sfuBits else t)

/-- Fraction bits of log2 of a number in [1, 2), by squaring. -/
def log2Loop : Nat → Nat → Nat → Nat
  | 0, _, acc => acc
  | k + 1, y, acc =>
    let z := y * y / 2 ^ sfuBits
    if 2 ^ (sfuBits + 1) ≤ z then log2Loop k (z / 2) (2 * acc + 1) else log2Loop k z (2 * acc)

/-- An FP32 value between two bounds v × 2^e: the one of index `idx` among them in rising order. -/
def pickBetween (lo hi : Int) (e : Int) (idx : Nat) : Nat :=
  let f := Fmt.fp32
  let a : Int := if 0 ≤ lo then f.ceilMag lo.toNat e else -(f.floorMag lo.natAbs e : Int)
  let b : Int := if 0 ≤ hi then f.floorMag hi.toNat e else -(f.ceilMag hi.natAbs e : Int)
  let k : Int := a + (idx % ((b - a).toNat + 1) : Nat)
  if 0 ≤ k then min f.maxCode k.toNat else f.signed true (min f.maxCode k.natAbs)

/-- An FP32 value within `n` ulp of v × 2^e. -/
def withinUlp (n : Nat) (v : Int) (e : Int) (idx : Nat) : Nat :=
  let q := Fmt.fp32.quantum v.natAbs e
  let g := min q e
  let w := v * 2 ^ (e - g).toNat
  let d : Int := n * 2 ^ (q - g).toNat
  pickBetween (w - d) (w + d) g idx

/-- The part's result of a special function within Table 7.3: FP32 bits and flags. `idx` is the
open value. −0 under reciprocal square root and log2 has no stated result. -/
def sfuOf (fn x idx : Nat) : Nat × Nat :=
  let p : Int := sfuBits
  match Fmt.fp32.decode x with
  | .nan s => (nan32, if s then flagInv else 0)
  | .inf n =>
    if fn = 0 then (if n then (0, 0) else (0x7F800000, flagOvf))
    else if fn = 1 then (Fmt.fp32.signed n 0, 0)
    else if n then (nan32, flagInv)
    else if fn = 2 then (0, 0) else (0x7F800000, 0)
  | .fin n m e =>
    if fn = 0 then
      let z : Int := if n then -(m : Int) else m
      let k := (-e).toNat
      let fl : Int := if 0 ≤ e then z * 2 ^ e.toNat else z / (2 ^ k : Nat)
      let fr : Nat := if 0 ≤ e then 0 else (z % (2 ^ k : Nat)).toNat
      if 128 ≤ fl then (0x7F800000, flagOvf)
      else (withinUlp 2 (exp2Loop k fr (2 ^ (sfuBits + 1)) (2 ^ sfuBits)) (max (-400) fl - p) idx, 0)
    else if fn = 1 then
      if m = 0 then (Fmt.fp32.signed n 0x7F800000, flagDivz)
      else
        let b : Int := Nat.log2 m
        let t : Int := 2 ^ (sfuBits + Nat.log2 m) / m
        let r := -p - b - e
        if 127 < (Nat.log2 t.natAbs : Int) + r then (Fmt.fp32.signed n 0x7F800000, flagOvf)
        else (withinUlp 1 (if n then -t else t) r idx, 0)
    else if fn = 2 then
      if m = 0 then ((if n then idx % 2 ^ 32 else 0x7F800000), flagDivz)
      else if n then (nan32, flagInv)
      else
        let odd := e % 2 ≠ 0
        let m' := if odd then 2 * m else m
        let e' := if odd then e - 1 else e
        (withinUlp 2 (isqrt (2 ^ (2 * sfuBits + 64) / m')) (-p - 32 - e' / 2) idx, 0)
    else
      if m = 0 then ((if n then idx % 2 ^ 32 else 0xFF800000), flagDivz)
      else if n then (nan32, flagInv)
      else
        let l := Nat.log2 m
        let fr := log2Loop 100 (m * 2 ^ sfuBits / 2 ^ l) 0
        let w : Int := (e + l) * 2 ^ 100 + fr
        let ex := e + l
        if ex = 0 ∨ ex = -1 then (pickBetween (w - 2 ^ 78) (w + 2 ^ 78) (-100) idx, 0)
        else (withinUlp 2 w (-100) idx, 0)

end Sys2Proof.Machine
end

