-- ==== Sys2Proof/Config.lean ====
section
/-! DEFINITION. What the manual leaves open or defines by an outside standard, as constants
without a body: nothing can evaluate them, so a statement that holds, holds whatever they are. -/

namespace Sys2Proof

/-- A fresh open value: applied to the counter `State.free` (log 11). -/
opaque Config.freeNat : Nat → Nat

/-- An open value that lies within stated bounds of an exact one: the index of the value among
those the bound allows (log 11). -/
opaque Config.freeIndex : Nat → Nat

/-- The raw 80 bytes that a never-written line of an unfilled tier holds after power-on, by tier and
line (R63, R303, log 3). -/
opaque Config.rawLine : Nat → Nat → Stored

/-- Ed448 verification: public key, signed content, signature (R21, R140, R233; log 12). -/
opaque Config.sigValid : Nat → Nat → Nat → Bool

/-- SHAKE256: content, its length in bytes, output length in bits (R21, R103, R336; log 12). -/
opaque Config.shake256 : Nat → Nat → Nat → Nat

/-- Ledger coefficient of a tier-2 line write in pJ, full stripe or not (Table 3.3; log 17). -/
opaque Config.tier2WritePj : Bool → Nat

/-- Stored DATA of a line: key serial, epoch, tier, line index, plaintext (R324; log 12). -/
opaque Config.cipher : Nat → Nat → Nat → Nat → Line → Line

/-- TAG of a line: key serial, epoch, tier, line, deckle, generation, stored DATA (R325; log 12). -/
opaque Config.lineTag : Nat → Nat → Nat → Nat → Nat → Nat → Line → BitVec 64

/-- The fused public keys: 0 the firmware key, 1 the Ramonrin kernel key (Table 19.1; log 12). -/
opaque Config.fusedKey : Nat → Nat

/-- The 128 bytes at an offset of the crash dump with this serial number (R38; log 13). -/
opaque Config.dumpBytes : Nat → Nat → Nat

/-- Which of the 96 sensors lie over a core (R276; log 8). -/
opaque Config.sensorOver : Nat → Nat → Bool

/-- Content the manual leaves to the part, by kind, instance and line: 0 the certificate chain of an
attestation report, 1 the boot ROM's digest, 2 the built-in library's digest (by image), 3 and on the
debug spaces (R333, R336; log 16). -/
opaque Config.partBytes : Nat → Nat → Nat → Line

/-- Bytes of the certificate chain, and Ed448 signing with the device key: the 114 bytes over a
digest (R336, R338; log 16). -/
opaque Config.certBytes : Nat
opaque Config.deviceSign : Nat → Nat

end Sys2Proof
end

