-- ==== Sys2Proof/Machine/State.lean ====
section
/-! DEFINITION. The state of one KX-9640: every register, queue, buffer, table, counter, mode and
pin the manual gives the device, as plain data. Each field's docstring ends with its width, the
file and rule of spec/ that names it and its reset value; INVENTORY.md lists the same lines. -/

namespace Sys2Proof.Machine

/-- Why the machine stops. No command of the manual stops the whole device, so nothing raises
one; the type is kept for the host's interface. -/
inductive Fault
  /-- Raised by no command. Safe: it never occurs. -/
  | none
  deriving DecidableEq, Repr

/-- Why a command has no meaning here. -/
inductive Refusal
  /-- The dispatcher's answer for a command whose meaning is not written. Safe: nothing follows. -/
  | notModelled (mnemonic : String)
  deriving DecidableEq, Repr

/-! ## Outputs -/

/-- A mailbox response (Table 2.3). -/
structure MbxRsp where
  code    : Nat
  tag     : Nat
  deckle  : Nat
  dupTag  : Bool := false
  cookie  : Nat
  elapsed : Nat
  /-- RESULT_TOTAL -/
  total   : Nat := 0
  ans     : Ans
  deriving DecidableEq, Repr, Inhabited

/-- An event record (Table 2.9); `params` is PARAMS with bit 0 at record bit 160. -/
structure Event where
  code        : Nat
  deviceLevel : Bool
  seq         : Nat
  deckle      : Nat
  source      : Nat
  time        : Nat
  params      : Nat
  deriving DecidableEq, Repr, Inhabited

/-- Messages the device sends in packets (Table 14.1). -/
inductive Msg
  | mbxRsp (ep : Nat) (r : MbxRsp)
  | event (ep recv : Nat) (e : Event)
  | rsp (ep tag deckle : Nat) (status : Status) (aux len : Nat) (data : List Line) (last : Bool)
  | cpl (ep deckle : Nat) (body : Nat)
  | push (ep deckle tag addr : Nat) (data : List Line) (ackReq : Bool)
  | laidWr (ep deckle addr : Nat) (data : List Line)
  | lgrant (ep tag deckle addr gstate : Nat) (status : Status) (data : Option Line)
  | inv (ep tag deckle addr : Nat)
  | fwd (ep tag deckle addr kind : Nat)
  | epAssign (ep : Nat) (status : Status)
  | epClaim (identity : Nat)
  | remoteRd (ep tag deckle handle offset lines : Nat)
  | mirData (x : MirExt) (lines : List MirLine)
  | mirMeta (x : MirExt) (r : MetaRec)
  | mirAck (mseq : Nat)
  | mirHb (x : MirExt)
  | mirHealth (r : Health)
  | mirFetch (x : MirExt) (deckle gen : Nat)
  | mirLine (x : MirExt) (status : Status) (line : MirLine)
  | mirCtrl (kind : MirCtrlKind) (x : MirExt) (info : PartnerInfo)
  deriving DecidableEq, Repr, Inhabited

/-- Messages the device sends in bypass slots (Table 13.4). -/
inductive Slot
  | credit (counts : List Nat)
  | creditInit (counts : List Nat)
  | retrain (linkId width cause : Nat)
  | resume (nextMain nextBypass : Nat)
  | paramA (p : ParamA)
  | paramB (ackTimer replayLimit downWindow : Nat)
  | keyx (m : KeyxMsg) (frag : Nat)
  | lease (ep deckle : Nat)
  | sync (hops ns frac : Nat)
  | pdelayReq
  | pdelayResp (turnaround : Nat)
  | slip (reason outcome ep entry lateNs : Nat)
  deriving DecidableEq, Repr, Inhabited

/-- A packet waiting for egress on a port: its VC, Calender queue, deckle and bytes. -/
structure Egress where
  vc     : Nat
  /-- 0–59 the queue; 60 the yellow queue; 61 VC3 and VC5 (R258); 62 the laid class -/
  queue  : Nat
  deckle : Nat
  /-- traffic class its energy counts under (R271) -/
  cls    : Nat := 0
  /-- bytes not yet sent -/
  left   : Nat
  /-- true once its first byte was sent -/
  started : Bool := false
  msg    : Msg
  deriving DecidableEq, Repr, Inhabited

/-! ## Board and fuses -/

/-- Far-memory population of one die (R41). -/
structure FarPop where
  populated : Bool
  modules   : Nat
  part      : Nat
  chGib     : Nat
  mt8800    : Bool
  deriving DecidableEq, Repr, Inhabited

/-- What the part and the board fix. No command changes it but KEY_ROTATE RAISE_SEC, which blows fuses. -/
structure Board where
  /-- ordering code KX-9640-H (else -M) (1 bit; 00 R1; DESIGN CHOICE H, log 1) -/
  orderH : Bool
  /-- fused identity, bits 63:6 of DEVICE_ID (58 bits; 13 R225; DESIGN CHOICE 1, log 1) -/
  deviceId : Nat
  /-- far-memory population per die (4 records; 03 R41; DESIGN CHOICE four dies, one 1 TiB module per channel, log 1) -/
  far : List FarPop
  /-- fused minimum security version (16 bits; 19 R327; DESIGN CHOICE 0, log 1) -/
  fusedMinSec : Nat
  /-- security-version raises used (6 bits; 19 R327; DESIGN CHOICE 0, log 1) -/
  raises : Nat
  /-- production fuses blown (1 bit; 19 Table 19.9; DESIGN CHOICE 1, log 1) -/
  production : Bool
  /-- I3C ADDR_SEL strap (2 bits; 20 R350; DESIGN CHOICE 0, log 1) -/
  addrSel : Nat
  /-- fused core voltage offset in mV (0–70; 20 R342; DESIGN CHOICE 0, log 1) -/
  coreOffsetMv : Nat
  deriving DecidableEq, Repr

/-! ## Hub, mailboxes, events (chapter 2) -/

/-- BR_STATUS PHASE (Table 2.13). -/
inductive Phase
  | bootRom | running | activating | wedged | restarting | zeroised | poweringDown
  deriving DecidableEq, Repr, Inhabited

/-- A firmware image as its header names it (Table 2.1). -/
structure Image where
  fwVersion  : Nat
  secVersion : Nat
  buildId    : Nat
  digest     : BitVec 512
  deriving DecidableEq, Repr, Inhabited

/-- An image under verification by the boot ROM (R21). -/
structure Verify where
  reply : Nat
  len   : Nat
  fill  : Bool
  deriving DecidableEq, Repr, Inhabited

/-- A live activation in progress (R33). -/
structure Activation where
  start : Nat
  reply : Option Nat
  image : Image
  deriving DecidableEq, Repr, Inhabited

/-- Boot ROM, firmware, watchdog and bedrock state. -/
structure Hub where
  /-- BR_STATUS PHASE (4 bits; 02 Table 2.13; 0 boot ROM, R19) -/
  phase : Phase
  /-- hub ready (1 bit; 02 Table 2.6, 20 R353; 0) -/
  ready : Bool
  /-- staging SRAM ready (1 bit; 02 Table 2.6, 20 R353; 0) -/
  stagingReady : Bool
  /-- bedrock controller and I3C ready (1 bit; 20 R353; 0) -/
  bedrockReady : Bool
  /-- loader endpoint (12 bits and valid; 02 R20; none) -/
  loader : Option Nat
  /-- load window open (1 bit; 02 R20; 1) -/
  windowOpen : Bool
  /-- verification in progress (02 R20, R21; none) -/
  verifying : Option Verify
  /-- FILL_AT_START chosen (1 bit; 02 Table 2.10, 17 R303; 0) -/
  fillAtStart : Bool
  /-- running image (02 Table 2.11; none) -/
  running : Option Image
  /-- the running image is in firmware slot B (1 bit; 03 R43; 0, slot A) -/
  slotB : Bool
  /-- staged image (02 R31; none) -/
  staged : Option Image
  /-- AUTO activation pending (1 bit; 02 R32; 0) -/
  autoPending : Bool
  /-- activation in progress (02 R33; none) -/
  activation : Option Activation
  /-- LAST_STATUS (8 bits; 02 Table 2.11; DESIGN CHOICE ST_OK, log 2) -/
  lastStatus : Status
  /-- firmware start time (64 bits ns; 20 R353; 0) -/
  fwStart : Nat
  /-- WEDGE_RESTART_MS (16 bits; 02 Table 2.7; 1,000) -/
  wedgeMs : Nat
  /-- WEDGES (16 bits; 02 Table 2.13; 0) -/
  wedges : Nat
  /-- DUMP_VALID (1 bit; 02 Table 2.13; 0) -/
  dumpValid : Bool
  /-- crash-dump area content: the serial of the dump it holds, 0 when zeroed (64 MiB; 02 R38; 0) -/
  dumpSerial : Nat
  /-- a dump is running, and when the hub stopped (02 R35; none) -/
  dumping : Option Nat
  /-- time the last dump ended while wedged (02 R36; none) -/
  dumpDone : Option Nat
  /-- a BR_RESET HUB that coincides with a wedge's dump (02 R38; none) -/
  resetAfterDump : Bool
  /-- time at which the hub cores stopped, while stopped (02 R35, R36; none) -/
  stoppedAt : Option Nat
  /-- RESET_CAUSE (4 bits; 02 Table 2.13; 0 cold) -/
  resetCause : Nat
  /-- RSP_DISCARDED (32 bits; 02 Table 2.6; 0) -/
  rspDiscarded : Nat
  /-- attached driver (12 bits and valid; 02 R28; none) -/
  driver : Option Nat
  /-- driver lease deadline (64 bits ns; 02 R356; 0) -/
  driverDeadline : Nat
  /-- UNATTENDED (1 bit; 02 R29; 0 under the boot ROM) -/
  unattended : Bool
  deriving DecidableEq, Repr

/-- An undelivered-event ring (R30). -/
structure Ring where
  /-- SEQ of the next event -/
  seq : Nat
  /-- how many of the oldest events are in packets on a port -/
  queued : Nat
  /-- oldest first, at most 4,096 -/
  evs : List Event
  deriving DecidableEq, Repr, Inhabited

/-- A request waiting in its mailbox during an activation (R33): its row, arrival time, header and code. -/
structure WaitReq where
  cmd : Instr
  at_ : Nat
  req : Req
  code : Nat
  deriving DecidableEq, Repr, Inhabited

/-- Mailboxes, event rings and held answers. -/
structure Mbx where
  /-- outstanding commands by reply number (16 per mailbox; 02 R24; none) -/
  outst : NMap Outst
  /-- next reply number, the model's own (0; log 5) -/
  nextReply : Nat
  /-- requests waiting in their mailboxes during an activation, in arrival order, each with its arrival time (02 R33; none) -/
  waiting : List WaitReq
  /-- the hub is serving the request that arrived at this time from `waiting`, the model's own (none; log 5) -/
  draining : Option Nat
  /-- event endpoint per deckle (12 bits; 02 Events; none) -/
  evEp : NMap Nat
  /-- event rings by receiver deckle (4,096 entries; 02 R30; empty) -/
  rings : NMap Ring
  /-- responses and completions held for unreachable requesters (02 R26; none) -/
  held : List Msg
  /-- responses waiting on I3C, oldest first (4; 20 R350; none) -/
  i3c : List MbxRsp
  /-- I3C in-band interrupt bytes raised and not yet taken (20 R350; none) -/
  ibi : List Nat
  deriving DecidableEq, Repr

/-! ## Memory (chapters 3 and 17) -/

/-- A stored line (Table 17.1) in symbolic form: the plaintext and the key and stamps it was
written under, and `err`, the XOR of what is stored with the code word that was formed (R290). -/
structure Cell where
  data   : Line
  deckle : Nat
  epoch  : Nat
  /-- serial number of the memory key it was encrypted under; 0 none -/
  key    : Nat
  gen    : Nat
  /-- written as poisoned (R294) -/
  poisoned : Bool
  err    : Stored
  deriving DecidableEq, Repr, Inhabited

/-- A line an access has been translated to: tier, line address (physical data address / 64),
extent, generation and owning deckle. Extent 0 is deckle 0's control extent. -/
structure LineRef where
  tier   : Tier
  line   : Nat
  extent : Nat
  gen    : Nat
  deckle : Nat
  mir    : Bool := false
  /-- deckle whose work the access is, when it is not the owner's (R270) -/
  payer  : Option Nat := none
  deriving DecidableEq, Repr, Inhabited

/-- What an in-flight memory job is for. -/
inductive JobKind
  | rd | rdVersion
  | wr (masked : Bool)
  | atom (aop : Nat) (size16 : Bool) (a b : BitVec 128) (byteOff : Nat)
  | laidIn
  deriving DecidableEq, Repr, Inhabited

/-- One line of a memory job: where it is, under which extent, with its write data and mask. -/
structure JobLine where
  tier   : Tier
  /-- physical data address >> 6 -/
  line   : Nat
  extent : Nat
  gen    : Nat
  deckle : Nat
  data   : Line
  mask   : BitVec 64
  /-- accepted by its controller or returned by it -/
  done   : Bool
  /-- held in an assembly buffer (R50) -/
  assembled : Bool := false
  /-- waits for reconstruction (R291 step 2 or 4; true: step 4) -/
  recon  : Option Bool := none
  /-- mirrored: the MSEQ its record carries (R310) -/
  mseq   : Option Nat := none
  /-- a lode line: its home serves it (R86) -/
  lode   : Bool := false
  deriving DecidableEq, Repr, Inhabited

/-- A memory request in flight between admission and its answer. -/
structure Job where
  ep       : Nat
  tag      : Nat
  deckle   : Nat
  cls      : Nat
  yellow   : Bool
  kind     : JobKind
  lines    : List JobLine
  admitted : Nat
  /-- the status it will be answered with, once a line fails -/
  fail     : Option Status
  old      : BitVec 128 := 0#128
  deriving DecidableEq, Repr, Inhabited

/-- An open stripe-assembly buffer (R49): the lines it holds, each with its data. -/
structure AsmBuf where
  openedAt : Nat
  lines    : NMap Cell
  deriving DecidableEq, Repr, Inhabited

/-- An armed injection (R302). -/
structure Inject where
  kind : Nat
  row  : Option Nat
  mask : Stored
  deriving DecidableEq, Repr, Inhabited

/-- Correctable-error state of one unit (R296). -/
structure CeUnit where
  level     : Nat
  corrected : Nat
  storm     : Bool
  /-- local times of the uncorrectable lines of the last second, newest first (R297) -/
  ue        : List Nat
  deriving DecidableEq, Repr, Inhabited

/-- One parity group: tier 1, or the group of a far die (R297–R303). -/
structure Group where
  /-- in service: EV_READY raised -/
  ready    : Bool
  /-- unit at each position (R40) -/
  posMap   : List Nat
  /-- lost positions, first lost first -/
  lost     : List Nat
  /-- units failed out -/
  failed   : List Nat
  spareFree : Bool
  rebuilding : Bool
  cursor   : Nat
  rebuildStart : Nat
  sealed   : Bool
  sealCursor : Nat
  lostLines : Nat
  deriving DecidableEq, Repr, Inhabited

/-- A poison-list entry (Table 17.3). -/
structure Poison where
  extent : Nat
  line   : Nat
  tier   : Tier
  deckle : Nat
  cause  : Nat
  raised : Nat
  phys   : Nat
  deriving DecidableEq, Repr, Inhabited

/-- Records of the hardware integrity log (R304). -/
inductive LogRec
  | ceStorm (group unit level corrected : Nat)
  | reconstructed (group unit source extent line phys : Nat)
  | poison (p : Poison)
  | stackFailed (group unit position cause : Nat) (rebuilding : Bool)
  | rebuildDone (group unit position duration lost : Nat)
  deriving DecidableEq, Repr, Inhabited

/-- A running SCRUB (R301). -/
structure ScrubRun where
  reply : Nat
  p     : ScrubP
  deriving DecidableEq, Repr, Inhabited

/-- Tiers, lines in flight and integrity machinery. -/
structure Mem where
  /-- stored lines by tier and line address; an unlisted line is never-written (80 bytes each; 17 R289, R303; log 3) -/
  cells : NMap Cell
  /-- for rows whose parity does not equal the XOR of their lines: XOR of the parity line with that XOR, by row key (80 bytes; 17 R290; none) -/
  parityErr : NMap Stored
  /-- memory requests in flight (01 Paths of work, 03 R46; none) -/
  jobs : NMap Job
  /-- next job number, the model's own (0; log 5) -/
  nextJob : Nat
  /-- open assembly buffers by stripe (1,024 per die; 03 R49; none) -/
  asm : NMap AsmBuf
  /-- migrations by extent (8; 03 R53; none) -/
  migr : NMap Migration
  /-- parity groups: 0 tier 1, 1–4 far dies (17 R297–R303; unsealed, not ready) -/
  groups : NMap Group
  /-- correctable-error buckets by unit key (16 bits; 17 R296; 0) -/
  ce : NMap CeUnit
  /-- BUCKET_SIZE (16 bits; 17 Table 17.4; 64) -/
  bucketSize : Nat
  /-- LEAK_MS (16 bits; 17 Table 17.4; 10) -/
  leakMs : Nat
  /-- REBUILD_SHARE (7 bits; 17 Table 17.4; 10) -/
  rebuildShare : Nat
  /-- SEAL_SHARE (7 bits; 17 Table 17.4; 25) -/
  sealShare : Nat
  /-- FAIL_UE (16 bits; 17 Table 17.4; 256) -/
  failUe : Nat
  /-- time of the last EV_CE_STORM (64 bits ns; 18 Table 18.5; none) -/
  stormAt : Option Nat
  /-- armed injections by unit key (17 R302; none) -/
  inject : NMap Inject
  /-- poison list (65,536 entries; 17 R295; empty) -/
  poison : List Poison
  /-- poison list OVERFLOW (1 bit; 17 R295; 0) -/
  overflow : Bool
  /-- groups wholly scrubbed since OVERFLOW was set, by (tier number, from, to) (17 R295; none) -/
  scrubbed : List (Nat × Nat × Nat)
  /-- hardware integrity log (4,096 records; 17 R304; empty) -/
  log : List LogRec
  /-- integrity records lost to a full log (16 bits; 17 R304; 0) -/
  logLost : Nat
  /-- running scrubs (4; 17 R301; none) -/
  scrubs : NMap ScrubRun
  /-- next scrub number, the model's own (0; log 5) -/
  nextScrub : Nat
  /-- usable far dies trained, one bit per die (4 bits; 02 Table 2.6; 0) -/
  farReady : List Nat
  /-- far dies that finished training without success (03 R41; none) -/
  farFailed : List Nat
  deriving DecidableEq, Repr

/-! ## Deckles, extents, leases, endpoints (chapters 4 and 14) -/

/-- An outstanding request of an endpoint (R252): its TAG, virtual channel, the receive credits its
packet holds, and whether they are the oversize reserve's (R253). -/
structure OutReq where
  tag      : Nat
  vc       : Nat
  credits  : Nat
  oversize : Bool := false
  /-- queue and class its answer takes (R258, R266) -/
  queue    : Nat := 0
  cls      : Nat := 0
  deriving DecidableEq, Repr, Inhabited

/-- An assigned endpoint identifier (R236). -/
structure Endpoint where
  identity : Nat
  port     : Nat
  /-- outstanding requests (R252) -/
  outst    : List OutReq
  deriving DecidableEq, Repr, Inhabited

/-- A FENCE waiting for earlier requests (R251): the tags it waits for. -/
structure Fence where
  ep   : Nat
  tag  : Nat
  deckle : Nat
  waits : List Nat
  deriving DecidableEq, Repr, Inhabited

/-- Tenant partition state. -/
structure Part where
  /-- deckles by identifier (4,096 or 64; 04 R57; none before firmware start) -/
  deckles : NMap Deckle
  /-- extents by identifier (32-bit identifiers; 04 R62; none) -/
  extents : NMap Extent
  /-- last extent identifier given (32 bits; 04 R62; 0, DESIGN CHOICE identifiers count up, log 4) -/
  lastExtent : Nat
  /-- granules ever allocated, by tier and number: generation and retirement (16 bits each; 04 R62; generation 0, free) -/
  granules : NMap Granule
  /-- leases by deckle × 4,096 + endpoint (04 R66; none) -/
  leases : NMap Lease
  /-- reclaims that run, by lease key (04 R67; none) -/
  reclaims : NMap Reclaim
  /-- assigned endpoints by identifier (4,096; 14 R236; none) -/
  eps : NMap Endpoint
  /-- waiting FENCEs (14 R251; none) -/
  fences : List Fence
  /-- pool profile is bulk mode (1 bit; 01 R15; 0 open mode) -/
  bulk : Bool
  deriving DecidableEq, Repr

/-! ## Regions and lodes (chapter 5) -/

/-- Region state. -/
structure Rgn where
  /-- regions by identifier (65,536; 05 R72; none) -/
  regions : NMap Region
  /-- last region identifier given (32 bits; 05 R72; 0, log 4) -/
  lastRegion : Nat
  /-- drafts by identifier (4,096; 05 R74; none) -/
  drafts : NMap Draft
  /-- last draft identifier given (32 bits; 05 Table 5.4; 0, log 4) -/
  lastDraft : Nat
  /-- version handles (262,144; 05 R79; none) -/
  handles : NMap Handle
  /-- last handle given (32 bits; 05 Table 5.9; 0, log 4) -/
  lastHandle : Nat
  deriving DecidableEq, Repr

/-- Lode state. -/
structure Lodes where
  /-- lodes by identifier (1,024; 05 R83; none) -/
  lodes : NMap Lode
  /-- last lode identifier given (32 bits; 05 R83; 0, log 4) -/
  lastLode : Nat
  /-- next snoop TAG (16 bits; 14 R244; 0, log 4) -/
  nextSnoop : Nat
  deriving DecidableEq, Repr

/-! ## Translation faults (chapter 6) -/

/-- A unit waiting on a fault record (R106): core, engine or channel, slot, whether couch. -/
structure Waiter where
  core  : Nat
  unit  : Nat
  slot  : Nat
  couch : Bool
  deriving DecidableEq, Repr, Inhabited

/-- A translation fault record (Table 6.11). -/
structure FaultRec where
  deckle : Nat
  pva    : Nat
  cause  : Nat
  level  : Nat
  write  : Bool
  first  : Waiter
  other  : Nat
  raised : Nat
  waiters : List Waiter
  /-- local time its 1 s counts from; a hub stop moves it on (R35, R107) -/
  frozen : Nat
  deriving DecidableEq, Repr, Inhabited

/-- Fault records and cached translations. -/
structure Xlat where
  /-- open fault records (16,384; 06 R106; none) -/
  faults : NMap FaultRec
  /-- last fault identifier given (32 bits; 06 Table 6.11; 0, log 4) -/
  lastFault : Nat
  /-- cached translations: core, deckle, 64 KiB page, generation (4,096 per core, 64 per engine; 06 R97; empty, log 6) -/
  tlb : List (Nat × Nat × Nat × Nat)
  deriving DecidableEq, Repr

/-! ## Engines and work (chapters 7 to 11) -/

/-- Destinations of results in flight in an engine (R117, R130). -/
inductive Dest
  | s (r : Nat) | v (r : Nat) | p (r : Nat) | acc (t : Nat) | mem (off : Nat)
  deriving DecidableEq, Repr, Inhabited

/-- A result on its way (R117, R130): its destination, its bits with a mask of those it writes, the
cycle it becomes usable, and for an array pass the tile after each K-step, the initial tile first (R113). -/
structure Pend where
  dest  : Dest
  value : Nat
  mask  : Nat
  ready : Nat
  steps : List Nat := []
  deriving DecidableEq, Repr, Inhabited

/-- A hardware loop (R132). -/
structure Loop where
  start : Nat
  last  : Nat
  left  : Nat
  deriving DecidableEq, Repr, Inhabited

/-- Stream operations (Table 8.9). -/
inductive StreamOp
  | rd | wr | gather
  deriving DecidableEq, Repr, Inhabited

/-- One piece of a stream tile: remote address, local address, bytes. -/
structure Piece where
  remote : Nat
  loc    : Nat
  len    : Nat
  deriving DecidableEq, Repr, Inhabited

/-- A busy stream slot (R137–R139): the tiles left, the lines the first was translated to, its fault. -/
structure Stream where
  op     : StreamOp
  /-- true: core store (SPACE 1) -/
  core   : Bool
  tiles  : List (List Piece)
  refs   : Option (List LineRef)
  fault  : Option Nat
  /-- MSEQ that must be acknowledged before a write slot completes (R139) -/
  mseq   : Nat
  deriving DecidableEq, Repr, Inhabited

/-- One engine (Table 7.1). -/
structure Engine where
  /-- s0–s31 (32 × 64 bits; 07 Table 7.1; DESIGN CHOICE 0, log 7) -/
  s : NMap (BitVec 64)
  /-- v0–v31 (32 × 8,192 bits; 07 Table 7.1; DESIGN CHOICE 0, log 7) -/
  v : NMap VReg
  /-- p0–p7 (8 × 256 bits; 07 Table 7.1; DESIGN CHOICE 0, log 7) -/
  p : NMap (BitVec 256)
  /-- a0, a1 (2 × 32,768 bits; 07 Table 7.1; DESIGN CHOICE 0, log 7) -/
  acc : NMap (BitVec 32768)
  /-- engine store by 64-byte line (2 MiB; 07 R118; DESIGN CHOICE 0, log 7) -/
  store : NMap Line
  /-- engine-store words with a detected uncorrectable error, by 8-byte word (07 R118; none) -/
  badWords : List Nat
  /-- VSTAT (32 bits; 07 Table 7.9; 0) -/
  vstat : BitVec 32
  /-- cycle counter (64 bits; 07 scalar unit; 0) -/
  cycles : Nat
  /-- next bundle (14 bits; 08 R131; 0) -/
  pc : Nat
  /-- return stack (8 entries; 08 R132; empty) -/
  ret : List Nat
  /-- active loops, innermost first (4; 08 R132; none) -/
  loops : List Loop
  /-- stream slots t0–t7 (8; 07 Table 7.1; idle) -/
  slots : NMap Stream
  /-- results in flight (07 R117; none) -/
  pend : List Pend
  /-- cycle at which the array, special-function and sort units accept again (07 Table 7.4; 0) -/
  arrayFree : Nat
  sfuFree : Nat
  sortFree : Nat
  /-- work item the engine runs (07 R121; none) -/
  work : Option Nat
  /-- reached EBAR (1) or GBAR (2) and waits (08 R133; 0) -/
  barrier : Nat
  /-- HALT issued, waiting for slots (08 R133; 0) -/
  halting : Bool
  /-- ended (08 R133; 0) -/
  ended : Bool
  /-- KCODE of its HALT (16 bits; 08 Table 8.17; 0) -/
  kcode : Nat
  /-- deckle of its last launch (12 bits; 08 R145; none) -/
  lastDeckle : Option Nat
  deriving DecidableEq, Repr

/-- One core (Table 1.2). -/
structure Core where
  /-- CORES bit (1 bit; 02 Table 2.6; 0) -/
  ready : Bool
  /-- core store by 64-byte line (32 MiB; 07 R119; DESIGN CHOICE 0, log 7) -/
  store : NMap Line
  /-- owner work item of each window (16; 07 R119; none) -/
  winWork : NMap Nat
  /-- deckle of each window's last launch (12 bits; 07 R119; none) -/
  winDeckle : NMap Nat
  /-- windows given to context spill and still waiting to change (07 R119; 1) -/
  spill : Nat
  spillTarget : Nat
  /-- engine clock step in MHz (7 steps; 07 R122; DESIGN CHOICE 600, log 8) -/
  clock : Nat
  /-- step waiting for its rail (20 R342; none) -/
  clockTarget : Option Nat
  /-- resident contexts, most recent first (512; 09 R152; none) -/
  resident : List Nat
  /-- corrected store errors (07 R118; 0) -/
  corrected : Nat
  deriving DecidableEq, Repr

/-- What a work item is. -/
inductive WorkBody
  | launch (b : LaunchB)
  | open_ (b : AttnOpenB)
  | append (b : AttnAppendB)
  | step (b : AttnStepB)
  | close (b : AttnCloseB) (op : Nat)
  | topk (b : TopkB) (i : IndexB) (r : Option IndexB)
  | rdf (tag : Nat) (f : FormProg) (bind : FormBind)
  deriving DecidableEq, Repr, Inhabited

/-- Progress of a work item. -/
inductive WorkState
  | energyQueued | queued | running
  deriving DecidableEq, Repr, Inhabited

/-- A WORK item or formed read between admission and completion. -/
structure Work where
  body   : WorkBody
  deckle : Nat
  ep     : Nat
  cplEp  : Nat
  ctag   : Nat
  cls    : Nat
  /-- Calender queue, 60 the yellow queue -/
  queue  : Nat
  /-- energy admission coloured it yellow (R269) -/
  yellow : Bool
  state  : WorkState
  /-- cores it runs on and engines per core -/
  cores  : List Nat
  engines : Nat
  started : Nat
  capNs  : Nat
  /-- charged estimate in pJ (R269) -/
  est    : Nat
  tiles  : Nat
  /-- first stopping cause committed: status, DETAIL -/
  cause  : Option (Status × Nat)
  /-- next item of a built-in kernel's list (R149), or tiles a formed read has sent -/
  pos    : Nat := 0
  /-- items of its list skipped (Table 8.21 RESULT0) -/
  skipped : Nat := 0
  /-- highest MSEQ its writes produced -/
  mseq   : Nat := 0
  /-- messages of its sequence it waits for (R157) -/
  after  : List Nat
  /-- its completion and ENERGY_NJ, waiting for the standby's apply (R164, R191) -/
  ready  : Option (Nat × Nat) := none
  deriving DecidableEq, Repr, Inhabited

/-- Engines, kernels and work items. -/
structure Eng where
  /-- cores 0–31 (07 The core; each at its reset) -/
  cores : NMap Core
  /-- engines by core × 16 + engine (512; 07 Table 7.1; each at its reset) -/
  engines : NMap Engine
  /-- loaded kernels by handle (8–; 08 R142; none) -/
  kernels : NMap Kernel
  /-- last kernel handle given (32 bits; 08 R142; 7, log 4) -/
  lastKernel : Nat
  /-- work items (07 R121, 08 R143; none) -/
  work : NMap Work
  /-- next work number, the model's own (0; log 5) -/
  nextWork : Nat
  /-- engines reserved for laid forming: core and count (07 R121, 16 R284; none) -/
  reserved : NMap Nat
  deriving DecidableEq, Repr

/-- Attention state. -/
structure Attn where
  /-- open sequence contexts by handle (4,194,304; 09 R154; none) -/
  seqs : NMap SeqCtx
  /-- last SEQ given (32 bits; 09 R154; 0, log 4) -/
  lastSeq : Nat
  deriving DecidableEq, Repr

/-- A part in the adapter cache or loading (R173). -/
structure CachePart where
  mapUid : Nat
  adapter : Nat
  layer  : Nat
  tensor : Nat
  /-- owner of the map, and the deckle whose work started the load -/
  owner  : Nat
  payer  : Nat
  /-- PVA and bytes of B and of A, each rounded up to 64 bytes -/
  bPva   : Nat
  bBytes : Nat
  aPva   : Nat
  aBytes : Nat
  loaded : Bool
  /-- its registration has ended; it stays while admitted work uses it -/
  gone   : Bool := false
  /-- content once loaded: B, then A -/
  data   : List Line := []
  deriving DecidableEq, Repr, Inhabited

/-- Forming state. -/
structure Form where
  /-- live maps by MAP_UID (1,024; 10 R167; none) -/
  maps : NMap MMap
  /-- registered adapters (262,144; 10 R172; none) -/
  adapters : List Adapter
  /-- adapter cache, most recently used first (512 MiB at least; 10 R173; empty) -/
  cache : List CachePart
  deriving DecidableEq, Repr

/-- Retrieval state. -/
structure Retr where
  /-- live indexes by handle (4,096; 11 R182; none) -/
  indexes : NMap IndexB
  /-- last index handle given (32 bits; 11 R182; 0, log 4) -/
  lastIndex : Nat
  deriving DecidableEq, Repr

/-! ## Couch engines (chapter 12) -/

/-- An RD sent for a REMOTE tile (R242): its TAG, its lines, and their data once answered. -/
structure RemoteRd where
  tag   : Nat
  lines : Nat
  data  : Option (List Line)
  deriving DecidableEq, Repr, Inhabited

/-- A tile of a couch descriptor that has been issued (R199): to be translated, translated, waiting
on a fault record, read from a remote device, pushed, or waiting for its retry. -/
inductive TileState
  | waiting
  | translated (src dst : List LineRef)
  | faulted (f : Nat)
  | reading (reqs : List RemoteRd) (sent : Nat)
  | pushed (tag sent : Nat)
  | failed (st : Status) (retryAt : Nat)
  deriving DecidableEq, Repr, Inhabited

/-- A descriptor that a channel is running (R197–R205). -/
structure DescRun where
  d      : Desc
  /-- PVA it was read from; none when inline -/
  pva    : Option Nat
  /-- next tile to issue, and the issued tiles that have not landed -/
  next   : Nat
  tiles  : NMap TileState
  retriesLeft : Nat
  retriesUsed : Nat
  landed : Nat
  bytes  : Nat
  /-- program and binding, when SRC_KIND is FORM -/
  formed : Option FormBind
  prog   : Option FormProg
  /-- status its adapter part failed to load with (R181) -/
  broken : Option Status
  /-- highest MSEQ its writes produced (R203) -/
  mseq   : Nat
  /-- charged estimate in pJ, and its colour -/
  est    : Nat
  yellow : Bool
  deriving DecidableEq, Repr, Inhabited

/-- A couch chain (R195). -/
structure Chain where
  deckle : Nat
  ep     : Nat
  cplEp  : Nat
  ctag   : Nat
  cls    : Nat
  /-- Calender queue -/
  queue  : Nat
  inl    : Option Desc
  /-- PVA of the next descriptor -/
  next   : Nat
  run    : Option DescRun
  ended  : Nat
  bad    : Nat
  revoked : Nat
  tiles  : Nat
  bytes  : Nat
  lastTag : Nat
  /-- measured energy of its descriptors -/
  nj     : Nat
  deriving DecidableEq, Repr, Inhabited

/-- A couch channel (R194). -/
structure Channel where
  cur   : Option Chain
  queue : List Chain
  deriving DecidableEq, Repr, Inhabited

/-- Couch state. -/
structure Couch where
  /-- core channels by core × 8 + channel (256; 12 R194; idle) -/
  chans : NMap Channel
  /-- hub channels in use (16; 12 R194; 0) -/
  hubBusy : Nat
  /-- next push or read TAG (16 bits; 14 R245; 0, log 4) -/
  nextTag : Nat
  deriving DecidableEq, Repr

/-! ## Link layer (chapter 13) -/

/-- Training states (Table 13.8), and the wait after going down (R227). -/
inductive Train
  | off | detect | equalise | align | param | start | keying | active | down
  deriving DecidableEq, Repr, Inhabited

/-- A stored DATA flit (R219): what it carries is the packet ends it acknowledges. -/
structure Flit where
  seq    : Nat
  vc     : Nat
  fill   : Nat
  enc    : Bool
  epoch  : Bool
  counter : Nat
  ackReq : Bool
  /-- replays counted, and those since the last fast retrain (R222, R227) -/
  replays : Nat
  since  : Nat
  /-- packets whose last byte it carries: an event is delivered when its packet is acknowledged (R30) -/
  ends   : List Msg
  deriving DecidableEq, Repr, Inhabited

/-- A stored sequenced bypass flit (R223). -/
structure BFlit where
  seq  : Nat
  hdr  : BypassHdr
  slots : List Slot
  replays : Nat
  since : Nat
  deriving DecidableEq, Repr, Inhabited

/-- WF2Q+ state of a queue on a port (R260), in units of 2^-16 byte per unit of weight. -/
structure WfqTag where
  s : Nat
  f : Nat
  backlogged : Bool
  deriving DecidableEq, Repr, Inhabited

/-- What a port last sent, as seen on the wire. -/
inductive Sent
  | nothing
  | idle
  | data (f : Flit) (isReplay : Bool)
  | bypassFlit (b : BypassHdr) (slots : List Slot)
  deriving DecidableEq, Repr, Inhabited

/-- One Jalyx port (chapter 13). -/
structure Port where
  /-- training state (13 Table 13.8; off until DETECT begins, R353) -/
  train : Train
  /-- a full training is under way (1 bit; 13 Table 13.8; 1) -/
  full : Bool
  /-- lanes that passed ALIGN (8 bits; 13 R226; 0) -/
  lanes : Nat
  /-- active lanes (8 bits; 13 R226; 0) -/
  active : Nat
  /-- width in force (4 bits; 13 Table 13.1; 0) -/
  width : Nat
  /-- width before the retrain (4 bits; 13 Table 13.10; 0) -/
  oldWidth : Nat
  /-- width requested in the RETRAIN (4 bits; 13 R226; 0) -/
  reqWidth : Nat
  /-- cause of the retrain (4 bits; 13 Table 13.10; 0) -/
  cause : Nat
  /-- time the retrain began (64 bits ns; 13 Table 13.10; 0) -/
  retrainAt : Nat
  /-- time the last fast retrain ended (64 bits ns; 13 R227; none) -/
  lastRetrain : Option Nat
  /-- RETRAINS (16 bits; 13 Table 13.10; 0) -/
  retrains : Nat
  /-- time it last became ACTIVE (64 bits ns; 18 R315; 0) -/
  activeAt : Nat
  /-- time it went down (64 bits ns; 13 R227; 0) -/
  downAt : Nat
  /-- partner's PARAM_A (13 Table 13.5; none) -/
  partner : Option ParamA
  /-- partner's PARAM_A and PARAM_B received in this training (13 R224, R226; 0) -/
  gotA : Bool
  gotB : Bool
  /-- ACK_TIMER in force (10 bits ns; 13 Table 13.7; 80) -/
  ackTimer : Nat
  /-- REPLAY_LIMIT in force (4 bits; 13 Table 13.7; 4) -/
  replayLimit : Nat
  /-- DOWN_WINDOW in force (10 bits ms; 13 Table 13.7; 10) -/
  downWindow : Nat
  /-- next new DATA SEQ (16 bits; 13 R219; 0) -/
  txSeq : Nat
  /-- expected DATA SEQ E (16 bits; 13 R219; 0) -/
  rxSeq : Nat
  /-- main replay buffer, oldest first (2,048 flits; 13 R219; empty) -/
  replay : List Flit
  /-- flits still to be retransmitted of a replay (13 R222; none) -/
  replayLeft : List Nat
  /-- RSTART to be sent (13 R222; none) -/
  rstart : Option Nat
  /-- next new BSEQ (8 bits; 13 R223; 0) -/
  txB : Nat
  /-- expected BSEQ (8 bits; 13 R223; 0) -/
  rxB : Nat
  /-- bypass replay buffer (64; 13 R223; empty) -/
  breplay : List BFlit
  /-- bypass flits still to be retransmitted (13 R223; none) -/
  breplayLeft : List Nat
  /-- accepted DATA flits not acknowledged (13 R220; 0) -/
  unacked : Nat
  /-- time of the oldest of them (64 bits ns; 13 R220; 0) -/
  unackedAt : Nat
  /-- an acknowledgement is due at the next bypass opportunity (13 R220; 0) -/
  ackDue : Bool
  /-- a NAK is due (13 R221; 0) -/
  nakDue : Bool
  /-- a NAK was sent and the receiver may not NAK again, and since when (13 R221; none) -/
  nakSent : Option Nat
  /-- bypass acknowledgement and NAK due (13 R223; 0) -/
  backDue : Bool
  bnakDue : Bool
  bnakSent : Option Nat
  /-- newest acknowledged DATA and bypass flit (13 R222; none) -/
  ackedTo : Option Nat
  backedTo : Option Nat
  /-- time of the last acknowledgement progress, DATA and bypass (13 R222; 0) -/
  progressAt : Nat
  bprogressAt : Nat
  /-- transmit credits per VC (6 × 16 bits; 13 R214; 0) -/
  txCred : List Nat
  /-- credits the partner holds per VC (6 × 16 bits; 13 R214; 0) -/
  rxHeld : List Nat
  /-- receive buffer occupied per VC (6; 13 R217; 0) -/
  rxUsed : List Nat
  /-- credits owed per VC (6; 13 R218; 0) -/
  owed : List Nat
  /-- encrypted (1 bit; 13 R232; 0) -/
  encrypted : Bool
  /-- keyed without authentication (1 bit; 19 R329; 0) -/
  unauth : Bool
  /-- KEYX running since (64 bits ns; 13 R232; none) -/
  keyx : Option Nat
  /-- epoch of the KEYX this port sent and the partner's, not yet processed because the hub or the security block is not ready (13 R231, R233; none) -/
  keyxSent : Option Nat
  keyxGot : Option KeyxMsg
  /-- a flit of the newest key epoch was accepted (1 bit; 13 R235; 0) -/
  rxSwitched : Bool
  /-- link key epoch in force for transmit (8 bits; 13 R233; 0) -/
  epoch : Nat
  /-- link keys present: epochs held in the port's key registers (13 R235, 19 R323; none) -/
  keys : List Nat
  /-- DATA flits first sent under the current key (64 bits; 13 R234; 0) -/
  keyCount : Nat
  /-- packets waiting for egress, arrival order (15 R258; empty) -/
  txq : List Egress
  /-- bypass slots waiting to be sent (13 R209; empty) -/
  bq : List Slot
  /-- what the port last sent (13 R209; nothing) -/
  sent : Sent
  /-- regular flits since the last bypass flit (13 R209; 0) -/
  sinceBypass : Nat
  /-- virtual time V (15 R260; 0) -/
  vtime : Nat
  /-- queue tags (15 R260; 0) -/
  tags : NMap WfqTag
  /-- packets and flits discarded and counted: check 1–2, unmatched answers, rsvd slots, LEASE ignored, lost responses, VC2, (13 R213, R230, 14 R244, R247, R249, R255; 0) -/
  discarded : Nat
  unmatched : Nat
  rsvdSlots : Nat
  leaseIgnored : Nat
  lostRsp : Nat
  vc2Discards : Nat
  /-- own identifier on the partner, a pool device (14 R242; none) -/
  ownEp : Option Nat
  /-- a claim is waiting for its EP_ASSIGN (14 R242; 0) -/
  claiming : Bool
  /-- identifier given to the partner's device endpoint (14 R242; none) -/
  peerEp : Option Nat
  /-- EV_READY of this ACTIVE waits for the partner's claim, since (14 R242; none) -/
  peerWait : Option Nat
  /-- REMOTE_DECKLEs named since the port trained (14 R242; none) -/
  remoteDeckles : List Nat
  /-- last peer-delay round trips, newest first (16; 16 R279; none) -/
  trips : List Nat
  /-- link delay in 2^-16 ns (16 R279; none) -/
  delay : Option Nat
  /-- HOPS and arrival of the last SYNC seen on the port (16 R279; none) -/
  hops : Option Nat
  deriving DecidableEq, Repr

/-- Link state. -/
structure Links where
  /-- ports 0–63; an unlisted port is at its reset (13 R208) -/
  ports : NMap Port
  /-- trust table: link identity to Ed448 key (4,096; 19 R329; empty) -/
  trust : NMap Nat
  /-- STRICT (1 bit; 19 R329; 0) -/
  strict : Bool
  /-- LEASE messages with no lease, per port counted (04 Leases; 0) -/
  leaseNoLease : NMap Nat
  deriving DecidableEq, Repr

/-! ## Calender (chapter 15) -/

/-- Emergency causes (Table 15.8). -/
structure Emergency where
  cause : Nat
  start : Nat
  /-- consecutive periods below 90 % of POWER_CAP -/
  below : Nat
  /-- since when every sensor is at or below 100 °C -/
  coolSince : Option Nat
  deriving DecidableEq, Repr, Inhabited

/-- Scheduling, shaping, energy and power state. -/
structure Cal where
  /-- weights of queues 4–59 that differ from 64 (10 bits; 15 R262; 64) -/
  weights : NMap Nat
  /-- policers by port × 64 + queue that differ from R264's (15 R264; enabled, 185,000 MB/s, 67,108,864 bytes, full) -/
  policers : NMap Bucket
  /-- shapers by port × 64 + queue (15 R264; disabled) -/
  shapers : NMap Bucket
  /-- device energy totals per kind, in pJ (64 bits of µJ; 15 Table 15.5; 0) -/
  kinds : List Nat
  /-- activity of the device's own work since the last ledger interval by kind, pJ (15 R270; 0) -/
  activity : NMap Nat
  /-- ledger coefficients, thousandths of the nominal (15 R270; 1,000) -/
  coef : List Nat
  /-- time of the last ledger interval (64 bits ns; 15 R270; 0) -/
  ledgerAt : Nat
  /-- POWER_CAP (11 bits W; 15 Table 15.6; 1,400) -/
  capW : Nat
  /-- a cap waiting for the next period (15 R273; none) -/
  capNext : Option Nat
  /-- static power of the last period (16 bits W; 15 R272; DESIGN CHOICE 0, log 8) -/
  staticW : Nat
  /-- package power over the last period (16 bits W; 02 Table 2.13; DESIGN CHOICE 0, log 8) -/
  powerW : Nat
  /-- planned deferrable power (16 bits W; 15 R272; 0) -/
  deferW : Nat
  /-- consecutive periods above POWER_CAP (2 bits; 15 R274; 0) -/
  above : Nat
  /-- engine-clock ceiling in MHz (7 steps; 15 R272; DESIGN CHOICE 600, log 8) -/
  ceiling : Nat
  /-- emergency in force (15 R274; none) -/
  emergency : Option Emergency
  /-- hardware clock floor engaged (1 bit; 15 R274; 0) -/
  floor : Bool
  /-- clock floor engaged by a wedge (1 bit; 15 R277; 0) -/
  wedgeFloor : Bool
  deriving DecidableEq, Repr

/-! ## Laid schedule and domain time (chapter 16) -/

/-- Time states (Table 16.3). -/
inductive TState
  | free | locked | holdover
  deriving DecidableEq, Repr, Inhabited

/-- Domain time and laid tables. -/
structure Laid where
  /-- domain time, in 2^-16 ns (80 bits; 16 R278; 0) -/
  time : Nat
  /-- domain time counts (16 R278, 20 R353; 0 until the PLLs lock) -/
  counting : Bool
  /-- ROLE (2 bits; 16 R278; 0 follower) -/
  role : Role
  /-- AUTO_PORT (1 bit; 16 R278; 1) -/
  autoPort : Bool
  /-- fixed upstream port (6 bits; 16 Table 16.2; 0) -/
  fixedPort : Nat
  /-- upstream port in use (6 bits; 16 R279; 0) -/
  upstream : Nat
  /-- PPS_NS assigned to the next edge (64 bits; 16 Table 16.2; none) -/
  ppsNs : Option Nat
  /-- STATE (2 bits; 16 Table 16.3; 0 FREE) -/
  state : TState
  /-- own HOPS (4 bits; 16 R279; 15) -/
  hops : Nat
  /-- CONFLICT seen at (64 bits ns; 16 R280; none) -/
  conflictAt : Option Nat
  /-- OFFSET_PS, signed, in ps (32 bits; 16 Table 16.3; 0) -/
  offsetPs : Int
  /-- LAST_SYNC_NS (64 bits; 16 Table 16.3; 0) -/
  lastSync : Nat
  /-- local time of the last accepted SYNC, or of becoming a follower (64 bits ns; 16 R281; 0) -/
  syncAt : Nat
  /-- time at which HOLDOVER began (64 bits ns; 16 R286; none) -/
  holdoverAt : Option Nat
  /-- table slots 0 and 1 (16 R284; empty) -/
  tables : NMap LaidTable
  /-- active slot (16 R285; none) -/
  active : Option Nat
  /-- pending slot (16 R285; none) -/
  pendSlot : Option Nat
  /-- a STOP is accepted for this time (16 R285; none) -/
  stopAt : Option Nat
  deriving DecidableEq, Repr

/-! ## Pair (chapter 18) -/

/-- Pair states (Table 18.9). -/
inductive PState
  | none | armed | syncing | inSync | linkLost | resyncing | fenced
  deriving DecidableEq, Repr, Inhabited

/-- Pair roles. -/
inductive PRole
  | none | active | standby
  deriving DecidableEq, Repr, Inhabited

/-- A record of the mirror stream (R309). -/
structure MirRec where
  mseq : Nat
  msg  : Msg
  port : Nat
  deriving DecidableEq, Repr, Inhabited

/-- A witness and its latest REPORT on the standby (R317). -/
structure Witness where
  ep   : Nat
  lost : Bool
  at_  : Nat
  lostNs : Nat
  deriving DecidableEq, Repr, Inhabited

/-- A link request of which mirrored lines have arrived (Table 18.7): its endpoint, TAG and deckle, and the
MSEQ of its last record. -/
structure LinkReq where
  ep     : Nat
  rtag   : Nat
  deckle : Nat
  mseq   : Nat
  deriving DecidableEq, Repr, Inhabited

/-- A partner line fetch in flight (R311). -/
structure Fetch where
  tier : Tier
  line : Nat
  deriving DecidableEq, Repr, Inhabited

/-- Pair state. -/
structure Pair where
  /-- STATE (3 bits; 18 Table 18.9; 0 NONE) -/
  state : PState
  /-- ROLE (2 bits; 18 Table 18.9; 0 none) -/
  role : PRole
  /-- partner's link identity (64 bits; 18 Table 18.9; 0) -/
  partnerId : Nat
  /-- what the armed partner said of itself (18 R305; none) -/
  partner : Option PartnerInfo
  /-- RESYNC_SHARE (7 bits; 18 Table 18.1; 25) -/
  share : Nat
  /-- time of ARM (64 bits ns; 18 R305; 0) -/
  armedAt : Nat
  /-- TERM (32 bits; 18 R318; 0) -/
  term : Nat
  /-- MSEQ last sent, or last applied on a standby (64 bits; 18 R309; 0) -/
  mseq : Nat
  /-- last acknowledged MSEQ (64 bits; 18 R310; 0) -/
  acked : Nat
  /-- time of the last MIR_ACK advance, or of the first record since all were acknowledged (64 bits ns; 18 R315; 0) -/
  ackedAt : Nat
  /-- retention buffer, oldest first (8 MiB; 18 R310; empty) -/
  retained : List MirRec
  /-- records not yet applied on a standby, with their arrival (18 R309; none) -/
  early : NMap (Msg × Nat)
  /-- highest MSEQ a MIR_ACK has gone out for (64 bits; 18 R310; 0) -/
  ackSent : Nat
  /-- an acknowledgement is owed (18 R310; 0) -/
  ackOwed : Bool
  /-- since when it is owed (64 bits ns; 18 R310; 0) -/
  owedAt : Nat
  /-- time of the last good heartbeat, local and domain time (64 bits ns; 18 R312, R317; 0) -/
  lastHb : Nat
  lastHbDom : Nat
  /-- time of the last heartbeat sent (64 bits ns; 18 R312; 0) -/
  hbAt : Nat
  /-- DETACHED (1 bit; 18 R316; 0) -/
  detached : Bool
  /-- the initial sync has resync kind (18 Table 18.10; 0) -/
  resync : Bool
  /-- copy cursor: physical data address per tier reached (18 R308; 0) -/
  copyAt : Nat
  /-- bytes copied (64 bits; 18 Table 18.10; 0) -/
  copied : Nat
  /-- a standby has been IN_SYNC since its last full copy began (18 R320; 0) -/
  synced : Bool
  /-- MSEQ a standby must apply to be IN_SYNC: the copy has ended (18 R308; none) -/
  syncEnd : Option Nat
  /-- MSEQ a standby must apply before it promotes: PROMOTE came in MIR_CTRL (18 R320; none) -/
  promoteAfter : Option Nat
  /-- lines a standby has applied of the request in progress, by cell key (18 R309; none) -/
  reqLines : List Nat
  /-- time role and laid slots of the active: ROLE, active slot, pending slot, STOP time (18 Table 18.7; follower, none) -/
  laidRun : Role × Option Nat × Option Nat × Option Nat
  /-- start of the copy (64 bits ns; 18 Table 18.10; 0) -/
  copyStart : Nat
  /-- witnesses (8; 18 R314; none) -/
  witnesses : List Witness
  /-- latest health report and its arrival (18 R313; none) -/
  health : Option (Health × Nat)
  /-- time of the last health report sent, on the active of the last one received or of becoming active (64 bits ns; 18 R313; 0) -/
  reportAt : Nat
  /-- grade last reported: 0 GREEN, 1 YELLOW, 2 RED, 3 no report (2 bits; 18 R313; 0) -/
  grade : Nat
  /-- failed marks of the self-test: cores, lanes, hub, security, patrol late (18 Table 18.4; none) -/
  badCores : List Nat
  badLanes : List Nat
  hubBad : Bool
  secBad : Bool
  patrolLate : Bool
  /-- PROMOTES_IGNORED (32 bits; 18 R317; 0) -/
  promotesIgnored : Nat
  /-- SINCE_NS (64 bits; 18 Table 18.9; 0) -/
  since : Nat
  /-- a promotion is under way: its CAUSE and GUARANTEE (18 R318; none) -/
  promoting : Option (Nat × Bool)
  /-- time of the promoting condition (64 bits ns; 18 R318; 0) -/
  promoteAt : Nat
  /-- deadline of a handover's drain; while it is set the device admits nothing (18 R320; none) -/
  handover : Option Nat
  /-- the final MSEQ has been sent in a handover (1 bit; 18 R320; 0) -/
  handed : Bool
  /-- reply of the PAIR_FORM, HANDOVER or FORCE that waits for the partner or the promotion (18 R305, R320; none) -/
  reply : Option Nat
  /-- heartbeats carry PROMOTE (18 R317; 0) -/
  promoteHb : Bool
  /-- fetches in flight (18 R311; none) -/
  fetches : List Fetch
  /-- mirrored mailbox requests of the active by reply number (18 R309, log 53; none) -/
  requests : NMap Outst
  /-- mirrored WORK items of the active (18 Table 18.7, log 53; none) -/
  items : List ItemRec
  /-- link requests whose MIR_DATA arrived and that may be unanswered (18 Table 18.7, log 54; none) -/
  linkReqs : List LinkReq
  deriving DecidableEq, Repr

/-! ## Security (chapter 19) -/

/-- A debug session (R332): its deadline and whether it was opened through the TAP. -/
structure DebugS where
  deadline : Nat
  jtag : Bool
  deriving DecidableEq, Repr, Inhabited

/-- Security state. -/
structure Sec where
  /-- security block ready (1 bit; 02 Table 2.6; 0) -/
  ready : Bool
  /-- serial number of the last memory key generated, the model's own (0; log 9) -/
  lastKey : Nat
  /-- memory keys in the key store by serial (19 R323; none) -/
  keys : List Nat
  /-- pair key present (1 bit; 19 Table 19.1; 0) -/
  pairKey : Bool
  /-- operator kernel key (57 bytes; 19 R328; none) -/
  operatorKey : Option Nat
  /-- debug session (19 R332; none) -/
  session : Option DebugS
  /-- DEBUG_EVER (1 bit; 19 R332; 0) -/
  debugEver : Bool
  /-- JTAG_EVER (1 bit; 19 R332; 0) -/
  jtagEver : Bool
  /-- DEBUG_SESSIONS (16 bits; 19 R332; 0) -/
  sessions : Nat
  deriving DecidableEq, Repr

/-! ## Package (chapter 20) -/

/-- TAP instructions (Table 20.10). -/
inductive TapIr
  | extest | idcode | samplePreload | clamp | highz | dbgOpen | dbgClose | dbgMbx | bypass
  deriving DecidableEq, Repr, Inhabited

/-- Pins, sensors, sideband interfaces and the TAP. -/
structure Pkg where
  /-- COLD_RST_N is low or PG_AON deasserted (1 bit; 20 R345; 1 until the release) -/
  coldLow : Bool
  /-- WARM_RST_N is low (1 bit; 20 R345; 0) -/
  warmLow : Bool
  /-- time of the last reset release (64 bits ns; 20 R353; 0) -/
  releasedAt : Nat
  /-- analogue PLLs locked (1 bit; 20 R353; 0) -/
  pll : Bool
  /-- HEALTH_OK (1 bit; 20 R346; 0) -/
  healthOk : Bool
  /-- ALERT_N asserted (1 bit; 20 R346; 0) -/
  alert : Bool
  /-- THERM_TRIP_N asserted (1 bit; 20 R347; 0) -/
  thermTrip : Bool
  /-- trip latched (1 bit; 20 R347; 0) -/
  tripped : Bool
  /-- trip record, thermal and supply (2 bits; 20 R345; 0) -/
  recThermal : Bool
  recSupply : Bool
  /-- the trip record has been kept through one cold reset (1 bit; 20 R345; 0) -/
  recKept : Bool
  /-- sensor readings in 0.125 °C (96 × 16 bits; 20 R347; DESIGN CHOICE 0, log 8) -/
  sensors : List Nat
  /-- VDD_ENG0–7 set points in mV (8; 20 Table 20.3; 600) -/
  vddEng : List Nat
  /-- VSET settings not acknowledged, per rail (20 R342; none) -/
  vsetWait : NMap Nat
  /-- TIME_PPS_OUT pulses sent (20 Table 20.6; 0) -/
  ppsOut : Nat
  /-- I3C dynamic address (7 bits; 20 R350; none) -/
  i3cAddr : Option Nat
  /-- TAP instruction register (8 bits; 20 R351; IDCODE) -/
  ir : TapIr
  /-- boundary register (20 R351; DESIGN CHOICE 0, log 8) -/
  boundary : Nat
  /-- EV_READY of the hub was raised since firmware start (1 bit; 20 R354; 0) -/
  hubAnnounced : Bool
  /-- what the last I3C private read returned, none when it was NACKed (20 R350; none) -/
  i3cRead : Option MbxRsp
  /-- request shifted in by DBG_MBX and not yet served (2,048 bits; 20 R351; none) -/
  tapReq : Option Instr
  /-- boundary outputs driven from the register (20 R351; 0) -/
  driving : Bool
  /-- outputs in high impedance (20 R351; 0) -/
  hiZ : Bool
  /-- data captured for TDO: the selected register's length and value (20 Table 20.10; IDCODE) -/
  capture : Nat × Nat
  /-- response to the last DBG_MBX served, and the one its next DBG_MBX captured (256 bytes; 20 R351; none) -/
  tapRsp : Option MbxRsp
  tapOut : Option MbxRsp
  /-- functions ready and not yet announced, in order: EV_READY parameters (20 R354; none) -/
  readyWait : List Nat
  /-- answer sent just before the last BR_RESET DEVICE, with its port (02 R28, R38; none) -/
  resetAnswer : Option (Nat × MbxRsp)
  /-- clock stretches seen per island (01 R11; 0) -/
  stretches : Nat
  deriving DecidableEq, Repr

/-! ## The whole device -/

/-- The KX-9640. -/
structure State where
  /-- commands waiting, first in first out (the model's command queue; empty) -/
  pending : List Instr
  /-- local time in ns since the reset release (64 bits; 20 R353; 0, log 10) -/
  now : Nat
  /-- the model's own counter that free values are drawn with (log 11; 0) -/
  free : Nat
  board : Board
  hub : Hub
  mbx : Mbx
  mem : Mem
  part : Part
  rgn : Rgn
  lode : Lodes
  xlat : Xlat
  eng : Eng
  attn : Attn
  form : Form
  retr : Retr
  couch : Couch
  link : Links
  cal : Cal
  laid : Laid
  pair : Pair
  sec : Sec
  pkg : Pkg
  deriving DecidableEq, Repr

/-! ## Reset values -/

/-- The port at reset (R227, R353): not yet in DETECT. -/
def Port.reset : Port where
  train := .off
  full := true
  lanes := 0
  active := 0
  width := 0
  oldWidth := 0
  reqWidth := 0
  cause := 0
  retrainAt := 0
  lastRetrain := none
  retrains := 0
  activeAt := 0
  downAt := 0
  partner := none
  gotA := false
  gotB := false
  ackTimer := 80
  replayLimit := 4
  downWindow := 10
  txSeq := 0
  rxSeq := 0
  replay := []
  replayLeft := []
  rstart := none
  txB := 0
  rxB := 0
  breplay := []
  breplayLeft := []
  unacked := 0
  unackedAt := 0
  ackDue := false
  nakDue := false
  nakSent := none
  backDue := false
  bnakDue := false
  bnakSent := none
  ackedTo := none
  backedTo := none
  progressAt := 0
  bprogressAt := 0
  txCred := [0, 0, 0, 0, 0, 0]
  rxHeld := [0, 0, 0, 0, 0, 0]
  rxUsed := [0, 0, 0, 0, 0, 0]
  owed := [0, 0, 0, 0, 0, 0]
  encrypted := false
  unauth := false
  keyx := none
  keyxSent := none
  keyxGot := none
  rxSwitched := false
  epoch := 0
  keys := []
  keyCount := 0
  txq := []
  bq := []
  sent := .nothing
  sinceBypass := 0
  vtime := 0
  tags := []
  discarded := 0
  unmatched := 0
  rsvdSlots := 0
  leaseIgnored := 0
  lostRsp := 0
  vc2Discards := 0
  ownEp := none
  claiming := false
  peerEp := none
  peerWait := none
  remoteDeckles := []
  trips := []
  delay := none
  hops := none

/-- An engine at reset. -/
def Engine.reset : Engine where
  s := []
  v := []
  p := []
  acc := []
  store := []
  badWords := []
  vstat := 0#32
  cycles := 0
  pc := 0
  ret := []
  loops := []
  slots := []
  pend := []
  arrayFree := 0
  sfuFree := 0
  sortFree := 0
  work := none
  barrier := 0
  halting := false
  ended := false
  kcode := 0
  lastDeckle := none

/-- A core at reset. -/
def Core.reset : Core where
  ready := false
  store := []
  winWork := []
  winDeckle := []
  spill := 1
  spillTarget := 1
  clock := 600
  clockTarget := none
  resident := []
  corrected := 0

/-- The parity group of `n` data-and-parity positions at reset (R40, R303). -/
def Group.reset (n : Nat) : Group where
  ready := false
  posMap := List.range n
  lost := []
  failed := []
  spareFree := true
  rebuilding := false
  cursor := 0
  rebuildStart := 0
  sealed := false
  sealCursor := 0
  lostLines := 0

/-- The board of a fully populated KX-9640-H (Table 3.1); what the part fixes, see log 1. -/
def Board.reset : Board where
  orderH := true
  deviceId := 1
  far := List.replicate 4 ⟨true, 1, 1, 1024, true⟩
  fusedMinSec := 0
  raises := 0
  production := true
  addrSel := 0
  coreOffsetMv := 0

def Hub.reset : Hub where
  phase := .bootRom
  ready := false
  stagingReady := false
  bedrockReady := false
  loader := none
  windowOpen := true
  verifying := none
  fillAtStart := false
  running := none
  slotB := false
  staged := none
  autoPending := false
  activation := none
  lastStatus := .ok
  fwStart := 0
  wedgeMs := 1000
  wedges := 0
  dumpValid := false
  dumpSerial := 0
  dumping := none
  dumpDone := none
  resetAfterDump := false
  stoppedAt := none
  resetCause := 0
  rspDiscarded := 0
  driver := none
  driverDeadline := 0
  unattended := false

def Mbx.reset : Mbx where
  outst := []
  nextReply := 0
  waiting := []
  draining := none
  evEp := []
  rings := []
  held := []
  i3c := []
  ibi := []

def Mem.reset : Mem where
  cells := []
  parityErr := []
  jobs := []
  nextJob := 0
  asm := []
  migr := []
  groups := [(0, Group.reset 17), (1, Group.reset 9), (2, Group.reset 9), (3, Group.reset 9),
    (4, Group.reset 9)]
  ce := []
  bucketSize := 64
  leakMs := 10
  rebuildShare := 10
  sealShare := 25
  failUe := 256
  stormAt := none
  inject := []
  poison := []
  overflow := false
  scrubbed := []
  log := []
  logLost := 0
  scrubs := []
  nextScrub := 0
  farReady := []
  farFailed := []

def Part.reset : Part where
  deckles := []
  extents := []
  lastExtent := 0
  granules := []
  leases := []
  reclaims := []
  eps := []
  fences := []
  bulk := false

def Cal.reset : Cal where
  weights := []
  policers := []
  shapers := []
  kinds := [0, 0, 0, 0, 0, 0, 0, 0]
  activity := []
  coef := [1000, 1000, 1000, 1000, 1000, 1000, 1000, 1000]
  ledgerAt := 0
  capW := 1400
  capNext := none
  staticW := 0
  powerW := 0
  deferW := 0
  above := 0
  ceiling := 600
  emergency := none
  floor := false
  wedgeFloor := false

def Laid.reset : Laid where
  time := 0
  counting := false
  role := .follower
  autoPort := true
  fixedPort := 0
  upstream := 0
  ppsNs := none
  state := .free
  hops := 15
  conflictAt := none
  offsetPs := 0
  lastSync := 0
  syncAt := 0
  holdoverAt := none
  tables := []
  active := none
  pendSlot := none
  stopAt := none

def Pair.reset : Pair where
  state := .none
  role := .none
  partnerId := 0
  partner := none
  share := 25
  armedAt := 0
  term := 0
  mseq := 0
  acked := 0
  ackedAt := 0
  retained := []
  early := []
  ackSent := 0
  ackOwed := false
  owedAt := 0
  lastHb := 0
  lastHbDom := 0
  hbAt := 0
  detached := false
  resync := false
  copyAt := 0
  copied := 0
  synced := false
  syncEnd := none
  promoteAfter := none
  reqLines := []
  laidRun := (.follower, none, none, none)
  copyStart := 0
  witnesses := []
  health := none
  reportAt := 0
  grade := 0
  badCores := []
  badLanes := []
  hubBad := false
  secBad := false
  patrolLate := false
  promotesIgnored := 0
  since := 0
  promoting := none
  promoteAt := 0
  handover := none
  handed := false
  reply := none
  promoteHb := false
  fetches := []
  requests := []
  items := []
  linkReqs := []

def Sec.reset : Sec where
  ready := false
  lastKey := 0
  keys := []
  pairKey := false
  operatorKey := none
  session := none
  debugEver := false
  jtagEver := false
  sessions := 0

def Pkg.reset : Pkg where
  coldLow := true
  warmLow := false
  releasedAt := 0
  pll := false
  healthOk := false
  alert := false
  thermTrip := false
  tripped := false
  recThermal := false
  recSupply := false
  recKept := false
  sensors := List.replicate 96 0
  vddEng := [600, 600, 600, 600, 600, 600, 600, 600]
  vsetWait := []
  ppsOut := 0
  i3cAddr := none
  ir := .idcode
  boundary := 0
  hubAnnounced := false
  i3cRead := none
  tapReq := none
  driving := false
  hiZ := false
  capture := (32, 0x29640A63)
  tapRsp := none
  tapOut := none
  readyWait := []
  resetAnswer := none
  stretches := 0

/-- The device right after a cold reset, its reset still asserted and no command waiting. -/
def State.reset : State where
  pending := []
  now := 0
  free := 0
  board := Board.reset
  hub := Hub.reset
  mbx := Mbx.reset
  mem := Mem.reset
  part := Part.reset
  rgn := { regions := [], lastRegion := 0, drafts := [], lastDraft := 0, handles := [], lastHandle := 0 }
  lode := { lodes := [], lastLode := 0, nextSnoop := 0 }
  xlat := { faults := [], lastFault := 0, tlb := [] }
  eng := { cores := [], engines := [], kernels := [], lastKernel := 7, work := [], nextWork := 0, reserved := [] }
  attn := { seqs := [], lastSeq := 0 }
  form := { maps := [], adapters := [], cache := [] }
  retr := { indexes := [], lastIndex := 0 }
  couch := { chans := [], hubBusy := 0, nextTag := 0 }
  link := { ports := [], trust := [], strict := false, leaseNoLease := [] }
  cal := Cal.reset
  laid := Laid.reset
  pair := Pair.reset
  sec := Sec.reset
  pkg := Pkg.reset

end Sys2Proof.Machine
end

