-- ==== Sys2Proof/Machine/Flags.lean ====
section
/-! DEFINITION. Status codes and the small codes that results, records and events carry for
states, tiers, policies and roles. -/

namespace Sys2Proof.Machine

/-- The code of a status (Table 14.6, R257). -/
def statusCode : Status → Nat
  | .ok => 0x00 | .late => 0x01 | .deferred => 0x02
  | .throttled => 0x10 | .busy => 0x11
  | .noAccess => 0x20 | .revoked => 0x21 | .leaseExpired => 0x22 | .readOnly => 0x23
  | .staleVersion => 0x24 | .conflict => 0x25
  | .fault => 0x30 | .align => 0x31 | .badDescriptor => 0x32
  | .uncorrectable => 0x40 | .integrity => 0x41 | .lost => 0x42 | .failedOver => 0x43
  | .domainDown => 0x44
  | .aborted => 0x50 | .killed => 0x51
  | .unsupported => 0x60 | .invalid => 0x61
  | .emergency => 0x70 | .notReady => 0x71

/-- TIER codes (Table 6.2). -/
def tierCode : Tier → Nat
  | .t1 => 0 | .t2 => 1 | .staging => 2

/-- The tier a code names. -/
def tierOf : Nat → Tier
  | 0 => .t1 | 1 => .t2 | _ => .staging

/-- Segment mode codes (Table 5.2). -/
def modeCode : SegMode → Nat
  | .inherit => 0 | .copy => 1 | .zero => 2 | .raw => 3

/-- BR_STATUS PHASE (Table 2.13). -/
def phaseCode : Phase → Nat
  | .bootRom => 0 | .running => 1 | .activating => 2 | .wedged => 3 | .restarting => 4
  | .zeroised => 5 | .poweringDown => 6

/-- Lease states (Table 4.10). -/
def leaseCode : Option Lease → Nat
  | none => 0
  | some l => match l.state with | .held => 1 | .grace => 2 | .expired => 3

/-- Domain-time states (Table 16.3). -/
def timeCode : TState → Nat
  | .free => 0 | .locked => 1 | .holdover => 2

/-- Time roles (Table 16.2). -/
def roleCode : Role → Nat
  | .follower => 0 | .internal => 1 | .pps => 2

/-- Pair states (Table 18.9). -/
def pairStateCode : PState → Nat
  | .none => 0 | .armed => 1 | .syncing => 2 | .inSync => 3 | .linkLost => 4 | .resyncing => 5
  | .fenced => 6

/-- Pair roles (Table 18.9). -/
def pairRoleCode : PRole → Nat
  | .none => 0 | .active => 1 | .standby => 2

/-- The mailbox an answer that carries no result gives. -/
def Ans.of (st : Status) (detail : Nat := 0) : Ans := { status := st, detail := detail }

/-- An answer ST_OK with an inline result of `n` bytes. -/
def Ans.okBits (n bits : Nat) : Ans := { status := .ok, rlen := n, bits := bits }

end Sys2Proof.Machine
end

