-- ==== Sys2Proof/Machine/NMap.lean ====
section
/-! DEFINITION. Operations on the sparse tables of the state: look up, write, remove and change
an entry. Every operation keeps the keys strictly rising (`Laws/NMap.lean`). -/

namespace Sys2Proof

/-- The entry at a key. -/
def NMap.find {α : Type} : NMap α → Nat → Option α
  | [], _ => none
  | (i, a) :: m, k => if k = i then some a else NMap.find m k

/-- A key has an entry. -/
def NMap.has {α : Type} (m : NMap α) (k : Nat) : Bool := (NMap.find m k).isSome

/-- Writes the entry at a key, in its place in the order. -/
def NMap.put {α : Type} : NMap α → Nat → α → NMap α
  | [], k, a => [(k, a)]
  | (i, b) :: m, k, a =>
    if k < i then (k, a) :: (i, b) :: m
    else if k = i then (k, a) :: m
    else (i, b) :: NMap.put m k a

/-- Removes the entry at a key. -/
def NMap.del {α : Type} : NMap α → Nat → NMap α
  | [], _ => []
  | (i, b) :: m, k => if k = i then m else (i, b) :: NMap.del m k

/-- Changes the entry at a key, if there is one. -/
def NMap.upd {α : Type} (m : NMap α) (k : Nat) (f : α → α) : NMap α :=
  m.map fun x => if x.1 = k then (x.1, f x.2) else x

/-- Changes every entry. -/
def NMap.each {α : Type} (m : NMap α) (f : Nat → α → α) : NMap α :=
  m.map fun x => (x.1, f x.1 x.2)

/-- Keeps the entries that a test accepts. -/
def NMap.keep {α : Type} (m : NMap α) (f : Nat → α → Bool) : NMap α :=
  m.filter fun x => f x.1 x.2

/-- Writes or removes the entry at a key. -/
def NMap.set {α : Type} (m : NMap α) (k : Nat) : Option α → NMap α
  | some a => m.put k a
  | none => m.del k

/-- The keys, rising. -/
def NMap.keys {α : Type} (m : NMap α) : List Nat := m.map Prod.fst

/-- How many entries a test accepts. -/
def NMap.count {α : Type} (m : NMap α) (f : Nat → α → Bool) : Nat := (NMap.keep m f).length

/-- The canonical form: keys strictly rising. -/
def NMap.wf {α : Type} : NMap α → Bool
  | [] => true
  | [_] => true
  | (i, _) :: (j, b) :: m => decide (i < j) && NMap.wf ((j, b) :: m)

/-- The lowest key from `lo` on, below `hi`, that has no entry. -/
def NMap.firstFree {α : Type} (m : NMap α) (lo hi : Nat) : Option Nat :=
  (List.range (hi - lo)).findSome? fun i => if NMap.has m (lo + i) then none else some (lo + i)

end Sys2Proof
end

