-- ==== Sys2Proof/Machine/Ops.lean ====
section
/-! DEFINITION. Operations every family shares: the passing of time, ports and the packets that
wait on them, answers and events, leases and membership. -/

namespace Sys2Proof.Machine

/-! ## Time (R278, R353, log 10) -/

/-- Domain time in ns (Table 2.6 DOMAIN_TIME). -/
def State.dom (s : State) : Nat := s.laid.time / 65536

/-- `d` ns pass: local time, and domain time when it counts. -/
def State.advance (s : State) (d : Nat) : State :=
  { s with
    now := s.now + d
    laid := { s.laid with time := if s.laid.counting then s.laid.time + d * 65536 else s.laid.time } }

/-- Local time reaches `t`, if it has not. -/
def State.reach (s : State) (t : Nat) : State := s.advance (t - s.now)

/-- Domain time reaches `t` ns, if it has not. -/
def State.reachDom (s : State) (t : Nat) : State := s.advance (t - s.dom)

/-- A fresh open value below `n` (log 11). -/
def State.draw (s : State) (n : Nat) : Nat × State :=
  (Config.freeNat s.free % n, { s with free := s.free + 1 })

/-! ## Hub phases -/

/-- The hub cores are stopped: wedged or restarting (R35, R36). -/
def State.hubStopped (s : State) : Bool :=
  s.hub.phase == .wedged || s.hub.phase == .restarting

/-- Firmware runs on the hub cores. -/
def State.fwRuns (s : State) : Bool :=
  s.hub.phase == .running || s.hub.phase == .activating

/-- Deferrable work is stopped (R274, R277), all but the minimum share of a rebuild or resync in an
emergency (R272). -/
def State.deferStopped (s : State) : Bool :=
  s.cal.emergency.isSome || s.hubStopped || s.hub.phase == .activating

/-- The boot ROM runs. -/
def State.underBoot (s : State) : Bool := s.hub.phase == .bootRom

/-- Tier 1 is ready (Table 2.6 TIER1). -/
def State.tier1Ready (s : State) : Bool := ((s.mem.groups.find 0).map (·.ready)).getD false

/-- A far die is ready. -/
def State.farReady (s : State) (d : Nat) : Bool := ((s.mem.groups.find (d + 1)).map (·.ready)).getD false

/-- Populated far dies in ascending number (R41). -/
def State.populated (s : State) : List Nat :=
  (List.range 4).filter fun d => ((s.board.far[d]?).map (·.populated)).getD false

/-- Populated far dies that have not failed their training: those R42 interleaves over. -/
def State.farDies (s : State) : List Nat := s.populated.filter fun d => !s.mem.farFailed.contains d

/-- There is a tier 2 (R51). -/
def State.hasTier2 (s : State) : Bool := !s.farDies.isEmpty

/-- Tier 2 is ready: a far die has become ready and none is still training (R51, R353). -/
def State.tier2Ready (s : State) : Bool := s.farDies.any fun d => s.farReady d

/-- The device is a standby, armed ones included (R307). -/
def State.isStandby (s : State) : Bool :=
  s.pair.role == .standby || s.pair.state == .armed

/-- A live active of a pair in sync, whose MIR writes need the standby (R46, R310). -/
def State.inSync (s : State) : Bool := s.pair.role == .active && s.pair.state == .inSync

/-- DECKLE_MAX (R57). -/
def State.deckleMax (s : State) : Nat := if s.part.bulk then 64 else 4096

/-- What engines, cores and couch engines do: nothing once a trip has stopped their clocks (Table 20.8). -/
def State.unlessTripped (s t : State) : State := if s.pkg.tripped then s else t

/-- HEALTH_OK and ALERT_N follow the phase, an emergency and a trip (R346); EXTEST and CLAMP drive only
while HEALTH_OK is low (R351). -/
def State.pins (s : State) : State :=
  let ok := s.fwRuns && !s.pkg.tripped
  let driving := s.pkg.driving && !ok
  { s with pkg := { s.pkg with
      healthOk := ok, alert := s.hub.phase == .wedged || s.cal.emergency.isSome || s.pkg.tripped, driving := driving } }

/-- The device enters a phase of Table 2.13. -/
def State.setPhase (s : State) (p : Phase) : State := State.pins { s with hub := { s.hub with phase := p } }

/-! ## Ports and egress -/

/-- A port; one that is not listed is at its reset. -/
def State.port (s : State) (p : Nat) : Port := (s.link.ports.find p).getD Port.reset

/-- Writes a port. -/
def State.setPort (s : State) (p : Nat) (x : Port) : State :=
  { s with link := { s.link with ports := s.link.ports.put p x } }

/-- Changes a port. -/
def State.modPort (s : State) (p : Nat) (f : Port → Port) : State := s.setPort p (f (s.port p))

/-- The port is up: active, or in a fast retrain, during which packets wait (R229). -/
def Port.up (x : Port) : Bool :=
  x.train == .active || (!x.full && (x.train == .align || x.train == .param || x.train == .start))

/-- The port is trained and carries packets. -/
def State.portActive (s : State) (p : Nat) : Bool := (s.port p).up

/-- Bytes of a packet: header, extension and payload (Tables 14.1–14.4, 18.2). -/
def Msg.bytes : Msg → Nat
  | .mbxRsp _ r => 16 + 64 + r.ans.rlen
  | .event .. => 16 + 64 + 64
  | .rsp _ _ _ _ _ len _ _ => 16 + len
  | .cpl .. => 16 + 64
  | .push _ _ _ _ data _ => 32 + 64 * data.length
  | .laidWr _ _ _ data => 48 + 64 * data.length
  | .lgrant _ _ _ _ _ _ data => 32 + (match data with | none => 0 | some _ => 64)
  | .inv .. => 32
  | .fwd .. => 32
  | .epAssign .. => 16
  | .epClaim _ => 24
  | .remoteRd .. => 48
  | .mirData _ lines => 48 + 80 * lines.length
  | .mirMeta .. => 48 + 128
  | .mirAck _ => 48
  | .mirHb _ => 48
  | .mirHealth _ => 48 + 128
  | .mirFetch .. => 48
  | .mirLine .. => 48 + 80
  | .mirCtrl .. => 48 + 64

/-- The packet of EV_TRIP. -/
def Msg.isTrip : Msg → Bool
  | .event _ _ e => e.code == 0xFF02
  | _ => false

/-- Puts a packet on a port's egress (R258): `queue` as `Egress.queue`. A weighted queue that
becomes backlogged starts at max(V, F) (R260). After a trip ports send nothing new but EV_TRIP
(Table 20.8). -/
def State.enqueue (s : State) (p vc queue deckle : Nat) (m : Msg) (cls : Nat := 0) : State :=
  if s.pkg.tripped && !m.isTrip then s else
  s.modPort p fun x =>
    let q := (x.tags.find queue).getD { s := 0, f := 0, backlogged := false }
    { x with
      txq := x.txq ++ [{ vc := vc, queue := queue, deckle := deckle, cls := cls, left := Msg.bytes m, msg := m }]
      tags := if 4 ≤ queue ∧ queue < 60 ∧ !q.backlogged then
          x.tags.put queue { q with s := max x.vtime q.f, backlogged := true }
        else x.tags }

/-- A message slot for the port's next bypass flit (R209). -/
def State.bypassSlot (s : State) (p : Nat) (m : Slot) : State :=
  s.modPort p fun x => { x with bq := x.bq ++ [m] }

/-- The port an endpoint is bound to, when the port carries packets. -/
def State.route (s : State) (ep : Nat) : Option Nat :=
  (s.part.eps.find ep).bind fun e => if s.portActive e.port then some e.port else none

/-- Sends a packet to an endpoint. One that cannot be reached loses it (R230), counted on the
port it is bound to. -/
def State.sendEp (s : State) (ep vc queue deckle : Nat) (m : Msg) (cls : Nat := 0) : State :=
  match s.route ep with
  | some p => s.enqueue p vc queue deckle m cls
  | none =>
    match s.part.eps.find ep with
    | some e => s.modPort e.port fun x => { x with lostRsp := x.lostRsp + 1 }
    | none => s

/-- Sends a packet that is held for an unreachable requester (R26). -/
def State.sendHeld (s : State) (ep vc queue deckle : Nat) (m : Msg) (cls : Nat := 0) : State :=
  match s.route ep with
  | some p => s.enqueue p vc queue deckle m cls
  | none => { s with mbx := { s.mbx with held := s.mbx.held ++ [m] } }

/-! ## Events (R30) -/

/-- Receivers of an event (Table 2.10a). -/
inductive Recv
  | device
  | deckle (d : Nat)
  | both (d : Nat)
  deriving DecidableEq, Repr

/-- Queues the events of a receiver's ring that are not yet in packets, while its sender may send
and the event endpoint is reachable. -/
def State.pumpRingIf (s : State) (may : Bool) (recv : Nat) : State :=
  match s.mbx.rings.find recv, s.mbx.evEp.find recv with
  | some r, some ep =>
    match s.route ep with
    | some p =>
      if may then
        let todo := r.evs.drop r.queued
        let s1 := todo.foldl (fun a e => a.enqueue p 5 61 recv (.event ep recv e)) s
        { s1 with mbx := { s1.mbx with rings := s1.mbx.rings.put recv { r with queued := r.evs.length } } }
      else s
    | none => s
  | _, _ => s

/-- The hub sends a ring's events once it is ready (R30). -/
def State.pumpRing (s : State) (recv : Nat) : State := s.pumpRingIf s.hub.ready recv

/-- Puts an event into a receiver's ring; a full ring loses its oldest undelivered event. -/
def State.pushRing (s : State) (recv : Nat) (dev : Bool) (code deckle source params : Nat) : State :=
  let r := (s.mbx.rings.find recv).getD { seq := 0, queued := 0, evs := [] }
  let e : Event := { code := code, deviceLevel := dev, seq := r.seq, deckle := deckle,
                     source := source, time := s.dom, params := params }
  let full := r.evs.length ≥ 4096
  let r' : Ring := { seq := (r.seq + 1) % 2 ^ 32,
                     queued := if full then r.queued - 1 else r.queued,
                     evs := (if full then r.evs.drop 1 else r.evs) ++ [e] }
  ({ s with mbx := { s.mbx with rings := s.mbx.rings.put recv r' } }).pumpRing recv

/-- Raises an event: nothing before firmware start (R30). -/
def State.raise (s : State) (code : Nat) (who : Recv) (source : Nat := 0) (params : Nat := 0)
    (about : Nat := 0) : State :=
  if s.hub.running.isNone then s
  else match who with
    | .device => s.pushRing 0 true code about source params
    | .deckle d => s.pushRing d false code d source params
    | .both d =>
      let s1 := s.pushRing 0 true code d source params
      if d = 0 then s1 else s1.pushRing d false code d source params

/-- SOURCE of an event: die kind and unit (Table 2.9). -/
def srcOf (kind unit : Nat) : Nat := kind * 4096 + unit % 4096

/-- The packet of an event was acknowledged: it leaves its ring (R30). -/
def State.eventAcked (s : State) (recv seq : Nat) : State :=
  { s with mbx := { s.mbx with rings := s.mbx.rings.upd recv fun r =>
      { r with evs := r.evs.filter (fun e => e.seq != seq),
               queued := r.queued - (if r.evs.any (fun e => e.seq == seq) then 1 else 0) } } }

/-! ## Held answers (R26) -/

/-- The response a held packet carries goes to the deckle named and the endpoint that waits. -/
def heldFor : Msg → Option (Nat × Nat)
  | .mbxRsp ep r => some (r.deckle, ep)
  | .cpl ep d _ => some (d, ep)
  | _ => none

/-- Discards the held responses of a requester in a deckle, or in every deckle in which it holds
no lease (R26), and counts them in RSP_DISCARDED. -/
def State.discardHeld (s : State) (test : Nat → Nat → Bool) : State :=
  let gone := s.mbx.held.filter fun m => ((heldFor m).map fun x => test x.1 x.2).getD false
  { s with
    mbx := { s.mbx with held := s.mbx.held.filter fun m => !(((heldFor m).map fun x => test x.1 x.2).getD false) }
    hub := { s.hub with rspDiscarded := sat 32 (s.hub.rspDiscarded + gone.length) } }

/-- Delivers what is held for an endpoint that can be reached again, and its events. -/
def State.deliverHeld (s : State) (ep : Nat) : State :=
  match s.route ep with
  | none => s
  | some p =>
    let mine := fun m => ((heldFor m).map fun x => x.2 == ep).getD false
    let todo := s.mbx.held.filter mine
    let s1 := { s with mbx := { s.mbx with held := s.mbx.held.filter fun m => !mine m } }
    let s2 := todo.foldl (fun a m =>
      a.enqueue p (match m with | .mbxRsp .. => 5 | _ => 4) 61 (((heldFor m).map (·.1)).getD 0) m) s1
    (s2.mbx.evEp.keys.filter fun d => s2.mbx.evEp.find d == some ep).foldl (fun a d => a.pumpRing d) s2

/-- Registers an event endpoint (EVREG, ADOPT) and sends what its ring holds. -/
def State.setEvEp (s : State) (deckle ep : Nat) : State :=
  ({ s with mbx := { s.mbx with evEp := s.mbx.evEp.put deckle ep } }).pumpRing deckle

/-! ## Deckles, leases, membership (R57, R58, R66) -/

/-- Key of a lease. -/
def leaseKey (d ep : Nat) : Nat := d * 4096 + ep

/-- The lease of an endpoint in a deckle. -/
def State.lease (s : State) (d ep : Nat) : Option Lease := s.part.leases.find (leaseKey d ep)

/-- Writes a lease; none is the state NONE. -/
def State.setLease (s : State) (d ep : Nat) (l : Option Lease) : State :=
  { s with part := { s.part with leases := s.part.leases.set (leaseKey d ep) l } }

/-- A lease that makes its endpoint a member: HELD or GRACE. -/
def Lease.isMember (l : Lease) : Bool := l.state != .expired

/-- The endpoint is a member of the deckle (R58). -/
def State.member (s : State) (d ep : Nat) : Bool := ((s.lease d ep).map Lease.isMember).getD false

/-- Deckles the endpoint is a member of. -/
def State.memberships (s : State) (ep : Nat) : Nat :=
  s.part.leases.count fun k l => k % 4096 == ep && l.isMember

/-- Members of a deckle in ascending endpoint order. -/
def State.members (s : State) (d : Nat) : List Nat :=
  (s.part.leases.keep fun k l => k / 4096 == d && l.isMember).map fun x => x.1 % 4096

/-- The deckle is DISSOLVING. -/
def State.isDissolving (s : State) (d : Nat) : Bool :=
  ((s.part.deckles.find d).map fun x => x.dissolving.isSome).getD false

/-- Check 3 of R247: DISSOLVING first, then membership. -/
def State.accessCheck (s : State) (d ep : Nat) : Option Status :=
  if s.isDissolving d then some .revoked
  else match s.lease d ep with
    | none => some .noAccess
    | some l => match l.state with
      | .held => none
      | _ => some .leaseExpired

/-- Changes a deckle. -/
def State.modDeckle (s : State) (d : Nat) (f : Deckle → Deckle) : State :=
  { s with part := { s.part with deckles := s.part.deckles.upd d f } }

/-- Changes an extent. -/
def State.modExtent (s : State) (x : Nat) (f : Extent → Extent) : State :=
  { s with part := { s.part with extents := s.part.extents.upd x f } }

/-- A new lease in HELD. Its deadline counts from domain time now. -/
def State.newLease (s : State) (duration grace : Nat) : Lease :=
  { state := .held, duration := duration, grace := grace, deadline := s.dom + duration * 1000000 }

/-- Highest of the 96 sensors in units of 0.125 °C (Table 2.13 TJ_MAX). -/
def State.tjMax (s : State) : Nat := s.pkg.sensors.foldl max 0

/-- The driver lease is in force. -/
def State.driverHeld (s : State) : Bool := s.hub.driver.isSome

end Sys2Proof.Machine
end

