-- ==== Sys2Proof/Machine/Operands.lean ====
section
/-! DEFINITION. Operands in pool memory: the physical layout of the tiers, the table walk, and
the checks that turn a pool virtual address into the line it names (chapters 3 and 6). -/

namespace Sys2Proof.Machine

/-! ## Layout (R39–R44) -/

/-- Bytes of usable tier-1 capacity (Table 3.1). -/
def State.t1Bytes (s : State) : Nat := (if s.board.orderH then 2048 else 1536) * 2 ^ 30

/-- Channel capacity in GiB of the populated dies (R41). -/
def State.chGib (s : State) : Nat :=
  ((s.farDies.head?).bind fun d => (s.board.far[d]?).map (·.chGib)).getD 0

/-- Bytes of usable tier-2 capacity: 8 × C × D (R42). -/
def State.t2Bytes (s : State) : Nat := 8 * s.chGib * 2 ^ 30 * s.farDies.length

/-- Bytes of a tier's physical data address space. -/
def State.tierBytes (s : State) : Tier → Nat
  | .t1 => s.t1Bytes
  | .t2 => s.t2Bytes
  | .staging => 4 * 2 ^ 30

/-- First pooled granule offset of a staging die (Table 3.2). -/
def poolStart : Nat → Nat
  | 0 => 104
  | 1 => 64
  | _ => 32

/-- Pooled granules before a die in pool order (R44). -/
def poolBase : Nat → Nat
  | 0 => 0
  | 1 => 408
  | 2 => 856
  | _ => 1336

/-- Pool index of a staging granule: none for a fixed area (R43, R44). -/
def poolIndex (g : Nat) : Option Nat :=
  if g < 2048 ∧ poolStart (g / 512) ≤ g % 512 then some (poolBase (g / 512) + (g % 512 - poolStart (g / 512)))
  else none

/-- The staging granule at a pool index. -/
def poolGranule (i : Nat) : Nat :=
  if i < 408 then 104 + i
  else if i < 856 then 512 + 64 + (i - 408)
  else if i < 1336 then 1024 + 32 + (i - 856)
  else 1536 + 32 + (i - 1336)

/-- Granule `k` of a run of frames that starts at granule `first`. -/
def frameGranule (t : Tier) (first k : Nat) : Nat :=
  match t with
  | .staging => match poolIndex first with
    | some i => poolGranule (i + k)
    | none => first + k
  | _ => first + k

/-- Position of a granule in a run of frames. -/
def framePos (t : Tier) (first n g : Nat) : Option Nat :=
  match t with
  | .staging => match poolIndex first, poolIndex g with
    | some i, some j => if i ≤ j ∧ j < i + n then some (j - i) else none
    | _, _ => none
  | _ => if first ≤ g ∧ g < first + n then some (g - first) else none

/-- Granules of a tier number and granule as a table key. -/
def granKey (t : Tier) (g : Nat) : Nat := tierCode t * 2 ^ 32 + g

/-- The parity group, unit position, row address and stripe of a tier-1 or tier-2 line (R39,
R42): group, position, byte address in the unit, stripe, parity position. -/
structure Place where
  group  : Nat
  pos    : Nat
  row    : Nat
  stripe : Nat
  parity : Nat
  deriving DecidableEq, Repr, Inhabited

/-- Where a line lies. None for staging, which has no parity. -/
def State.place (s : State) (t : Tier) (line : Nat) : Option Place :=
  let a := line * 64
  match t with
  | .t1 =>
    let st := a / 65536; let u := a / 4096 % 16; let p := st % 17
    some { group := 0, pos := (p + 1 + u) % 17, row := st * 4096 + a % 4096, stripe := st, parity := p }
  | .t2 =>
    let dies := s.farDies
    if dies.isEmpty then none else
    let g := a / 32768; let l := g / dies.length; let u := a / 4096 % 8; let p := l % 9
    some { group := dies.getD (g % dies.length) 0 + 1, pos := (p + 1 + u) % 9,
           row := l * 4096 + a % 4096, stripe := l, parity := p }
  | .staging => none

/-- Data lines of the row a line belongs to, itself included: one per data unit of the stripe. -/
def rowLines (t : Tier) (line : Nat) : List Nat :=
  match t with
  | .t1 => (List.range 16).map fun u => line / 1024 * 1024 + u * 64 + line % 64
  | .t2 => (List.range 8).map fun u => line / 512 * 512 + u * 64 + line % 64
  | .staging => [line]

/-- Table key of a line. -/
def cellKey (t : Tier) (line : Nat) : Nat := tierCode t * 2 ^ 40 + line

/-- Table key of the granule of a line, from the line's table key. -/
def granOf (k : Nat) : Nat := k / 2 ^ 40 * 2 ^ 32 + k % 2 ^ 40 / 32768

/-- Table key of a parity row, by the row's first data line. -/
def rowKey (t : Tier) (line : Nat) : Nat :=
  cellKey t ((rowLines t line).headD 0)

/-! ## Extents and frames -/

/-- The frames of an extent: those it lies on, and those of a migration that has copied. -/
def State.frameRuns (s : State) (x : Nat) (e : Extent) : List (Tier × Nat) :=
  (e.tier, e.first) :: (match s.mem.migr.find x with
    | some m => if m.done then [(m.tier, m.first)] else []
    | none => [])

/-- The extent that holds a granule of a tier. -/
def State.extentAt (s : State) (t : Tier) (g : Nat) : Option (Nat × Extent) :=
  s.part.extents.find? fun x => (s.frameRuns x.1 x.2).any fun r =>
    r.1 == t && (framePos r.1 r.2 x.2.granules g).isSome

/-- Line index within the extent of a physical line on one of its runs. -/
def State.lineIndex (s : State) (x : Nat) (e : Extent) (t : Tier) (line : Nat) : Nat :=
  ((s.frameRuns x e).findSome? fun r =>
    if r.1 == t then (framePos r.1 r.2 e.granules (line / 32768)).map fun k => k * 32768 + line % 32768
    else none).getD 0

/-- The line at an index of an extent's frames. -/
def Extent.lineAt (e : Extent) (x idx : Nat) : LineRef :=
  { tier := e.tier, line := frameGranule e.tier e.first (idx / 32768) * 32768 + idx % 32768,
    extent := x, gen := e.gen, deckle := e.deckle, mir := e.mir }

/-- The granule belongs to a deckle's translation or context store (R98). -/
def Deckle.inStore (d : Deckle) (t : Tier) (g : Nat) : Bool :=
  t == .t1 && (d.store ++ d.ctxStore).any fun r => r.1 ≤ g && g < r.1 + r.2

/-! ## Stored lines -/

/-- The zero line of a zeroed granule (R64). -/
def Stamp.zeroCell (k : Stamp) : Cell :=
  { data := 0#512, deckle := k.deckle, epoch := k.epoch, key := k.key, gen := k.gen, poisoned := false, err := 0#640 }

/-- What a line that is not listed holds: the zero line of a zeroed granule, or nothing written. -/
def State.bgAt (s : State) (k : Nat) : Option Cell :=
  ((s.part.granules.find (granOf k)).bind (·.zero)).map Stamp.zeroCell

def State.background (s : State) (t : Tier) (line : Nat) : Option Cell := s.bgAt (cellKey t line)

/-- The stored line at a line address; none when it is never-written. -/
def State.cell (s : State) (t : Tier) (line : Nat) : Option Cell :=
  match s.mem.cells.find (cellKey t line) with
  | some c => some c
  | none => s.background t line

/-- The listed lines that differ from what they would hold unlisted: the canonical form, after the
zero stamps or the keys of granules have changed. -/
def State.canon (s : State) : State :=
  { s with mem := { s.mem with cells := s.mem.cells.keep fun k c => s.bgAt k ≠ some c } }

/-- Writes a stored line; a line equal to its background is not listed. -/
def State.putCell (s : State) (t : Tier) (line : Nat) (c : Cell) : State :=
  let cells := if s.background t line = some c then s.mem.cells.del (cellKey t line)
    else s.mem.cells.put (cellKey t line) c
  { s with mem := { s.mem with cells := cells } }

/-! ## Lodes and versions at a line -/

/-- The lode that covers a line of an extent. -/
def State.lodeAt (s : State) (x idx : Nat) : Option (Nat × Lode) :=
  s.lode.lodes.find? fun l => l.2.extent == x && l.2.offset * 1024 ≤ idx && idx < (l.2.offset + l.2.size) * 1024

/-- Bindings that couch descriptors and laid entries took (R170). -/
def State.formBinds (s : State) : List FormBind :=
  (s.couch.chans.filterMap fun c => (c.2.cur.bind (·.run)).bind (·.formed))
  ++ s.laid.tables.flatMap fun t => t.2.forms.map fun f => f.2.2

/-- Versions a deckle holds by handle or pin: region and version (R80). -/
def State.holds (s : State) (d : Nat) : List (Nat × Nat) :=
  (s.rgn.handles.filterMap fun h => if h.2.deckle == d then some (h.2.region, h.2.version) else none)
  ++ (s.form.maps.filter (fun m => m.2.deckle == d)).flatMap (fun m => m.2.pins.map fun p => (p.1, p.2.1))
  ++ (s.form.adapters.filter fun a => ((s.form.maps.find a.mapUid).map (·.deckle == d)).getD false).map
      (fun a => (a.region, a.version))
  ++ (s.retr.indexes.filter (fun i => i.2.deckle == d)).map (fun i => (i.2.region, i.2.version))
  ++ s.eng.work.flatMap (fun w => match w.2.body with
      | .rdf _ _ b => if b.owner = d then b.pins else []
      | .topk _ i r => if w.2.deckle = d then
          (i.region, i.version) :: (match r with | some j => [(j.region, j.version)] | none => []) else []
      | _ => [])
  ++ (s.formBinds.filter fun b => b.owner == d).flatMap fun b => b.pins

/-- Segment extents of a version. -/
def State.versionSegs (s : State) (r v : Nat) : List Nat :=
  (((s.rgn.regions.find r).bind fun g => g.versions.find v).map (·.segs)).getD []

/-- A version the deckle holds contains the extent (R80). -/
def State.mayReadVersion (s : State) (d x : Nat) : Bool :=
  (s.holds d).any fun p => (s.versionSegs p.1 p.2).contains x

/-- The extent is a new extent of a sealed draft (R77). -/
def State.sealedDraft (s : State) (e : Extent) : Bool :=
  ((e.draft.bind fun d => s.rgn.drafts.find d).map fun d => d.sealed.isSome).getD false

/-! ## The walk (R91–R95) -/

/-- Kinds of access of Table 6.4: endpoint read, engine or device read, write, ATOM; `any` is read
without permission checks (R301, R333). -/
inductive Access
  | rd | krd | wr | atom | any
  deriving DecidableEq, Repr

/-- The access writes. -/
def Access.writes : Access → Bool
  | .wr => true
  | .atom => true
  | _ => false

/-- The access reads. -/
def Access.reads : Access → Bool
  | .wr => false
  | .any => false
  | _ => true

/-- Levels of Table 6.1: level, lowest PVA bit, entries. -/
def levels : List (Nat × Nat × Nat) := [(0, 48, 256), (1, 39, 512), (2, 30, 512), (3, 21, 512), (4, 16, 32)]

/-- Entries of a table of a level. -/
def levelEntries (l : Nat) : Nat := ((levels[l]?).map (·.2.2)).getD 0

/-- The walk: the leaf entry, if any, and the level at which it ends (R92). -/
def walkFrom (t : NMap XTable) : List (Nat × Nat × Nat) → Nat → Nat → Option Nat × Nat
  | [], _, _ => (none, 4)
  | (l, sh, n) :: r, tbl, pva =>
    let e := ((t.find tbl).bind fun x => x.entries.find (pva / 2 ^ sh % n)).getD 0
    if !bitOf e 0 then (none, l)
    else if bitOf e 1 then (some e, l)
    else walkFrom t r (bitsOf e 39 16) pva

/-- The tables translation units use: the old copy until every unit has switched (R101). -/
def Deckle.inForce (d : Deckle) : NMap XTable × Nat :=
  match d.oldCopy with
  | some c => c
  | none => (d.tables, d.root)

/-- What a 64 KiB page translates to. -/
inductive PageRes
  | ok (tier : Tier) (line : Nat) (extent : Nat) (e : Extent)
  | control (line : Nat)
  | window (off : Nat)
  | fault (cause level : Nat)
  | deny (st : Status) (r95 : Bool)
  deriving DecidableEq, Repr

/-- The status of a leaf that names a granule of no extent (R65, R81, R98). -/
def State.noExtent (s : State) (d : Nat) (t : Tier) (g : Nat) (shared : Bool) (acc : Access) : Status :=
  match s.part.granules.find (granKey t g) with
  | some r =>
    if r.owner = 4096 then .noAccess
    else if shared && r.ofRetired && !acc.writes then .staleVersion
    else if shared then .revoked
    else if r.owner == d then .revoked else .noAccess
  | none => .noAccess

/-- The checks on a leaf that names a granule of extent `x` (R65, R80, R94, R95). -/
def State.checkLeaf (s : State) (d : Nat) (acc : Access) (e level x : Nat) (ext : Extent) (idx : Nat) :
    Option PageRes :=
  let shared := bitOf e 10
  let ver := ext.published.isSome
  if !(shared && ver) && ext.deckle != d then some (.deny .noAccess false)
  else if ext.state == .revoking then
    some (.deny (if shared && ver && !acc.writes && !s.isDissolving ext.deckle then .staleVersion else .revoked) false)
  else if ext.lost then some (.deny .lost false)
  else if bitOf e 9 != ext.mir || shared != ver || bitOf e 11 != (s.lodeAt x idx).isSome then
    some (.deny .fault true)
  else if acc.writes && (shared || ver || s.sealedDraft ext) then some (.deny .readOnly false)
  else if acc.reads && ver && !s.mayReadVersion d x then some (.deny .staleVersion false)
  else if acc.reads && !(bitOf e 6 || (acc == .krd && bitOf e 8)) then some (.fault 1 level)
  else if acc.writes && !bitOf e 7 then some (.fault 2 level)
  else none

/-- Translates one 64 KiB page of a deckle by a copy of its tables. -/
def State.pageBy (s : State) (copy : NMap XTable × Nat) (d : Nat) (acc : Access) (page : Nat) : PageRes :=
  let pva := page * 65536
  match walkFrom copy.1 levels copy.2 pva with
  | (none, l) => .fault 0 l
  | (some e, l) =>
    let t := tierOf (bitsOf e 5 4)
    let sh := ((levels[l]?).map (·.2.1)).getD 16
    let phys := bitsOf e 47 16 * 65536 + pva % 2 ^ sh
    let g := phys / 2 ^ 21
    match s.extentAt t g with
    | none => .deny (s.noExtent d t g (bitOf e 10) acc) false
    | some (x, ext) =>
      match s.checkLeaf d acc e l x ext (s.lineIndex x ext t (phys / 64)) with
      | some r => r
      | none => .ok t (phys / 64) x ext

/-- Translates one 64 KiB page of a deckle: the fixed range of deckle 0 without tables (R91). -/
def State.page (s : State) (d : Nat) (acc : Access) (page : Nat) : PageRes :=
  let pva := page * 65536
  if d = 0 ∧ 0x00FFFE0000000000 ≤ pva then
    if pva < 0x00FFFE0002000000 then
      if acc == .wr && s.hub.windowOpen then .window (pva - 0x00FFFE0000000000) else .deny .noAccess false
    else if 0x00FFFF0000000000 ≤ pva ∧ pva < 0x00FFFF0001000000 then
      .control ((0x08000000 + (pva - 0x00FFFF0000000000)) / 64)
    else .deny .noAccess false
  else if 2 ^ 40 ≤ page then .deny .noAccess false
  else match s.part.deckles.find d with
    | none => .fault 0 0
    | some k => s.pageBy k.inForce d acc page

/-- The outcome of translating the lines of an access. -/
inductive Trans
  | ok (lines : List LineRef)
  | window (off : Nat)
  | fault (pva cause level other : Nat)
  | deny (st : Status) (r95 : Bool)
  deriving DecidableEq, Repr

/-- Pages of a list of line addresses, ascending, each once. -/
def pagesOf (lines : List Nat) : List Nat :=
  lines.foldl (fun a l => let p := l * 64 / 65536; if a.contains p then a else a ++ [p]) []

/-- Sorts numbers, rising. -/
def insertNat (x : Nat) : List Nat → List Nat
  | [] => [x]
  | y :: r => if x ≤ y then x :: y :: r else y :: insertNat x r

/-- Sorts numbers, rising. -/
def sortNat (l : List Nat) : List Nat := l.foldr insertNat []

/-- The deckle a line access is charged to (R270). -/
def LineRef.pays (r : LineRef) : Nat := r.payer.getD r.deckle

/-- The line of a translated page that an address names. -/
def lineOfPage (l : Nat) : PageRes → Option LineRef
  | .ok t base x e => some { tier := t, line := base + l % 1024, extent := x, gen := e.gen, deckle := e.deckle, mir := e.mir }
  | .control base => some { tier := .staging, line := base + l % 1024, extent := 0, gen := 1, deckle := 0 }
  | _ => none

/-- Combines the pages of an access: a refusal by R65 or R95 first, then the lowest failing page
(R104). `lines` are PVAs divided by 64. -/
def transOf (lines : List Nat) (pages : List (Nat × PageRes)) : Trans :=
  match pages.findSome? (fun p => match p.2 with | .deny st r => some (st, r) | _ => none) with
  | some (st, r) => .deny st r
  | none =>
    match pages.filter (fun p => match p.2 with | .fault .. => true | _ => false) with
    | (p, .fault c l) :: rest => .fault (p * 65536) c l rest.length
    | _ =>
      match pages.findSome? (fun p => match p.2 with | .window o => some (p.1, o) | _ => none) with
      | some (p, o) => .window (o + (lines.headD 0 * 64 - p * 65536))
      | none => .ok (lines.filterMap fun l =>
          (pages.find? fun p => p.1 == l * 64 / 65536).bind fun p => lineOfPage l p.2)

/-- Translates the lines of an access of a deckle. -/
def State.translate (s : State) (d : Nat) (acc : Access) (lines : List Nat) : Trans :=
  match transOf lines ((sortNat (pagesOf lines)).map fun p => (p, s.page d acc p)) with
  | .ok refs => .ok (refs.map fun r => { r with payer := some d })
  | t => t

/-- `n` line addresses from a byte address on. -/
def lineRun (pva n : Nat) : List Nat := (List.range n).map fun i => pva / 64 + i

/-- Counts a request refused under R95 (Table 6.10 MISMATCHES). -/
def State.mismatch (s : State) (d : Nat) : State :=
  s.modDeckle d fun k => { k with mismatches := sat 32 (k.mismatches + 1) }

/-- The status a device read or write of a structure gets from its translation (R22): a page that
does not translate, or a missing permission. -/
def Trans.status : Trans → Status
  | .ok _ => .ok
  | .window _ => .noAccess
  | .fault _ c _ _ => if c = 0 then .fault else .noAccess
  | .deny st _ => st

/-- Cached translations of the pages of an access are filled (R97, log 6). -/
def State.fillTlb (s : State) (core d : Nat) (lines : List Nat) (refs : List LineRef) : State :=
  let gen := (refs.head?.map (·.gen)).getD 0
  let new := ((pagesOf lines).map fun p => (core, d, p, gen)).filter fun e => !s.xlat.tlb.contains e
  { s with xlat := { s.xlat with tlb := (new ++ s.xlat.tlb).take (32 * 4096) } }

/-- Cached translations of a deckle are dropped (R97). -/
def State.dropTlb (s : State) (d : Nat) : State :=
  { s with xlat := { s.xlat with tlb := s.xlat.tlb.filter fun e => e.2.1 != d } }

end Sys2Proof.Machine
end

