-- ==== Sys2Proof/Machine/Mirror.lean ====
section
/-! DEFINITION. What every other family needs of the pair: putting records into the mirror stream
(R308–R310), the dirty map of a solo active (R316), and fetching a partner's line (R311). -/

namespace Sys2Proof.Machine

/-- The pair port a record goes on: one that holds its credits, 62 when both do (R309). -/
def State.pairPort (s : State) (m : Msg) : Nat :=
  let need := cdiv (Msg.bytes m) 64
  let ok := fun p => s.portActive p && need ≤ at0 (s.port p).txCred 4
  if ok 62 then 62 else if ok 63 then 63 else if s.portActive 62 then 62 else 63

/-- Metadata is mirrored: the pair is formed and the active not solo (R308, R309). -/
def State.mirrors (s : State) : Bool :=
  s.pair.role == .active &&
    (s.pair.state == .syncing || s.pair.state == .inSync || s.pair.state == .resyncing)

/-- A line of a MIR extent is mirrored live: in sync, or below the copy cursor (R308). -/
def State.mirrorsLine (s : State) (t : Tier) (line : Nat) : Bool :=
  s.mirrors && (s.pair.state == .inSync || cellKey t line < s.pair.copyAt)

/-- Bytes the retention buffer holds (R310). -/
def State.retainedBytes (s : State) : Nat := (s.pair.retained.map fun r => Msg.bytes r.msg).foldl (· + ·) 0

/-- The retention buffer has no room for a largest record (R310). -/
def State.retentionFull (s : State) : Bool := 8388608 < s.retainedBytes + 4608

/-- The next record of the stream (R309); the message is made from its MSEQ. -/
def State.pushRecord (s : State) (mk : Nat → Msg) : State × Nat :=
  let n := s.pair.mseq + 1
  let m := mk n
  let p := s.pairPort m
  let s1 := { s with pair := { s.pair with
    mseq := n, retained := s.pair.retained ++ [(⟨n, m, p⟩ : MirRec)]
    ackedAt := if s.pair.retained.isEmpty then s.now else s.pair.ackedAt } }
  (if s1.portActive p then s1.enqueue p 4 61 0 m else s1, n)

/-- A metadata record (MIR_META). -/
def State.pushMeta (s : State) (ep rtag : Nat) (fw : Bool) (last : Bool) (r : MetaRec) : State :=
  (s.pushRecord fun n =>
    .mirMeta { mseq := n, ep := if fw then 0 else ep, rtag := if fw then 0 else rtag, fw := fw, lastRec := last } r).1

/-- A stored line as the stream carries it. -/
def Cell.mirLine (c : Cell) : MirLine :=
  { data := c.data, deckle := c.deckle, epoch := c.epoch, gen := c.gen, poisoned := c.poisoned }

/-- Marks the granule of a line dirty on a solo active, and above the cursor of a resync, which then copies
it (R308, R316). -/
def State.markDirty (s : State) (r : LineRef) : State :=
  if s.pair.role == .active && (s.pair.state == .linkLost || s.pair.state == .resyncing) then
    s.modExtent r.extent fun e =>
      let g := (s.lineIndex r.extent e r.tier r.line) / 32768
      if e.dirty.contains g then e else { e with dirty := g :: e.dirty }
  else s

/-- Mirrors a written line of a MIR extent: its MSEQ, when it is mirrored live. -/
def State.mirrorWrite (s : State) (r : LineRef) (c : Cell) (ep rtag : Nat) (fw last : Bool) : State × Option Nat :=
  if !r.mir then (s, none)
  else if s.mirrorsLine r.tier r.line then
    let x := s.pushRecord fun n => .mirData
      { mseq := n, phys := r.line * 64, tier := r.tier, ep := ep, rtag := rtag, fw := fw, lastRec := last } [c.mirLine]
    (x.1, some x.2)
  else (s.markDirty r, none)

/-- Asks the partner for a line (R311). One fetch serves every read that waits for the line. -/
def State.fetchLine (s : State) (r : LineRef) : State :=
  if s.pair.fetches.any fun f => f.tier == r.tier && f.line == r.line then s
  else
    let m : Msg := .mirFetch { phys := r.line * 64, tier := r.tier } r.deckle r.gen
    let s1 := { s with pair := { s.pair with fetches := s.pair.fetches ++ [(⟨r.tier, r.line⟩ : Fetch)] } }
    s1.enqueue (s1.pairPort m) 0 61 0 m

/-- A line that would be poisoned can be fetched from the partner first (R292, R311): on the active while
it mirrors the line, on the standby in sync for its patrol. -/
def State.canFetch (s : State) (r : LineRef) : Bool :=
  r.mir && (s.mirrorsLine r.tier r.line || (s.pair.role == .standby && s.pair.state == .inSync))

/-- The hub serves the oldest request of its waiting list (R33, R310). -/
def State.drains (s : State) : Bool :=
  s.hub.phase == .running && s.hub.ready && !s.mbx.waiting.isEmpty && !(s.mirrors && s.retentionFull)

/-- What the device does when no command waits: one nanosecond passes (log 18). -/
def State.idle (s : State) : State := s.advance 1

end Sys2Proof.Machine
end

