-- ==== Sys2Proof/Machine/Lines.lean ====
section
/-! DEFINITION. Reading and writing stored lines: the line code (R290), the read steps (R291),
reconstruction (R292), writes and their parity (R45, R293, R298), poison (R294, R295), the
correctable-error buckets (R296) and injection (R302). -/

namespace Sys2Proof.Machine

/-! ## The line code (R290) -/

/-- Product in GF(2^8) modulo 0x11D, by `n` steps of shift and add. -/
def gfMulLoop : Nat → Nat → Nat → Nat → Nat
  | 0, _, _, acc => acc
  | n + 1, a, b, acc =>
    gfMulLoop n (if 128 ≤ a then (a * 2) ^^^ 0x11D else a * 2) (b / 2) (if b % 2 = 1 then acc ^^^ a else acc)

/-- Product in GF(2^8) (R290). -/
def gfMul (a b : Nat) : Nat := gfMulLoop 8 a b 0

/-- Powers of α = 0x02. -/
def alphaPow : Nat → Nat
  | 0 => 1
  | n + 1 => gfMul 2 (alphaPow n)

/-- Byte `i` of a stored line. -/
def storedByte (e : Stored) (i : Nat) : Nat := (e.extractLsb' (8 * i) 8).toNat

/-- The word's polynomial at `a`: byte i is the coefficient of x^(79−i) (R290). -/
def evalAt (e : Stored) (a : Nat) : Nat :=
  (List.range 80).foldl (fun acc i => gfMul acc a ^^^ storedByte e i) 0

/-- The four syndromes. -/
def syndromes (e : Stored) : List Nat := [evalAt e 1, evalAt e 2, evalAt e 4, evalAt e 8]

/-- The poison pattern (R294): 0x50 in byte 76, 0x4F in byte 79. -/
def poisonPattern : Stored := (0x50#640 <<< 608) ||| (0x4F#640 <<< 632)

/-- The correction of a difference from a code word: zero when there is none, one symbol when a
single symbol explains it, none when it is detected as uncorrectable (R290). -/
def correction (e : Stored) : Option Stored :=
  if e = 0#640 then some 0#640
  else
    let y := syndromes e
    let s0 := at0 y 0
    if y.all (· == 0) then some 0#640
    else (List.range 80).findSome? fun i =>
      let x := alphaPow (79 - i)
      if s0 ≠ 0 ∧ at0 y 1 = gfMul s0 x ∧ at0 y 2 = gfMul (at0 y 1) x ∧ at0 y 3 = gfMul (at0 y 2) x then
        some (BitVec.ofNat 640 (s0 <<< (8 * i)))
      else none

/-- Difference of a stored line from the code word of its fields. -/
def Cell.diff (c : Cell) : Stored := if c.poisoned then c.err ^^^ poisonPattern else c.err

/-- Difference of a line's parity value (R290) from the word its last write formed. -/
def Cell.residual (c : Cell) : Stored :=
  if c.err = 0#640 then 0#640
  else match correction c.diff with
    | some k => c.err ^^^ k
    | none => c.err

/-- The line's syndromes are those of the poison pattern alone (R294). -/
def isPoisonDiff (d : Stored) : Bool := d == poisonPattern || syndromes d == syndromes poisonPattern

/-! ## Groups and rows -/

/-- The group of a place; an unknown one reads as an unsealed group out of service. -/
def State.group (s : State) (g : Nat) : Group := (s.mem.groups.find g).getD (Group.reset 17)

/-- Changes a group. -/
def State.modGroup (s : State) (g : Nat) (f : Group → Group) : State :=
  { s with mem := { s.mem with groups := s.mem.groups.upd g f } }

/-- The idle or used spare unit of a group (R40, R42). -/
def spareUnit (g : Nat) : Nat := if g = 0 then 17 else 9

/-- The position has no unit behind it in this stripe (R298, R299). -/
def Group.lostAt (g : Group) (pos stripe : Nat) : Bool :=
  g.lost.contains pos && !(g.rebuilding && g.lost.head? == some pos && stripe < g.cursor)

/-- The unit that holds a position in a stripe. -/
def Group.unitAt (g : Group) (n pos stripe : Nat) : Nat :=
  if g.rebuilding && g.lost.head? == some pos && stripe < g.cursor then spareUnit n else at0 g.posMap pos

/-- The row's parity is valid (R303). -/
def Group.sealedAt (g : Group) (row : Nat) : Bool := g.sealed || row / 64 < g.sealCursor

/-- Key of a unit: group 5 stands for the staging dies (Table 17.9). -/
def unitKey (g u : Nat) : Nat := g * 32 + u

/-- Unit key of a line and its byte address in the unit (R302). -/
def State.unitOf (s : State) (t : Tier) (line : Nat) : Nat × Nat :=
  match s.place t line with
  | some p => (unitKey p.group ((s.group p.group).unitAt p.group p.pos p.stripe), p.row)
  | none => (unitKey 5 (line * 64 / 2 ^ 30), line * 64 % 2 ^ 30)

/-- Stored lines that a filled tier or staging SRAM starts with are blank (R303). -/
def State.blankAtStart (s : State) (t : Tier) : Bool := t == .staging || s.hub.fillAtStart

/-- The other data lines of a row: whether one is unavailable, the sum of their residuals, and
whether every data line of the row, the line itself included, was formed as a code word. -/
def State.rowView (s : State) (t : Tier) (line : Nat) (p : Place) : Bool × Stored × Bool :=
  let g := s.group p.group
  (rowLines t line).foldl (fun a l =>
    let c := s.cell t l
    let code := match c with | some c => !c.poisoned | none => s.blankAtStart t
    if l = line then (a.1, a.2.1, a.2.2 && code)
    else
      let lost := match s.place t l with | some q => g.lostAt q.pos q.stripe | none => false
      let r := match c with | some c => c.residual | none => 0#640
      (a.1 || lost, a.2.1 ^^^ r, a.2.2 && code)) (false, 0#640, true)

/-- Error of the stored parity line of a row as reconstruction uses it: corrected when every data
line of the row is a code word (R290). None when that correction fails. -/
def State.parityView (s : State) (t : Tier) (line : Nat) (allCode : Bool) : Option Stored :=
  let e := (s.mem.parityErr.find (rowKey t line)).getD 0#640
  if allCode then (correction e).map fun k => e ^^^ k else some e

/-- Difference of the candidate C from the word the line's last write formed (R292): none when C
cannot be formed. -/
def State.candidate (s : State) (t : Tier) (line : Nat) (p : Place) : Option Stored :=
  let g := s.group p.group
  let v := s.rowView t line p
  if v.1 || g.lostAt p.parity p.stripe then none
  else
    let e := (s.mem.parityErr.find (rowKey t line)).getD 0#640
    some (((s.parityView t line v.2.2).getD e) ^^^ v.2.1)

/-! ## Integrity records -/

/-- A record of the hardware integrity log (R304); a full log loses it. -/
def State.logRec (s : State) (r : LogRec) : State :=
  if s.mem.log.length < 4096 then { s with mem := { s.mem with log := s.mem.log ++ [r] } }
  else { s with mem := { s.mem with logLost := sat 16 (s.mem.logLost + 1) } }

/-- A unit's correctable-error state. -/
def State.ceUnit (s : State) (k : Nat) : CeUnit :=
  (s.mem.ce.find k).getD { level := 0, corrected := 0, storm := false, ue := [] }

/-- Counts a correction on a unit (R296). -/
def State.countCe (s : State) (k : Nat) : State :=
  let u := s.ceUnit k
  let lvl := min (u.level + 1) s.mem.bucketSize
  let storm := !u.storm && u.level < s.mem.bucketSize && lvl == s.mem.bucketSize
  let u' : CeUnit := { u with level := lvl, corrected := sat 48 (u.corrected + 1), storm := u.storm || storm }
  let s1 := { s with mem := { s.mem with ce := s.mem.ce.put k u' } }
  if storm then s1.logRec (.ceStorm (k / 32) (k % 32) lvl u'.corrected) else s1

/-- Fails a unit out (R297, R299, R300): `cause` as Table 17.10. -/
def State.failOut (s : State) (g u cause : Nat) : State :=
  let x := s.group g
  if x.failed.contains u then s
  else if u = spareUnit g && !x.rebuilding && !x.posMap.contains u then
    (s.modGroup g fun x => { x with spareFree := false, failed := u :: x.failed }).logRec
      (.stackFailed g u 0 3 false)
  else if u = spareUnit g && x.rebuilding then
    (s.modGroup g fun x => { x with rebuilding := false, failed := u :: x.failed }).logRec
      (.stackFailed g u (x.lost.headD 0) 3 false)
  else
    let pos := x.posMap.idxOf u
    let start := x.spareFree && x.lost.isEmpty
    (s.modGroup g fun x =>
      { x with lost := x.lost ++ [pos], failed := u :: x.failed,
               rebuilding := x.rebuilding || start,
               spareFree := x.spareFree && !start,
               cursor := if start then 0 else x.cursor,
               rebuildStart := if start then s.now else x.rebuildStart }).logRec
      (.stackFailed g u pos cause start)

/-- Counts an uncorrectable line on a unit; FAIL_UE of them within 1 s fail it out (R297). -/
def State.countUe (s : State) (g u : Nat) : State :=
  let k := unitKey g u
  let c := s.ceUnit k
  let ue := s.now :: c.ue.filter fun t => s.now < t + 1000000000
  let s1 := { s with mem := { s.mem with ce := s.mem.ce.put k { c with ue := ue } } }
  if s.mem.failUe ≠ 0xFFFF ∧ s.mem.failUe ≤ ue.length ∧ g < 5 then s1.failOut g u 1 else s1

/-- Adds to a deckle's activity (R270); an unknown deckle's goes to the device totals. `cls` is the
traffic class, plus 8 for work that passes no energy admission (R269). -/
def State.charge (s : State) (d cls kind pj : Nat) : State :=
  if s.part.deckles.has d then
    s.modDeckle d fun k =>
      { k with activity := k.activity.put (cls * 8 + kind) ((k.activity.find (cls * 8 + kind)).getD 0 + pj) }
  else { s with cal := { s.cal with activity := s.cal.activity.put kind ((s.cal.activity.find kind).getD 0 + pj) } }

/-- Adds to the device's own activity. -/
def State.chargeDev (s : State) (kind pj : Nat) : State :=
  { s with cal := { s.cal with activity := s.cal.activity.put kind ((s.cal.activity.find kind).getD 0 + pj) } }

/-- Charges `n` line accesses of a tier: Table 1.10, and the module estimate of tier 2. -/
def State.chargeTier (s : State) (d cls : Nat) (t : Tier) (pj n : Nat) : State :=
  match t with
  | .t1 => s.charge d cls 0 (pj * n)
  | .t2 => (s.charge d cls 1 (pj * n)).charge d cls 7 (6000 * n)
  | .staging => s.charge d cls 2 (pj * n)

/-- Energy of a line read in pJ (Table 1.10). -/
def readPj : Tier → Nat
  | .t1 => 900
  | .t2 => 2600
  | .staging => 350

/-- Energy of a line write in pJ (Table 3.3): full stripe, or partial and narrow. Tier-2 writes
have a ledger coefficient only (log 17). -/
def writePj : Tier → Bool → Bool → Nat
  | .t1, true, _ => 1100
  | .t1, false, _ => 2900
  | .t2, full, _ => Config.tier2WritePj full
  | .staging, _, narrow => if narrow then 700 else 350

/-! ## Injection (R302) -/

/-- The mask an armed unit XORs into a write that lands on it, and the unit disarmed. -/
def State.takeInject (s : State) (k row : Nat) (parity : Bool) : Stored × State :=
  match s.mem.inject.find k with
  | none => (0#640, s)
  | some i =>
    let kindOk := i.kind == 0 || (i.kind == 1 && !parity) || (i.kind == 2 && parity)
    let rowOk := match i.row with | none => true | some r => r == row
    if kindOk && rowOk then (i.mask, { s with mem := { s.mem with inject := s.mem.inject.del k } })
    else (0#640, s)

/-! ## Storing a line -/

/-- Removes a line's entry from the poison list (R295). -/
def State.unpoison (s : State) (t : Tier) (line : Nat) : State :=
  { s with mem := { s.mem with poison := s.mem.poison.filter fun p => !(p.tier == t && p.phys == line * 64) } }

/-- Parity error of a row after one of its lines is written (R45, R293, R298). -/
def State.parityAfter (s : State) (t : Tier) (line : Nat) (p : Place) (full : Bool) : Stored :=
  let g := s.group p.group
  let v := s.rowView t line p
  let e := (s.mem.parityErr.find (rowKey t line)).getD 0#640
  if full then 0#640
  else if g.lostAt p.pos p.stripe then v.2.1
  else match s.cell t line with
    | some c =>
      match s.parityView t line v.2.2, correction c.diff with
      | none, _ => v.2.1
      | some _, some k => e ^^^ (c.err ^^^ k)
      | some _, none => v.2.1
    | none => if (s.parityView t line v.2.2).isNone then v.2.1 else e

/-- Writes a stored line with its parity; `full` when it is part of a full-stripe write. -/
def State.storeCell (s : State) (t : Tier) (line : Nat) (c : Cell) (full : Bool) : State :=
  let put := fun (s : State) (c : Cell) => s.putCell t line c
  let u := s.unitOf t line
  match s.place t line with
  | none =>
    let i := s.takeInject u.1 u.2 false
    put i.2 { c with err := i.1 }
  | some p =>
    let g := s.group p.group
    let pe := s.parityAfter t line p full
    let i := if g.lostAt p.pos p.stripe then (0#640, s) else s.takeInject u.1 u.2 false
    let s1 := put i.2 { c with err := i.1 }
    let j := if g.lostAt p.parity p.stripe then (0#640, s1)
      else s1.takeInject (unitKey p.group (g.unitAt p.group p.parity p.stripe)) p.row true
    let pe' := pe ^^^ j.1
    let rows := j.2.mem.parityErr.set (rowKey t line) (if pe' = 0#640 then none else some pe')
    { j.2 with mem := { j.2.mem with parityErr := rows } }

/-- The current key epoch and key of a deckle (R331). -/
def State.keyOf (s : State) (d : Nat) : Nat × Nat :=
  ((s.part.deckles.find d).map fun k => (k.epoch, k.key)).getD (0, 0)

/-- A line formed for an extent under its owner's key (R289, R324). -/
def State.formCell (s : State) (r : LineRef) (data : Line) : Cell :=
  let k := s.keyOf r.deckle
  { data := data, deckle := r.deckle, epoch := k.1, key := k.2, gen := r.gen, poisoned := false, err := 0#640 }

/-- A poisoned line of an extent (R294). -/
def State.poisonCell (s : State) (r : LineRef) : Cell :=
  { s.formCell r 0#512 with poisoned := true }

/-- Applies a write to the other frames of a migrating extent: the new frames below the cursor
before the switch, and the new frames after it (R54, R55). A copy on a MIR extent is mirrored at its own
address (R306, log 52). -/
def State.dualWrite (s : State) (r : LineRef) (c : Cell) (full : Bool) : State :=
  match s.mem.migr.find r.extent, s.part.extents.find r.extent with
  | some m, some e =>
    let idx := s.lineIndex r.extent e r.tier r.line
    let onMain := r.tier == e.tier && (framePos e.tier e.first e.granules (r.line / 32768)).isSome
    if !m.switched then
      if onMain && (m.done || idx * 64 < m.cursor) then
        let n : LineRef := { r with tier := m.tier, line := frameGranule m.tier m.first (idx / 32768) * 32768 + idx % 32768 }
        ((s.storeCell n.tier n.line c full).mirrorWrite n c 0 0 true true).1
      else s
    else if !onMain then
      let n := Extent.lineAt e r.extent idx
      ((s.storeCell n.tier n.line c full).mirrorWrite n c 0 0 true true).1
    else s
  | _, _ => s

/-- Stores a line of an extent and its copy in a migration, and unlists its poison. -/
def State.storeLine (s : State) (r : LineRef) (c : Cell) (full : Bool) : State :=
  let s1 := (s.storeCell r.tier r.line c full).unpoison r.tier r.line
  s1.dualWrite r c full

/-! ## Poison (R294, R295) -/

/-- Poisons a line of an extent at an index and records it (R294, R304). -/
def State.poisonAt (s : State) (r : LineRef) (cause idx : Nat) : State :=
  let p : Poison := { extent := r.extent, line := idx, tier := r.tier, deckle := r.deckle, cause := cause,
                      raised := s.dom, phys := r.line * 64 }
  let s1 := s.storeCell r.tier r.line (s.poisonCell r) false
  let s2 := if cause = 3 then
      match s1.place r.tier r.line with
      | some pl => s1.modGroup pl.group fun g => { g with lostLines := sat 32 (g.lostLines + 1) }
      | none => s1
    else s1
  s2.logRec (.poison p)

/-- Index of a line within its extent. -/
def State.lineIx (s : State) (r : LineRef) : Nat :=
  ((s.part.extents.find r.extent).map fun e => s.lineIndex r.extent e r.tier r.line).getD 0

/-- Poisons a line. -/
def State.poisonLine (s : State) (r : LineRef) (cause : Nat) : State := s.poisonAt r cause (s.lineIx r)

/-! ## Reading a line (R291, R292) -/

/-- What a read of a line comes to. `wait`: the partner's copy is being fetched. -/
inductive RdOut
  | data (l : Line)
  | fail (st : Status)
  | recon (step4 : Bool)
  | wait
  deriving DecidableEq, Repr

/-- The epoch is one the owner's key accepts, and the key that reads it is in the store (R291
step 3, R331): the key serial an epoch decrypts under. -/
def State.epochKey (s : State) (d epoch : Nat) : Option Nat :=
  (s.part.deckles.find d).bind fun k =>
    if k.epoch = epoch then some k.key
    else k.sweep.bind fun w => if w.oldEpoch = epoch then some w.oldKey else none

/-- Steps 1 to 4 of R291 on a stored line; the flag says that a symbol was corrected. -/
def State.readSteps (s : State) (r : LineRef) (c : Cell) : RdOut × Bool :=
  let d := c.diff
  if d = 0#640 then
    if c.deckle ≠ r.deckle ∨ c.gen ≠ r.gen then (.fail .integrity, false)
    else match s.epochKey r.deckle c.epoch with
      | none => (.fail .integrity, false)
      | some k => if k = c.key ∧ s.sec.keys.contains k then (.data c.data, false) else (.recon true, false)
  else if isPoisonDiff d then (.fail .uncorrectable, false)
  else match correction d with
    | none => (.recon false, false)
    | some k =>
      if d ^^^ k = 0#640 ∧ !c.poisoned then
        if c.deckle ≠ r.deckle ∨ c.gen ≠ r.gen then (.fail .integrity, true)
        else match s.epochKey r.deckle c.epoch with
          | none => (.fail .integrity, true)
          | some q => if q = c.key ∧ s.sec.keys.contains q then (.data c.data, true) else (.recon true, true)
      else if (d ^^^ k).extractLsb' 576 32 ≠ 0#32 ∨ c.deckle ≠ r.deckle ∨ c.gen ≠ r.gen then (.fail .integrity, true)
      else (.recon true, true)

/-- Steps 1 to 4 of R291 on a never-written line (R63, R303, log 3). -/
def State.readUnwritten (s : State) (r : LineRef) : RdOut :=
  if s.blankAtStart r.tier then .fail .integrity
  else
    let e := Config.rawLine (tierCode r.tier) r.line
    if isPoisonDiff e then .fail .uncorrectable
    else if (correction e).isSome then .fail .integrity else .recon false

/-- A line in an open assembly buffer (R50). -/
def State.assembled (s : State) (t : Tier) (line : Nat) : Option Cell :=
  if t == .t1 then (s.mem.asm.find (line / 1024)).bind fun b => b.lines.find line else none

/-- The steps of R291 for a translated line, from the assembly buffer, the stored line or the
content of a never-written one. -/
def State.firstRead (s : State) (r : LineRef) : RdOut × Bool :=
  match s.assembled r.tier r.line with
  | some c => s.readSteps r c
  | none =>
    let lost := match s.place r.tier r.line with
      | some p => (s.group p.group).lostAt p.pos p.stripe
      | none => false
    if lost then (.recon false, false)
    else match s.cell r.tier r.line with
      | some c => s.readSteps r c
      | none => (s.readUnwritten r, false)

/-- How a read ended beyond its status, for SCRUB. -/
structure ReadNote where
  corrected     : Bool := false
  reconstructed : Bool := false
  poisoned      : Bool := false
  unformed      : Bool := false
  deriving DecidableEq, Repr, Inhabited

/-- A line that reconstruction could not form ends here: fetched from the partner or poisoned. -/
def State.endPoison (s : State) (r : LineRef) (cause : Nat) : State × RdOut × ReadNote :=
  if s.canFetch r then (s.fetchLine r, .wait, {})
  else (s.poisonLine r cause, .fail .uncorrectable, { poisoned := true })

/-- Reconstruction of a line that failed step 2 or step 4 (R292, R303). -/
def State.reconstruct (s : State) (r : LineRef) (step4 : Bool) (cls : Nat := 0) : State × RdOut × ReadNote :=
  match s.place r.tier r.line with
  | none => (s.poisonLine r 1, .fail .uncorrectable, { poisoned := true })
  | some p =>
    let g := s.group p.group
    let own := g.lostAt p.pos p.stripe
    if !g.sealedAt p.row then
      if own then s.endPoison r 3
      else (s, .fail (if step4 then .integrity else .uncorrectable), { unformed := true })
    else
      let cell := s.cell r.tier r.line
      let unit := g.unitAt p.group p.pos p.stripe
      let s0 := fun (s : State) => if step4 || own then s else s.countUe p.group unit
      match s.candidate r.tier r.line p with
      | none => (s0 s).endPoison r (if own then 3 else 0)
      | some d =>
        let err := match cell with | some c => c.err | none => 0#640
        if !own && d == err then
          (s, .fail (if step4 then .integrity else .uncorrectable), { unformed := true })
        else match cell with
          | none => (s0 s).endPoison r 0
          | some c =>
            match s.readSteps r { c with err := d } with
            | (.data l, _) =>
              let s1 := s0 s
              let s2 := if own then s1
                else s1.putCell r.tier r.line { c with err := d }
              let idx := ((s.part.extents.find r.extent).map fun e => s.lineIndex r.extent e r.tier r.line).getD 0
              ((s2.chargeTier r.pays cls r.tier (readPj r.tier) (if p.group = 0 then 16 else 8)).logRec
                (.reconstructed p.group unit 0 r.extent idx (r.line * 64)), .data l, { reconstructed := true })
            | _ => (s0 s).endPoison r 0

/-- A read of a line through R291 and R292 with its charge. `cls` is the traffic class. -/
def State.readLineN (s : State) (r : LineRef) (cls : Nat := 0) : State × RdOut × ReadNote :=
  let s0 := s.chargeTier r.pays cls r.tier (readPj r.tier) 1
  let x := s.firstRead r
  let s1 := if x.2 then s0.countCe (s.unitOf r.tier r.line).1 else s0
  match x.1 with
  | .recon b =>
    let y := s1.reconstruct r b cls
    (y.1, y.2.1, { y.2.2 with corrected := x.2 })
  | .fail .uncorrectable => (s1, .fail .uncorrectable, { poisoned := true })
  | o => (s1, o, { corrected := x.2 })

/-- A read of a line. -/
def State.readLine (s : State) (r : LineRef) (cls : Nat := 0) : State × RdOut :=
  let x := s.readLineN r cls
  (x.1, x.2.1)

/-- Reads lines in order: the data, or the first failure; `wait` when any line waits. -/
def State.readLines (s : State) : List LineRef → Nat → State × RdOut × List Line
  | [], _ => (s, .data 0#512, [])
  | r :: rs, cls =>
    match s.readLine r cls with
    | (s1, .data l) =>
      match s1.readLines rs cls with
      | (s2, .data d, ls) => (s2, .data d, l :: ls)
      | (s2, o, _) => (s2, o, [])
    | (s1, o) => (s1, o, [])

/-! ## Writing a line (R45, R293) -/

/-- What a write of a line comes to: done, with the MSEQ to be acknowledged; refused; or waiting
for a partner's line. -/
inductive WrOut
  | done (mseq : Option Nat)
  | fail (st : Status)
  | wait
  deriving DecidableEq, Repr

/-- Who a write is for, as its mirror record names it (R309), and its class. -/
structure Origin where
  ep   : Nat := 0
  rtag : Nat := 0
  fw   : Bool := false
  last : Bool := true
  cls  : Nat := 0
  deriving DecidableEq, Repr, Inhabited

/-- Writes a whole line of an extent. -/
def State.writeWhole (s : State) (r : LineRef) (data : Line) (full : Bool) (o : Origin) : State × Option Nat :=
  let c := s.formCell r data
  let s1 := (s.storeLine r c full).chargeTier r.pays o.cls r.tier (writePj r.tier full false) 1
  s1.mirrorWrite r c o.ep o.rtag o.fw o.last

/-- Writes the enabled bytes of a line: a whole line, or a narrow write that needs the old
plaintext (R45, R293). A zero mask writes nothing (R239). -/
def State.writeLine (s : State) (r : LineRef) (data : Line) (mask : BitVec 64) (full : Bool) (o : Origin) :
    State × WrOut :=
  if mask = 0#64 then (s, .done none)
  else if mask = ~~~0#64 then
    let x := s.writeWhole r data full o
    (x.1, .done x.2)
  else match s.readLine r o.cls with
    | (s1, .data old) =>
      let x := s1.writeWhole r (mergeLine old data mask) false o
      (x.1, .done x.2)
    | (s1, .fail st) => (s1, .fail st)
    | (s1, .wait) => (s1, .wait)
    | (s1, .recon _) => (s1, .fail .uncorrectable)

/-- Writes whole lines in order; the highest MSEQ they produced. -/
def State.writeLines (s : State) (ls : List (LineRef × Line)) (full : Bool) (o : Origin) : State × Option Nat :=
  ls.foldl (fun a x =>
    let y := a.1.writeWhole x.1 x.2 full o
    (y.1, match y.2, a.2 with
      | none, b => b
      | some m, none => some m
      | some m, some k => some (max m k))) (s, none)

/-- Closes an assembly buffer: its lines are written out, as one full-stripe write when all 1,024
are present (R49). -/
def State.closeAsm (s : State) (stripe : Nat) : State :=
  match s.mem.asm.find stripe with
  | none => s
  | some b =>
    let full := b.lines.length == 1024
    let s1 := { s with mem := { s.mem with asm := s.mem.asm.del stripe } }
    b.lines.foldl (fun a x =>
      match a.extentAt .t1 (x.1 / 32768) with
      | some (i, e) =>
        (a.storeLine { tier := .t1, line := x.1, extent := i, gen := e.gen, deckle := e.deckle, mir := e.mir } x.2 full).chargeTier
          x.2.deckle 8 .t1 (writePj .t1 full false) 1
      | none => a) s1

/-- Closes the buffer of a line's stripe before a narrow write, an ATOM or a full-stripe unit
reaches it (R49). -/
def State.closeAsmOf (s : State) (t : Tier) (line : Nat) : State :=
  if t == .t1 then s.closeAsm (line / 1024) else s

/-- A full-line WR to tier 1 in bulk mode joins its stripe's assembly buffer, closing the oldest
buffer of the die when none is free (R49). -/
def State.assemble (s : State) (r : LineRef) (data : Line) (o : Origin) : State × Option Nat :=
  let st := r.line / 1024
  let c := s.formCell r data
  let die := s.mem.asm.filter fun b => b.1 % 4 == st % 4
  let s1 := if s.mem.asm.has st || die.length < 1024 then s
    else match die.foldl (fun a b => match a with
        | none => some b
        | some x => if b.2.openedAt < x.2.openedAt then some b else some x) none with
      | some x => s.closeAsm x.1
      | none => s
  let b := (s1.mem.asm.find st).getD { openedAt := s.now, lines := [] }
  let b' : AsmBuf := { b with lines := b.lines.put r.line c }
  let s2 := ({ s1 with mem := { s1.mem with asm := s1.mem.asm.put st b' } }).unpoison r.tier r.line
  let s3 := s2.chargeTier r.pays o.cls .staging 350 1
  let s4 := if b'.lines.length == 1024 then s3.closeAsm st else s3
  s4.mirrorWrite r c o.ep o.rtag o.fw o.last

/-! ## Structures in memory -/

/-- Reads `n` bytes of a structure of a deckle (Table 6.4, R22): status and bytes. -/
def State.readBytes (s : State) (d pva n : Nat) : State × Status × Nat :=
  let k := cdiv (pva % 64 + n) 64
  match s.translate d .krd (lineRun pva k) with
  | .ok refs =>
    match s.readLines refs 0 with
    | (s1, .data _, ls) => (s1, .ok, bytesFrom (lineNat ls) (pva % 64) n)
    | (s1, .fail st, _) => (s1, st, 0)
    | (s1, _, _) => (s1, .uncorrectable, 0)
  | .deny st true => (s.mismatch d, st, 0)
  | t => (s, Trans.status t, 0)

/-- Writes `n` bytes at a 64-byte-aligned PVA of a deckle (R22, R23). -/
def State.writeBytes (s : State) (d pva n v : Nat) : State :=
  match s.translate d .wr (lineRun pva (cdiv n 64)) with
  | .ok refs =>
    ((refs.zip (linesOf v n)).foldl (fun (a : State × Nat) x =>
      let left := n - a.2 * 64
      let m : BitVec 64 := if 64 ≤ left then ~~~0#64 else maskRange 0 left
      ((a.1.writeLine x.1 x.2 m false { fw := true }).1, a.2 + 1)) (s, 0)).1
  | _ => s

end Sys2Proof.Machine
end

