-- ==== Sys2Proof/Machine/CalOps.lean ====
section
/-! DEFINITION. Token buckets and their colours (R263, R265), policing at ingress (R266), the
egress choice of a port with its shapers and virtual finishing times (R258–R260, R267), and the
energy buckets (R269). -/

namespace Sys2Proof.Machine

/-! ## Byte buckets (R263) -/

/-- Colours of RFC 2698. -/
inductive Colour
  | green | yellow | red
  deriving DecidableEq, Repr, Inhabited

/-- Tokens accrue at the bucket's rate, to at most its size: a rate in MB/s is thousandths of a
byte per ns. -/
def Bucket.accrue (b : Bucket) (now : Nat) : Bucket :=
  let dt := now - b.last
  { b with ctok := min (b.cbs * 1000) (b.ctok + b.cir * dt),
           ptok := min (b.pbs * 1000) (b.ptok + b.pir * dt), last := now }

/-- Colours `n` bytes, given the input colour, with tokens already accrued (R263). -/
def Bucket.colour (b : Bucket) (inp : Colour) (n : Nat) : Colour :=
  if !b.enable then inp
  else if inp == .red || b.ptok < n * 1000 then .red
  else if inp == .yellow || b.ctok < n * 1000 then .yellow
  else .green

/-- Takes the tokens of `n` bytes of a colour. -/
def Bucket.take (b : Bucket) (c : Colour) (n : Nat) : Bucket :=
  if !b.enable then b
  else match c with
    | .red => b
    | .yellow => { b with ptok := b.ptok - n * 1000 }
    | .green => { b with ptok := b.ptok - n * 1000, ctok := b.ctok - n * 1000 }

/-- The policer of every (port, queue) after reset (R264): enabled and full. -/
def Bucket.open (now : Nat) : Bucket where
  enable := true
  cir := 185000
  pir := 185000
  cbs := 67108864
  pbs := 67108864
  ctok := 67108864000
  ptok := 67108864000
  last := now
  resetFill := true

/-- A disabled pair (R264). -/
def Bucket.off : Bucket where
  enable := false
  cir := 0
  pir := 0
  cbs := 4096
  pbs := 4096
  ctok := 0
  ptok := 0
  last := 0
  resetFill := false

/-- Key of a (port, queue) pair. -/
def pqKey (p q : Nat) : Nat := p * 64 + q

/-- The policer of a (port, queue). -/
def State.policer (s : State) (p q : Nat) : Bucket := (s.cal.policers.find (pqKey p q)).getD (Bucket.open s.now)

/-- The shaper of a (port, queue); the internal queues have none. -/
def State.shaper (s : State) (p q : Nat) : Bucket := (s.cal.shapers.find (pqKey p q)).getD Bucket.off

/-- The queue of a deckle's traffic class (R262). -/
def State.queueOf (s : State) (d cls : Nat) : Nat :=
  ((s.part.deckles.find d).map fun k => k.classMap.getD cls (4 + cls)).getD (4 + cls)

/-- What policing says: admitted into a queue, or refused with a retry-after hint in µs. -/
inductive Police
  | accept (queue : Nat) (yellow : Bool)
  | refuse (hint : Nat)
  deriving DecidableEq, Repr

/-- The retry-after hint of the pair that turned a packet red (R266). -/
def Bucket.hint (b : Bucket) (n : Nat) : Nat :=
  if b.pir = 0 then 0xFFFFFFFF else min 0xFFFFFFFF (max 1 (cdiv (n * 1000 - b.ptok) (1000 * b.pir)))

/-- Polices `n` metered bytes of a deckle's class on a port (R263, R266): the (port, queue) pair
first, then the deckle's. A packet that ends red takes no tokens. -/
def State.police (s : State) (p d cls n : Nat) : State × Police :=
  let q := s.queueOf d cls
  let a := (s.policer p q).accrue s.now
  let c1 := a.colour .green n
  let b := (((s.part.deckles.find d).map (·.policer)).getD Bucket.off).accrue s.now
  let c2 := b.colour c1 n
  match c2 with
  | .red => (s, .refuse (if c1 == .red then a.hint n else b.hint n))
  | _ =>
    let s1 := { s with cal := { s.cal with policers := s.cal.policers.put (pqKey p q) (a.take c1 n) } }
    (s1.modDeckle d fun k => { k with policer := b.take c2 n },
      if c2 == .yellow then .accept 60 true else .accept q false)

/-! ## Egress choice (R258–R260, R267) -/

/-- Payload bytes of a packet's next flit: one packet per flit, at most 240 bytes (R212). -/
def Egress.fill (e : Egress) : Nat := min 240 e.left

/-- The head packets a port may choose from: the first of each queue; of the unshaped queue of
VC3 and VC5 the first of each channel (R258). -/
def heads : List Egress → List (Nat × Nat) → Nat → List (Nat × Egress)
  | [], _, _ => []
  | e :: r, seen, i =>
    let k := if e.queue = 61 then (61, e.vc) else (e.queue, 0)
    if seen.contains k then heads r seen (i + 1) else (i, e) :: heads r (k :: seen) (i + 1)

/-- The transmitter holds the credits of a packet, or has consumed them (R214). -/
def Port.hasCredits (x : Port) (e : Egress) : Bool := e.started || cdiv (Msg.bytes e.msg) 64 ≤ at0 x.txCred e.vc

/-- No other packet has started on the packet's channel (R258). -/
def Port.vcFree (x : Port) (i : Nat) (e : Egress) : Bool :=
  (x.txq.zip (List.range x.txq.length)).all fun y => y.2 == i || !y.1.started || y.1.vc != e.vc

/-- The colour both shapers give a packet's next flit: queues below 60 have a (port, queue)
shaper; the unshaped queues are green (R267). -/
def State.shape (s : State) (p : Nat) (e : Egress) : Colour :=
  if 60 < e.queue then .green
  else
    let a := if e.queue < 60 then (s.shaper p e.queue).accrue s.now else Bucket.off
    let b := (((s.part.deckles.find e.deckle).map (·.shaper)).getD Bucket.off).accrue s.now
    b.colour (a.colour .green e.fill) e.fill

/-- Takes the shapers' tokens of a flit (R267). -/
def State.takeShape (s : State) (p : Nat) (e : Egress) : State :=
  if 60 < e.queue then s
  else
    let a := if e.queue < 60 then (s.shaper p e.queue).accrue s.now else Bucket.off
    let c := a.colour .green e.fill
    let b := (((s.part.deckles.find e.deckle).map (·.shaper)).getD Bucket.off).accrue s.now
    let s1 := if e.queue < 60 ∧ a.enable then
        { s with cal := { s.cal with shapers := s.cal.shapers.put (pqKey p e.queue) (a.take c e.fill) } }
      else s
    if b.enable then s1.modDeckle e.deckle fun k => { k with shaper := b.take (b.colour c e.fill) e.fill } else s1

/-- Weight of a weighted queue (R262). -/
def State.weight (s : State) (q : Nat) : Nat := (s.cal.weights.find q).getD 64

/-- Sum of the weights of the 56 weighted queues. -/
def State.weightSum (s : State) : Nat := ((List.range 56).map fun i => s.weight (4 + i)).foldl (· + ·) 0

/-- The tag of a queue on a port. -/
def Port.tag (x : Port) (q : Nat) : WfqTag := (x.tags.find q).getD { s := 0, f := 0, backlogged := false }

/-- The head flit's finishing tag S + L / w (R260). -/
def State.finish (s : State) (x : Port) (e : Egress) : Nat := (x.tag e.queue).s + e.fill * 65536 / s.weight e.queue

/-- The best of a list by a key, the lower queue number on a tie. -/
def bestBy (f : Egress → Nat) : List (Nat × Egress) → Option (Nat × Egress)
  | [] => none
  | a :: r => match bestBy f r with
    | none => some a
    | some b =>
      if f a.2 < f b.2 then some a else if f b.2 < f a.2 then some b
      else if a.2.queue ≤ b.2.queue then some a else some b

/-- WF2Q+ among eligible weighted queues (R260). -/
def State.wfq (s : State) (x : Port) (l : List (Nat × Egress)) : Option (Nat × Egress) :=
  match bestBy (s.finish x) (l.filter fun y => (x.tag y.2.queue).s ≤ x.vtime) with
  | some y => some y
  | none => bestBy (fun e => (x.tag e.queue).s) l

/-- The packet whose flit a port sends next (R258, R259): its place in the egress list. -/
def State.choose (s : State) (p : Nat) : Option (Nat × Egress) :=
  let x := s.port p
  let el := (heads x.txq [] 0).filter fun y => x.hasCredits y.2 && x.vcFree y.1 y.2 && s.shape p y.2 != .red
  let weighted := el.filter fun y => 4 ≤ y.2.queue && y.2.queue < 60
  (el.find? fun y => y.2.queue == 62).or <|
  (el.find? fun y => y.2.queue == 61).or <|
  ((List.range 4).findSome? fun q => el.find? fun y => y.2.queue == q).or <|
  (s.wfq x (weighted.filter fun y => s.shape p y.2 == .green)).or <|
  (s.wfq x weighted).or (el.find? fun y => y.2.queue == 60)

/-- The port's tags after a flit of a weighted queue (R260). `txq` is the egress list after it. -/
def State.afterFlit (s : State) (x : Port) (e : Egress) (txq : List Egress) : Port :=
  if 4 ≤ e.queue ∧ e.queue < 60 then
    let f := s.finish x e
    let more := txq.any fun y => y.queue == e.queue
    let tags := x.tags.put e.queue { s := if more then f else (x.tag e.queue).s, f := f, backlogged := more }
    let v := x.vtime + e.fill * 65536 / s.weightSum
    let low := (tags.filter fun t => t.2.backlogged).map fun t => t.2.s
    { x with tags := tags, vtime := match low with | [] => v | a :: r => max v (r.foldl min a) }
  else x

/-! ## Energy buckets (R268, R269, R272) -/

/-- An integer clamped between two bounds. -/
def clampInt (lo hi x : Int) : Int := max lo (min hi x)

/-- Energy tokens accrue at the effective refill rates: 1 mW is 1 pJ per ns. -/
def EnergyB.accrue (b : EnergyB) (now : Nat) : EnergyB :=
  let dt := now - b.last
  { b with ctok := min (b.ceb * 1000000 : Nat) (b.ctok + b.effC * dt),
           ptok := min (b.peb * 1000000 : Nat) (b.ptok + b.effP * dt), last := now }

/-- Colours an estimate in pJ (R263, R269); disabled buckets colour green. -/
def EnergyB.colour (b : EnergyB) (x : Nat) : Colour :=
  if !b.enable then .green
  else if b.ptok < x then .red
  else if b.ctok < x then .yellow
  else .green

/-- Takes an estimate's tokens. -/
def EnergyB.take (b : EnergyB) (c : Colour) (x : Nat) : EnergyB :=
  if !b.enable then b
  else match c with
    | .red => b
    | .yellow => { b with ptok := b.ptok - x }
    | .green => { b with ptok := b.ptok - x, ctok := b.ctok - x }

/-- Replaces an estimate by a measurement, to at least minus the bucket's size (R269). -/
def EnergyB.settle (b : EnergyB) (green : Bool) (x m : Nat) : EnergyB :=
  if !b.enable then b
  else
    let d : Int := (x : Int) - m
    { b with ptok := clampInt (-(b.peb * 1000000 : Nat)) (b.peb * 1000000 : Nat) (b.ptok + d),
             ctok := if green then clampInt (-(b.ceb * 1000000 : Nat)) (b.ceb * 1000000 : Nat) (b.ctok + d) else b.ctok }

/-- The energy buckets of a deckle, disabled with QUEUE_LIMIT 256 (R268). -/
def EnergyB.off : EnergyB where
  enable := false
  cer := 0
  per := 0
  ceb := 1000
  peb := 1000
  queueLimit := 256
  ctok := 0
  ptok := 0
  last := 0
  effC := 0
  effP := 0
  resetFill := false

/-- The deckle's energy buckets. -/
def State.energy (s : State) (d : Nat) : EnergyB := ((s.part.deckles.find d).map (·.energy)).getD EnergyB.off

/-- Work items and formed reads of a deckle that wait for energy. -/
def State.energyWaiting (s : State) (d : Nat) : List Nat :=
  (s.eng.work.filter fun w => w.2.deckle == d && w.2.state == .energyQueued).map Prod.fst

/-- What energy admission says (R269, R274). -/
inductive EnergyAns
  | go (yellow : Bool)
  | wait
  | refuse (st : Status)
  deriving DecidableEq, Repr

/-- EV_ENERGY_QUEUE_FULL at most once per 1 ms per deckle, counting the refusals since (R269). -/
def State.energyFull (s : State) (d : Nat) : State :=
  let b := (s.energy d).accrue s.now
  let n := (((s.part.deckles.find d).map (·.refused)).getD 0) + 1
  let at_ := (s.part.deckles.find d).bind (·.refusedAt)
  let due := match at_ with | none => true | some t => t + 1000000 ≤ s.now
  if due then
    (s.modDeckle d fun k => { k with refused := 0, refusedAt := some s.now }).raise 0x0604 (.deckle d) 0
      (pack [(13, n), (51, 0), (64, satInt 64 (b.ptok / 1000))])
  else s.modDeckle d fun k => { k with refused := sat 13 n }

/-- Energy admission of an item with estimate `x` in pJ. An item waits behind those already
waiting. -/
def State.admitEnergy (s : State) (d x : Nat) : State × EnergyAns :=
  let b := (s.energy d).accrue s.now
  let q := s.energyWaiting d
  let c := if q.isEmpty then b.colour x else .red
  if !b.enable then (s, .go false)
  else match c with
    | .red =>
      if s.cal.emergency.isSome then (s, .refuse .emergency)
      else if b.queueLimit ≤ q.length then (s.energyFull d, .refuse .throttled)
      else (s.modDeckle d fun k => { k with energy := b }, .wait)
    | c => (s.modDeckle d fun k => { k with energy := b.take c x }, .go (c == .yellow))

end Sys2Proof.Machine
end

