-- ==== Sys2Proof/Machine/LinkOps.lean ====
section
/-! DEFINITION. Shared operations of the link layer (chapter 13): credits and receive buffers,
acknowledgement and replay, training and the way down, key exchange, and what follows when a
port becomes active (R242, R354). -/

namespace Sys2Proof.Machine

/-- Link identity of a port (R225). -/
def State.linkId (s : State) (p : Nat) : Nat := s.board.deviceId * 64 + p

/-! ## Credits (R214, R217, R218, R18) -/

/-- Receive credits of a virtual channel: all of open mode, the reserved ones of bulk mode
(Table 13.6). -/
def initCredits (bulk : Bool) (vc : Nat) : Nat :=
  (if bulk then [256, 256, 1024, 128, 256, 64] else [1536, 1536, 1024, 512, 1024, 256]).getD vc 0

/-- Channels that take shared credits in bulk mode (Table 13.6). -/
def sharesPool (vc : Nat) : Bool := vc == 0 || vc == 1 || vc == 3 || vc == 4

/-- Credits a partner holds or has been promised on a channel. -/
def Port.granted (x : Port) (vc : Nat) : Nat := at0 x.rxHeld vc + at0 x.owed vc

/-- Shared credits granted or occupied on a (port, VC): what exceeds the reserved ones (R217, R18). -/
def Port.sharedOf (x : Port) (vc : Nat) : Nat :=
  (x.granted vc + at0 x.rxUsed vc) - initCredits true vc

/-- Free shared credits of a port's die (R217). -/
def State.sharedFree (s : State) (p : Nat) : Nat :=
  99328 - (((List.range 16).flatMap fun i => (List.range 6).map fun v =>
    (s.port (p / 16 * 16 + i)).sharedOf v).foldl (· + ·) 0)

/-- Frees receive buffer of a channel and returns its credits (R214, R217, R18). Shared space goes
back to the pool while fewer than 16,384 shared credits are free. A CREDIT message is queued at
once when a quarter of the initial count is owed (R218). -/
def State.freeBuf (s : State) (p vc n : Nat) : State :=
  let x := s.port p
  let k := min n (at0 x.rxUsed vc)
  let back :=
    if s.part.bulk then
      let sh := min k (x.sharedOf vc)
      if 16384 ≤ s.sharedFree p then k else k - sh
    else min k (initCredits false vc - (x.granted vc + (at0 x.rxUsed vc - k)))
  let owed := modAt x.owed vc (· + back)
  let x1 := { x with rxUsed := modAt x.rxUsed vc (· - k), owed := owed }
  s.setPort p (if initCredits s.part.bulk vc ≤ 4 * at0 owed vc ∧ 0 < at0 owed vc then
      { x1 with bq := x1.bq ++ [.credit owed], owed := [0, 0, 0, 0, 0, 0],
                rxHeld := List.zipWith (· + ·) x1.rxHeld owed }
    else x1)

/-- Shared credits granted beyond the reserved ones to a partner that holds less than half of its
reserved credits on a channel (R217; the moment is a DESIGN CHOICE, log 27). -/
def State.grantShared (s : State) (p : Nat) : State :=
  if !s.part.bulk then s
  else [0, 1, 3, 4].foldl (fun a vc =>
    let x := a.port p
    let free := a.sharedFree p
    if 2 * x.granted vc < initCredits true vc then
      a.setPort p { x with owed := modAt x.owed vc (· + min (2048 - x.sharedOf vc) (free - 16384)) }
    else a) s

/-- Queues the CREDIT message of all credits owed (R218). -/
def State.returnCredits (s : State) (p : Nat) : State :=
  let x := s.port p
  if x.owed.all (· == 0) then s
  else s.setPort p { x with bq := x.bq ++ [.credit x.owed], owed := [0, 0, 0, 0, 0, 0],
                            rxHeld := List.zipWith (· + ·) x.rxHeld x.owed }

/-! ## Identifiers (R237, R26) -/

/-- The endpoint holds a lease in HELD or GRACE. -/
def State.holdsLease (s : State) (ep : Nat) : Bool :=
  s.part.leases.any fun x => x.1 % 4096 == ep && x.2.isMember

/-- Frees an endpoint identifier: its EXPIRED leases go to NONE, what is held for it is discarded,
and no mailbox keeps it as event endpoint. -/
def State.freeEp (s : State) (ep : Nat) : State :=
  let s1 := { s with
    part := { s.part with
      eps := s.part.eps.del ep
      leases := s.part.leases.keep fun k _ => k % 4096 != ep }
    mbx := { s.mbx with evEp := s.mbx.evEp.keep fun _ e => e != ep } }
  s1.discardHeld fun _ e => e == ep

/-- Frees an identifier whose port is down and that holds no lease in HELD or GRACE (R237). -/
def State.freeIfIdle (s : State) (ep : Nat) : State :=
  match s.part.eps.find ep with
  | some e => if !s.portActive e.port && !s.holdsLease ep then s.freeEp ep else s
  | none => s

/-! ## Replay buffers (R219–R223) -/

/-- Sequence number `f` lies before `n`, modulo `m`. -/
def seqBefore (m f n : Nat) : Bool := let d := (n + m - f % m) % m; 0 < d && d ≤ m / 2

/-- Responses and completions that a link down loses (R230). -/
def Msg.isAnswer : Msg → Bool
  | .mbxRsp .. => true
  | .rsp .. => true
  | .cpl .. => true
  | _ => false

/-- The receiver of an event packet. -/
def Msg.eventFor : Msg → Option Nat
  | .event _ recv _ => some recv
  | _ => none

/-- Packets of acknowledged flits have been delivered: their events leave the rings (R30). -/
def State.delivered (s : State) (l : List Msg) : State :=
  l.foldl (fun a m => match m with | .event _ recv e => a.eventAcked recv e.seq | _ => a) s

/-- Frees every stored DATA flit before `n` (R222, R229). -/
def State.freeBefore (s : State) (p n : Nat) : State :=
  let x := s.port p
  let gone := x.replay.filter fun f => seqBefore 65536 f.seq n
  if gone.isEmpty then s
  else (s.setPort p { x with
    replay := x.replay.filter fun f => !seqBefore 65536 f.seq n
    replayLeft := x.replayLeft.filter fun q => !seqBefore 65536 q n
    ackedTo := some ((n + 65535) % 65536)
    progressAt := s.now }).delivered (gone.flatMap (·.ends))

/-- Frees every stored bypass flit before `n` (R223). -/
def State.freeBefore8 (s : State) (p n : Nat) : State :=
  let x := s.port p
  if x.breplay.any fun f => seqBefore 256 f.seq n then
    s.setPort p { x with
      breplay := x.breplay.filter fun f => !seqBefore 256 f.seq n
      breplayLeft := x.breplayLeft.filter fun q => !seqBefore 256 q n
      backedTo := some ((n + 255) % 256)
      bprogressAt := s.now }
  else s

/-! ## Going down (R227, R230) -/

/-- A port after going down: training state and counters kept, everything else as at reset. -/
def Port.downed (x : Port) (now : Nat) : Port :=
  { Port.reset with
    train := .down, full := true, downAt := now
    discarded := x.discarded, unmatched := x.unmatched, rsvdSlots := x.rsvdSlots
    leaseIgnored := x.leaseIgnored, vc2Discards := x.vc2Discards
    lostRsp := x.lostRsp + ((x.txq.map (·.msg)) ++ x.replay.flatMap (·.ends)).countP Msg.isAnswer
    trips := x.trips }

/-- The active sends a lost pair port's unacknowledged records again on the other port (R310). -/
def State.resendRecords (s : State) (p : Nat) : State :=
  if (p == 62 || p == 63) && s.pair.role != .none then
    let o := if p = 62 then 63 else 62
    let mine := s.pair.retained.filter fun r => r.port == p
    let moved : List MirRec := s.pair.retained.map fun r => ({ r with port := o } : MirRec)
    let s1 := { s with pair := { s.pair with retained := moved } }
    if s1.portActive o then mine.foldl (fun a r => a.enqueue o 4 61 0 r.msg) s1 else s1
  else s

/-- The port goes down with a CAUSE of Table 13.9 (R230): buffers and queued packets go, its
event is raised, events on their way are to be sent again, and identifiers with no lease are freed. -/
def State.portDown (s : State) (p cause : Nat) : State :=
  let x := s.port p
  let evs := ((x.txq.map (·.msg)) ++ x.replay.flatMap (·.ends)).filterMap Msg.eventFor
  let s1 := s.setPort p (x.downed s.now)
  let rings := s1.mbx.rings.each fun d r => if evs.contains d then { r with queued := 0 } else r
  let s2 := { s1 with mbx := { s1.mbx with rings := rings } }
  let s3 := s2.resendRecords p
  let s4 := s3.raise 0x0C01 .device (srcOf 3 (p / 16)) (pack [(6, p), (2, 0), (4, cause), (4, x.width), (48, 0),
    (64, (x.partner.map (·.linkId)).getD 0), (64, s.dom), (32, x.replay.length), (128, 0)])
  ((s4.part.eps.filter fun e => e.2.port == p).map Prod.fst).foldl (fun a e => a.freeIfIdle e) s4

/-! ## Training (R224–R229) -/

/-- Lane groups of a width (Table 13.1), lowest first, as masks. -/
def laneGroups : Nat → List Nat
  | 8 => [0xFF]
  | 4 => [0x0F, 0xF0]
  | 2 => [0x03, 0x0C, 0x30, 0xC0]
  | _ => [0x01, 0x02, 0x04, 0x08, 0x10, 0x20, 0x40, 0x80]

/-- The width and lane group of R226: the largest within the limits whose group lies wholly in the
lanes both sides have. -/
def resolveWidth (limit lanes : Nat) : Option (Nat × Nat) :=
  ([8, 4, 2, 1].filter fun w => w ≤ limit).findSome? fun w =>
    ((laneGroups w).find? fun g => g &&& lanes = g).map fun g => (w, g)

/-- The device requires encryption (R232). -/
def State.encRequired (s : State) : Bool := !s.part.bulk && s.sec.ready

/-- A fast retrain starts (R227); `own` sends the RETRAIN message. -/
def State.startRetrain (s : State) (p cause width : Nat) (own : Bool) : State :=
  s.modPort p fun x =>
    { x with train := .align, full := false, oldWidth := x.width, reqWidth := width, cause := cause,
             retrainAt := s.now, gotA := false, gotB := false,
             sent := if own then .bypassFlit {} [.retrain (s.linkId p) width cause] else .nothing }

/-- Replays from `n` onward, unless a flit would be replayed beyond REPLAY_LIMIT: then a fast
retrain, or within DOWN_WINDOW of the last one the link goes down (R222, R227). -/
def State.replayFrom (s : State) (p n : Nat) : State :=
  let x := s.port p
  let again := x.replay.filter fun f => !seqBefore 65536 f.seq n
  let window := match x.lastRetrain with
    | some t => decide (s.now < t + x.downWindow * 1000000)
    | none => false
  if again.any fun f => x.replayLimit < (if window then f.since else f.replays) + 1 then
    if window then s.portDown p 0 else s.startRetrain p 0 0 true
  else s.setPort p { x with rstart := some n, replayLeft := again.map (·.seq), progressAt := s.now }

/-- The same for bypass flits (R223). -/
def State.replayFrom8 (s : State) (p n : Nat) : State :=
  let x := s.port p
  let again := x.breplay.filter fun f => !seqBefore 256 f.seq n
  let window := match x.lastRetrain with
    | some t => decide (s.now < t + x.downWindow * 1000000)
    | none => false
  if again.any fun f => x.replayLimit < (if window then f.since else f.replays) + 1 then
    if window then s.portDown p 0 else s.startRetrain p 0 0 true
  else s.setPort p { x with breplayLeft := again.map (·.seq), bprogressAt := s.now }

/-! ## Readiness (R354, R242) -/

/-- EV_READY of a function (Table 20.12): raised when the hub is ready, and until then it waits. -/
def State.announce (s : State) (fn index : Nat) (lost : Option Nat := none) (filled : Bool := false)
    (peer : Option Nat := none) : State :=
  let params := pack [(4, fn), (6, index), (1, b2n lost.isSome), (1, b2n filled), (4, 0), (5, lost.getD 0),
    (12, peer.getD 0), (1, b2n peer.isSome), (30, 0), (64, s.dom),
    (32, sat 32 ((s.now - s.pkg.releasedAt) / 1000))]
  if s.hub.ready then s.raise 0x0001 .device 0 params
  else { s with pkg := { s.pkg with readyWait := s.pkg.readyWait ++ [params] } }

/-- Endpoints on a port that can be reached again get what was held for them. -/
def State.wakePort (s : State) (p : Nat) : State :=
  ((s.part.eps.filter fun e => e.2.port == p).map Prod.fst).foldl (fun a e => a.deliverHeld e) s

/-- The port reaches ACTIVE. After a full training it claims its device endpoint on a pool device
and raises EV_READY, at once or once the partner's claim is answered (R242, R354); after a fast
retrain it replays and raises EV_LINK_RETRAINED (R229). -/
def State.becomeActive (s : State) (p : Nat) : State :=
  let x := s.port p
  if x.full then
    let s1 := s.setPort p { x with train := .active, activeAt := s.now, full := false, vtime := 0, tags := [], retrains := 0,
                                   lastRetrain := none }
    let s2 := if ((x.partner.map (·.poolDevice)).getD false) then
        (s1.modPort p fun y => { y with claiming := true, peerWait := some s.now }).enqueue p 5 61 0
          (.epClaim (s.linkId p))
      else s1.announce 1 p
    s2.wakePort p
  else
    let n := sat 16 (x.retrains + 1)
    let first := x.replay.head?.map (·.seq)
    let s1 := s.setPort p { x with
      train := .active, activeAt := s.now, retrains := n, lastRetrain := some s.now
      replay := x.replay.map fun f => { f with since := 0 }
      breplay := x.breplay.map fun f => { f with since := 0 }
      rstart := first, replayLeft := x.replay.map (·.seq), breplayLeft := x.breplay.map (·.seq)
      progressAt := s.now, bprogressAt := s.now, sinceBypass := 0 }
    s1.raise 0x0C02 .device (srcOf 3 (p / 16)) (pack [(6, p), (2, 0), (4, x.cause), (4, x.oldWidth), (4, x.width),
      (8, x.active), (4, 0), (32, sat 32 (s.now - x.retrainAt)), (64, s.dom), (16, n), (208, 0)])

/-! ## Key exchange (R232, R233, R235, R329) -/

/-- The hub and the security block can serve a KEYX (R231, R353). -/
def State.canKey (s : State) : Bool := s.fwRuns && s.sec.ready

/-- Sends the four fragments of a KEYX message with this epoch; key and signature are fresh (log 12). -/
def State.sendKeyx (s : State) (p epoch : Nat) : State :=
  let a := s.draw (2 ^ 448)
  let b := a.2.draw (2 ^ 912)
  let m : KeyxMsg := { epoch := epoch, pubkey := a.1, sig := b.1 }
  b.2.modPort p fun x =>
    { x with keyxSent := some epoch, bq := x.bq ++ (List.range 4).map fun i => Slot.keyx m i }

/-- The epoch number a new KEYX of the port names: the next one, 0 for the first (log 27). -/
def Port.nextEpoch (x : Port) : Nat := if x.keys.isEmpty then 0 else (x.epoch + 1) % 256

/-- A KEYX starts on a port; while the hub or the security block cannot serve it, it waits. -/
def State.startKeyx (s : State) (p : Nat) : State :=
  if (s.port p).keyx.isSome then s
  else
    let s1 := s.modPort p fun x => { x with keyx := some s.now }
    if s.canKey then s1.sendKeyx p (s.port p).nextEpoch else s1

/-- Bits the signature of a KEYX covers: the digest of epoch, sender, partner and key (R233). -/
def keyxDigest (m : KeyxMsg) (sender partner : Nat) : Nat :=
  Config.shake256 (pack [(8, m.epoch), (64, sender), (64, partner), (448, m.pubkey)]) 73 512

/-- The partner's KEYX is acceptable: listed with a good signature, or not listed and not STRICT
(R329). The second flag: not authenticated. -/
def State.keyxTrust (s : State) (p : Nat) (m : KeyxMsg) : Bool × Bool :=
  let partner := ((s.port p).partner.map (·.linkId)).getD 0
  match s.link.trust.find partner with
  | some k => (Config.sigValid k (keyxDigest m partner (s.linkId p)) m.sig, false)
  | none => (!s.link.strict, true)

/-- Processes a received KEYX: answers it when this side has not sent its own or the partner's
exchange leads, derives the keys and, in training, lets the port become active. A KEYX that fails
takes the port down with CAUSE 3 (R232, R235; log 27). -/
def State.takeKeyx (s : State) (p : Nat) (m : KeyxMsg) : State :=
  let x := s.port p
  let partner := (x.partner.map (·.linkId)).getD 0
  let t := s.keyxTrust p m
  if !t.1 then s.portDown p 3
  else
    let lead := match x.keyxSent with
      | some e => if s.linkId p < partner then e else m.epoch
      | none => m.epoch
    let s1 := if x.keyxSent = some lead then s else s.sendKeyx p lead
    let s2 := s1.modPort p fun y =>
      { y with epoch := lead, keyCount := 0, keys := lead :: y.keys.take 1, encrypted := true, unauth := t.2,
               keyx := none, keyxSent := none, keyxGot := none, rxSwitched := false }
    if x.train == .keying then s2.becomeActive p else s2

/-- Starts what KEYX waits for on a port once the hub and the security block are ready, and on a
port that trained before (R232). A partner that cannot encrypt takes it down in open mode. -/
def State.keyPort (s : State) (p : Nat) : State :=
  let x := s.port p
  match x.partner with
  | none => s
  | some a =>
    if x.train == .active || x.train == .keying then
      match x.keyxGot with
      | some m => s.takeKeyx p m
      | none =>
        if x.keyx.isSome then (if x.keyxSent.isNone then s.sendKeyx p x.nextEpoch else s)
        else if x.encrypted then s
        else if s.encRequired && !a.encCapable then s.portDown p 3
        else if a.encCapable && (s.encRequired || a.encRequired) then s.startKeyx p
        else s
    else s

/-- The same on every port. -/
def State.keyPorts (s : State) : State := s.link.ports.keys.foldl (fun a p => a.keyPort p) s

end Sys2Proof.Machine
end

