-- ==== Sys2Proof/Machine/Serve.lean ====
section
/-! DEFINITION. Mailbox service: answers (R24–R26), the admission of a request at its port
(R247) and the order of checks of R27, shared by every mailbox command; the bedrock mailbox
(R37); and the mirroring of metadata commits (R309). -/

namespace Sys2Proof.Machine

/-! ## Answers -/

/-- The mailbox a request is for: the deckle's, or one of the two bedrock mailboxes. -/
def boxOf (code : Nat) (q : Req) : Nat :=
  if code < 0xFF01 then q.deckle else if q.via == .i3c then 4097 else 4096

/-- Microseconds from acceptance to answer, saturating (Table 2.3). -/
def State.elapsed (s : State) (t : Nat) : Nat := sat 32 ((s.now - t) / 1000)

/-- Delivers a mailbox response over the path its request came by. An I3C response raises the
in-band interrupt byte 0x01 (R350). -/
def State.respond (s : State) (q : Req) (r : MbxRsp) : State :=
  match q.via with
  | .link => s.sendHeld q.ep 5 61 r.deckle (.mbxRsp q.ep r)
  | .i3c => { s with mbx := { s.mbx with i3c := s.mbx.i3c ++ [r], ibi := s.mbx.ibi ++ [0x01] } }
  | .tap => { s with pkg := { s.pkg with tapRsp := some r } }

/-- Writes the result-area entries that fit whole and sets TRUNC (R23). -/
def State.fillArea (s : State) (q : Req) (a : Ans) : State × Ans :=
  if a.area = 0 then (s, a)
  else
    let k := if q.resultPva = 0 then 0 else min (a.area / a.entry) (q.resultLen / a.entry)
    let s1 := if k = 0 then s else s.writeBytes q.deckle q.resultPva (k * a.entry) a.content
    (s1, { a with trunc := decide (k * a.entry < a.area) })

/-- Answers a request that is not outstanding. -/
def State.answerNow (s : State) (q : Req) (code accepted : Nat) (a : Ans) (dup : Bool := false) : State :=
  let x := s.fillArea q a
  x.1.respond q { code := code, tag := q.tag, deckle := if code < 0xFF01 then q.deckle else 0, dupTag := dup,
                  cookie := q.cookie, elapsed := s.elapsed accepted, total := a.rlen + a.area, ans := x.2 }

/-- Answers an outstanding command (R25). The result of a command that commits while the hub is
stopped waits for the restart (R36); that of a mirrored commit waits for MIR_ACK (R310). -/
def State.answer (s : State) (r : Nat) (a : Ans) : State :=
  match s.mbx.outst.find r with
  | none => s
  | some o =>
    let waits := match o.mseq with
      | some n => s.mirrors && s.pair.acked < n
      | none => false
    if (s.hubStopped && o.box < 4096) || waits then
      { s with mbx := { s.mbx with outst := s.mbx.outst.put r { o with progress := .committed a } } }
    else
      let s1 := ({ s with mbx := { s.mbx with outst := s.mbx.outst.del r } }).answerNow o.req o.code o.accepted a
      if s1.mirrors && o.box < 4096 then s1.pushMeta o.req.ep o.req.tag false true (.request r none) else s1

/-- Answers an outstanding command, if there is one. -/
def State.answerOpt (s : State) (r : Option Nat) (a : Ans) : State :=
  match r with
  | none => s
  | some n => s.answer n a

/-! ## Metadata commits (R309) -/

/-- Records for the entries in which two tables differ, up to what is no metadata of them. -/
def diffTable {α : Type} [DecidableEq α] (old new : NMap α) (norm : α → α) (mk : Nat → Option α → MetaRec) : List MetaRec :=
  if old = new then []
  else (new.filterMap fun x => if (old.find x.1).map norm = some (norm x.2) then none else some (mk x.1 (some x.2)))
    ++ (old.filterMap fun x => if new.has x.1 then none else some (mk x.1 none))

/-- What of a deckle is metadata: not its tokens, its energy counters and its sweep's line count. -/
def Deckle.metaPart (k : Deckle) : Deckle :=
  { k with
    policer := { k.policer with ctok := 0, ptok := 0, last := 0 }
    shaper := { k.shaper with ctok := 0, ptok := 0, last := 0 }
    energy := { k.energy with ctok := 0, ptok := 0, last := 0, effC := 0, effP := 0 }
    usedClass := [], usedKind := [], activity := [], refused := 0, refusedAt := none, mismatches := 0
    oldCopy := none, sweep := k.sweep.map fun w => { w with lines := 0 } }

/-- What of an extent is metadata: not its dirty map and its revocation's counts. -/
def Extent.metaPart (e : Extent) : Extent :=
  { e with dirty := [], revoke := e.revoke.map fun r => { r with drained := 0, discarded := 0, stopped := 0 } }

/-- What of a lode is metadata: not its directory and its requests (R89). -/
def Lode.metaPart (l : Lode) : Lode := { l with dir := [], work := [], pva := 0 }

/-- What of a laid table is metadata: not the transfers in progress and the counters. -/
def LaidTable.metaPart (t : LaidTable) : LaidTable := { t with run := [], cycles := 0, slips := 0, unscheduled := 0 }

/-- Last identifiers given. -/
def State.lastIds (s : State) : List Nat :=
  [s.part.lastExtent, s.rgn.lastRegion, s.rgn.lastDraft, s.rgn.lastHandle, s.lode.lastLode, s.eng.lastKernel,
   s.attn.lastSeq, s.retr.lastIndex, s.sec.lastKey]

/-- The assigned identifiers, as the stream carries them (R236): identity and port. -/
def State.identities (s : State) : NMap (Nat × Nat) := s.part.eps.map fun e => (e.1, e.2.identity, e.2.port)

/-- The metadata a commit changed, as records of the stream (log 51). -/
def metaDiff (a b : State) : List MetaRec :=
  diffTable a.part.deckles b.part.deckles Deckle.metaPart .deckle
  ++ diffTable a.part.extents b.part.extents Extent.metaPart .extent
  ++ diffTable a.part.granules b.part.granules (fun g => { g with lastHeld := 0 }) .granule
  ++ diffTable a.part.leases b.part.leases id .lease
  ++ diffTable a.part.reclaims b.part.reclaims id .reclaim
  ++ diffTable a.identities b.identities id .endpoint
  ++ diffTable a.mem.migr b.mem.migr (fun m => { m with cursor := 0, poisoned := 0 }) .migration
  ++ diffTable a.rgn.regions b.rgn.regions id .region
  ++ diffTable a.rgn.drafts b.rgn.drafts id .draft
  ++ diffTable a.rgn.handles b.rgn.handles id .handle
  ++ diffTable a.lode.lodes b.lode.lodes Lode.metaPart (fun i l => .lode i (l.map Lode.metaPart))
  ++ diffTable a.eng.kernels b.eng.kernels id .kernel
  ++ diffTable a.attn.seqs b.attn.seqs id .seq
  ++ diffTable a.form.maps b.form.maps id .map
  ++ diffTable a.retr.indexes b.retr.indexes id .index
  ++ (if a.form.adapters = b.form.adapters then [] else [.adapters b.form.adapters])
  ++ (if a.pair.witnesses.map (·.ep) = b.pair.witnesses.map (·.ep) then [] else [.witnesses (b.pair.witnesses.map (·.ep))])
  ++ diffTable a.link.trust b.link.trust id .trust
  ++ diffTable a.laid.tables b.laid.tables LaidTable.metaPart .laidSlot
  ++ (if a.laid.role = b.laid.role ∧ a.laid.active = b.laid.active ∧ a.laid.pendSlot = b.laid.pendSlot ∧
        a.laid.stopAt = b.laid.stopAt then []
      else [.laidRun b.laid.role b.laid.active b.laid.pendSlot b.laid.stopAt])
  ++ (if a.lastIds = b.lastIds then [] else [.ids b.lastIds])

/-- Puts the metadata a commit changed into the mirror stream, and the record of the request it commits:
the last MSEQ it took. -/
def State.mirrorCommit (old new : State) (ep rtag : Nat) (fw : Bool) (done : List MetaRec := []) : State × Option Nat :=
  if new.mirrors then
    match metaDiff old new with
    | [] => (new, none)
    | ms =>
      let rs := ms ++ done
      let s := (rs.zip (List.range rs.length)).foldl
        (fun a x => a.pushMeta ep rtag fw (x.2 + 1 == rs.length) x.1) new
      (s, some s.pair.mseq)
  else (new, none)

/-- The commit of work that no request waits on. -/
def State.commitFw (old new : State) : State := (State.mirrorCommit old new 0 0 true).1

/-- Commits what a deferred command changed and answers it (R25, R310). -/
def State.settle (old new : State) (r : Option Nat) (a : Ans) : State :=
  match r.bind fun n => (new.mbx.outst.find n).map fun o => (n, o) with
  | none => State.commitFw old new
  | some (n, o) =>
    let m := State.mirrorCommit old new o.req.ep o.req.tag false [.request n (some { o with progress := .committed a })]
    let s := { m.1 with mbx := { m.1.mbx with outst := m.1.mbx.outst.put n { o with mseq := m.2 } } }
    s.answer n a

/-! ## Requests -/

/-- What the checks of R27 need to know of a command: its code, who may issue it (Table 2.5), its
parameter length and reserved bits, the deckles its parameters name, the function it needs, and
the states in which it is served. -/
structure Cmd where
  code     : Nat
  oper     : Bool := false
  len      : Nat := 0
  rsvd     : Nat := 0
  own      : Option Nat := none
  names    : List Nat := []
  needs    : Option (Status × Nat) := none
  attended : Bool := false
  standby  : Bool := false
  attach   : Bool := false
  report   : Bool := false
  boot     : Bool := false
  query    : Bool := false
  deriving Repr, Inhabited

/-- A command-specific check: whether it passes, and the status and DETAIL it fails with. -/
abbrev Check := Bool × Status × Nat

/-- The first check that fails. -/
def firstFail : List Check → Option (Status × Nat)
  | [] => none
  | (true, _, _) :: r => firstFail r
  | (false, st, d) :: _ => some (st, d)

/-- Renews the driver lease for a request of the attached driver to the operator mailbox (R356).
The lease does not run while the hub is stopped (R35). -/
def State.renewDriver (s : State) (q : Req) : State :=
  if s.hub.driver == some q.ep && q.deckle == 0 && q.via == .link then
    { s with hub := { s.hub with driverDeadline := s.now + 2000000000 } }
  else s

/-- A packet cannot be on this port: not trained, or a port of a formed pair (R305). -/
def State.carries (s : State) (p : Nat) : Bool :=
  s.portActive p && !((p == 62 || p == 63) && (s.pair.role != .none && s.pair.state != .armed))

/-- The endpoint is assigned and bound to the port (check 2 of R247). -/
def State.bound (s : State) (p ep : Nat) : Bool :=
  ((s.part.eps.find ep).map fun e => e.port == p).getD false

/-- Discards a packet and counts it on its port (checks 1 and 2 of R247). -/
def State.discardPkt (s : State) (p : Nat) : State :=
  s.modPort p fun x => { x with discarded := x.discarded + 1 }

/-- Checks 3 and 4 of R247 on a mailbox request, except before firmware start: no lease exists then
(R37, R247). -/
def State.portCheck (s : State) (c : Cmd) (q : Req) : Option Status :=
  if s.hub.running.isNone then none
  else if s.isDissolving q.pktDeckle && !c.query then some .revoked
  else
    let m := if c.attach || (c.report && s.isStandby) then none
      else if c.query && s.isDissolving q.pktDeckle then
        (match s.lease q.pktDeckle q.ep with
          | none => some .noAccess
          | some l => if l.state == .held then none else some .leaseExpired)
      else s.accessCheck q.pktDeckle q.ep
    match m with
    | some st => some st
    | none => if q.pktDeckle ≠ (if c.code < 0xFF01 then q.deckle else 0) then some .invalid else none

/-- Check 2 of R27: the hub and the function serve the command in the current state. -/
def State.servedCheck (s : State) (c : Cmd) (q : Req) : Option (Status × Nat) :=
  if s.underBoot then (if c.boot && q.deckle == 0 then none else some (.notReady, 0))
  else if !s.fwRuns then some (.notReady, 0)
  else if s.pair.state == .fenced || s.pair.handover.isSome then some (.failedOver, 0)
  else if !s.hub.ready then some (.notReady, 0)
  else if s.isStandby && !c.standby then some (.notReady, 0)
  else if c.needs.isSome then c.needs
  else if c.attended && s.hub.unattended then some (.notReady, 0)
  else none

/-- A range lies inside the calling deckle's control extent (R22). -/
def State.insideCtrl (s : State) (d pva n : Nat) : Bool :=
  if d = 0 then 0x00FFFF0000000000 ≤ pva && pva + n ≤ 0x00FFFF0001000000
  else match s.part.deckles.find d with
    | some k => k.ctrlPva ≤ pva && pva + n ≤ k.ctrlPva + k.ctrlGranules * 2 ^ 21
    | none => false

/-- Check 6 of R27: header, PLEN (R355), parameter block and result area (R22), rsvd (R8). -/
def State.formCheck (s : State) (c : Cmd) (q : Req) : State × Option Status :=
  let badExt := if q.ext then c.len == 0 || q.plen ≠ up64 c.len || 1048576 < q.plen
    else q.plen ≠ c.len || 192 < q.plen || q.paramPva ≠ 0
  if q.rsvd ≠ 0 ∨ q.resultLen % 64 ≠ 0 then (s, some .invalid)
  else if (q.ext && !s.insideCtrl q.deckle q.paramPva q.plen)
      || (q.resultPva ≠ 0 && !s.insideCtrl q.deckle q.resultPva q.resultLen) then (s, some .noAccess)
  else if (q.ext && q.paramPva % 64 ≠ 0) || q.resultPva % 64 ≠ 0 then (s, some .align)
  else
    let rd := if q.ext then s.readBytes q.deckle q.paramPva q.plen else (s, .ok, 0)
    if rd.2.1 ≠ .ok then (rd.1, some rd.2.1)
    else
      let w := if q.resultPva ≠ 0 ∧ q.resultLen ≠ 0 then
          Trans.status (rd.1.translate q.deckle .wr (lineRun q.resultPva (q.resultLen / 64)))
        else .ok
      if w ≠ .ok then (rd.1, some w)
      else if badExt ∨ c.rsvd ≠ 0 then (rd.1, some .invalid)
      else (rd.1, none)

/-- The outstanding commands of a mailbox, those waiting for an activation included (R24, R33). -/
def State.boxTags (s : State) (box : Nat) : List Nat :=
  (s.mbx.outst.filter fun o => o.2.box == box).map (fun o => o.2.req.tag)

/-- Tags a mailbox holds: outstanding commands and those that wait. -/
def State.heldTags (s : State) (box : Nat) : List Nat :=
  s.boxTags box ++ s.mbx.waiting.filterMap fun w => if w.req.deckle == box then some w.req.tag else none

/-- Checks 1 to 5 of R27. -/
def State.earlyCheck (s : State) (c : Cmd) (q : Req) : Option (Status × Nat × Bool) :=
  match s.servedCheck c q with
  | some (st, d) => some (st, d, false)
  | none =>
    if c.oper && q.deckle ≠ 0 then some (.noAccess, 0, false)
    else if s.isDissolving q.deckle && !c.query then some (.revoked, 0, false)
    else
      let tags := s.heldTags q.deckle
      if 16 ≤ tags.length then some (.busy, 0, false)
      else if tags.contains q.tag then some (.invalid, 0, true)
      else none

/-- New requests wait: an activation runs, earlier ones still wait, or a mirrored commit has no
room in the retention buffer (R33, R310). -/
def State.mustWait (s : State) : Bool :=
  s.mbx.draining.isNone && (s.hub.phase == .activating || !s.mbx.waiting.isEmpty || (s.mirrors && s.retentionFull))

/-- The parameters a deckle-level command names are the caller's own (R22), and no deckle it names is
being dissolved (R61): the checks that stand before the command's own. -/
def commonChecks (s : State) (c : Cmd) (q : Req) : List Check :=
  [(match c.own with | some d => q.deckle == 0 || d == q.deckle | none => true, .noAccess, 0),
   (c.query || !c.names.any s.isDissolving, .revoked, 0)]

/-- A request of correct form selects its event endpoint (R30). -/
def State.takeEvreg (s : State) (q : Req) : State :=
  if q.evreg && q.via == .link then s.setEvEp q.deckle q.ep else s

/-- A command all checks of which have passed becomes outstanding under the next reply number; the
standby learns of it first (R24, R309). -/
def State.opened (s : State) (c : Cmd) (q : Req) (acc : Nat) : State :=
  let r := s.mbx.nextReply
  let o : Outst := { box := q.deckle, req := q, code := c.code, accepted := acc, progress := .running }
  let s1 := if s.mirrors then s.pushMeta q.ep q.tag false false (.request r (some o)) else s
  { s1 with mbx := { s1.mbx with nextReply := r + 1, outst := s1.mbx.outst.put r o } }

/-- What an outstanding command changed of the metadata goes to the standby, and it is answered now or
left outstanding (R25, R309, R310). `s` is the state before its effect. -/
def State.closed (s : State) (c : Cmd) (q : Req) (acc r : Nat) (y : State × Option Ans) : State :=
  let o : Outst := { box := q.deckle, req := q, code := c.code, accepted := acc, progress := .running }
  let m := State.mirrorCommit s y.1 q.ep q.tag false
    (match y.2 with
      | some a => [.request r (some { o with progress := .committed a })]
      | none => [])
  let s4 := { m.1 with mbx := { m.1.mbx with outst := m.1.mbx.outst.upd r fun o => { o with mseq := m.2 } } }
  match y.2 with
  | some a => s4.answer r a
  | none => s4

/-- The effect of a command all checks of which have passed: it becomes outstanding, acts, and what it
did is committed and answered. -/
def State.conclude (s : State) (c : Cmd) (q : Req) (acc : Nat) (act : State → Nat → State × Option Ans) : State :=
  (s.opened c q acc).closed c q acc s.mbx.nextReply (act (s.opened c q acc) s.mbx.nextReply)

/-- Serves a request that has passed checks 1 to 5: form, command-specific checks (R61 first),
then its effect, which answers now or leaves the command outstanding under its reply number. -/
def State.commitReq (s : State) (c : Cmd) (q : Req) (checks : State → List Check)
    (act : State → Nat → State × Option Ans) : State :=
  let acc := s.mbx.draining.getD s.now
  let f := s.formCheck c q
  match f.2 with
  | some st => f.1.answerNow q c.code acc { status := st }
  | none =>
    let s1 := f.1.takeEvreg q
    match firstFail (commonChecks s1 c q ++ checks s1) with
    | some (st, d) => s1.answerNow q c.code acc { status := st, detail := d }
    | none => s1.conclude c q acc act

/-- The packet of a mailbox request leaves the receive buffer: header, mailbox header and inline
parameters (R214, R254). -/
def State.freeReq (s : State) (q : Req) : State :=
  s.freeBuf q.port 5 (cdiv (80 + (if q.ext then 0 else q.plen)) 64)

/-- A request that has reached its mailbox: checks 1 to 5 of R27, then it waits or is served. -/
def State.reachBox (s : State) (self : Instr) (c : Cmd) (q : Req) (checks : State → List Check)
    (act : State → Nat → State × Option Ans) : State :=
  match s.earlyCheck c q with
  | some (st, d, dup) => s.answerNow q c.code s.now { status := st, detail := d } dup
  | none =>
    if s.mustWait && !s.underBoot then
      { s with mbx := { s.mbx with waiting := s.mbx.waiting ++ [⟨self, s.now, q, c.code⟩] } }
    else s.commitReq c q checks act

/-- Serves a mailbox request `self`: admission at its port, then R27. A request taken from the
mailboxes' waiting list has been admitted before. -/
def State.serve (s : State) (self : Instr) (c : Cmd) (q : Req) (checks : State → List Check)
    (act : State → Nat → State × Option Ans) : State :=
  if s.mbx.draining.isSome then s.reachBox self c q checks act
  else match q.via with
    | .link =>
      let s0 := s.freeReq q
      if !s0.carries q.port || !s0.bound q.port q.ep then s0.discardPkt q.port
      else
        let s1 := s0.renewDriver q
        match s1.portCheck c q with
        | some st => s1.answerNow q c.code s1.now { status := st }
        | none => s1.reachBox self c q checks act
    | .i3c => s.answerNow q c.code s.now { status := .unsupported }
    | .tap => s.reachBox self c q checks act

/-! ## Bedrock requests (R37) -/

/-- The effect of a bedrock request all checks of which have passed. -/
def State.concludeBr (s : State) (c : Cmd) (q : Req) (act : State → Nat → State × Option Ans) : State :=
  let r := s.mbx.nextReply
  let o : Outst := { box := boxOf c.code q, req := q, code := c.code, accepted := s.now, progress := .running }
  let s1 := { s with mbx := { s.mbx with nextReply := r + 1, outst := s.mbx.outst.put r o } }
  let y := act s1 r
  match y.2 with
  | some a => y.1.answer r a
  | none => y.1

/-- The checks of a bedrock mailbox, in order: readiness, room, tag, form (R37, R350). -/
def State.brCheck (s : State) (c : Cmd) (q : Req) : Option (Status × Bool) :=
  let box := boxOf c.code q
  let tags := s.boxTags box
  if !s.hub.bedrockReady then some (.notReady, false)
  else if (if box = 4097 then 4 else 16) ≤ tags.length + (if box = 4097 then s.mbx.i3c.length else 0) then some (.busy, false)
  else if tags.contains q.tag then some (.invalid, true)
  else if q.ext ∨ q.resultPva ≠ 0 ∨ q.plen ≠ c.len ∨ q.rsvd ≠ 0 ∨ c.rsvd ≠ 0 ∨ q.paramPva ≠ 0 then some (.invalid, false)
  else none

/-- A request that has reached a bedrock mailbox. -/
def State.reachBr (s : State) (c : Cmd) (q : Req) (act : State → Nat → State × Option Ans) : State :=
  match s.brCheck c q with
  | some (st, dup) => s.answerNow q c.code s.now { status := st } dup
  | none => s.concludeBr c q act

/-- Serves a bedrock request: readiness, access, outstanding count and tag, form, then its effect.
I3C requests are not acknowledged until the interface is ready. -/
def State.serveBr (s : State) (c : Cmd) (q : Req) (act : State → Nat → State × Option Ans) : State :=
  match q.via with
  | .link =>
    let s0 := s.freeReq q
    if !s0.carries q.port || !s0.bound q.port q.ep then s0.discardPkt q.port
    else match s0.portCheck c q with
      | some st => s0.answerNow q c.code s0.now { status := st }
      | none => s0.reachBr c q act
  | .i3c => if s.hub.bedrockReady then s.reachBr c q act else s
  | .tap => s.answerNow q c.code s.now { status := .unsupported }

/-- The inline result of `n` bytes that packs the fields given. -/
def okFields (n : Nat) (f : List (Nat × Nat)) : Ans := { status := .ok, rlen := n, bits := pack f }

/-- The plain ST_OK answer. -/
def okAns : Ans := { status := .ok }

end Sys2Proof.Machine
end

