-- ==== Sys2Proof/Machine/Regs.lean ====
section
/-! DEFINITION. Registers, accumulator tiles and the store of an engine with the results on their
way to them (R113, R117, R118, R130). A read before a result is usable takes the old or the new
value, and the open choice is a number `fr` drawn from the free values (log 11). -/

namespace Sys2Proof.Machine

/-- `n` one bits. -/
def ones (n : Nat) : Nat := 2 ^ n - 1

/-- The bits of a mask from `new`, the others from `old`. -/
def mergeBits (old new mask : Nat) : Nat := (new &&& mask) ||| (old ^^^ (old &&& mask))

/-- Lane `i` of a vector register. -/
def lane (v i : Nat) : Nat := (v >>> (32 * i)) % 2 ^ 32

/-- A vector register from its lanes. -/
def lanes (f : Nat → Nat) : Nat := (List.range 256).foldr (fun i a => f i % 2 ^ 32 + 2 ^ 32 * a) 0

/-- Mask of the lanes of a predicate. -/
def laneMask (p : Nat) : Nat := lanes fun i => if p.testBit i then 0xFFFFFFFF else 0

/-! ## The engine store (R118) -/

/-- Bytes of an engine store. -/
def engineBytes : Nat := 2 ^ 21

/-- A line of a store; one that is not listed is zero. -/
def storeLineAt (m : NMap Line) (i : Nat) : Line := (m.find i).getD 0#512

/-- Writes a line of a store; zero lines are not listed. -/
def putStoreLine (m : NMap Line) (i : Nat) (l : Line) : NMap Line := if l = 0#512 then m.del i else m.put i l

/-- `n` bytes of a store of `size` bytes from an offset, wrapping at its end. -/
def storeBytes (m : NMap Line) (size off n : Nat) : Nat :=
  bytesFrom (lineNat ((List.range (cdiv (off % 64 + n) 64)).map fun i => storeLineAt m ((off / 64 + i) % (size / 64))))
    (off % 64) n

/-- Writes the masked bits of `n` bytes at an offset of a store. -/
def putStoreBytes (m : NMap Line) (size off n value mask : Nat) : NMap Line :=
  let k := cdiv (off % 64 + n) 64
  let v := value <<< (8 * (off % 64))
  let w := (mask % 2 ^ (8 * n)) <<< (8 * (off % 64))
  (List.range k).foldl (fun a i =>
    let j := (off / 64 + i) % (size / 64)
    let old := (storeLineAt a j).toNat
    putStoreLine a j (BitVec.ofNat 512 (mergeBits old (v >>> (512 * i)) ((w >>> (512 * i)) % 2 ^ 512)))) m

/-! ## Reads -/

/-- The value of a destination: what it holds, with each result still on its way applied or not. -/
def Engine.pick (x : Engine) (d : Dest) (cur fr : Nat) : Nat :=
  ((x.pend.filter fun p => p.dest == d).foldl (fun (a : Nat × Nat) p =>
    (if fr.testBit a.2 then mergeBits a.1 p.value p.mask else a.1, a.2 + 1)) (cur, 0)).1

/-- A scalar register; s0 reads as zero. -/
def Engine.readS (x : Engine) (n fr : Nat) : Nat :=
  if n = 0 then 0 else x.pick (.s n) ((x.s.find n).getD 0#64).toNat fr

/-- A vector register. -/
def Engine.readV (x : Engine) (n fr : Nat) : Nat := x.pick (.v n) ((x.v.find n).getD 0#8192).toNat fr

/-- A predicate register. -/
def Engine.readP (x : Engine) (n fr : Nat) : Nat := x.pick (.p n) ((x.p.find n).getD 0#256).toNat fr

/-- An accumulator tile: while a pass runs into it, each element after some K-step (R113). -/
def Engine.readAcc (x : Engine) (t fr : Nat) : Nat :=
  match x.pend.find? fun p => p.dest == .acc t with
  | none => ((x.acc.find t).getD 0#32768).toNat
  | some p =>
    (List.range 1024).foldr (fun j a =>
      ((p.steps.getD ((fr >>> (16 * j)) % p.steps.length) p.value) >>> (32 * j)) % 2 ^ 32 + 2 ^ 32 * a) 0

/-- Bytes a memory result covers: 8 for a scalar store, else 1 KiB. -/
def Pend.size (p : Pend) : Nat := if p.mask < 2 ^ 64 then 8 else 1024

/-- `n` bytes of the engine store from an offset. -/
def Engine.readMem (x : Engine) (off n fr : Nat) : Nat :=
  ((x.pend.foldl (fun (a : Nat × Nat) p =>
    match p.dest with
    | .mem o =>
      let r := (o + engineBytes - off % engineBytes) % engineBytes
      let back := engineBytes - r
      let a1 := if !fr.testBit a.2 then a.1
        else if r < n then mergeBits a.1 (p.value <<< (8 * r)) ((p.mask <<< (8 * r)) % 2 ^ (8 * n))
        else if back < p.size then mergeBits a.1 (p.value >>> (8 * back)) ((p.mask >>> (8 * back)) % 2 ^ (8 * n))
        else a.1
      (a1, a.2 + 1)
    | _ => a) (storeBytes x.store engineBytes off n, 0)).1)

/-- A word of these bytes carries a detected uncorrectable error (R118). -/
def Engine.badAt (x : Engine) (off n : Nat) : Bool :=
  x.badWords.any fun w => (w * 8 + engineBytes - off / 8 * 8 % engineBytes) % engineBytes < off % 8 + n

/-! ## Results -/

/-- A result reaches its destination. Writes to s0 are discarded. -/
def Engine.land (x : Engine) (p : Pend) : Engine :=
  match p.dest with
  | .s n =>
    if n = 0 then x
    else { x with s := x.s.put n (BitVec.ofNat 64 (mergeBits ((x.s.find n).getD 0#64).toNat p.value p.mask)) }
  | .v n => { x with v := x.v.put n (BitVec.ofNat 8192 (mergeBits ((x.v.find n).getD 0#8192).toNat p.value p.mask)) }
  | .p n => { x with p := x.p.put n (BitVec.ofNat 256 (mergeBits ((x.p.find n).getD 0#256).toNat p.value p.mask)) }
  | .acc t => { x with acc := x.acc.put t (BitVec.ofNat 32768 p.value) }
  | .mem o =>
    { x with store := putStoreBytes x.store engineBytes o p.size p.value p.mask
             badWords := x.badWords.filter fun w => !((w * 8 + engineBytes - o / 8 * 8) % engineBytes < p.size) }

/-- Places a result in the order results become usable. -/
def insertPend (p : Pend) : List Pend → List Pend
  | [] => [p]
  | q :: r => if p.ready < q.ready then p :: q :: r else q :: insertPend p r

/-- The results due by the engine's cycle reach their destinations. A register that two results
reach in one cycle is unspecified (R130). -/
def Engine.arrive (x : Engine) (fr : Nat) : Engine :=
  let due := (x.pend.filter fun p => p.ready ≤ x.cycles).foldl (fun a p => insertPend p a) []
  let y := { x with pend := x.pend.filter fun p => x.cycles < p.ready }
  due.foldl (fun a p =>
    let n := due.countP fun q => q.dest == p.dest && q.ready == p.ready
    match p.dest with
    | .mem _ => a.land p
    | _ => if 1 < n then a.land { p with value := fr, mask := ones 32768 } else a.land p) y

/-- A result with a latency. -/
def Engine.send (x : Engine) (d : Dest) (value mask lat : Nat) : Engine :=
  { x with pend := x.pend ++ [{ dest := d, value := value, mask := mask, ready := x.cycles + lat }] }

/-- Sets VSTAT bits (R129). -/
def Engine.flag (x : Engine) (f : Nat) : Engine := { x with vstat := x.vstat ||| BitVec.ofNat 32 (f % 32) }

end Sys2Proof.Machine
end

