-- ==== Sys2Proof/Machine/Vector.lean ====
section
/-! DEFINITION. The vector slot (R114–R116, R134, R135, Tables 8.5–8.7) and the matrix slot (R110–R113,
R136, Table 8.8). A slot reads its operands from the engine as it stands at issue and answers the
results it sends, with their latencies, and the VSTAT bits it sets. -/

namespace Sys2Proof.Machine

/-- A result a slot sends: destination, bits, mask of the bits written, latency. -/
structure SlotRes where
  dest  : Dest
  value : Nat
  mask  : Nat
  lat   : Nat
  deriving Repr

/-- What a slot's operation does at issue. -/
structure SlotOut where
  sends : List SlotRes := []
  flags : Nat := 0
  deriving Repr

/-! ## Lane arithmetic -/

/-- Element `i` of `w` bits. -/
def elem (v w i : Nat) : Nat := (v >>> (w * i)) % 2 ^ w

/-- Elements of `w` bits given by a function, with the flags they set; `act` says which are active. -/
def elems (n w : Nat) (act : Nat → Bool) (f : Nat → Nat × Nat) : Nat × Nat :=
  (List.range n).foldr (fun i a =>
    if act i then
      let r := f i
      (r.1 % 2 ^ w + 2 ^ w * a.1, r.2 ||| a.2)
    else (2 ^ w * a.1, a.2)) (0, 0)

/-- Width of an element by TY (Table 8.5). -/
def tyWidth : Nat → Nat
  | 1 => 16
  | 3 => 8
  | _ => 32

/-- The value of an element under a floating TY. -/
def tyDecode (ty x : Nat) : Fp := if ty = 1 then Fmt.bf16.decode x else Fmt.fp32.decode x

/-- Rounds a result under a floating TY: BF16 arithmetic is binary32, then rounded to BF16 (R114). -/
def tyFinish (ty : Nat) (x : Fp × Bool) : Nat × Nat :=
  let r := Fmt.fp32.finish x
  if ty = 1 then
    let q := Fmt.bf16.result (Fmt.fp32.decode r.1)
    (q.1, r.2 ||| q.2)
  else r

/-- A two's-complement result of `w` bits; one outside the format has no stated value. -/
def intOr (w : Nat) (z : Int) (fr : Nat) : Nat :=
  if -(2 ^ (w - 1) : Int) ≤ z ∧ z < 2 ^ (w - 1) then (z % (2 ^ w : Nat)).toNat else fr % 2 ^ w

/-- Larger or smaller of two floating elements; NaN has no stated result, and of two zeros either
may be taken. -/
def fpPick (ty : Nat) (less : Bool) (a b fr : Nat) : Nat × Nat :=
  let x := tyDecode ty a
  let y := tyDecode ty b
  if x.isNan || y.isNan then (fr, if x.signals || y.signals then flagInv else 0)
  else match x.cmp y with
    | .lt => (if less then a else b, 0)
    | .gt => (if less then b else a, 0)
    | .eq => (if fr % 2 = 0 then a else b, 0)

/-- Two-operand and one-operand arithmetic of one element: codes 0x01–0x03 and 0x05–0x08. -/
def arith (op ty a b fr : Nat) : Nat × Nat :=
  let w := tyWidth ty
  let p := signedOf w a
  let q := signedOf w b
  if ty < 2 then
    let x := tyDecode ty a
    let y := tyDecode ty b
    match op with
    | 0x01 => tyFinish ty (x.add y)
    | 0x02 => tyFinish ty (x.add y.negate)
    | 0x03 => tyFinish ty (x.mul y)
    | 0x05 => fpPick ty false a b fr
    | 0x06 => fpPick ty true a b fr
    | 0x07 => (a % 2 ^ (w - 1), 0)
    | _ => (a ^^^ 2 ^ (w - 1), 0)
  else
    (match op with
    | 0x01 => intOr w (p + q) fr
    | 0x02 => intOr w (p - q) fr
    | 0x03 => a * b
    | 0x05 => if p < q then b else a
    | 0x06 => if p < q then a else b
    | 0x07 => intOr w p.natAbs fr
    | _ => intOr w (-p) fr, 0)

/-- Comparisons of one element: codes 0x11–0x13. Whether an ordered comparison with a quiet NaN is
invalid is left open. -/
def compareOp (op ty a b fr : Nat) : Bool × Nat :=
  if ty < 2 then
    let x := tyDecode ty a
    let y := tyDecode ty b
    if x.isNan || y.isNan then
      (false, if x.signals || y.signals || (op != 0x13 && fr % 2 == 1) then flagInv else 0)
    else
      let c := x.cmp y
      (match op with
      | 0x11 => c == .lt
      | 0x12 => c != .gt
      | _ => c == .eq, 0)
  else
    let p := signedOf 32 a
    let q := signedOf 32 b
    (match op with
    | 0x11 => decide (p < q)
    | 0x12 => decide (p ≤ q)
    | _ => p == q, 0)

/-- Shifts of one element by a count (codes 0x0C–0x0E); a count beyond the element is not stated. -/
def shiftOp (op w a n fr : Nat) : Nat :=
  if w ≤ n then fr
  else match op with
    | 0x0C => a <<< n
    | 0x0D => a >>> n
    | _ => ((signedOf w a / (2 ^ n : Nat)) % (2 ^ w : Nat)).toNat

/-- Bits set in a number of `n` bits. -/
def popCount (n x : Nat) : Nat := ((List.range n).filter fun i => x.testBit i).length

/-! ## Conversions (R135, Table 8.7) -/

/-- Width of the packed element of a conversion code, and its format when it is a float. -/
def cvtFmt : Nat → Nat × Option Fmt
  | 0x0 => (8, some Fmt.e4m3)
  | 0x1 => (8, some Fmt.e5m2)
  | 0x2 => (6, some Fmt.e3m2)
  | 0x3 => (6, some Fmt.e2m3)
  | 0x4 => (4, some Fmt.e2m1)
  | 0x5 => (8, none)
  | 0x6 => (4, none)
  | 0x7 => (16, some Fmt.bf16)
  | 0x8 => (16, some Fmt.fp16)
  | _ => (32, none)

/-- Value of a packed element under a widening code. -/
def widen (code x : Nat) : Fp :=
  if code = 0x9 then e8m0 x
  else match cvtFmt code with
    | (_, some f) => f.decode x
    | (w, none) => Fp.ofInt (signedOf w x)

/-- Width of the source element of a widening code. -/
def widenWidth (code : Nat) : Nat := if code = 0x9 then 8 else (cvtFmt code).1

/-- A value narrowed by a narrowing code (low four bits of it name the target). -/
def narrowTo (code : Nat) (trunc : Bool) (x : Fp) : Nat × Nat :=
  if code = 0x19 then narrowInt 32 trunc x
  else match cvtFmt (code % 16) with
    | (_, some f) => f.narrow x
    | (w, none) => narrowInt w trunc x

/-- Width of the target of a narrowing code. -/
def narrowWidth (code : Nat) : Nat := if code = 0x19 then 32 else (cvtFmt (code % 16)).1

/-- Parts of a conversion code (Table 8.7). -/
def cvtParts (code : Nat) : Nat :=
  if code ≤ 0x0A then 32 / widenWidth code
  else if 0x10 ≤ code ∧ code ≤ 0x19 then 32 / narrowWidth code
  else if 0x1A ≤ code ∧ code ≤ 0x1E then 32 else 0

/-- e_max of an MX-scale code. -/
def cvtEmax (code : Nat) : Nat := [8, 15, 4, 2, 0].getD (code - 0x1A) 0

/-- VCVT: bits, mask and flags. `act` says which lanes of the operation are active. -/
def convert (code part : Nat) (trunc : Bool) (va fr : Nat) (act : Nat → Bool) : Nat × Nat × Nat :=
  if code ≤ 0x0A then
    let w := widenWidth code
    let r := elems 256 32 act fun i => Fmt.fp32.result (widen code (elem va w (256 * part + i)))
    (r.1, lanes fun i => if act i then 0xFFFFFFFF else 0, 0)
  else if code ≤ 0x19 then
    let w := narrowWidth code
    let r := elems 256 w act fun i => narrowTo code trunc (Fmt.fp32.decode (lane va i))
    let m := (elems 256 w act fun _ => (2 ^ w - 1, 0)).1
    (r.1 <<< (256 * w * part), m <<< (256 * w * part), r.2)
  else
    let blk := fun b => (List.range 32).map fun i => 32 * b + i
    let on := fun b => (blk b).any act
    let r := elems 8 8 on fun b =>
      let open_ := (fr >>> (8 * b)) % 256
      if (blk b).all act then
        ((mxScale (cvtEmax code) ((blk b).map fun i => Fmt.fp32.decode (lane va i))).getD open_, 0)
      else (open_, 0)
    let m := (elems 8 8 on fun _ => (255, 0)).1
    (r.1 <<< (64 * part), m <<< (64 * part), 0)

/-! ## Sort and merge (R116) -/

/-- The order of a key: −0 below +0, every NaN above +∞; or signed or unsigned INT32. -/
def sortKey (ty k : Nat) : Int :=
  if ty = 2 then signedOf 32 k
  else if ty = 3 then k
  else if (Fmt.fp32.decode k).isNan then 2 ^ 40
  else if k.testBit 31 then -((k % 2 ^ 31 : Nat) : Int) - 1 else k

/-- Stable insertion of an entry in front of those it does not come after. -/
def insertKey (le : Int → Int → Bool) (ty : Nat) (x : Nat × Nat) : List (Nat × Nat) → List (Nat × Nat)
  | [] => [x]
  | y :: r => if le (sortKey ty x.1) (sortKey ty y.1) then x :: y :: r else y :: insertKey le ty x r

/-- A list is in order. -/
def inOrder (le : Int → Int → Bool) (ty : Nat) : List (Nat × Nat) → Bool
  | [] => true
  | [_] => true
  | x :: y :: r => le (sortKey ty x.1) (sortKey ty y.1) && inOrder le ty (y :: r)

/-- VSORT: keys and payloads. A merge of halves that are not sorted has no stated result. -/
def sortPairs (ty : Nat) (desc merge : Bool) (va vb fr : Nat) : Nat × Nat :=
  let le : Int → Int → Bool := fun a b => if desc then decide (b ≤ a) else decide (a ≤ b)
  let l := (List.range 256).map fun i => (lane va i, lane vb i)
  if merge && !(inOrder le ty (l.take 128) && inOrder le ty (l.drop 128)) then (fr, fr >>> 8192)
  else
    let r := l.foldr (fun x a => insertKey le ty x a) []
    (lanes fun i => (r.getD i (0, 0)).1, lanes fun i => (r.getD i (0, 0)).2)

/-! ## The vector slot -/

/-- A vector operation (Table 8.6). `fr` numbers the open values of this bundle. -/
def vectorOp (x : Engine) (w : Nat) (fr : Nat → Nat) : SlotOut :=
  let op := w % 64
  let vd := w / 64 % 32
  let va := w / 2048 % 32
  let vb := w / 65536 % 32
  let aux := w / 2 ^ 21 % 32
  let pg := x.readP (w / 2 ^ 26 % 8) (fr 0)
  let pe := w.testBit 29
  let ty := w / 2 ^ 30
  let on := fun i => !pe || pg.testBit i
  let a := x.readV va (fr 1)
  let b := x.readV vb (fr 2)
  let sa := x.readS va (fr 3)
  let sb := x.readS vb (fr 4)
  let ew := tyWidth ty
  let per := 32 / ew
  let free := fr 5
  let fl := fun i => (free >>> (ew * i)) % 2 ^ ew
  let full := if pe then laneMask pg else ones 8192
  let put := fun (r : Nat × Nat) (lat : Nat) =>
    ({ sends := [⟨.v vd, r.1, full, lat⟩], flags := r.2 } : SlotOut)
  let each := fun (f : Nat → Nat × Nat) => elems (8192 / ew) ew (fun i => on (i / per)) f
  let word := fun (f : Nat → Nat) (lat : Nat) => put (lanes f, 0) lat
  let pred := fun (n : Nat) (v : Nat) (lat : Nat) =>
    ({ sends := [⟨.p n, v, if pe then pg else ones 256, lat⟩] } : SlotOut)
  let lat := if ty < 2 then 4 else 2
  match op with
  | 0x00 => {}
  | 0x04 => put (each fun i =>
      let p := (tyDecode ty (elem a ew i)).mul (tyDecode ty (elem b ew i))
      let q := p.1.add (tyDecode ty (elem (x.readV aux (fr 6)) ew i))
      tyFinish ty (q.1, p.2 || q.2)) 4
  | 0x09 => put (a &&& b, 0) 2
  | 0x0A => put (a ||| b, 0) 2
  | 0x0B => put (a ^^^ b, 0) 2
  | 0x0F => word (fun i => popCount 32 (lane a i)) 2
  | 0x10 => word (fun i => popCount 32 (lane a i ^^^ lane b i)) 2
  | 0x14 =>
    let p := x.readP (aux % 8) (fr 6)
    word (fun i => if p.testBit i then lane a i else lane b i) 2
  | 0x15 => word (fun _ => sa) 2
  | 0x16 => word (fun i => sa + i) 2
  | 0x17 => { sends := [⟨.s vd, lane a (sb % 256), ones 64, 2⟩] }
  | 0x18 => pred (aux % 8) (if 2 ^ 63 ≤ sa then free else ones (min sa 256)) 2
  | 0x19 =>
    let p := x.readP (va % 8) (fr 6)
    let q := x.readP (vb % 8) (fr 7)
    pred (vd % 8) (match aux with
      | 0 => p &&& q
      | 1 => p ||| q
      | 2 => p ^^^ q
      | 3 => p ^^^ (p &&& q)
      | 4 => ones 256 ^^^ (p % 2 ^ 256)
      | 5 => ones 256
      | _ => 0) 2
  | 0x1A =>
    let r := convert aux vb (ty == 1) a free on
    { sends := [⟨.v vd, r.1, r.2.1, 3⟩], flags := r.2.2 }
  | 0x1B =>
    let iw := if ty = 1 then 4 else 3
    word (fun i => lane b (elem a iw (256 * aux + i))) 3
  | 0x1C => word (fun i => lane a ((sb + i / 2 ^ aux) % 256)) 3
  | 0x1D => word (fun i => lane a ((i + sb) % 256)) 3
  | 0x1E =>
    if x.cycles < x.sfuFree then { put (free, 0) 12 with flags := 0 }
    else put (elems 256 32 on fun i => sfuOf aux (lane a i) ((free >>> (64 * i)) % 2 ^ 64)) 12
  | 0x1F =>
    let r := if x.cycles < x.sortFree then (free, free >>> 8192)
      else sortPairs ty (w.testBit 26) (w.testBit 27) a b free
    { sends := [⟨.v vd, r.1, ones 8192, 24⟩, ⟨.v aux, r.2, ones 8192, 24⟩] }
  | _ =>
    if 0x0C ≤ op ∧ op ≤ 0x0E then put (each fun i => (shiftOp op ew (elem a ew i) aux (fl i), 0)) 2
    else if 0x11 ≤ op ∧ op ≤ 0x13 then
      let half := fun i => compareOp op ty (elem a ew i) (elem b ew i) (free >>> (ew * i))
      let bit := fun i =>
        if ty = 1 then
          let lo := half (2 * i)
          let hi := half (2 * i + 1)
          (b2n (if lo.1 == hi.1 then lo.1 else free.testBit (32 * i)), lo.2 ||| hi.2)
        else (b2n (half i).1, (half i).2)
      let r := elems 256 1 on bit
      { pred (aux % 8) r.1 lat with flags := r.2 }
    else put (each fun i => arith op ty (elem a ew i) (elem b ew i) (fl i)) lat

/-! ## The matrix slot (R110–R113, R136) -/

/-- Element width, format (none: integer) and K of a PAIR: of A, of B, K per pass (Table 7.2, 8.8). -/
def pairOf : Nat → (Nat × Option Fmt) × (Nat × Option Fmt) × Nat
  | 0 => ((8, some Fmt.e4m3), (8, some Fmt.e4m3), 64)
  | 1 => ((8, some Fmt.e4m3), (8, some Fmt.e5m2), 64)
  | 2 => ((8, some Fmt.e5m2), (8, some Fmt.e4m3), 64)
  | 3 => ((8, some Fmt.e5m2), (8, some Fmt.e5m2), 64)
  | 4 => ((8, none), (8, none), 64)
  | 5 => ((4, some Fmt.e2m1), (4, some Fmt.e2m1), 128)
  | 6 => ((4, none), (4, none), 128)
  | 7 => ((8, some Fmt.e4m3), (4, some Fmt.e2m1), 64)
  | 8 => ((4, some Fmt.e2m1), (8, some Fmt.e4m3), 64)
  | 9 => ((16, some Fmt.bf16), (16, some Fmt.bf16), 32)
  | _ => ((16, some Fmt.fp16), (16, some Fmt.fp16), 32)

/-- Bytes of B in a pass. -/
def bBytes (pair : Nat) : Nat := let p := pairOf pair; p.2.2 * 64 * p.2.1.1 / 8

/-- A step of a cell: the sum so far, with the terms of the step; flags collected. -/
abbrev CellStep := Nat → Nat × Nat

/-- Adds exact terms to an FP32 sum with one rounding (R111). -/
def addTerms (sum : Nat) (terms : List (Fp × Bool)) : Nat × Nat :=
  let t := terms.foldl (fun (a : Fp × Bool) x => let r := a.1.add x.1; (r.1, a.2 || x.2 || r.2))
    (Fmt.fp32.decode sum, false)
  Fmt.fp32.finish t

/-- One product with its MX scales (R112): a scale field of 0xFF makes it NaN. -/
def scaled (a b : Fp) (sc : Option (Nat × Nat)) : Fp × Bool :=
  let p := a.mul b
  match sc with
  | none => p
  | some (xa, xb) => if xa = 255 ∨ xb = 255 then (.nan false, p.2) else (p.1.scale ((xa : Int) + xb - 254), p.2)

/-- The steps of a floating pass on one cell (R111, R112): K-steps of one product, of two on the
FP4 × FP4 path. -/
def fpSteps (k : Nat) (two : Bool) (a b : Nat → Fp) (sc : Nat → Option (Nat × Nat)) : List CellStep :=
  if two then
    (List.range (k / 2)).map fun i => fun s =>
      addTerms s [scaled (a (2 * i)) (b (2 * i)) (sc (2 * i)), scaled (a (2 * i + 1)) (b (2 * i + 1)) (sc (2 * i + 1))]
  else (List.range k).map fun i => fun s => addTerms s [scaled (a i) (b i) (sc i)]

/-- One saturating INT32 addition (R112). -/
def satAdd (s : Nat) (p : Int) : Nat × Nat :=
  let z := signedOf 32 s + p
  if z < -(2 ^ 31) then (0x80000000, flagAccSat)
  else if 2 ^ 31 ≤ z then (0x7FFFFFFF, flagAccSat)
  else ((z % (2 ^ 32 : Nat)).toNat, 0)

/-- The steps of an integer pass on one cell. -/
def intSteps (k : Nat) (a b : Nat → Int) : List CellStep := (List.range k).map fun i => fun s => satAdd s (a i * b i)

/-- The steps of an MXINT8 pass on one cell, one per block (R112). -/
def mxIntSteps (k : Nat) (a b : Nat → Int) (sc : Nat → Option (Nat × Nat)) : List CellStep :=
  (List.range (k / 32)).map fun n => fun s =>
    let z := ((List.range 32).map fun i => a (32 * n + i) * b (32 * n + i)).foldl (· + ·) 0
    match sc (32 * n) with
    | some (xa, xb) =>
      if xa = 255 ∨ xb = 255 then addTerms s [(.nan false, false)]
      else
        let v := Fmt.fp32.result ((Fp.ofInt z).scale ((xa : Int) + xb - 266))
        let r := addTerms s [(Fmt.fp32.decode v.1, false)]
        (r.1, v.2 ||| r.2)
    | none => (s, 0)

/-- A cell after each of its steps, and the flags. -/
def runCell : List CellStep → Nat → List Nat × Nat
  | [], s => ([s], 0)
  | f :: r, s =>
    let y := f s
    let z := runCell r y.1
    (s :: z.1, y.2 ||| z.2)

/-- The tiles of a pass: the tile after each K-step, the initial one first, and the flags. -/
def passTiles (cell : Nat → Nat → List CellStep) (start : Nat) : List Nat × Nat :=
  let cells := (List.range 1024).map fun j => runCell (cell (j / 64) (j % 64)) (elem start 32 j)
  let n := ((cells.head?).map fun c => c.1.length).getD 1
  ((List.range n).map fun s => (cells.foldr (fun c a => (c.1.getD s 0) % 2 ^ 32 + 2 ^ 32 * a) 0),
    cells.foldl (fun a c => a ||| c.2) 0)

/-- The tile words after a pass step by step, and the flags: MMA (`mx` false) or MMAX. -/
def arrayPass (x : Engine) (w : Nat) (mx : Bool) (fr : Nat → Nat) : List Nat × Nat :=
  let pair := w / 2 ^ 16 % 16
  let p := pairOf pair
  let k := p.2.2
  let va := w / 64 % 32
  let a := x.readV va (fr 10)
  let off := x.readS (w / 2048 % 32) (fr 11) % engineBytes / 2048 * 2048
  let bs := x.readMem off (bBytes pair + 64 * (k / 32)) (fr 12)
  let sA := x.readV ((va + 1) % 32) (fr 13)
  let rowBits := if pair = 8 then 256 else 512
  let ea := fun i n => elem (a >>> (rowBits * i)) p.1.1 n
  let eb := fun n j => elem bs p.2.1.1 (64 * n + j)
  let sc := fun i j n =>
    if mx then some (byteOf sA (i * (k / 32) + n / 32), byteOf bs (bBytes pair + j * (k / 32) + n / 32)) else none
  let start := if w.testBit 5 then 0 else x.readAcc (w / 16 % 2) (fr 14)
  passTiles (fun i j =>
    match p.1.2, p.2.1.2 with
    | some f, some g => fpSteps k (pair == 5) (fun n => f.decode (ea i n)) (fun n => g.decode (eb n j)) (sc i j)
    | _, _ =>
      if mx then mxIntSteps k (fun n => signedOf p.1.1 (ea i n)) (fun n => signedOf p.2.1.1 (eb n j)) (sc i j)
      else intSteps k (fun n => signedOf p.1.1 (ea i n)) (fun n => signedOf p.2.1.1 (eb n j))) start

/-- MMA or MMAX on the engine (R113, R136). A second pass into a tile that is not complete, one
issued within 64 cycles of the last, and MMAX of INT4 × INT4 leave an unspecified tile. -/
def matrixOp (x y : Engine) (w : Nat) (fr : Nat → Nat) : Engine :=
  let op := w % 16
  if op = 0 then y
  else
    let t := w / 16 % 2
    let busy := x.pend.any fun p => p.dest == Dest.acc t
    let pair := w / 2 ^ 16 % 16
    let bad := busy || x.cycles < x.arrayFree || (op == 2 && pair == 6)
    let r := if bad then ([fr 15 % 2 ^ 32768], 0) else arrayPass x w (op == 2) fr
    let p : Pend := { dest := .acc t, value := r.1.getLastD 0, mask := ones 32768, ready := x.cycles + 72, steps := r.1 }
    ({ y with pend := (y.pend.filter fun (q : Pend) => q.dest != Dest.acc t) ++ [p], arrayFree := x.cycles + 64 }).flag r.2

end Sys2Proof.Machine
end

