-- ==== Sys2Proof/Machine/Requests.lean ====
section
/-! DEFINITION. Requests in flight: answering endpoints' requests (R248, R252), the jobs of reads
and writes until their controllers have served them (R46–R50, R62, R291), and lode requests with
the way a lode domain goes down (R88). -/

namespace Sys2Proof.Machine

/-! ## Answers to requests -/

/-- Removes an outstanding request and frees its receive buffer: the queue and class of its answer.
A FENCE that waits for it no longer does (R251). -/
def State.closeReq (s : State) (ep tag : Nat) : State × Nat × Nat :=
  match (s.part.eps.find ep).bind fun e => (e.outst.find? fun r => r.tag == tag).map fun r => (e, r) with
  | some (e, r) =>
    let e' : Endpoint := { e with outst := e.outst.filter fun q => q.tag != tag }
    let fs := s.part.fences.map fun (f : Fence) =>
      if f.ep = ep then { f with waits := f.waits.filter fun q => q != tag } else f
    let s1 := { s with part := { s.part with eps := s.part.eps.put ep e', fences := fs } }
    (s1.freeBuf e.port r.vc r.credits, r.queue, r.cls)
  | none => (s, 4, 0)

/-- Answers an outstanding request with one RSP (R248). -/
def State.answerReq (s : State) (ep tag deckle : Nat) (st : Status) (len : Nat := 0) (data : List Line := [])
    (aux : Nat := 0) : State :=
  let x := s.closeReq ep tag
  x.1.sendEp ep 1 x.2.1 deckle (.rsp ep tag deckle st aux len data true) x.2.2

/-- Answers a request refused at admission; it never became outstanding. -/
def State.refuseReq (s : State) (h : Hdr) (st : Status) (aux : Nat := 0) : State :=
  s.sendEp h.ep 1 (s.queueOf h.deckle h.cls) h.deckle (.rsp h.ep h.tag h.deckle st aux 0 [] true) h.cls

/-! ## Jobs -/

/-- The line's extent still holds its granule under the generation the request carries (R62). -/
def State.liveLine (s : State) (l : JobLine) : Bool :=
  l.extent == 0 ||
    (match s.part.extents.find l.extent with
      | some e => e.gen == l.gen
      | none => false)

/-- Writes a job. -/
def State.setJob (s : State) (j : Nat) (x : Job) : State :=
  { s with mem := { s.mem with jobs := s.mem.jobs.put j x } }

/-- The highest MSEQ a job's lines carry. -/
def Job.mseq (x : Job) : Nat := (x.lines.filterMap (·.mseq)).foldl max 0

/-- Extents of a job's lines. -/
def Job.extents (x : Job) : List Nat := x.lines.map (·.extent)

/-- Bytes an answer carries of a job's data. -/
def Job.result (x : Job) : Nat × List Line :=
  match x.fail, x.kind with
  | some _, _ => (0, [])
  | none, .rd => (64 * x.lines.length, x.lines.map (·.data))
  | none, .rdVersion => (64 * x.lines.length, x.lines.map (·.data))
  | none, .atom _ b16 .. => (if b16 then 16 else 8, linesOf x.old.toNat (if b16 then 16 else 8))
  | none, _ => (0, [])

/-- Counts a job that ends on extents being revoked: DRAINED or DISCARDED (Table 4.13). -/
def State.countDrain (s : State) (x : Job) (discard : Bool) : State :=
  x.extents.eraseDups.foldl (fun a i => a.modExtent i fun e =>
    { e with revoke := e.revoke.map fun r =>
        if discard then { r with discarded := r.discarded + 1 } else { r with drained := r.drained + 1 } }) s

/-- Ends a job whose lines are all served: its answer, unless it is a laid write (R249). It waits
while the standby has not applied its lines (R46, R310). -/
def State.finishJob (s : State) (j : Nat) : State :=
  match s.mem.jobs.find j with
  | none => s
  | some x =>
    if !x.lines.all (·.done) || (s.mirrors && s.pair.acked < x.mseq) then s
    else
      let s1 := ({ s with mem := { s.mem with jobs := s.mem.jobs.del j } }).countDrain x
        (x.fail == some Status.revoked)
      match x.kind with
      | .laidIn => s1
      | _ => s1.answerReq x.ep x.tag x.deckle (x.fail.getD .ok) x.result.1 x.result.2

/-- Every job that only waited for the standby is answered (R310). -/
def State.finishJobs (s : State) : State := s.mem.jobs.keys.foldl (fun a j => a.finishJob j) s

/-- A line of a job ends with a status: the job's first failure stands. -/
def Job.failLine (x : Job) (i : Nat) (st : Status) : Job :=
  { x with lines := modAt x.lines i fun l => { l with done := true, recon := none },
           fail := some (x.fail.getD st) }

/-- A line of a job is served. -/
def Job.doneLine (x : Job) (i : Nat) (f : JobLine → JobLine) : Job :=
  { x with lines := modAt x.lines i fun l => { f l with done := true, recon := none } }

/-- The translated line a job line names. -/
def JobLine.ref (l : JobLine) (mir : Bool) (payer : Nat) : LineRef :=
  { tier := l.tier, line := l.line, extent := l.extent, gen := l.gen, deckle := l.deckle, mir := mir, payer := some payer }

/-- The MIR attribute of an extent. -/
def State.isMir (s : State) (x : Nat) : Bool := ((s.part.extents.find x).map (·.mir)).getD false

/-- Jobs with a line on an extent that is not yet served. -/
def State.jobsOn (s : State) (x : Nat) : List Nat :=
  (s.mem.jobs.filter fun j => j.2.lines.any fun l => l.extent == x && !l.done).map Prod.fst

/-- Discards the lines of jobs on an extent whose granules are retired (R62, R69). -/
def State.discardOn (s : State) (x : Nat) : State :=
  (s.jobsOn x).foldl (fun a j =>
    match a.mem.jobs.find j with
    | none => a
    | some y =>
      let y' : Job := { y with
        lines := y.lines.map fun l => if l.extent = x then { l with done := true, recon := none } else l
        fail := some (y.fail.getD .revoked) }
      (a.setJob j y').finishJob j) s

/-! ## Lodes -/

/-- Writes a lode. -/
def State.setLode (s : State) (i : Nat) (l : Lode) : State :=
  { s with lode := { s.lode with lodes := s.lode.lodes.put i l } }

/-- Sends an LGRANT for an outstanding request (Table 14.4): GSTATE 0 S, 1 E, 2 M, 3 none. -/
def State.grantLode (s : State) (ep tag deckle addr gstate : Nat) (st : Status) (data : Option Line) : State :=
  (s.closeReq ep tag).1.sendEp ep 3 61 deckle (.lgrant ep tag deckle addr gstate st data)

/-- Ends a lode request with a status and no data: LGRANT for RDS, RDX and WB; a line of an RD, WR
or ATOM fails its job. -/
def State.failLode (s : State) (deckle : Nat) (w : LodeWork) (st : Status) : State :=
  match w.req with
  | .job j i =>
    match s.mem.jobs.find j with
    | some x => (s.setJob j (x.failLine i st)).finishJob j
    | none => s
  | .recall => s
  | _ => s.grantLode w.ep w.tag deckle w.addr 3 st none

/-- Lines that are may-be-stale at a down point (R89). -/
def Lode.stale (l : Lode) : List Nat :=
  let owned := (l.dir.filter fun d => match d.2 with | .shared _ => false | _ => true).map Prod.fst
  sortNat (((l.work.filter fun w => w.started && w.ans.isNone).map (·.line) ++ owned).eraseDups)

/-- A lode domain goes down (R88): requests the home has not executed end with ST_DOMAIN_DOWN,
every member leaves, and EV_DOMAIN_DOWN is raised once. -/
def State.lodeDown (s : State) (i cause ep : Nat) : State :=
  match s.lode.lodes.find i with
  | none => s
  | some l =>
    if l.down.isSome then s
    else
      let stale := l.stale
      let lost := l.work.filter (·.ans.isNone)
      let reqs := ((lost.filter fun w => w.req != .recall).map fun w => (w.ep, w.tag)).eraseDups
      let s1 := s.setLode i { l with
        down := some (s.dom, stale), agents := [], uncached := [], dir := []
        work := (l.work.filter (·.ans.isSome)), leaving := [] }
      let s2 := lost.foldl (fun a w => a.failLode l.deckle w .domainDown) s1
      let s3 := l.leaving.foldl (fun a x => a.answer x.2 { status := .domainDown }) s2
      s3.raise 0x0301 (.deckle l.deckle) 0 (pack [(32, i), (4, cause), (12, ep), (32, stale.length),
        (32, reqs.length), (64, s.dom), (176, 0)])

/-- Takes down every lode that passes a test. -/
def State.lodesDown (s : State) (test : Nat → Lode → Bool) (cause ep : Nat) : State :=
  ((s.lode.lodes.keep test).keys).foldl (fun a i => a.lodeDown i cause ep) s

end Sys2Proof.Machine
end

