-- ==== Sys2Proof/Machine/Parts.lean ====
section
/-! DEFINITION. Extents, regions and leases as shared operations: use and quota (R60), placement
(R51, R52), allocation and generations (R62), revocation (R69), the end of drafts and migrations,
retention of versions (R81), and the reclaim of a lease (R67). -/

namespace Sys2Proof.Machine

/-! ## Use and placement -/

/-- Granules of a deckle's stores (R98, R152). -/
def Deckle.storeGranules (d : Deckle) : Nat := ((d.store ++ d.ctxStore).map (·.2)).foldl (· + ·) 0

/-- Granules of a tier a deckle owns: its extents, and in tier 1 its stores (Table 4.4). -/
def State.used (s : State) (d : Nat) (t : Tier) : Nat :=
  ((s.part.extents.filter fun x => x.2.deckle == d && x.2.tier == t).map (·.2.granules)).foldl (· + ·) 0
  + (if t == .t1 then ((s.part.deckles.find d).map Deckle.storeGranules).getD 0 else 0)

/-- Lode MiB of a deckle, in units of 64 KiB. -/
def State.lode64k (s : State) (d : Nat) : Nat :=
  ((s.lode.lodes.filter fun l => l.2.deckle == d).map (·.2.size)).foldl (· + ·) 0

/-- A quota admits `n` more granules of a tier; deckle 0 is unlimited (R57, R60). -/
def State.quotaAdmits (s : State) (d : Nat) (t : Tier) (n : Nat) : Bool :=
  d == 0 || (match s.part.deckles.find d with
    | some k => s.used d t + n ≤ (match t with | .t1 => k.qT1 | .t2 => k.qT2 | .staging => k.qStg)
    | none => false)

/-- Granules of a tier: in staging the pool's (R44). -/
def State.granules (s : State) : Tier → Nat
  | .t1 => s.t1Bytes / 2 ^ 21
  | .t2 => s.t2Bytes / 2 ^ 21
  | .staging => 1816

/-- Position of a granule in placement order: the pool index in staging. -/
def spot (t : Tier) (g : Nat) : Nat :=
  match t with
  | .staging => (poolIndex g).getD 0
  | _ => g

/-- The granule at a position. -/
def unspot (t : Tier) (i : Nat) : Nat :=
  match t with
  | .staging => poolGranule i
  | _ => i

/-- Runs of a tier that are taken, as positions and lengths: extents and migrations, stores, and
granules that wait to become allocatable (R62). -/
def State.taken (s : State) (t : Tier) : List (Nat × Nat) :=
  (s.part.extents.filterMap fun x => if x.2.tier == t then some (spot t x.2.first, x.2.granules) else none)
  ++ (s.mem.migr.filterMap fun m =>
      if m.2.tier == t then some (spot t m.2.first, ((s.part.extents.find m.1).map (·.granules)).getD 0) else none)
  ++ (if t == .t1 then s.part.deckles.flatMap fun d => d.2.store ++ d.2.ctxStore else [])
  ++ (s.part.granules.filterMap fun g =>
      if g.2.retired && g.1 / 2 ^ 32 == tierCode t then some (spot t (g.1 % 2 ^ 32), 1) else none)

/-- A run of `n` positions from `i` lies in the tier and meets no taken run. -/
def runFits (taken : List (Nat × Nat)) (limit i n : Nat) : Bool :=
  i + n ≤ limit && taken.all fun r => i + n ≤ r.1 || r.1 + r.2 ≤ i

/-- Forming programs that name a cached part: of formed reads, couch descriptors and laid entries. -/
def State.formProgs (s : State) : List FormProg :=
  (s.eng.work.filterMap fun w => match w.2.body with | .rdf _ f _ => some f | _ => none)
  ++ (s.couch.chans.filterMap fun c => (c.2.cur.bind (·.run)).bind (·.prog))
  ++ s.laid.tables.flatMap fun t => t.2.forms.map fun f => f.2.1

/-- Bytes of a cached part. -/
def CachePart.bytes (p : CachePart) : Nat := p.bBytes + p.aBytes

/-- Admitted forming work uses a part. -/
def State.partUsed (s : State) (p : CachePart) : Bool :=
  s.formProgs.any fun f => f.mapUid == p.mapUid && f.adapter == p.adapter && f.layer == p.layer && f.tensor == p.tensor

/-- A part's adapter is pinned (R172). -/
def State.partPinned (s : State) (p : CachePart) : Bool :=
  !p.gone && s.form.adapters.any fun a => a.mapUid == p.mapUid && a.id == p.adapter && a.pinned

/-- A part that is not evicted (R173). -/
def State.partHeld (s : State) (p : CachePart) : Bool := s.partUsed p || s.partPinned p

/-- Granules of the staging pool that STAGING extents hold. -/
def State.stagingUsed (s : State) : Nat :=
  (s.part.extents.filterMap fun x => if x.2.tier == .staging then some x.2.granules else none).foldl (· + ·) 0
  + (s.mem.migr.filterMap fun m => if m.2.tier == .staging then (s.part.extents.find m.1).map (·.granules) else none).foldl (· + ·) 0

/-- Bytes of the adapter cache: the pooled granules that no STAGING extent holds (R44). -/
def State.cacheBytes (s : State) : Nat := (1816 - s.stagingUsed) * 2 ^ 21

/-- Bytes of the loaded parts a test accepts. -/
def State.loadedBytes (s : State) (test : CachePart → Bool) : Nat :=
  ((s.form.cache.filter fun p => p.loaded && test p).map CachePart.bytes).foldl (· + ·) 0

/-- Keeps the parts that are held and, most recently used first, those that fit in what is left;
parts not yet loaded stay (R173). -/
def keepParts (held : CachePart → Bool) : List CachePart → Nat → List CachePart
  | [], _ => []
  | p :: r, room =>
    if !p.loaded || held p then p :: keepParts held r room
    else if p.bytes ≤ room then p :: keepParts held r (room - p.bytes)
    else keepParts held r room

/-- Evicts parts until the cache fits beside `extra` bytes more (R173). -/
def State.trimCache (s : State) (extra : Nat) : State :=
  let room := s.cacheBytes - extra - s.loadedBytes s.partHeld
  { s with form := { s.form with cache := keepParts s.partHeld s.form.cache room } }

/-- A run of pool positions lies on one staging die. -/
def oneDie (i n : Nat) : Bool :=
  n = 0 || poolGranule i / 512 == poolGranule (i + n - 1) / 512

/-- First granule of a free run of `n` granules: the device's choice `hint` when it fits, else the
lowest; a STAGING extent on one die when one die has room, and within 1,560 granules in all (R44). -/
def State.freeRun (s : State) (t : Tier) (n hint : Nat) : Option Nat :=
  let tk := s.taken t
  let lim := s.granules t
  let fits := fun i => runFits tk lim i n
  let cands := sortNat (0 :: tk.map fun r => r.1 + r.2)
  if t == .staging && (1560 < s.stagingUsed + n || s.cacheBytes < n * 2 ^ 21 + s.loadedBytes s.partHeld) then none
  else if n = 0 ∨ lim = 0 then none
  else
    let dies := if t == .staging then
        (sortNat ([0, 408, 856, 1336] ++ cands)).find? fun i => fits i && oneDie i n
      else none
    let h := spot t hint
    let hOk := fits h && unspot t h == hint && (t != .staging || oneDie h n || dies.isNone)
    if hOk then some hint
    else (dies.or (cands.find? fits)).map (unspot t)

/-- Granules of a run of frames. -/
def runGranules (t : Tier) (first n : Nat) : List Nat := (List.range n).map fun k => frameGranule t first k

/-- Last generation of a granule: 0 before its first allocation (R62). -/
def State.lastGen (s : State) (t : Tier) (g : Nat) : Nat := ((s.part.granules.find (granKey t g)).map (·.gen)).getD 0

/-- The generation an allocation of a run takes (R62). -/
def State.nextGen (s : State) (t : Tier) (first n : Nat) : Nat :=
  let g := (((runGranules t first n).map fun x => s.lastGen t x).foldl max 0 + 1) % 65536
  if g = 0 then 1 else g

/-- Marks the granules of a run as held by an owner under a generation. -/
def State.holdRun (s : State) (t : Tier) (first n gen owner : Nat) : State :=
  let m := (runGranules t first n).foldl (fun a g =>
    let old := a.find (granKey t g)
    a.put (granKey t g) ⟨gen, old.bind (·.zero), false, s.now, owner, false⟩) s.part.granules
  { s with part := { s.part with granules := m } }

/-- The granules of a run are retired (R62, R69); `ver`: of a published version. -/
def State.retireRun (s : State) (t : Tier) (first n : Nat) (ver : Bool) : State :=
  let m := (runGranules t first n).foldl (fun a g =>
    a.upd (granKey t g) fun x => { x with retired := true, lastHeld := s.now, ofRetired := ver }) s.part.granules
  { s with part := { s.part with granules := m } }

/-- Lines of a run become zero lines of an extent (R64), charged to its owner. -/
def State.zeroRun (s : State) (x : Nat) (e : Extent) : State :=
  let k := s.keyOf e.deckle
  let st : Stamp := ⟨e.deckle, k.1, k.2, e.gen⟩
  let gs := runGranules e.tier e.first e.granules
  let m := gs.foldl (fun a g => a.upd (granKey e.tier g) fun y => { y with zero := some st }) s.part.granules
  let keep := fun k => !(gs.any fun g => granOf k == granKey e.tier g)
  let rows := s.mem.parityErr.keep fun k _ => keep k
  let poison := s.mem.poison.filter fun p => p.extent != x
  let s1 := { s with
    part := { s.part with granules := m }
    mem := { s.mem with cells := (s.mem.cells.keep fun k _ => keep k), parityErr := rows, poison := poison } }
  s1.chargeTier e.deckle 8 e.tier (writePj e.tier true false) (e.granules * 32768)

/-- Tiers a policy may place in, first choice first (Table 3.4, R51). -/
def State.policyTiers (s : State) : Policy → List Tier
  | .t1Only => [.t1]
  | .t1Prefer => if s.hasTier2 then [.t1, .t2] else [.t1]
  | .t2Only => [.t2]
  | .staging => [.staging]

/-- DETAIL of a failed placement and of a refused quota (R52, R63). -/
def placeDetail : Tier → Nat
  | .t1 => 1
  | .t2 => 2
  | .staging => 3

def quotaDetail : Tier → Nat
  | .t1 => 7
  | .t2 => 8
  | .staging => 9

/-- The tier needed is ready (R353): what an allocation is refused with, if anything. -/
def State.tierNeeds (s : State) : Policy → Option (Status × Nat)
  | .t1Only => if s.tier1Ready then none else some (.notReady, 1)
  | .t1Prefer => if s.tier1Ready then none else some (.notReady, 1)
  | .t2Only => if s.hasTier2 && !s.tier2Ready then some (.notReady, 2) else none
  | .staging => if s.hub.stagingReady then none else some (.notReady, 3)

/-- Tries to place `n` granules in one tier within quota: the granule, or the refusal. -/
def State.placeIn (s : State) (d : Nat) (t : Tier) (n hint : Nat) : Except (Status × Nat) Nat :=
  if !s.quotaAdmits d t n then .error (.busy, quotaDetail t)
  else match s.freeRun t n hint with
    | some g => .ok g
    | none => .error (.busy, placeDetail t)

/-- Places an extent by its policy (R51, R52, R63): tier and first granule. -/
def State.placeBy (s : State) (d : Nat) (p : Policy) (n hint : Nat) : Except (Status × Nat) (Tier × Nat) :=
  match p with
  | .t1Only => (s.placeIn d .t1 n hint).map fun g => (.t1, g)
  | .t2Only =>
    if !s.hasTier2 then .error (.busy, 2) else (s.placeIn d .t2 n hint).map fun g => (.t2, g)
  | .staging => (s.placeIn d .staging n hint).map fun g => (.staging, g)
  | .t1Prefer =>
    match s.placeIn d .t1 n hint with
    | .ok g => .ok (.t1, g)
    | .error e =>
      if !s.hasTier2 then .error e
      else if !s.tier2Ready then .error (.notReady, 2)
      else (s.placeIn d .t2 n hint).map fun g => (.t2, g)

/-- What a new extent is. -/
structure NewExtent where
  deckle : Nat
  tier   : Tier
  first  : Nat
  granules : Nat
  policy : Policy
  mir    : Bool
  zero   : Bool
  holder : Option Nat := none
  draft  : Option Nat := none
  deriving Repr

/-- Allocates an extent on frames found for it (R62); a zeroed one starts ZEROING (Table 4.8). -/
def State.newExtent (s : State) (n : NewExtent) (reply : Option Nat) : State × Nat :=
  let x := s.part.lastExtent + 1
  let gen := s.nextGen n.tier n.first n.granules
  let e : Extent := { deckle := n.deckle, tier := n.tier, first := n.first, granules := n.granules, gen := gen,
                      mir := n.mir, policy := n.policy, holder := n.holder,
                      state := if n.zero then .zeroing reply else .allocated,
                      revoke := none, draft := n.draft, published := none, lost := false, dirty := [] }
  let s1 := s.holdRun n.tier n.first n.granules gen n.deckle
  let s2 := { s1 with part := { s1.part with extents := s1.part.extents.put x e, lastExtent := x } }
  (if n.tier == .staging then s2.trimCache 0 else s2, x)

/-- A tile of an engine stream or of a couch descriptor that has been translated onto an extent and
has not landed (R69). -/
def State.tilesOn (s : State) (x : Nat) : Bool :=
  (s.eng.engines.any fun e => e.2.slots.any fun t => (t.2.refs.getD []).any fun r => r.extent == x)
  || (s.couch.chans.any fun c => ((c.2.cur.bind (·.run)).map fun d => d.tiles.any fun t =>
      match t.2 with
      | .translated a b => (a ++ b).any fun r => r.extent == x
      | _ => false).getD false)

/-! ## Migrations (R53–R56) -/

/-- EV_MIGRATE_DONE (Table 3.5). -/
def State.migrateEvent (s : State) (x : Nat) (e : Extent) (m : Migration) (st : Status) : State :=
  s.raise 0x0203 (.deckle e.deckle) 0 (pack [(32, x), (32, e.granules), (8, statusCode st), (2, tierCode e.tier),
    (6, 0), (64, m.cursor), (32, m.poisoned), (176, 0)])

/-- Ends a migration: the frames that do not hold the extent are retired, and a copy that had not
completed is reported with a status (R56). -/
def State.endMigration (s : State) (x : Nat) (st : Status) : State :=
  match s.mem.migr.find x, s.part.extents.find x with
  | some m, some e =>
    let s1 := ({ s with mem := { s.mem with migr := s.mem.migr.del x } }).retireRun m.tier m.first e.granules false
    if m.done then s1 else s1.migrateEvent x e m st
  | _, _ => s

/-! ## Revocation (R69) -/

/-- Table 4.13. -/
def Revoke.result (r : Revoke) (timedOut : Bool) : List (Nat × Nat) :=
  [(32, r.drained), (32, r.discarded), (16, r.stopped), (1, b2n timedOut), (47, 0)]

/-- Commits an extent to REVOKING, whatever draft it belongs to: zeroing and migration end, its
lodes go down, and its assembly buffers close. -/
def State.revokeOne (s : State) (x cause timeoutUs : Nat) (reply : Option Nat) : State :=
  match s.part.extents.find x with
  | none => s
  | some e =>
    if e.state == .revoking then s
    else
      let moving := s.mem.migr.has x
      let zeroing := match e.state with | .zeroing _ => true | _ => false
      let r : Revoke := { reply := reply, point := s.now, timeout := timeoutUs * 1000, cause := cause, drained := 0,
                          discarded := 0, stopped := b2n moving + b2n zeroing }
      let s1 := s.modExtent x fun e => { e with state := .revoking, revoke := some r }
      let s2 := match e.state with
        | .zeroing (some q) => s1.answer q { status := .revoked }
        | _ => s1
      let s3 := s2.endMigration x .revoked
      let s4 := s3.lodesDown (fun _ l => l.extent == x) 2 0
      (s4.mem.asm.filter fun b => b.2.lines.any fun l =>
        e.tier == .t1 && (framePos e.tier e.first e.granules (l.1 / 32768)).isSome).foldl (fun a b => a.closeAsm b.1) s4

/-! ## Publishing (R76, R77) -/

/-- A watermark (Table 5.5). -/
def watermark (version publisher : Nat) : Nat :=
  pack [(48, version), (16, if version = 0 then 0 else publisher)]

/-- The watermark of a region's current version. -/
def Region.mark (r : Region) : Nat := watermark r.current (((r.versions.find r.current).map (·.publisher)).getD 0)

/-- Changes a draft. -/
def State.modDraft (s : State) (i : Nat) (f : Draft → Draft) : State :=
  { s with rgn := { s.rgn with drafts := s.rgn.drafts.upd i f } }

/-- A publish of the region has sealed its draft and not yet committed. -/
def State.publishing (s : State) (region : Nat) : Bool :=
  s.rgn.drafts.any fun d => d.2.region == region && d.2.sealed.isSome

/-- Runs the checks of R76 on the publishes that wait on a region, in order, until one seals. -/
def State.runPublishes (s : State) (i : Nat) : List PubWait → State
  | [] => s
  | w :: ws =>
    match s.rgn.regions.find i with
    | none => (s.answer w.reply { status := .invalid }).runPublishes i ws
    | some r =>
      let put := fun (s : State) (l : List PubWait) =>
        { s with rgn := { s.rgn with regions := s.rgn.regions.upd i fun r => { r with queue := l } } }
      if s.publishing i then put s (w :: ws)
      else match s.rgn.drafts.find w.draft with
        | none => ((put s ws).answer w.reply { status := .invalid }).runPublishes i ws
        | some d =>
          if d.region ≠ i then ((put s ws).answer w.reply { status := .invalid }).runPublishes i ws
          else if w.base ≠ d.base then ((put s ws).answer w.reply { status := .invalid, detail := 1 }).runPublishes i ws
          else if w.ep ≠ d.holder then ((put s ws).answer w.reply { status := .noAccess }).runPublishes i ws
          else if w.base ≠ r.current then
            ((put s ws).answer w.reply { status := .conflict, detail := r.mark }).runPublishes i ws
          else ((put s ws).modDraft w.draft fun d => { d with sealed := some w.reply }).runPublishes i ws

/-- The publishes that wait on a region go on. -/
def State.pumpPublishes (s : State) (i : Nat) : State :=
  match s.rgn.regions.find i with
  | some r => s.runPublishes i r.queue
  | none => s

/-- Ends a draft (R75, R78): a publish or an OPEN that waits returns ST_REVOKED, and its new extents
are revoked. -/
def State.endDraft (s : State) (i cause : Nat) : State :=
  match s.rgn.drafts.find i with
  | none => s
  | some d =>
    let s1 := { s with rgn := { s.rgn with drafts := s.rgn.drafts.del i } }
    let s2 := (s1.answerOpt d.opening { status := .revoked }).answerOpt d.sealed { status := .revoked }
    ((d.segs.filter fun g => g.1 != .inherit).foldl (fun a g => a.revokeOne g.2 cause 1000 none) s2).pumpPublishes d.region

/-- The revocation point of an extent; a draft it belongs to ends with it (R75). -/
def State.revokeExtent (s : State) (x cause timeoutUs : Nat) (reply : Option Nat) : State :=
  let dr := (s.part.extents.find x).bind (·.draft)
  let s1 := s.revokeOne x cause timeoutUs reply
  match dr with
  | some i => s1.endDraft i (if cause = 1 then 1 else 2)
  | none => s1

/-- Drops fault and poison records and cached translations of an extent that is gone (R295). -/
def State.forget (s : State) (x : Nat) (d : Nat) : State :=
  ({ s with mem := { s.mem with poison := s.mem.poison.filter fun p => p.extent != x } }).dropTlb d

/-- The drain of a revocation ends (R69 stages 4 and 5): remaining requests are discarded, the
granules retired, the quota released, and the revoking command answered. -/
def State.endRevoke (s : State) (x : Nat) (timedOut : Bool) : State :=
  let s0 := s.discardOn x
  match s0.part.extents.find x with
  | none => s
  | some e =>
    match e.revoke with
    | none => s
    | some r =>
      let s1 := s0.retireRun e.tier e.first e.granules e.published.isSome
      let s2 := ({ s1 with part := { s1.part with extents := s1.part.extents.del x } }).forget x e.deckle
      let res := r.result timedOut
      let s3 := State.settle s s2 r.reply (okFields 16 res)
      if r.cause ≤ 1 then
        s3.raise 0x0202 (.deckle e.deckle) 0 (pack (res ++ [(32, x), (16, e.gen), (2, r.cause), (174, 0)]))
      else s3

/-! ## Retention (R81) -/

/-- Every version held by a handle or a pin, of whatever deckle. -/
def State.allHolds (s : State) : List (Nat × Nat) :=
  (s.rgn.handles.map fun h => (h.2.region, h.2.version))
  ++ s.form.maps.flatMap (fun m => m.2.pins.map fun p => (p.1, p.2.1))
  ++ s.form.adapters.map (fun a => (a.region, a.version))
  ++ s.retr.indexes.map (fun i => (i.2.region, i.2.version))
  ++ s.eng.work.flatMap (fun w => match w.2.body with
      | .rdf _ _ b => b.pins
      | .topk _ i r => (i.region, i.version) :: (match r with | some j => [(j.region, j.version)] | none => [])
      | _ => [])
  ++ s.formBinds.flatMap fun b => b.pins

/-- A version is retained (R81). The retention values of a deleted region no longer hold (R73). -/
def State.retained (s : State) (i : Nat) (r : Region) (n : Nat) (v : Version) : Bool :=
  s.allHolds.contains (i, n) ||
    (!r.deleted && (n == r.current || r.current < n + max 1 r.retainCount || s.dom < v.publishedAt + r.retainMs * 1000000))

/-- Extents that a retained version or a draft of a region still references. -/
def State.refs (s : State) (i : Nat) (r : Region) : List Nat :=
  r.versions.flatMap (fun v => v.2.segs)
  ++ (s.rgn.drafts.filter fun d => d.2.region == i).flatMap fun d => d.2.segs.map (·.2) ++ d.2.copyFrom

/-- Retires the versions of one region that are not retained, and revokes their extents that
nothing references. A deleted region with nothing left is gone. -/
def State.retainOne (s : State) (i : Nat) : State :=
  match s.rgn.regions.find i with
  | none => s
  | some r =>
    let gone := r.versions.filter fun v => !s.retained i r v.1 v.2
    if gone.isEmpty then
      if r.deleted && r.versions.isEmpty && !(s.rgn.drafts.any fun d => d.2.region == i) then
        { s with rgn := { s.rgn with regions := s.rgn.regions.del i } }
      else s
    else
      let r' : Region := { r with versions := r.versions.keep fun n v => s.retained i r n v }
      let s1 := { s with rgn := { s.rgn with regions := s.rgn.regions.put i r' } }
      let keep := s1.refs i r'
      let ext := ((gone.flatMap fun v => v.2.segs).eraseDups).filter fun x => !keep.contains x
      let s2 := ext.foldl (fun a x => a.revokeExtent x 2 1000 none) s1
      if r'.deleted && r'.versions.isEmpty && !(s2.rgn.drafts.any fun d => d.2.region == i) then
        { s2 with rgn := { s2.rgn with regions := s2.rgn.regions.del i } }
      else s2

/-- The hub's retention check (R81). -/
def State.checkRetention (s : State) : State := s.rgn.regions.keys.foldl (fun a i => a.retainOne i) s

/-! ## Leases (R66, R67) -/

/-- Reclaim starts at the end of a lease (R67): held extents are revoked, handles close, lode
domains go down; held answers of the lease are discarded (R26). -/
def State.startReclaim (s : State) (d ep graceEnd : Nat) (reply : Option Nat) : State :=
  match s.lease d ep with
  | none => s
  | some l =>
    let exts := (s.part.extents.filter fun x => x.2.deckle == d && x.2.holder == some ep && x.2.state != .revoking).map Prod.fst
    let mine := fun (h : Handle) => h.deckle == d && h.ep == ep
    let handles := (s.rgn.handles.filter fun h => mine h.2).length
    let inLode := fun (_ : Nat) (l : Lode) => l.deckle == d && l.down.isNone &&
      ((l.agents.any fun a => a.2 == ep) || l.uncached.contains ep)
    let downs := (s.lode.lodes.keep inLode).length
    let rc : Reclaim := { reply := reply, revoked := exts.length, closed := handles, down := downs, graceEnd := graceEnd }
    let s0 := { s with part := { s.part with reclaims := s.part.reclaims.put (leaseKey d ep) rc } }
    let s1 := s0.setLease d ep (some { l with state := .expired, deadline := 0 })
    let s2 := exts.foldl (fun a x => a.revokeExtent x 1 1000 none) s1
    let s3 := { s2 with rgn := { s2.rgn with handles := s2.rgn.handles.keep fun _ h => !mine h } }
    ((s3.checkRetention).lodesDown inLode 1 ep).discardHeld fun d' e' => d' == d && e' == ep

/-- No revocation that a lease's reclaim started is still running. -/
def State.reclaimDrained (s : State) (d ep : Nat) : Bool :=
  !(s.part.extents.any fun x => x.2.deckle == d && x.2.holder == some ep && x.2.state == .revoking)

end Sys2Proof.Machine
end

