-- ==== Sys2Proof/Machine/Deckles.lean ====
section
/-! DEFINITION. Deckles, extents and leases (chapter 4): creation, quotas and queries, allocation
and zeroing, revocation, and the leases of endpoints. Dissolving is in `Dissolve.lean`. -/

namespace Sys2Proof.Machine

/-! ## Deckles -/

/-- Deckles in existence, deckle 0 included. -/
def State.deckleCount (s : State) : Nat := s.part.deckles.length

/-- A deckle as DECKLE_CREATE makes it: buckets and queues at R262, R264 and R268, epoch 0. -/
def freshDeckle (now key : Nat) : Deckle where
  dissolving := none
  operatorVisible := false
  kernelKey := none
  epoch := 0
  key := key
  sweep := none
  qT1 := 0
  qT2 := 0
  qStg := 0
  qLodeMib := 0
  ctrlExtent := 0
  ctrlPva := 0
  ctrlGranules := 0
  classMap := [4, 5, 6, 7, 8, 9, 10, 11]
  policer := { Bucket.off with last := now }
  shaper := { Bucket.off with last := now }
  energy := { EnergyB.off with last := now }
  usedClass := [0, 0, 0, 0, 0, 0, 0, 0]
  usedKind := [0, 0, 0, 0, 0, 0, 0, 0]
  activity := []
  refused := 0
  refusedAt := none
  tables := []
  root := 0
  oldCopy := none
  syncReply := none
  syncSeq := 0
  mismatches := 0
  store := []
  ctxStore := []
  maxSeq := 0

/-- A new memory key in the key store: its serial number (R59, log 9). -/
def State.newKey (s : State) : State × Nat :=
  let k := s.sec.lastKey + 1
  ({ s with sec := { s.sec with lastKey := k, keys := s.sec.keys ++ [k] } }, k)

/-- Destroys a memory key (R331, R334). -/
def State.dropKey (s : State) (k : Nat) : State :=
  { s with sec := { s.sec with keys := s.sec.keys.filter fun x => x != k } }

/-- The identifier DECKLE_CREATE assigns: the one named, or the lowest free one (Table 4.1). -/
def State.deckleFor (s : State) (named : Nat) : Nat :=
  if named = 0 then (s.part.deckles.firstFree 1 s.deckleMax).getD 0 else named

/-- The endpoints listed in a DECKLE_CREATE. -/
def createEps (p : DeckleCreateP) : List Nat := (List.range p.epCount).map fun i => p.epList.getD i 0

/-- Field ranges of Table 4.1. -/
def createOk (p : DeckleCreateP) : Bool :=
  1 ≤ p.ctrlGranules && p.ctrlGranules ≤ 8 && p.ctrlPva % 2 ^ 21 == 0 && p.ctrlPva < 2 ^ 56 && p.deckle < 4096 &&
  p.qT1 < 2 ^ 32 && p.qT2 < 2 ^ 32 && p.qStg ≤ 1560 && p.qLodeMib ≤ 256 && p.epCount ≤ 16 &&
  p.epList.length ≤ 16 && (p.epList.drop p.epCount).all (· == 0) && p.epList.all (· < 4096) &&
  (p.leaseMs == 0 || (20 ≤ p.leaseMs && p.leaseMs ≤ 10000)) &&
  (p.graceMs == 0 || (10 ≤ p.graceMs && p.graceMs ≤ 1000)) &&
  p.kernelKey < 2 ^ 456 && (p.kernelKeyValid || p.kernelKey == 0)

/-- DECKLE_CREATE: code, length and what R27 checks of it first. -/
def deckleCreateCmd (p : DeckleCreateP) (s : State) : Cmd :=
  { code := 0x0101, oper := true, len := 128, rsvd := p.rsvd, attended := true,
                   names := if p.deckle = 0 then [] else [p.deckle],
                   needs := if !s.sec.ready then some (.notReady, 0)
                     else if !s.tier1Ready then some (.notReady, 1) else none }

/-- DECKLE_CREATE: its checks in order (R59). -/
def deckleCreateChecks (p : DeckleCreateP) (hint : Nat) : State → List Check :=
  fun s => [
      (s.deckleCount < s.deckleMax, .busy, 1),
      (p.deckle = 0 || (!s.part.deckles.has p.deckle && p.deckle < s.deckleMax), .busy, 2),
      (!(p.kernelKeyValid && s.part.bulk) && createOk p, .invalid, 0),
      ((createEps p).all s.part.eps.has && noDup (createEps p), .invalid, 3),
      ((createEps p).all fun e => s.memberships e < 16, .busy, 3),
      (p.ctrlGranules ≤ p.qT1 && (s.freeRun .t1 p.ctrlGranules hint).isSome, .busy, 4)]

/-- DECKLE_CREATE: its effect (R59). -/
def deckleCreateAct (p : DeckleCreateP) (hint : Nat) : State → Nat → State × Option Ans :=
  fun s _ =>
      let d := s.deckleFor p.deckle
      let k := s.newKey
      let g := (k.1.freeRun .t1 p.ctrlGranules hint).getD 0
      let x0 : Deckle := { freshDeckle s.now k.2 with
        operatorVisible := p.operatorVisible
        kernelKey := if p.kernelKeyValid then some p.kernelKey else none
        qT1 := p.qT1, qT2 := p.qT2, qStg := p.qStg, qLodeMib := p.qLodeMib
        ctrlExtent := k.1.part.lastExtent + 1, ctrlPva := p.ctrlPva, ctrlGranules := p.ctrlGranules }
      let s1 := { k.1 with part := { k.1.part with deckles := k.1.part.deckles.put d x0 } }
      let n := s1.newExtent { deckle := d, tier := .t1, first := g, granules := p.ctrlGranules, policy := .t1Only,
                              mir := false, zero := false } none
      let e := n.1.part.extents.find n.2
      let s2 := match e with | some e => n.1.zeroRun n.2 e | none => n.1
      let l := s.newLease (if p.leaseMs = 0 then 200 else p.leaseMs) (if p.graceMs = 0 then 50 else p.graceMs)
      let s3 := (createEps p).foldl (fun a ep => a.setLease d ep (some l)) s2
      (s3, some (okFields 16 [(12, d), (4, 0), (16, 0), (32, n.2), (16, (e.map (·.gen)).getD 0), (48, 0)]))

/-- DECKLE_CREATE (R59): the checks in order, then key, control extent and initial leases. -/
def execDeckleCreate (q : Req) (p : DeckleCreateP) (hint : Nat) (s : State) : Host.Outcome State Fault Refusal :=
  .next (s.serve (.deckleCreate q p hint) (deckleCreateCmd p s) q (deckleCreateChecks p hint) (deckleCreateAct p hint))

/-- One entry in the layout of Table 4.10. -/
def leaseEntry (ep : Nat) (l : Option Lease) : List (Nat × Nat) :=
  [(2, leaseCode l), (2, 0), (12, ep), (14, (l.map (·.duration)).getD 0), (2, 0), (11, (l.map (·.grace)).getD 0), (21, 0),
   (64, (l.map (·.deadline)).getD 0)]

/-- DECKLE_QUERY's inline result (Table 4.4). -/
def State.deckleResult (s : State) (d : Nat) (k : Deckle) : List (Nat × Nat) :=
  let q := fun (n w : Nat) => if d = 0 then 2 ^ w - 1 else n
  [(2, if k.dissolving.isSome then 2 else 1), (1, b2n k.operatorVisible), (1, b2n k.kernelKey.isSome), (4, k.epoch),
   (13, (s.members d).length), (11, 0), (32, (s.part.extents.filter fun x => x.2.deckle == d).length),
   (32, q k.qT1 32), (32, q k.qT2 32), (32, q k.qStg 32), (16, q k.qLodeMib 16), (16, 0),
   (32, s.used d .t1), (32, s.used d .t2), (32, s.used d .staging), (16, cdiv (s.lode64k d) 16), (16, 0),
   (32, k.ctrlExtent), (160, 0)]

/-- DECKLE_QUERY: code, length and what R27 checks of it first. -/
def deckleQueryCmd (p : DeckleP) : Cmd :=
  { code := 0x0103, len := 8, rsvd := p.rsvd, own := some p.deckle, query := true }

/-- DECKLE_QUERY: its checks in order (R357). -/
def deckleQueryChecks (p : DeckleP) : State → List Check :=
  fun _ => [(p.deckle < 4096, .invalid, 0)]

/-- DECKLE_QUERY: its effect (R357). -/
def deckleQueryAct (p : DeckleP) : State → Nat → State × Option Ans :=
  fun s _ =>
      match s.part.deckles.find p.deckle with
      | none => (s, some (okFields 64 []))
      | some k =>
        let m := s.members p.deckle
        (s, some { okFields 64 (s.deckleResult p.deckle k) with
          area := 16 * m.length
          content := concatBytes 16 (m.map fun e => pack (leaseEntry e (s.lease p.deckle e))) })

/-- DECKLE_QUERY (R357). -/
def execDeckleQuery (q : Req) (p : DeckleP) (s : State) : Host.Outcome State Fault Refusal :=
  .next (s.serve (.deckleQuery q p) (deckleQueryCmd p) q (deckleQueryChecks p) (deckleQueryAct p))

/-- The deckle a command names exists. -/
def State.deckleExists (s : State) (d : Nat) : Bool := s.part.deckles.has d

/-- DECKLE_QUOTA: code, length and what R27 checks of it first. -/
def deckleQuotaCmd (p : QuotaP) : Cmd :=
  { code := 0x0104, oper := true, len := 24, rsvd := p.rsvd, names := [p.deckle] }

/-- DECKLE_QUOTA: its checks in order (R57, R60). -/
def deckleQuotaChecks (p : QuotaP) : State → List Check :=
  fun s => [(p.deckle ≠ 0 && s.deckleExists p.deckle && p.qT1 < 2 ^ 32 && p.qT2 < 2 ^ 32 && p.qStg ≤ 1560 &&
                p.qLodeMib ≤ 256, .invalid, 0)]

/-- DECKLE_QUOTA: its effect (R57, R60). -/
def deckleQuotaAct (p : QuotaP) : State → Nat → State × Option Ans :=
  fun s _ => (s.modDeckle p.deckle fun k =>
      { k with qT1 := p.qT1, qT2 := p.qT2, qStg := p.qStg, qLodeMib := p.qLodeMib }, some okAns)

/-- DECKLE_QUOTA (R57, R60): replaces the four quotas. -/
def execDeckleQuota (q : Req) (p : QuotaP) (s : State) : Host.Outcome State Fault Refusal :=
  .next (s.serve (.deckleQuota q p) (deckleQuotaCmd p) q (deckleQuotaChecks p) (deckleQuotaAct p))

/-! ## Extents -/

/-- EXTENT_ALLOC's result (Table 4.7). -/
def extentResult (x : Nat) (e : Extent) : Ans :=
  okFields 16 [(32, x), (16, e.gen), (2, tierCode e.tier), (6, 0), (24, e.first), (16, 0), (32, e.granules)]

/-- The refusal of a placement as a check. -/
def placeCheck {α : Type} : Except (Status × Nat) α → Check
  | .ok _ => (true, .ok, 0)
  | .error e => (false, e.1, e.2)

/-- EV_SPILL (Table 3.5). -/
def State.spill (s : State) (d x n : Nat) : State :=
  s.raise 0x0204 (.deckle d) 0 (pack [(32, x), (32, n), (8, 0), (2, 1), (278, 0)])

/-- EXTENT_ALLOC: code, length and what R27 checks of it first. -/
def extentAllocCmd (p : AllocP) (s : State) : Cmd :=
  { code := 0x0201, len := 8, rsvd := p.rsvd, own := some p.deckle, names := [p.deckle],
                   needs := s.tierNeeds p.policy }

/-- EXTENT_ALLOC: its checks in order (R63). -/
def extentAllocChecks (q : Req) (p : AllocP) (hint : Nat) : State → List Check :=
  fun s => [
      (1 ≤ p.granules && p.granules ≤ 32768 && s.deckleExists p.deckle &&
        (if p.held then s.member p.deckle p.holder else p.holder == 0), .invalid, 0),
      (p.policy != .staging || q.deckle == 0, .noAccess, 0),
      placeCheck (s.placeBy p.deckle p.policy p.granules hint)]

/-- EXTENT_ALLOC: its effect (R63). -/
def extentAllocAct (p : AllocP) (hint : Nat) : State → Nat → State × Option Ans :=
  fun s r =>
      match s.placeBy p.deckle p.policy p.granules hint with
      | .error e => (s, some { status := e.1, detail := e.2 })
      | .ok (t, g) =>
        let zero := p.zero || s.hub.fillAtStart
        let n := s.newExtent { deckle := p.deckle, tier := t, first := g, granules := p.granules, policy := p.policy,
                               mir := p.mir, zero := zero, holder := if p.held then some p.holder else none } (some r)
        let s1 := if p.policy == .t1Prefer && t == .t2 then n.1.spill p.deckle n.2 p.granules else n.1
        (s1, if zero then none else (s1.part.extents.find n.2).map (extentResult n.2))

/-- EXTENT_ALLOC (R63): answered at once, or when its last zero line is written (R64). -/
def execExtentAlloc (q : Req) (p : AllocP) (hint : Nat) (s : State) : Host.Outcome State Fault Refusal :=
  .next (s.serve (.extentAlloc q p hint) (extentAllocCmd p s) q (extentAllocChecks q p hint) (extentAllocAct p hint))

/-- EXTENT_ZERO_DONE (R64): every line holds a valid zero line; the extent is ALLOCATED. -/
def execExtentZeroDone (extent : Nat) (s : State) : Host.Outcome State Fault Refusal :=
  .next <| match s.part.extents.find extent with
  | some e =>
    match e.state with
    | .zeroing r =>
      let s1 := (s.zeroRun extent e).modExtent extent fun e => { e with state := .allocated }
      State.settle s s1 r (extentResult extent e)
    | _ => s
  | none => s

/-- The checks on an extent a command names: an extent of the deckle, not REVOKING (R71). -/
def State.extentChecks (s : State) (d x : Nat) : List Check :=
  let e := s.part.extents.find x
  [((e.map fun e => e.deckle == d).getD false, .invalid, 1),
   ((e.map fun e => e.state != .revoking).getD false, .revoked, 0)]

/-- EXTENT_FREE: code, length and what R27 checks of it first. -/
def extentFreeCmd (p : RevokeP) : Cmd :=
  { code := 0x0202, len := 8, rsvd := p.rsvd, own := some p.deckle, names := [p.deckle] }

/-- EXTENT_FREE: its checks in order (R69). -/
def extentFreeChecks (p : RevokeP) : State → List Check :=
  fun s => (p.timeoutUs == 0, .invalid, 0) :: s.extentChecks p.deckle p.extent

/-- EXTENT_FREE: its effect (R69). -/
def extentFreeAct (p : RevokeP) : State → Nat → State × Option Ans :=
  fun s r => (s.revokeExtent p.extent 2 1000 (some r), none)

/-- EXTENT_FREE (R69). -/
def execExtentFree (q : Req) (p : RevokeP) (s : State) : Host.Outcome State Fault Refusal :=
  .next (s.serve (.extentFree q p) (extentFreeCmd p) q (extentFreeChecks p) (extentFreeAct p))

/-- EXTENT_REVOKE: code, length and what R27 checks of it first. -/
def extentRevokeCmd (p : RevokeP) : Cmd :=
  { code := 0x0203, oper := true, len := 8, rsvd := p.rsvd, names := [p.deckle] }

/-- EXTENT_REVOKE: its checks in order (R69). -/
def extentRevokeChecks (p : RevokeP) : State → List Check :=
  fun s => (p.timeoutUs == 0 || (100 ≤ p.timeoutUs && p.timeoutUs ≤ 10000), .invalid, 0) ::
      s.extentChecks p.deckle p.extent

/-- EXTENT_REVOKE: its effect (R69). -/
def extentRevokeAct (p : RevokeP) : State → Nat → State × Option Ans :=
  fun s r => (s.revokeExtent p.extent 0 (if p.timeoutUs = 0 then 1000 else p.timeoutUs) (some r), none)

/-- EXTENT_REVOKE (R69). -/
def execExtentRevoke (q : Req) (p : RevokeP) (s : State) : Host.Outcome State Fault Refusal :=
  .next (s.serve (.extentRevoke q p) (extentRevokeCmd p) q (extentRevokeChecks p) (extentRevokeAct p))

/-- REVOKE_DRAIN_END (R69): no admitted request or tile on the extent remains. -/
def execRevokeDrainEnd (extent : Nat) (s : State) : Host.Outcome State Fault Refusal :=
  .next <|
    if (s.jobsOn extent).isEmpty && !s.tilesOn extent then s.endRevoke extent false else s

/-- REVOKE_TIMEOUT (R69): the drain ends REVOKE_TIMEOUT after the revocation point. -/
def execRevokeTimeout (extent : Nat) (s : State) : Host.Outcome State Fault Refusal :=
  .next <| match (s.part.extents.find extent).bind (·.revoke) with
  | some r => (s.reach (r.point + r.timeout)).endRevoke extent true
  | none => s

/-- GRANULE_RETURN (R62): 11 ms after it last held its generation. -/
def execGranuleReturn (tier : Tier) (granule : Nat) (s : State) : Host.Outcome State Fault Refusal :=
  .next <| match s.part.granules.find (granKey tier granule) with
  | some g =>
    if g.retired then
      let s1 := s.reach (g.lastHeld + 11000000)
      let m := s1.part.granules.upd (granKey tier granule) fun x => { x with retired := false }
      { s1 with part := { s1.part with granules := m } }
    else s
  | none => s

/-! ## Leases -/

/-- The answer to LEASE_GRANT and LEASE_QUERY (Table 4.10). -/
def State.leaseAns (s : State) (d ep : Nat) : Ans := okFields 16 (leaseEntry ep (s.lease d ep))

/-- LEASE_GRANT: code, length and what R27 checks of it first. -/
def leaseCmd (p : LeaseP) : Cmd := { code := 0x0205, len := 8, rsvd := p.rsvd, own := some p.deckle, names := [p.deckle] }

/-- LEASE_GRANT: its checks in order (R66, Table 4.9). -/
def leaseChecks (q : Req) (p : LeaseP) : State → List Check :=
  fun s =>
    let l := s.lease p.deckle p.endpoint
    [((p.durationMs == 0 || (20 ≤ p.durationMs && p.durationMs ≤ 10000)) &&
        (p.graceMs == 0 || (10 ≤ p.graceMs && p.graceMs ≤ 1000)) && s.deckleExists p.deckle, .invalid, 0),
     (s.part.eps.has p.endpoint, .invalid, 3),
     (q.deckle == 0 || (if p.durationMs = 0 then l.isSome else (l.map Lease.isMember).getD false), .noAccess, 0),
     (p.durationMs == 0 || (l.map Lease.isMember).getD false || s.memberships p.endpoint < 16, .busy, 0)]

/-- LEASE_GRANT in both its forms: a change or creation, or a release with DURATION_MS 0 (R66, R67). -/
def leaseAct (p : LeaseP) : State → Nat → State × Option Ans :=
  fun s r =>
    if p.durationMs = 0 then
      match s.lease p.deckle p.endpoint with
      | none => (s, some (s.leaseAns p.deckle p.endpoint))
      | some l =>
        if l.isMember then ((s.startReclaim p.deckle p.endpoint 0 (some r)), none)
        else
          let s1 := s.setLease p.deckle p.endpoint none
          (s1, some (s1.leaseAns p.deckle p.endpoint))
    else
      let s1 := s.setLease p.deckle p.endpoint
        (some (s.newLease p.durationMs (if p.graceMs = 0 then 50 else p.graceMs)))
      (s1, some (s1.leaseAns p.deckle p.endpoint))

/-- LEASE_GRANT. -/
def State.serveLease (s : State) (self : Instr) (q : Req) (p : LeaseP) : State :=
  s.serve self (leaseCmd p) q (leaseChecks q p) (leaseAct p)

/-- LEASE_GRANT (R66). -/
def execLeaseGrant (q : Req) (p : LeaseP) (s : State) : Host.Outcome State Fault Refusal :=
  .next (s.serveLease (.leaseGrant q p) q p)

/-- LEASE_GRANT with DURATION_MS 0 (R66, R67). -/
def execLeaseRelease (q : Req) (p : LeaseP) (s : State) : Host.Outcome State Fault Refusal :=
  .next (s.serveLease (.leaseRelease q p) q { p with durationMs := 0 })

/-- LEASE_QUERY: code, length and what R27 checks of it first. -/
def leaseQueryCmd (p : LeaseP) : Cmd :=
  { code := 0x0206, len := 8, rsvd := p.rsvd + p.durationMs + p.graceMs, own := some p.deckle,
                   names := [p.deckle] }

/-- LEASE_QUERY: its checks in order (Table 4.10). -/
def leaseQueryChecks (p : LeaseP) : State → List Check :=
  fun s => [(s.deckleExists p.deckle && p.endpoint < 4096, .invalid, 0)]

/-- LEASE_QUERY: its effect (Table 4.10). -/
def leaseQueryAct (p : LeaseP) : State → Nat → State × Option Ans :=
  fun s _ => (s, some (s.leaseAns p.deckle p.endpoint))

/-- LEASE_QUERY (Table 4.10). -/
def execLeaseQuery (q : Req) (p : LeaseP) (s : State) : Host.Outcome State Fault Refusal :=
  .next (s.serve (.leaseQuery q p) (leaseQueryCmd p) q (leaseQueryChecks p) (leaseQueryAct p))

/-- LEASE (R66, R68, R255): a message stamped at or before DEADLINE renews the lease; one stamped
after it arrives in the next state. Lease timers are frozen while the hub is stopped (R35): a message
counts as stamped at the stop. -/
def execLease (port ep deckle stamp rsvd : Nat) (s : State) : Host.Outcome State Fault Refusal :=
  let _ := rsvd
  .next <|
    if !s.bound port ep then s.modPort port fun x => { x with leaseIgnored := x.leaseIgnored + 1 }
    else match s.lease deckle ep with
      | none =>
        { s with link := { s.link with leaseNoLease := s.link.leaseNoLease.put port ((s.link.leaseNoLease.find port).getD 0 + 1) } }
      | some l =>
        let last := if l.state = .held then l.deadline + l.grace * 1000000 else l.deadline
        let at_ := if s.hubStopped then min stamp (s.dom - (s.now - s.hub.stoppedAt.getD s.now)) else stamp
        if l.state ≠ .expired ∧ at_ ≤ last then
          State.commitFw s (s.setLease deckle ep (some { l with state := .held, deadline := at_ + l.duration * 1000000 }))
        else s

/-- LEASE_DEADLINE (R66): HELD to GRACE. Lease timers are frozen while the hub is stopped (R35). -/
def execLeaseDeadline (deckle ep : Nat) (s : State) : Host.Outcome State Fault Refusal :=
  .next <| match s.lease deckle ep with
  | some l =>
    if l.state = .held ∧ !s.hubStopped then
      let s1 := s.reachDom l.deadline
      State.commitFw s (s1.setLease deckle ep (some { l with state := .grace, deadline := l.deadline + l.grace * 1000000 }))
    else s
  | none => s

/-- LEASE_GRACE_END (R67): EXPIRED, and reclaim starts. An identifier whose port is down is freed
(R237). -/
def execLeaseGraceEnd (deckle ep : Nat) (s : State) : Host.Outcome State Fault Refusal :=
  .next <| match s.lease deckle ep with
  | some l =>
    if l.state = .grace ∧ !s.hubStopped then
      State.commitFw s (((s.reachDom l.deadline).startReclaim deckle ep l.deadline none).freeIfIdle ep)
    else s
  | none => s

/-- LEASE_RECLAIM_DONE (R67): every revocation of the reclaim has completed. A release goes to
NONE and is answered. -/
def execLeaseReclaimDone (deckle ep : Nat) (s : State) : Host.Outcome State Fault Refusal :=
  .next <| match s.part.reclaims.find (leaseKey deckle ep) with
  | some rc =>
    if s.reclaimDrained deckle ep then
      let s1 := { s with part := { s.part with reclaims := s.part.reclaims.del (leaseKey deckle ep) } }
      let s2 := if rc.reply.isSome ∧ (s.lease deckle ep).any (fun l => l.state == .expired) then s1.setLease deckle ep none
        else s1
      let s3 := s2.raise 0x0201 (.both deckle) 0 (pack [(12, ep), (4, 0), (16, rc.revoked),
        (16, rc.closed), (16, rc.down), (64, rc.graceEnd), (224, 0)])
      (State.settle s s3 rc.reply (okFields 16 (leaseEntry ep none))).freeIfIdle ep
    else s
  | none => s

end Sys2Proof.Machine
end

