-- ==== Sys2Proof/Machine/Memory.lean ====
section
/-! DEFINITION. Memory tiers (chapter 3): controllers accepting and returning lines, assembly
buffers, stale requests and migrations. -/

namespace Sys2Proof.Machine

/-! ## Atomics (R240) -/

/-- An ATOM on a line: the new line and the old value. -/
def atomLine (l : Line) (aop : Nat) (b16 : Bool) (a b : BitVec 128) (off : Nat) : Line × BitVec 128 :=
  let w := if b16 then 16 else 8
  let m := 2 ^ (8 * w)
  let old := bytesFrom l.toNat off w
  let new := match aop with
    | 0 => (old + a.toNat) % m
    | 1 => a.toNat % m
    | _ => if old = a.toNat % m then b.toNat % m else old
  (mergeLine l (BitVec.ofNat 512 (new <<< (8 * off))) (maskRange off w), BitVec.ofNat 128 old)

/-! ## Lines of jobs -/

/-- The job writes. -/
def Job.writes (x : Job) : Bool :=
  match x.kind with
  | .rd => false
  | .rdVersion => false
  | _ => true

/-- A laid write, which travels on a channel of its own. -/
def Job.laid (x : Job) : Bool := x.kind == .laidIn

/-- The class its energy counts under: laid writes never touch the energy buckets (R269, R284). -/
def Job.actCls (x : Job) : Nat := if x.laid then x.cls else x.cls + 8

/-- An earlier write of the same endpoint and channel to the line has not been applied (R250). -/
def State.blocked (s : State) (j : Nat) (x : Job) (l : JobLine) : Bool :=
  s.mem.jobs.any fun k => k.1 < j && k.2.ep == x.ep && k.2.writes && k.2.laid == x.laid &&
    k.2.lines.any fun m => !m.done && m.tier == l.tier && m.line == l.line

/-- A controller accepts line `i` of a job (R45, R46, R49, R62). -/
def State.acceptLine (s : State) (j i : Nat) (x : Job) (l : JobLine) : State :=
  let last := (x.lines.drop (i + 1)).all (·.done)
  let o : Origin := { ep := if x.laid then 0 else x.ep, rtag := if x.laid then 0 else x.tag, fw := x.laid, last := last, cls := x.actCls }
  let r := l.ref (s.isMir l.extent) x.deckle
  if !s.liveLine l then s.setJob j (x.failLine i .revoked)
  else match x.kind with
    | .atom aop b16 a b off =>
      let s0 := s.closeAsmOf l.tier l.line
      match s0.readLine r x.actCls with
      | (s1, .data old) =>
        let n := atomLine old aop b16 a b off
        let w := s1.writeWhole r n.1 false o
        w.1.setJob j { x.doneLine i (fun k => { k with mseq := w.2 }) with old := n.2 }
      | (s1, .fail st) => s1.setJob j (x.failLine i st)
      | (s1, _) => s1
    | _ =>
      if l.mask = ~~~0#64 && s.part.bulk && l.tier == .t1 then
        let w := s.assemble r l.data o
        w.1.setJob j (x.doneLine i fun k => { k with mseq := w.2, assembled := true })
      else
        let s0 := s.closeAsmOf l.tier l.line
        match s0.writeLine r l.data l.mask false o with
        | (s1, .done m) => s1.setJob j (x.doneLine i fun k => { k with mseq := m })
        | (s1, .fail st) => s1.setJob j (x.failLine i st)
        | (s1, .wait) => s1

/-- Accepts the lines of a job that are not served yet, in order. -/
def State.acceptLines (s : State) (j : Nat) : List Nat → State
  | [] => s
  | i :: r =>
    match s.mem.jobs.find j with
    | none => s
    | some x =>
      match x.lines[i]? with
      | some l => if l.done || l.lode || s.blocked j x l then s.acceptLines j r else (s.acceptLine j i x l).acceptLines j r
      | none => s

/-- LINE_WRITE_ACCEPTED (R46): the job's lines become visible, and its answer is released. A
mirrored write waits while the retention buffer is full (R310). -/
def execLineWriteAccepted (job : Nat) (s : State) : Host.Outcome State Fault Refusal :=
  .next <| match s.mem.jobs.find job with
  | some x =>
    if !x.writes || (s.mirrors && s.retentionFull && x.lines.any fun l => s.isMir l.extent) then s
    else (s.acceptLines job (List.range x.lines.length)).finishJob job
  | none => s

/-- A bit flip that a read finds in the stored line. -/
def State.flipLine (s : State) (l : JobLine) (flip : Stored) : State :=
  match s.cell l.tier l.line with
  | some c => if flip = 0#640 then s else s.putCell l.tier l.line { c with err := c.err ^^^ flip }
  | none => s

/-- The outcome of a read of line `i` of a job. -/
def State.takeRead (s : State) (j i : Nat) (x : Job) : RdOut → State
  | .data d => s.setJob j (x.doneLine i fun k => { k with data := d })
  | .fail st => s.setJob j (x.failLine i st)
  | .recon b => s.setJob j { x with lines := modAt x.lines i fun k => { k with recon := some b } }
  | .wait => s

/-- LINE_READ (R291): the job's next line returns from its controller. `flip` is what changed in
the stored bits since they were last handled. -/
def execLineRead (job : Nat) (flip : Stored) (s : State) : Host.Outcome State Fault Refusal :=
  .next <| match s.mem.jobs.find job with
  | some x =>
    if x.writes then s
    else match (x.lines.zip (List.range x.lines.length)).find? fun y => !y.1.done && !y.1.lode && y.1.recon.isNone with
      | none => s
      | some (l, i) =>
        if s.blocked job x l then s
        else if !s.liveLine l then (s.setJob job (x.failLine i .revoked)).finishJob job
        else
          let r := l.ref (s.isMir l.extent) x.deckle
          let s0 := (s.flipLine l flip).chargeTier x.deckle (x.cls + 8) l.tier (readPj l.tier) 1
          let y := s0.firstRead r
          let s1 := if y.2 then s0.countCe (s0.unitOf l.tier l.line).1 else s0
          (s1.takeRead job i x y.1).finishJob job
  | none => s

/-- RECONSTRUCTION_DONE (R292): the row's other lines have arrived for the job's line that waits. -/
def execReconstructionDone (job : Nat) (s : State) : Host.Outcome State Fault Refusal :=
  .next <| match s.mem.jobs.find job with
  | some x =>
    match (x.lines.zip (List.range x.lines.length)).find? fun y => !y.1.done && y.1.recon.isSome with
    | none => s
    | some (l, i) =>
      if !s.liveLine l then (s.setJob job (x.failLine i .revoked)).finishJob job
      else
        let y := s.reconstruct (l.ref (s.isMir l.extent) x.deckle) (l.recon.getD false) (x.cls + 8)
        (y.1.takeRead job i x y.2.1).finishJob job
  | none => s

/-- REQUEST_STALE_DISCARD (R62): not accepted within 10 ms of admission. -/
def execRequestStaleDiscard (job : Nat) (s : State) : Host.Outcome State Fault Refusal :=
  .next <| match s.mem.jobs.find job with
  | some x =>
    if x.lines.all (·.done) then s
    else
      let s1 := s.reach (x.admitted + 10000000)
      (s1.setJob job { x with lines := x.lines.map fun l => { l with done := true, recon := none },
                              fail := some (x.fail.getD .aborted) }).finishJob job
  | none => s

/-- ASM_WINDOW_EXPIRE (R49): ASM_WINDOW has passed since the buffer opened. -/
def execAsmWindowExpire (stripe : Nat) (s : State) : Host.Outcome State Fault Refusal :=
  .next <| match s.mem.asm.find stripe with
  | some b => (s.reach (b.openedAt + 4000)).closeAsm stripe
  | none => s

/-! ## Migration (R53–R56) -/

/-- The tier named by TARGET is ready (R353). -/
def State.targetNeeds (s : State) (t : Nat) : Option (Status × Nat) :=
  match t with
  | 0 => s.tierNeeds .t1Only
  | 1 => s.tierNeeds .t2Only
  | _ => none

/-- EXTENT_MIGRATE: code, length and what R27 checks of it first. -/
def extentMigrateCmd (p : MigrateP) (s : State) : Cmd :=
  { code := 0x0204, len := 8, rsvd := p.rsvd, own := some p.deckle, names := [p.deckle],
                   needs := s.targetNeeds p.target }

/-- EXTENT_MIGRATE: its checks in order (R53). -/
def extentMigrateChecks (q : Req) (p : MigrateP) (hint : Nat) : State → List Check :=
  fun s =>
      let t := tierOf p.target
      let e := s.part.extents.find p.extent
      let n := (e.map (·.granules)).getD 1
      [(p.target ≠ 2 || q.deckle == 0, .noAccess, 0)] ++ s.extentChecks p.deckle p.extent ++
      [(p.target < 3 && (e.map fun e => e.tier != t && e.state == .allocated).getD false, .invalid, 0),
       (s.mem.migr.length < 8, .busy, 4),
       (!s.mem.migr.has p.extent, .busy, 5),
       ((s.freeRun t n hint).isSome && (t != .t2 || s.hasTier2), .busy, placeDetail t)]

/-- EXTENT_MIGRATE: its effect (R53). -/
def extentMigrateAct (p : MigrateP) (hint : Nat) : State → Nat → State × Option Ans :=
  fun s _ =>
      let t := tierOf p.target
      match s.part.extents.find p.extent with
      | none => (s, some { status := .invalid, detail := 1 })
      | some e =>
        let g := (s.freeRun t e.granules hint).getD 0
        let m : Migration := { tier := t, first := g, done := false, switched := false, cursor := 0, poisoned := 0 }
        let s1 := s.holdRun t g e.granules e.gen e.deckle
        (({ s1 with mem := { s1.mem with migr := s1.mem.migr.put p.extent m } }).trimCache 0,
          some (okFields 16 [(2, p.target), (6, 0), (24, g), (32, e.granules), (64, cdiv (e.granules * 2 ^ 21) 64000)]))

/-- EXTENT_MIGRATE (R53): new frames are allocated and the copy starts. -/
def execExtentMigrate (q : Req) (p : MigrateP) (hint : Nat) (s : State) : Host.Outcome State Fault Refusal :=
  .next (s.serve (.extentMigrate q p hint) (extentMigrateCmd p s) q (extentMigrateChecks q p hint) (extentMigrateAct p hint))

/-- EXTENT_MIGRATE with CANCEL: code, length and what R27 checks of it first. -/
def extentMigrateCancelCmd (p : MigrateP) : Cmd :=
  { code := 0x0204, len := 8, rsvd := p.rsvd, own := some p.deckle, names := [p.deckle] }

/-- EXTENT_MIGRATE with CANCEL: its checks in order (R56). -/
def extentMigrateCancelChecks (p : MigrateP) : State → List Check :=
  fun s => s.extentChecks p.deckle p.extent

/-- EXTENT_MIGRATE with CANCEL: its effect (R56). -/
def extentMigrateCancelAct (p : MigrateP) : State → Nat → State × Option Ans :=
  fun s _ =>
      match s.mem.migr.find p.extent with
      | some m => if m.done then (s, some { status := .late }) else (s.endMigration p.extent .aborted, some okAns)
      | none => (s, some { status := .late })

/-- EXTENT_MIGRATE with CANCEL (R56). -/
def execExtentMigrateCancel (q : Req) (p : MigrateP) (s : State) : Host.Outcome State Fault Refusal :=
  .next (s.serve (.extentMigrateCancel q p) (extentMigrateCancelCmd p) q (extentMigrateCancelChecks p) (extentMigrateCancelAct p))

/-- Copies one listed line of an extent into the frames of a migration or of another extent (R54,
R74): poisoned lines stay poisoned; a line that fails step 3 or is unformed leaves its destination
as it was. The flag counts a poisoned line. -/
def State.copyLine (s : State) (src dst : LineRef) : State × Bool :=
  match s.readLineN src 8 with
  | (s1, .data l, _) =>
    let c := s1.formCell dst l
    (((s1.storeCell dst.tier dst.line c true).mirrorWrite dst c 0 0 true true).1, false)
  | (s1, .fail .uncorrectable, note) =>
    if note.poisoned then
      let s2 := s1.poisonAt dst 2 (s1.lineIx (if dst.extent = src.extent then src else dst))
      ((s2.mirrorWrite dst (s2.poisonCell dst) 0 0 true true).1, true)
    else (s1, false)
  | (s1, _, _) => (s1, false)

/-- Line indexes of an extent that are listed in the stored lines. -/
def State.listed (s : State) (e : Extent) : List Nat :=
  s.mem.cells.filterMap fun c =>
    if c.1 / 2 ^ 40 == tierCode e.tier then
      (framePos e.tier e.first e.granules (c.1 % 2 ^ 40 / 32768)).map fun k => k * 32768 + c.1 % 32768
    else none

/-- Copies an extent's content to other frames (R54, R74): listed lines, and the zero lines of
zeroed granules. `mk` names the destination of a line. The number of poisoned lines. -/
def State.copyAll (s : State) (x : Nat) (e : Extent) (t : Tier) (first : Nat) (gen : Nat)
    (mk : Nat → LineRef) : State × Nat :=
  let zeroOf := fun k => ((s.part.granules.find (granKey e.tier (frameGranule e.tier e.first k))).bind (·.zero)).bind
    fun z => if z.deckle == e.deckle && z.gen == e.gen then some { z with gen := gen } else none
  let gs := (List.range e.granules).foldl (fun a k =>
    a.upd (granKey t (frameGranule t first k)) fun g => { g with zero := zeroOf k }) s.part.granules
  let blank := (List.range e.granules).filter fun k => (zeroOf k).isSome
  let cells := s.mem.cells.keep fun c _ => !(blank.any fun k => granOf c == granKey t (frameGranule t first k))
  let s1 := { s with part := { s.part with granules := gs }, mem := { s.mem with cells := cells } }
  let ls := s.listed e
  let rest := e.granules * 32768 - ls.length
  let s2 := (s1.chargeTier e.deckle 8 e.tier (readPj e.tier) rest).chargeTier e.deckle 8 t (writePj t true false)
    (e.granules * 32768)
  ls.foldl (fun a i =>
    let y := a.1.copyLine (e.lineAt x i) (mk i)
    (y.1, a.2 + b2n y.2)) (s2, 0)

/-- MIGRATE_COPY_DONE (R54): every line is copied under its new address; writes go on to both
frames. Deferrable work does not finish while it is stopped (R274, R277). -/
def execMigrateCopyDone (extent : Nat) (s : State) : Host.Outcome State Fault Refusal :=
  .next <| match s.mem.migr.find extent, s.part.extents.find extent with
  | some m, some e =>
    if m.done || s.deferStopped then s
    else
      let y := s.copyAll extent e m.tier m.first e.gen fun i =>
        { tier := m.tier, line := frameGranule m.tier m.first (i / 32768) * 32768 + i % 32768, extent := extent,
          gen := e.gen, deckle := e.deckle, mir := e.mir }
      let m' : Migration := { m with done := true, cursor := e.granules * 2 ^ 21, poisoned := y.2 }
      let s1 := { y.1 with mem := { y.1.mem with migr := y.1.mem.migr.put extent m' } }
      s1.migrateEvent extent e m' .ok
  | _, _ => s

/-- A job still has a line on frames that a switch left behind. -/
def State.onOldFrames (s : State) (m : Migration) (n : Nat) : Bool :=
  s.mem.jobs.any fun j => j.2.lines.any fun l =>
    !l.done && l.tier == m.tier && (framePos m.tier m.first n (l.line / 32768)).isSome

/-- MIGRATE_OLD_FRAMES_FREE (R55): after the switch the last request on the old frames has
completed. -/
def execMigrateOldFramesFree (extent : Nat) (s : State) : Host.Outcome State Fault Refusal :=
  .next <| match s.mem.migr.find extent, s.part.extents.find extent with
  | some m, some e =>
    if m.switched && !s.onOldFrames m e.granules &&
        ((s.part.deckles.find e.deckle).map fun k => k.oldCopy.isNone).getD true then
      ({ s with mem := { s.mem with migr := s.mem.migr.del extent } }).retireRun m.tier m.first e.granules false
    else s
  | _, _ => s

end Sys2Proof.Machine
end

