-- ==== Sys2Proof/Machine/Ingress.lean ====
section
/-! DEFINITION. Admission at ingress (R247): the checks a request packet passes at its port, what
it is refused with, and the admission of reads, writes and atomics into jobs (R238–R241, R253). -/

namespace Sys2Proof.Machine

/-! ## The gate (R247) -/

/-- What a packet's own checks say: its fields and lengths (R238), its alignment, and the bytes
policing meters, when its channel is policed (Table 15.3). -/
structure PktForm where
  ok      : Bool
  aligned : Bool := true
  bytes   : Option Nat := none

/-- What the port die does with a packet: it discards it, answers it with a status and AUX, or
admits it into a queue. -/
inductive Gate
  | drop
  | refuse (st : Status) (aux : Nat)
  | accept (queue : Nat) (yellow : Bool) (oversize : Bool)
  deriving DecidableEq, Repr

/-- Receive credits a packet holds (R214). -/
def Hdr.credits (h : Hdr) : Nat := cdiv (16 + h.len) 64

/-- Endpoints assigned on a port. -/
def State.epsOn (s : State) (p : Nat) : Nat := s.part.eps.count fun _ e => e.port == p

/-- An endpoint's share of a channel (R253). -/
def State.share (s : State) (p vc : Nat) : Nat := (initCredits false vc - 72) / s.epsOn p

/-- Credits of its share an endpoint holds on a channel. -/
def Endpoint.holding (e : Endpoint) (vc : Nat) : Nat :=
  ((e.outst.filter fun r => r.vc == vc && !r.oversize).map (·.credits)).foldl (· + ·) 0

/-- The oversize reserve of a (port, VC) is taken. -/
def State.reserveTaken (s : State) (p vc : Nat) : Bool :=
  s.part.eps.any fun e => e.2.port == p && e.2.outst.any fun r => r.vc == vc && r.oversize

/-- Checks 6 to 8 of R247. -/
def State.gateLate (s : State) (h : Hdr) (e : Endpoint) (f : PktForm) : State × Gate :=
  if (if s.part.bulk then 1024 else 64) ≤ e.outst.length ∧ h.vc ≠ 4 then (s, .refuse .busy 0)
  else if h.vc ≠ 4 ∧ e.outst.any (fun r => r.tag == h.tag) then (s, .refuse .invalid 0)
  else
    let shared := !s.part.bulk && (h.vc == 0 || h.vc == 4)
    let large := shared && s.share h.port h.vc < e.holding h.vc + Hdr.credits h
    if large && s.reserveTaken h.port h.vc then (s, .refuse .busy 0)
    else match f.bytes with
      | none => (s, .accept (s.queueOf h.deckle h.cls) false large)
      | some n =>
        let x := s.police h.port h.deckle h.cls n
        match x.2 with
        | .refuse hint => (x.1, .refuse .throttled hint)
        | .accept q y => (x.1, .accept q y large)

/-- The checks of R247 on a request packet, in order. `boot` is what the boot ROM does with it. A
standby answers ST_NOT_READY (R307), a fenced device and one that hands over ST_FAILED_OVER
(R315, R320). -/
def State.gate (s : State) (h : Hdr) (vc : Nat) (f : PktForm) (boot : Option Status := some .notReady) : State × Gate :=
  if !s.carries h.port || h.vc ≠ vc then (s, .drop)
  else match s.part.eps.find h.ep with
    | none => (s, .drop)
    | some e =>
      if e.port ≠ h.port then (s, .drop)
      else if s.pair.state == .fenced || s.pair.handover.isSome then (s, .refuse .failedOver 0)
      else if s.isStandby then (s, .refuse .notReady 0)
      else
        match (if s.underBoot then boot else s.accessCheck h.deckle h.ep) with
        | some st => (s, .refuse st 0)
        | none =>
          if !f.ok || h.rsvd ≠ 0 || 8 ≤ h.cls then (s, .refuse .invalid 0)
          else if !f.aligned then (s, .refuse .align 0)
          else s.gateLate h e f

/-- A packet that fails checks 1 or 2 is discarded and counted; its buffer is free. -/
def State.dropPkt (s : State) (h : Hdr) : State := (s.discardPkt h.port).freeBuf h.port h.vc (Hdr.credits h)

/-- A request that passed the gate is outstanding and holds its receive credits (R252, R253). -/
def State.openReq (s : State) (h : Hdr) (queue : Nat) (large : Bool) : State :=
  let r : OutReq := { tag := h.tag, vc := h.vc, credits := Hdr.credits h, oversize := large, queue := queue, cls := h.cls }
  { s with part := { s.part with eps := s.part.eps.upd h.ep fun e => { e with outst := e.outst ++ [r] } } }

/-- Serves a request that is answered by RSP: refused at the gate, or outstanding and served. -/
def State.ingress (s : State) (h : Hdr) (f : PktForm) (go : State → Bool → State) (boot : Option Status := some .notReady) :
    State :=
  let x := s.gate h 0 f boot
  match x.2 with
  | .drop => x.1.dropPkt h
  | .refuse st aux => (x.1.freeBuf h.port h.vc (Hdr.credits h)).refuseReq h st aux
  | .accept q y large => go (x.1.openReq h q large) y

/-! ## Jobs of reads and writes -/

/-- The lode a line lies in, if any. -/
def State.lodeOf (s : State) (r : LineRef) : Option (Nat × Lode) :=
  match s.part.extents.find r.extent with
  | some e => s.lodeAt r.extent (s.lineIndex r.extent e r.tier r.line)
  | none => none

/-- An endpoint is joined to a lode (R85). -/
def Lode.joined (l : Lode) (ep : Nat) : Bool := (l.agents.any fun a => a.2 == ep) || l.uncached.contains ep

/-- Requests of an endpoint may reach the lode lines among these (R85, R88). -/
def State.lodeCheck (s : State) (ep : Nat) (refs : List LineRef) : Option Status :=
  refs.findSome? fun r => (s.lodeOf r).bind fun l =>
    if l.2.down.isSome then some .domainDown else if l.2.joined ep then none else some .noAccess

/-- A new request at the home of a lode line (R87): it waits in arrival order. -/
def State.atHome (s : State) (r : LineRef) (ep tag addr : Nat) (req : LodeReq) : State :=
  match s.lodeOf r, s.part.extents.find r.extent with
  | some (i, l), some e =>
    let line := s.lineIndex r.extent e r.tier r.line - l.offset * 1024
    let w : LodeWork := { ep := ep, tag := tag, line := line, req := req, addr := addr, snoops := [], started := false,
                          held := false, ans := none, got := none, at_ := s.now }
    s.setLode i { l with work := l.work ++ [w], pva := addr - 64 * line }
  | _, _ => s

/-- Lodes that the lines of a job lie in go on serving; `Lodes.lean` gives the home's work. -/
def State.lodesOf (s : State) (refs : List LineRef) : List Nat :=
  (refs.filterMap fun r => (s.lodeOf r).map (·.1)).eraseDups

/-- Creates a job over translated lines: those of lodes go to their homes. -/
def State.newJob (s : State) (h : Hdr) (yellow : Bool) (kind : JobKind) (addr : Nat)
    (ls : List (LineRef × Line × BitVec 64)) : State × Nat :=
  let j := s.mem.nextJob
  let lines : List JobLine := ls.map fun x =>
    { tier := x.1.tier, line := x.1.line, extent := x.1.extent, gen := x.1.gen, deckle := x.1.deckle, data := x.2.1,
      mask := x.2.2, done := false, lode := decide (x.2.2 ≠ 0#64) && (s.lodeOf x.1).isSome }
  let x : Job := { ep := h.ep, tag := h.tag, deckle := h.deckle, cls := h.cls, yellow := yellow, kind := kind,
                   lines := lines, admitted := s.now, fail := none }
  let s1 := { s with mem := { s.mem with jobs := s.mem.jobs.put j x, nextJob := j + 1 } }
  let idx := List.range ls.length
  ((ls.zip idx).foldl (fun a y =>
    if decide (y.1.2.2 ≠ 0#64) && (a.lodeOf y.1.1).isSome then a.atHome y.1.1 h.ep h.tag (addr / 64 * 64 + 64 * y.2) (.job j y.2) else a) s1, j)

/-- The status an endpoint's request gets from a failed translation (R94, R95, R105). -/
def Trans.refusal : Trans → Status
  | .ok _ => .ok
  | .window _ => .noAccess
  | .fault .. => .fault
  | .deny st _ => st

/-- Ends a request whose translation failed. -/
def State.failTrans (s : State) (h : Hdr) (t : Trans) : State :=
  let s1 := match t with | .deny _ true => s.mismatch h.deckle | _ => s
  s1.answerReq h.ep h.tag h.deckle t.refusal

/-- Home core of an endpoint (R13). -/
def homeCore (ep : Nat) : Nat := ep % 32

/-! ## Forms of the packets (R238–R240) -/

/-- Every field of the memory extension that is zero for all of RD, WR and ATOM sent by a partner. -/
def memBare (m : MemExt) : Bool := m.rsvd == 0 && m.addrHi == 0

/-- RD (R239, R241). -/
def rdForm (h : Hdr) (m : MemExt) : PktForm :=
  { ok := memBare m && 1 ≤ m.lines && m.lines ≤ 64 && !m.masked && m.aop == 0 && !m.asize16 && m.firstMask == 0#64 &&
          m.lastMask == 0#64 && (m.ver || m.handle == 0) && h.len == 32
    aligned := m.addr % 64 == 0
    bytes := some (64 * m.lines) }

/-- WR (R239). -/
def wrForm (h : Hdr) (m : MemExt) (data : List Line) : PktForm :=
  { ok := memBare m && 1 ≤ m.lines && m.lines ≤ 64 && !m.ver && m.aop == 0 && !m.asize16 && m.handle == 0 &&
          (m.masked || m.firstMask == 0#64) && ((m.masked && 1 < m.lines) || m.lastMask == 0#64) &&
          h.len == 32 + 64 * m.lines && data.length == m.lines
    aligned := m.addr % 64 == 0
    bytes := some (64 * m.lines) }

/-- Bytes of an ATOM's operand. -/
def atomSize (m : MemExt) : Nat := if m.asize16 then 16 else 8

/-- ATOM (R240). -/
def atomForm (h : Hdr) (m : MemExt) : PktForm :=
  { ok := memBare m && m.lines == 0 && !m.masked && !m.ver && m.aop ≤ 2 && m.handle == 0 && m.firstMask == 0#64 &&
          m.lastMask == 0#64 && h.len == 32 + atomSize m * (if m.aop = 2 then 2 else 1)
    aligned := m.addr % atomSize m == 0
    bytes := some 64 }

/-- Byte enables of line `i` of a WR (R239). -/
def wrMask (m : MemExt) (i : Nat) : BitVec 64 :=
  if !m.masked then ~~~0#64
  else if i = 0 then m.firstMask
  else if i + 1 = m.lines then m.lastMask
  else ~~~0#64

end Sys2Proof.Machine
end

