-- ==== Sys2Proof/Machine/Lodes.lean ====
section
/-! DEFINITION. Lodes (chapter 5): the home of a lode line and its directory flows (Table 5.15),
domain membership, and salvage of a lode that is down. -/

namespace Sys2Proof.Machine

/-! ## The home (R86, R87) -/

/-- Changes a lode. -/
def State.modLode (s : State) (i : Nat) (f : Lode → Lode) : State :=
  { s with lode := { s.lode with lodes := s.lode.lodes.upd i f } }

/-- The index of a caching agent. -/
def Lode.agentOf (l : Lode) (ep : Nat) : Option Nat := (l.agents.find? fun a => a.2 == ep).map (·.1)

/-- The stored line of a lode line. -/
def State.lodeRef (s : State) (l : Lode) (line : Nat) : Option LineRef :=
  (s.part.extents.find l.extent).map fun e => e.lineAt l.extent (l.offset * 1024 + line)

/-- The state of a line: owner, if any, and sharers. -/
def dirParts : Option DirState → Option Nat × List Nat
  | none => (none, [])
  | some (.shared sh) => (none, sh)
  | some (.ownedExcl o) => (some o, [])
  | some (.ownedShared o sh) => (some o, sh)

/-- A directory state from sharers alone. -/
def sharedBy (sh : List Nat) : Option DirState := if sh.isEmpty then none else some (.shared sh)

/-- What a request reads of the directory: RD, WR and ATOM of a job by its kind. -/
inductive HomeKind
  | rds | rdx | wb | read | write | recall
  deriving DecidableEq, Repr

/-- The row of Table 5.15 a request takes. -/
def State.homeKind (s : State) (r : LodeReq) : HomeKind :=
  match r with
  | .rds => .rds
  | .rdx => .rdx
  | .wb _ => .wb
  | .recall => .recall
  | .job j _ => match s.mem.jobs.find j with
    | some x => if x.writes then .write else .read
    | none => .read

/-- Snoops a request needs: agent, and FWD kind (0 SHARE, 1 EXCL, 2 COPY, 3 RECALL) or none for INV. -/
def snoopsFor (k : HomeKind) (me : Option Nat) (d : Option DirState) : List (Nat × Option Nat) :=
  let p := dirParts d
  let fwd := fun (n : Nat) => (p.1.map fun o => (o, some n)).toList
  match k with
  | .rds => fwd 0
  | .rdx => match p.1 with
    | some _ => fwd 1 ++ p.2.map fun a => (a, none)
    | none => (p.2.filter fun a => some a != me).map fun a => (a, none)
  | .wb => []
  | .read => fwd 2
  | .write => fwd 3 ++ p.2.map fun a => (a, none)
  | .recall => (if p.1 == me then fwd 3 else []) ++ (p.2.filter fun a => some a == me).map fun a => (a, none)

/-- Sends the snoops of a request; each takes a TAG of its own (R244). -/
def State.sendSnoops (s : State) (l : Lode) (addr : Nat) :
    List (Nat × Option Nat) → State × List (Nat × Nat × Option Nat)
  | [] => (s, [])
  | (a, k) :: r =>
    match l.agents.find a with
    | none => s.sendSnoops l addr r
    | some ep =>
      let tag := s.lode.nextSnoop
      let s1 := { s with lode := { s.lode with nextSnoop := (tag + 1) % 65536 } }
      let m := match k with
        | some f => Msg.fwd ep tag l.deckle addr f
        | none => Msg.inv ep tag l.deckle addr
      let x := (s1.sendEp ep 3 61 l.deckle m).sendSnoops l addr r
      (x.1, (ep, tag, k) :: x.2)

/-- Changes the work item of a lode with this request. -/
def Lode.modWork (l : Lode) (w : LodeWork) (f : LodeWork → LodeWork) : Lode :=
  { l with work := l.work.map fun x => if x.ep = w.ep ∧ x.tag = w.tag ∧ x.line = w.line ∧ x.req = w.req then f x else x }

/-- Removes a work item. -/
def Lode.dropWork (l : Lode) (w : LodeWork) : Lode :=
  { l with work := l.work.filter fun x => !(x.ep == w.ep && x.tag == w.tag && x.line == w.line && x.req == w.req) }

/-- A request ends at the home with a new directory state for its line. -/
def State.leaveHome (s : State) (i : Nat) (w : LodeWork) (d : Option DirState) : State :=
  s.modLode i fun l => let l' := l.dropWork w; { l' with dir := l'.dir.set w.line d }

/-- A request that wrote memory waits for the standby, or ends (R87, R310). -/
def State.wroteHome (s : State) (i : Nat) (w : LodeWork) (d : Option DirState) (m : Option Nat) : State :=
  match m with
  | some n =>
    if s.mirrors && s.pair.acked < n then
      s.modLode i fun l => let l' := l.modWork w fun x => { x with ans := some n }; { l' with dir := l'.dir.set w.line d }
    else s.leaveHome i w d
  | none => s.leaveHome i w d

/-- Serves a request whose snoops are all answered (Table 5.15). A line that waits for the
partner's copy is served later. -/
def State.completeHome (s : State) (i : Nat) (l : Lode) (w : LodeWork) : State :=
  match s.lodeRef l w.line with
  | none => s.leaveHome i w none
  | some r =>
    let me := l.agentOf w.ep
    let d := l.dir.find w.line
    let p := dirParts d
    let o : Origin := { ep := w.ep, rtag := w.tag, cls := 8 }
    let grant := fun (s : State) (g : Nat) (st : Status) (x : Option Line) => s.grantLode w.ep w.tag l.deckle w.addr g st x
    let src : State × RdOut := match w.got with
      | some g => (s, .data g.1)
      | none => s.readLine r 8
    let dirty := (w.got.map (·.2)).getD false
    let join := (sortNat (me.toList ++ p.2)).eraseDups
    match s.homeKind w.req, w.req with
    | .rds, _ =>
      match src.2 with
      | .data x =>
        match p.1, d with
        | none, none => grant (src.1.leaveHome i w (me.map .ownedExcl)) 1 .ok (some x)
        | none, _ => grant (src.1.leaveHome i w (sharedBy join)) 0 .ok (some x)
        | some own, some (.ownedExcl _) =>
          let d' := if dirty then some (.ownedShared own join) else sharedBy (sortNat ((own :: join).eraseDups))
          grant (src.1.leaveHome i w d') 0 .ok (some x)
        | some own, _ => grant (src.1.leaveHome i w (some (.ownedShared own join))) 0 .ok (some x)
      | .wait => src.1
      | .fail st => grant (src.1.leaveHome i w d) 3 st none
      | .recon _ => grant (src.1.leaveHome i w d) 3 .uncorrectable none
    | .rdx, _ =>
      if p.1.isNone && w.held then grant (s.leaveHome i w (me.map .ownedExcl)) 1 .ok none
      else match src.2 with
        | .data x => grant (src.1.leaveHome i w (me.map .ownedExcl)) (if dirty then 2 else 1) .ok (some x)
        | .wait => src.1
        | .fail st => grant (src.1.leaveHome i w none) 3 st none
        | .recon _ => grant (src.1.leaveHome i w none) 3 .uncorrectable none
    | .wb, .wb data =>
      if p.1.isSome && p.1 == me then
        let y := s.writeWhole r data false o
        let s1 := y.1.wroteHome i w (sharedBy p.2) y.2
        if ((s1.lode.lodes.find i).map fun l => l.work.any fun x => x.req == w.req && x.tag == w.tag && x.ep == w.ep).getD false
        then s1 else grant s1 3 .ok none
      else grant (s.leaveHome i w d) 3 .ok none
    | .recall, _ =>
      let d' := if p.1 == me && me.isSome then sharedBy p.2
        else match p.1 with
          | some own => some (.ownedShared own (p.2.filter fun a => some a != me))
          | none => sharedBy (p.2.filter fun a => some a != me)
      if dirty then
        let y := s.writeWhole r ((w.got.map (·.1)).getD 0#512) false { fw := true }
        y.1.wroteHome i w d' y.2
      else s.leaveHome i w d'
    | .read, .job j n =>
      match s.mem.jobs.find j with
      | none => s.leaveHome i w d
      | some x =>
        match src.2 with
        | .data v => ((src.1.leaveHome i w d).setJob j (x.doneLine n fun k => { k with data := v })).finishJob j
        | .wait => src.1
        | .fail st => ((src.1.leaveHome i w d).setJob j (x.failLine n st)).finishJob j
        | .recon _ => ((src.1.leaveHome i w d).setJob j (x.failLine n .uncorrectable)).finishJob j
    | .write, .job j n =>
      match s.mem.jobs.find j, (s.mem.jobs.find j).bind fun x => x.lines[n]? with
      | some x, some k =>
        let o : Origin := { ep := w.ep, rtag := w.tag, cls := x.cls + 8, last := (x.lines.drop (n + 1)).all (·.done) }
        let full : Bool := decide (k.mask = ~~~0#64) && (match x.kind with | .wr _ => true | _ => false)
        let old : State × RdOut := if full then (s, .data 0#512) else src
        match old.2 with
        | .wait => old.1
        | .fail st => ((old.1.leaveHome i w none).setJob j (x.failLine n st)).finishJob j
        | .recon _ => ((old.1.leaveHome i w none).setJob j (x.failLine n .uncorrectable)).finishJob j
        | .data v =>
          match x.kind with
          | .atom aop b16 a b off =>
            let nl := atomLine v aop b16 a b off
            let y := (old.1.closeAsmOf r.tier r.line).writeWhole r nl.1 false o
            let x' : Job := { x.doneLine n (fun k => { k with mseq := y.2 }) with old := nl.2 }
            ((y.1.leaveHome i w none).setJob j x').finishJob j
          | _ =>
            let y := (old.1.closeAsmOf r.tier r.line).writeWhole r (if full then k.data else mergeLine v k.data k.mask) false o
            ((y.1.leaveHome i w none).setJob j (x.doneLine n fun k => { k with mseq := y.2 })).finishJob j
      | _, _ => s.leaveHome i w d
    | _, _ => s.leaveHome i w d

/-- The next request of a lode that can go on: the first of its line, not started, or started
with every snoop answered. -/
def nextWork : List LodeWork → List Nat → Option LodeWork
  | [], _ => none
  | w :: r, seen =>
    if seen.contains w.line then nextWork r seen
    else if w.ans.isNone && (!w.started || w.snoops.isEmpty) then some w
    else nextWork r (w.line :: seen)

/-- Starts a request: its snoops, or its service at once. -/
def State.startHome (s : State) (i : Nat) (l : Lode) (w : LodeWork) : State :=
  if w.started then s.completeHome i l w
  else
    let d := l.dir.find w.line
    let x := s.sendSnoops l w.addr (snoopsFor (s.homeKind w.req) (l.agentOf w.ep) d)
    let held := ((l.agentOf w.ep).map (dirParts d).2.contains).getD false
    let w' : LodeWork := { w with started := true, snoops := x.2, held := held, at_ := s.now }
    let s1 := x.1.modLode i fun l => l.modWork w fun _ => w'
    if x.2.isEmpty then
      match s1.lode.lodes.find i with
      | some l1 => s1.completeHome i l1 w'
      | none => s1
    else s1

/-- Answers requests that only waited for the standby (R87). -/
def State.ackHome (s : State) (i : Nat) : State :=
  match s.lode.lodes.find i with
  | none => s
  | some l =>
    let ready := l.work.filter fun w => match w.ans with
      | some n => !(s.mirrors && s.pair.acked < n)
      | none => false
    ready.foldl (fun a w =>
      let a1 := a.modLode i fun l => l.dropWork w
      match w.req with
      | .wb _ => a1.grantLode w.ep w.tag l.deckle w.addr 3 .ok none
      | _ => a1) s

/-- The home of a lode serves what it can, at most `n` requests. -/
def State.runHome (s : State) (i : Nat) : Nat → State
  | 0 => s
  | n + 1 =>
    match s.lode.lodes.find i with
    | none => s
    | some l =>
      if l.down.isSome then s
      else match nextWork l.work [] with
        | none => s
        | some w => (s.startHome i l w).runHome i n

/-- The home of a lode goes on. -/
def State.pumpLode (s : State) (i : Nat) : State :=
  let s1 := s.ackHome i
  s1.runHome i (2 * ((s1.lode.lodes.find i).map fun l => l.work.length).getD 0)

/-- Every home goes on. -/
def State.pumpLodes (s : State) : State := s.lode.lodes.keys.foldl (fun a i => a.pumpLode i) s

/-! ## RDS, RDX, WB, SNP_RSP -/

/-- A lode request refused before it is outstanding. -/
def State.refuseLode (s : State) (h : Hdr) (addr : Nat) (st : Status) : State :=
  s.sendEp h.ep 3 61 h.deckle (.lgrant h.ep h.tag h.deckle addr 3 st none)

/-- Serves a caching agent's request on VC3: admission, translation, membership (R85), then the
home. `acc` are the permissions it needs (log 30). -/
def State.lodeRequest (s : State) (h : Hdr) (x : LodeExt) (len : Nat) (acc : List Access) (req : LodeReq) : State :=
  let f : PktForm := { ok := x.rsvd == 0 && !x.data && !x.dirty && h.len == len, aligned := x.addr % 64 == 0 }
  let g := s.gate h 3 f
  match g.2 with
  | .drop => g.1.dropPkt h
  | .refuse st _ => (g.1.freeBuf h.port h.vc (Hdr.credits h)).refuseLode h x.addr st
  | .accept q _ _ =>
    let s1 := g.1.openReq h q false
    let ts := acc.map fun a => s1.translate h.deckle a [x.addr / 64]
    match ts.find? (fun t => t.refusal != .ok), ts.head? with
    | none, some (.ok [r]) =>
      match s1.lodeOf r with
      | none => s1.grantLode h.ep h.tag h.deckle x.addr 3 .unsupported none
      | some (i, l) =>
        if l.down.isSome then s1.grantLode h.ep h.tag h.deckle x.addr 3 .domainDown none
        else if !l.joined h.ep then s1.grantLode h.ep h.tag h.deckle x.addr 3 .noAccess none
        else if (l.agentOf h.ep).isNone then s1.grantLode h.ep h.tag h.deckle x.addr 3 .unsupported none
        else (s1.atHome r h.ep h.tag x.addr req).pumpLode i
    | some t, _ =>
      let s2 := match t with | .deny _ true => s1.mismatch h.deckle | _ => s1
      s2.grantLode h.ep h.tag h.deckle x.addr 3 t.refusal none
    | none, _ => s1.grantLode h.ep h.tag h.deckle x.addr 3 .noAccess none

/-- RDS (R86). -/
def execRds (h : Hdr) (x : LodeExt) (s : State) : Host.Outcome State Fault Refusal :=
  .next (s.lodeRequest h x 16 [.rd] .rds)

/-- RDX (R86). -/
def execRdx (h : Hdr) (x : LodeExt) (s : State) : Host.Outcome State Fault Refusal :=
  .next (s.lodeRequest h x 16 [.atom] .rdx)

/-- WB (R86). -/
def execWb (h : Hdr) (x : LodeExt) (data : Line) (s : State) : Host.Outcome State Fault Refusal :=
  .next (s.lodeRequest h x 80 [.wr] (.wb data))

/-- SNP_RSP (R86, R244): an agent's answer to INV or FWD. The data of an owner's answer is the
line's value. One that matches no snoop is discarded and counted. -/
def execSnpRsp (h : Hdr) (x : LodeExt) (data : Line) (s : State) : Host.Outcome State Fault Refusal :=
  .next <|
    let s0 := s.freeBuf h.port h.vc (Hdr.credits h)
    if !s.carries h.port || h.vc ≠ 3 || !s.bound h.port h.ep then s0.discardPkt h.port
    else match s0.lode.lodes.findSome? fun l =>
        (l.2.work.find? fun w => w.snoops.any fun t => t.1 == h.ep && t.2.1 == h.tag).map fun w => (l.1, l.2, w) with
      | none => s0.modPort h.port fun p => { p with unmatched := p.unmatched + 1 }
      | some (i, _, w) =>
        let isFwd := w.snoops.any fun t => t.1 == h.ep && t.2.1 == h.tag && t.2.2.isSome
        let s1 := s0.modLode i fun l => l.modWork w fun y =>
          { y with snoops := y.snoops.filter fun t => !(t.1 == h.ep && t.2.1 == h.tag)
                   got := if isFwd && x.data then some (data, x.dirty) else y.got }
        s1.pumpLode i

/-- LODE_SNOOP_TIMEOUT (R88): a snoop to the agent is not answered within SNOOP_TIMEOUT. -/
def execLodeSnoopTimeout (lode ep : Nat) (s : State) : Host.Outcome State Fault Refusal :=
  .next <| match s.lode.lodes.find lode with
  | some l =>
    match l.work.find? fun w => w.snoops.any fun t => t.1 == ep with
    | some w => (s.reach (w.at_ + l.snoopUs * 1000)).lodeDown lode (if w.req = .recall then 4 else 0) ep
    | none => s
  | none => s

/-! ## Creation and membership (R83, R84) -/

/-- Ranges of two lodes of one extent meet. -/
def Lode.meets (l : Lode) (x off n : Nat) : Bool := l.extent == x && l.offset < off + n && off < l.offset + l.size

/-- A lode of the deckle. -/
def State.lodeIn (s : State) (d i : Nat) : Option Lode :=
  (s.lode.lodes.find i).bind fun l => if l.deckle = d then some l else none

/-- LODE_CREATE with OP CREATE: code, length and what R27 checks of it first. -/
def lodeCreateCmd (p : LodeP) : Cmd :=
  { code := 0x0307, len := 24, rsvd := p.rsvd, own := some p.deckle, names := [p.deckle] }

/-- LODE_CREATE with OP CREATE: its checks in order (R83). -/
def lodeCreateChecks (p : LodeP) : State → List Check :=
  fun s =>
      let e := s.part.extents.find p.extent
      [(p.lode == 0 && 1 ≤ p.size64k && p.size64k ≤ 4096 &&
          (p.snoopUs == 0 || (10 ≤ p.snoopUs && p.snoopUs ≤ 1000)) &&
          (e.map fun e => e.deckle == p.deckle && e.tier == .t1 && e.draft.isNone && e.published.isNone &&
            p.offset64k + p.size64k ≤ e.granules * 32).getD false &&
          !(s.lode.lodes.any fun l => l.2.meets p.extent p.offset64k p.size64k), .invalid, 0),
       ((e.map fun e => e.state != .revoking).getD false, .revoked, 0),
       ((p.deckle == 0 || ((s.part.deckles.find p.deckle).map fun k =>
            decide (s.lode64k p.deckle + p.size64k ≤ k.qLodeMib * 16)).getD false) &&
          (s.lode.lodes.map (·.2.size)).foldl (· + ·) 0 + p.size64k ≤ 8192 && s.lode.lodes.length < 1024, .busy, 10)]

/-- LODE_CREATE with OP CREATE: its effect (R83). -/
def lodeCreateAct (p : LodeP) : State → Nat → State × Option Ans :=
  fun s _ =>
      let i := s.lode.lastLode + 1
      let l : Lode := { deckle := p.deckle, extent := p.extent, offset := p.offset64k, size := p.size64k,
                        snoopUs := if p.snoopUs = 0 then 50 else p.snoopUs, pva := 0, down := none, agents := [],
                        uncached := [], dir := [], work := [], leaving := [], salvage := none }
      ({ s with lode := { s.lode with lodes := s.lode.lodes.put i l, lastLode := i } }, some (okFields 8 [(32, i), (32, 0)]))

/-- LODE_CREATE with OP CREATE (R83). -/
def execLodeCreate (q : Req) (p : LodeP) (s : State) : Host.Outcome State Fault Refusal :=
  .next (s.serve (.lodeCreate q p) (lodeCreateCmd p) q (lodeCreateChecks p) (lodeCreateAct p))

/-- Removes a lode. -/
def State.dropLode (s : State) (i : Nat) : State := { s with lode := { s.lode with lodes := s.lode.lodes.del i } }

/-- LODE_CREATE with OP DELETE: code, length and what R27 checks of it first. -/
def lodeDeleteCmd (p : LodeP) : Cmd :=
  { code := 0x0307, len := 24, rsvd := p.rsvd, own := some p.deckle, names := [p.deckle] }

/-- LODE_CREATE with OP DELETE: its checks in order (R83). -/
def lodeDeleteChecks (p : LodeP) : State → List Check :=
  fun s =>
      let l := s.lodeIn p.deckle p.lode
      [(l.isSome && p.extent == 0 && p.offset64k == 0 && p.size64k == 0 && p.snoopUs == 0, .invalid, 0),
       ((l.map fun l => l.agents.isEmpty && l.uncached.isEmpty && l.salvage.isNone).getD false, .busy, 0)]

/-- LODE_CREATE with OP DELETE: its effect (R83). -/
def lodeDeleteAct (p : LodeP) : State → Nat → State × Option Ans :=
  fun s _ => (s.dropLode p.lode, some okAns)

/-- LODE_CREATE with OP DELETE (R83). -/
def execLodeDelete (q : Req) (p : LodeP) (s : State) : Host.Outcome State Fault Refusal :=
  .next (s.serve (.lodeDelete q p) (lodeDeleteCmd p) q (lodeDeleteChecks p) (lodeDeleteAct p))

/-- LODE_JOIN: code, length and what R27 checks of it first. -/
def lodeJoinCmd (p : LodeMemP) : Cmd :=
  { code := 0x0308, len := 16, rsvd := p.rsvd, own := some p.deckle, names := [p.deckle] }

/-- LODE_JOIN: its checks in order (R84). -/
def lodeJoinChecks (p : LodeMemP) : State → List Check :=
  fun s =>
      match s.lodeIn p.deckle p.lode with
      | none => [(false, .invalid, 0)]
      | some l =>
        [(s.member p.deckle p.endpoint, .invalid, 0), (l.down.isNone, .domainDown, 0),
         (!l.joined p.endpoint, .invalid, 0),
         (if p.caching then l.agents.length < 64 else l.uncached.length < 192, .busy, 0)]

/-- LODE_JOIN: its effect (R84). -/
def lodeJoinAct (p : LodeMemP) : State → Nat → State × Option Ans :=
  fun s _ =>
      match s.lodeIn p.deckle p.lode with
      | none => (s, some { status := .invalid })
      | some l =>
        if p.caching then
          let a := (l.agents.firstFree 0 64).getD 0
          (s.modLode p.lode fun l => { l with agents := l.agents.put a p.endpoint }, some (okFields 8 [(8, a), (56, 0)]))
        else
          (s.modLode p.lode fun l => { l with uncached := l.uncached ++ [p.endpoint] },
            some (okFields 8 [(8, 0xFF), (56, 0)]))

/-- LODE_JOIN (R84). -/
def execLodeJoin (q : Req) (p : LodeMemP) (s : State) : Host.Outcome State Fault Refusal :=
  .next (s.serve (.lodeJoin q p) (lodeJoinCmd p) q (lodeJoinChecks p) (lodeJoinAct p))

/-- Lines an agent holds by the directory. -/
def Lode.linesOf (l : Lode) (a : Nat) : List Nat :=
  (l.dir.filter fun d => let p := dirParts (some d.2); p.1 == some a || p.2.contains a).map Prod.fst

/-- Queues the recall of every line an agent holds (R84). -/
def State.recallAll (s : State) (i ep : Nat) : State :=
  match s.lode.lodes.find i with
  | none => s
  | some l =>
    match l.agentOf ep with
    | none => s
    | some a =>
      let ws := (l.linesOf a).map fun n =>
        ({ ep := ep, tag := 0, line := n, req := .recall, addr := l.pva + 64 * n, snoops := [], started := false,
           held := false, ans := none, got := none, at_ := s.now } : LodeWork)
      (s.modLode i fun l => { l with work := l.work ++ ws }).pumpLode i

/-- LODE_LEAVE: code, length and what R27 checks of it first. -/
def lodeLeaveCmd (p : LodeMemP) : Cmd :=
  { code := 0x0309, len := 16, rsvd := p.rsvd, own := some p.deckle, names := [p.deckle] }

/-- LODE_LEAVE: its checks in order (R84). -/
def lodeLeaveChecks (p : LodeMemP) : State → List Check :=
  fun s =>
      match s.lodeIn p.deckle p.lode with
      | none => [(false, .invalid, 0)]
      | some l =>
        [(!p.caching, .invalid, 0), (l.down.isNone, .domainDown, 0),
         (l.joined p.endpoint && !(l.leaving.any fun x => x.1 == p.endpoint), .invalid, 0)]

/-- LODE_LEAVE: its effect (R84). -/
def lodeLeaveAct (p : LodeMemP) : State → Nat → State × Option Ans :=
  fun s r =>
      match s.lodeIn p.deckle p.lode with
      | none => (s, some { status := .invalid })
      | some l =>
        if l.uncached.contains p.endpoint then
          (s.modLode p.lode fun l => { l with uncached := l.uncached.filter (· != p.endpoint) }, some okAns)
        else
          ((s.modLode p.lode fun l => { l with leaving := l.leaving ++ [(p.endpoint, r)] }).recallAll p.lode p.endpoint, none)

/-- LODE_LEAVE (R84): an uncached member leaves at once; a caching agent's lines are recalled. -/
def execLodeLeave (q : Req) (p : LodeMemP) (s : State) : Host.Outcome State Fault Refusal :=
  .next (s.serve (.lodeLeave q p) (lodeLeaveCmd p) q (lodeLeaveChecks p) (lodeLeaveAct p))

/-- LODE_RECALL_DONE (R84): the leaving agent holds no line; its LODE_LEAVE is answered. Lines it
took since are recalled again. -/
def execLodeRecallDone (lode ep : Nat) (s : State) : Host.Outcome State Fault Refusal :=
  .next <| match s.lode.lodes.find lode with
  | some l =>
    match l.leaving.find? fun x => x.1 == ep with
    | none => s
    | some (_, r) =>
      if l.work.any fun w => w.ep == ep && w.req == .recall then s
      else match l.agentOf ep with
        | none => s
        | some a =>
          if !(l.linesOf a).isEmpty then s.recallAll lode ep
          else
            let s1 := s.modLode lode fun l =>
              { l with agents := l.agents.del a, leaving := l.leaving.filter fun x => x.1 != ep }
            State.settle s s1 (some r) okAns
  | none => s

/-! ## Salvage (R90) -/

/-- Lines of a lode. -/
def Lode.lines (l : Lode) : Nat := l.size * 1024

/-- LODE_SALVAGE's inline result. -/
def salvageResult (l : Lode) : Ans :=
  okFields 16 [(32, l.lines), (32, ((l.down.map (·.2)).getD []).length), (64, (l.down.map (·.1)).getD 0)]

/-- 64 KiB units a salvage copy needs: the memory copy, then the bitmap (R90). -/
def Lode.copyUnits (l : Lode) : Nat := l.size + cdiv (l.lines / 8) 65536

/-- The checks on the lode a salvage names: one of the deckle, DOWN, its extent not being revoked. -/
def State.salvageChecks (s : State) (p : SalvageP) : List Check :=
  let l := s.lodeIn p.deckle p.lode
  [((l.map fun l => l.down.isSome && l.salvage.isNone).getD false, .invalid, 0),
   ((l.bind fun l => (s.part.extents.find l.extent).map fun e => e.state != .revoking).getD false, .revoked, 0)]

/-- LODE_SALVAGE with a copy: code, length and what R27 checks of it first. -/
def salvageCopyCmd (p : SalvageP) : Cmd :=
  { code := 0x030A, len := 24, rsvd := p.rsvd, own := some p.deckle, names := [p.deckle] }

/-- LODE_SALVAGE with a copy: its checks in order (R90). -/
def salvageCopyChecks (p : SalvageP) : State → List Check :=
  fun s =>
    let l := s.lodeIn p.deckle p.lode
    s.salvageChecks p ++
    [(((s.part.extents.find p.destExtent).map fun e => e.deckle == p.deckle && e.published.isNone &&
        (l.map fun l => decide (p.destOffset + l.copyUnits ≤ e.granules * 32)).getD false).getD false, .invalid, 0),
     (((s.part.extents.find p.destExtent).map fun e => e.state != .revoking).getD false, .revoked, 0)]

/-- LODE_SALVAGE with a copy: the copy starts on a hub couch channel (R90). -/
def salvageCopyAct (p : SalvageP) (rearm : Bool) : State → Nat → State × Option Ans :=
  fun s r => (s.modLode p.lode fun l => { l with salvage := some (r, rearm, p.destExtent, p.destOffset) }, none)

/-- LODE_SALVAGE with a copy. -/
def State.salvageCopy (s : State) (self : Instr) (q : Req) (p : SalvageP) (rearm : Bool) : State :=
  s.serve self (salvageCopyCmd p) q (salvageCopyChecks p) (salvageCopyAct p rearm)

/-- LODE_SALVAGE with OP COPY (R90). -/
def execLodeSalvageCopy (q : Req) (p : SalvageP) (s : State) : Host.Outcome State Fault Refusal :=
  .next (s.salvageCopy (.lodeSalvageCopy q p) q p false)

/-- LODE_SALVAGE with OP COPY_REARM (R90). -/
def execLodeSalvageCopyRearm (q : Req) (p : SalvageP) (s : State) : Host.Outcome State Fault Refusal :=
  .next (s.salvageCopy (.lodeSalvageCopyRearm q p) q p true)

/-- A down lode comes UP with no members and every line UNCACHED (R90). -/
def Lode.rearmed (l : Lode) : Lode :=
  { l with down := none, agents := [], uncached := [], dir := [], work := [], leaving := [], salvage := none }

/-- LODE_SALVAGE with OP REARM: code, length and what R27 checks of it first. -/
def lodeSalvageRearmCmd (p : SalvageP) : Cmd :=
  { code := 0x030A, len := 24, rsvd := p.rsvd, own := some p.deckle, names := [p.deckle] }

/-- LODE_SALVAGE with OP REARM: its checks in order (R90). -/
def lodeSalvageRearmChecks (p : SalvageP) : State → List Check :=
  fun s => (p.destExtent == 0 && p.destOffset == 0, .invalid, 0) :: s.salvageChecks p

/-- LODE_SALVAGE with OP REARM: its effect (R90). -/
def lodeSalvageRearmAct (p : SalvageP) : State → Nat → State × Option Ans :=
  fun s _ => (s.modLode p.lode Lode.rearmed, (s.lodeIn p.deckle p.lode).map salvageResult)

/-- LODE_SALVAGE with OP REARM (R90). -/
def execLodeSalvageRearm (q : Req) (p : SalvageP) (s : State) : Host.Outcome State Fault Refusal :=
  .next (s.serve (.lodeSalvageRearm q p) (lodeSalvageRearmCmd p) q (lodeSalvageRearmChecks p) (lodeSalvageRearmAct p))

/-- LODE_SALVAGE with OP DELETE: code, length and what R27 checks of it first. -/
def lodeSalvageDeleteCmd (p : SalvageP) : Cmd :=
  { code := 0x030A, len := 24, rsvd := p.rsvd, own := some p.deckle, names := [p.deckle] }

/-- LODE_SALVAGE with OP DELETE: its checks in order (R90). -/
def lodeSalvageDeleteChecks (p : SalvageP) : State → List Check :=
  fun s => (p.destExtent == 0 && p.destOffset == 0, .invalid, 0) :: s.salvageChecks p

/-- LODE_SALVAGE with OP DELETE: its effect (R90). -/
def lodeSalvageDeleteAct (p : SalvageP) : State → Nat → State × Option Ans :=
  fun s _ => (s.dropLode p.lode, (s.lodeIn p.deckle p.lode).map salvageResult)

/-- LODE_SALVAGE with OP DELETE (R90). -/
def execLodeSalvageDelete (q : Req) (p : SalvageP) (s : State) : Host.Outcome State Fault Refusal :=
  .next (s.serve (.lodeSalvageDelete q p) (lodeSalvageDeleteCmd p) q (lodeSalvageDeleteChecks p) (lodeSalvageDeleteAct p))

/-- The may-be-stale bitmap: line 0 at bit 0 of byte 0 (R90). -/
def staleBitmap (stale : List Nat) (lines : Nat) : List Line :=
  (List.range (cdiv lines 512)).map fun i =>
    BitVec.ofNat 512 ((stale.filter fun n => n / 512 == i).foldl (fun a n => a + 2 ^ (n % 512)) 0)

/-- Copies a lode's memory line by line: a poisoned line as poisoned, a line that cannot be read
not at all (R90). -/
def State.copyLode (s : State) (l : Lode) (e : Extent) (x off : Nat) : State :=
  match s.part.extents.find l.extent with
  | none => s
  | some src =>
    (List.range l.lines).foldl (fun a n =>
      (a.copyLine (src.lineAt l.extent (l.offset * 1024 + n)) (e.lineAt x (off * 1024 + n))).1) s

/-- SALVAGE_COPY_DONE (R90): the copy and the bitmap are written, and LODE_SALVAGE is answered. -/
def execSalvageCopyDone (lode : Nat) (s : State) : Host.Outcome State Fault Refusal :=
  .next <| match s.lode.lodes.find lode with
  | some l =>
    match l.salvage with
    | none => s
    | some (r, rearm, x, off) =>
      match s.part.extents.find x with
      | none => (s.modLode lode fun l => { l with salvage := none }).answer r { status := .revoked }
      | some e =>
        if e.state = .revoking ∨ ((s.part.extents.find l.extent).map fun k => k.state == .revoking).getD true then
          (s.modLode lode fun l => { l with salvage := none }).answer r { status := .revoked }
        else
          let s1 := s.copyLode l e x off
          let bm := staleBitmap ((l.down.map (·.2)).getD []) l.lines
          let s2 := ((bm.zip (List.range bm.length)).foldl (fun a b =>
            (a.writeWhole (e.lineAt x ((off + l.size) * 1024 + b.2)) b.1 false { fw := true }).1) s1)
          let s3 := s2.modLode lode fun l => if rearm then l.rearmed else { l with salvage := none }
          State.settle s s3 (some r) (salvageResult l)
  | none => s

end Sys2Proof.Machine
end

