-- ==== Sys2Proof/Machine/Transact.lean ====
section
/-! DEFINITION. Link transactions (chapter 14): reads, writes, atomics, fences and endpoint
identifiers, and the load window of the boot ROM (R20). -/

namespace Sys2Proof.Machine

/-! ## The load window (R20) -/

/-- First PVA of the load window. -/
def windowBase : Nat := 0x00FFFE0000000000

/-- The request names the load window. -/
def inWindow (deckle addr : Nat) : Bool := deckle == 0 && windowBase ≤ addr && addr < windowBase + 0x2000000

/-- The bytes of the window at a line, as its last write left them; zero before. -/
def State.windowLine (s : State) (i : Nat) : Line := ((s.cell .staging i).map (·.data)).getD 0#512

/-- Stores a line of the window with its byte enables. -/
def State.putWindow (s : State) (i : Nat) (data : Line) (mask : BitVec 64) : State :=
  if mask = 0#64 then s
  else s.putCell .staging i { data := mergeLine (s.windowLine i) data mask, deckle := 0, epoch := 0, key := 0, gen := 1,
                              poisoned := false, err := 0#640 }

/-- A window write under the boot ROM that passed the port (R20): the first accepted one makes its
sender the loader. -/
def State.windowWrite (s : State) (h : Hdr) (m : MemExt) (data : List Line) (off : Nat) : State :=
  if !s.hub.stagingReady then s.answerReq h.ep h.tag h.deckle .notReady
  else if s.hub.verifying.isSome then s.answerReq h.ep h.tag h.deckle .busy
  else if s.hub.loader.isSome ∧ s.hub.loader ≠ some h.ep then s.answerReq h.ep h.tag h.deckle .busy
  else
    let s1 := { s with hub := { s.hub with loader := some h.ep } }
    let s2 := (data.zip (List.range data.length)).foldl (fun a x => a.putWindow (off / 64 + x.2) x.1 (wrMask m x.2)) s1
    s2.answerReq h.ep h.tag h.deckle .ok

/-! ## RD, WR, ATOM (R239–R241) -/

/-- What the boot ROM does with an RD, ATOM or RDF (R20, R247). -/
def bootRead (h : Hdr) (addr : Nat) : Option Status := some (if inWindow h.deckle addr then .noAccess else .notReady)

/-- A read by version offset (R241, R80): extents and lines, when the range lies within the version. -/
def State.versionLines (s : State) (hd : Handle) (off lines : Nat) : Option (List LineRef) :=
  match s.rgn.regions.find hd.region with
  | none => none
  | some r =>
    let seg := r.segGranules * 32768
    if off / 64 + lines ≤ r.segments * seg then
      let xs := s.versionSegs hd.region hd.version
      some ((List.range lines).filterMap fun i =>
        let n := off / 64 + i
        let x := xs.getD (n / seg) 0
        (s.part.extents.find x).map fun e => e.lineAt x (n % seg))
    else none

/-- The state of the extents a version read touches (R81, R318). -/
def State.versionStatus (s : State) (refs : List LineRef) : Status :=
  (refs.findSome? fun r => match s.part.extents.find r.extent with
    | none => some .staleVersion
    | some e =>
      if e.state == .revoking then some (if s.isDissolving e.deckle then .revoked else .staleVersion)
      else if e.lost then some .lost else none).getD .ok

/-- Serves an RD with VER = 1 that passed the port. -/
def State.serveVersion (s : State) (h : Hdr) (m : MemExt) (y : Bool) : State :=
  match (s.rgn.handles.find m.handle).filter fun x => x.deckle == h.deckle with
  | none => s.answerReq h.ep h.tag h.deckle .staleVersion
  | some hd =>
    match s.versionLines hd m.addr m.lines with
    | none => s.answerReq h.ep h.tag h.deckle .invalid
    | some refs =>
      let st := if refs.length = m.lines then s.versionStatus refs else .staleVersion
      if st ≠ .ok then s.answerReq h.ep h.tag h.deckle st
      else (s.newJob h y .rdVersion m.addr (refs.map fun r => (r, 0#512, ~~~0#64))).1

/-- Serves an RD that passed the port: translation, lodes, then its lines. -/
def State.serveRd (s : State) (h : Hdr) (m : MemExt) (y : Bool) : State :=
  if m.ver then s.serveVersion h m y
  else match s.translate h.deckle .rd (lineRun m.addr m.lines) with
    | .ok refs =>
      match s.lodeCheck h.ep refs with
      | some st => s.answerReq h.ep h.tag h.deckle st
      | none =>
        let s1 := s.fillTlb (homeCore h.ep) h.deckle (lineRun m.addr m.lines) refs
        let s2 := (s1.newJob h y .rd m.addr (refs.map fun r => (r, 0#512, ~~~0#64))).1
        (s.lodesOf refs).foldl (fun a i => a.pumpLode i) s2
    | t => s.failTrans h t

/-- RD (R239). -/
def execRd (h : Hdr) (m : MemExt) (s : State) : Host.Outcome State Fault Refusal :=
  .next (s.ingress h (rdForm h m) (fun s y => s.serveRd h m y) (bootRead h m.addr))

/-- RD with VER = 1 (R241). -/
def execRdVersion (h : Hdr) (m : MemExt) (s : State) : Host.Outcome State Fault Refusal :=
  .next (s.ingress h (rdForm h { m with ver := true }) (fun s y => s.serveVersion h m y) (some .notReady))

/-- Serves a WR that passed the port. -/
def State.serveWr (s : State) (h : Hdr) (m : MemExt) (data : List Line) (y : Bool) : State :=
  match s.translate h.deckle .wr (lineRun m.addr m.lines) with
  | .window off => s.windowWrite h m data off
  | .ok refs =>
    match s.lodeCheck h.ep refs with
    | some st => s.answerReq h.ep h.tag h.deckle st
    | none =>
      let s1 := s.fillTlb (homeCore h.ep) h.deckle (lineRun m.addr m.lines) refs
      let ls := (refs.zip (data.zip (List.range data.length))).map fun x => (x.1, x.2.1, wrMask m x.2.2)
      let s2 := (s1.newJob h y (.wr m.masked) m.addr ls).1
      (s.lodesOf refs).foldl (fun a i => a.pumpLode i) s2
  | t => s.failTrans h t

/-- What the boot ROM does with a WR: one to the load window passes (R20). -/
def bootWrite (h : Hdr) (addr : Nat) : Option Status := if inWindow h.deckle addr then none else some .notReady

/-- WR (R239). -/
def execWr (h : Hdr) (m : MemExt) (data : List Line) (s : State) : Host.Outcome State Fault Refusal :=
  .next (s.ingress h (wrForm h m data) (fun s y => s.serveWr h m data y) (bootWrite h m.addr))

/-- LOAD_WINDOW_WRITE (R20): the same packet under the boot ROM. -/
def execLoadWindowWrite (h : Hdr) (m : MemExt) (data : List Line) (s : State) : Host.Outcome State Fault Refusal :=
  .next (s.ingress h (wrForm h m data) (fun s y => s.serveWr h m data y) (bootWrite h m.addr))

/-- Serves an ATOM that passed the port. -/
def State.serveAtom (s : State) (h : Hdr) (m : MemExt) (a b : BitVec 128) (y : Bool) : State :=
  match s.translate h.deckle .atom [m.addr / 64] with
  | .ok refs =>
    match s.lodeCheck h.ep refs with
    | some st => s.answerReq h.ep h.tag h.deckle st
    | none =>
      let s1 := s.fillTlb (homeCore h.ep) h.deckle [m.addr / 64] refs
      let s2 := (s1.newJob h y (.atom m.aop m.asize16 a b (m.addr % 64)) m.addr
        (refs.map fun r => (r, 0#512, ~~~0#64))).1
      (s.lodesOf refs).foldl (fun a i => a.pumpLode i) s2
  | t => s.failTrans h t

/-- ATOM (R240). -/
def execAtom (h : Hdr) (m : MemExt) (a b : BitVec 128) (s : State) : Host.Outcome State Fault Refusal :=
  .next (s.ingress h (atomForm h m) (fun s y => s.serveAtom h m a b y) (bootRead h m.addr))

/-! ## FENCE (R251) -/

/-- Answers the FENCEs of an endpoint that wait for nothing more. -/
def State.endFence (s : State) (ep tag : Nat) : State :=
  match s.part.fences.find? fun f => f.ep == ep && f.tag == tag with
  | some f =>
    if f.waits.isEmpty then
      let s1 := { s with part := { s.part with fences := s.part.fences.filter fun g => !(g.ep == ep && g.tag == tag) } }
      s1.answerReq ep tag f.deckle .ok
    else s
  | none => s

/-- FENCE: waits for the requests of its endpoint outstanding now, other FENCEs apart. -/
def execFence (h : Hdr) (s : State) : Host.Outcome State Fault Refusal :=
  let f : PktForm := { ok := h.len == 0, bytes := some 0 }
  .next <| s.ingress h f (fun s _ =>
    let fences := (s.part.fences.filter fun g => g.ep == h.ep).map (·.tag)
    let waits := (((s.part.eps.find h.ep).map fun e => e.outst.map (·.tag)).getD []).filter fun t =>
      t != h.tag && !fences.contains t
    { s with part := { s.part with fences := s.part.fences ++ [⟨h.ep, h.tag, h.deckle, waits⟩] } })

/-- FENCE_DONE: every earlier request of the endpoint is answered. -/
def execFenceDone (ep tag : Nat) (s : State) : Host.Outcome State Fault Refusal :=
  .next (s.endFence ep tag)

/-! ## Endpoint identifiers (R236, R237, R242) -/

/-- Endpoints assigned on a home core. -/
def State.onCore (s : State) (c : Nat) : Nat := s.part.eps.count fun e _ => homeCore e == c

/-- The identifier a new endpoint gets: the lowest free one of a home core with the fewest. -/
def State.pickEp (s : State) : Option Nat :=
  (List.range 4096).foldl (fun a e =>
    if s.part.eps.has e then a
    else match a with
      | none => some e
      | some b => if s.onCore (homeCore e) < s.onCore (homeCore b) then some e else some b) none

/-- The partner's device endpoint has been answered: EV_READY of the port follows (R242, R354). -/
def State.peerAnswered (s : State) (p identity : Nat) (ep : Option Nat) : State :=
  let x := s.port p
  if x.peerWait.isSome ∧ x.partner.map (·.linkId) = some identity then
    (s.setPort p { x with peerWait := none, peerEp := ep }).announce 1 p (peer := ep)
  else s

/-- Answers an EP_CLAIM on its port. -/
def State.answerClaim (s : State) (p identity ep : Nat) (st : Status) : State :=
  let s1 := s.enqueue p 5 61 0 (.epAssign ep st)
  s1.peerAnswered p identity (if st = .ok then some ep else none)

/-- EP_CLAIM (R236, R237): served by port-die hardware in every phase. -/
def State.serveClaim (s : State) (p identity : Nat) : State :=
  match s.part.eps.find? fun e => e.2.identity == identity with
  | some (ep, e) =>
    if e.port = p then s.answerClaim p identity ep .ok
    else if (s.portActive e.port && !s.isStandby) || 64 ≤ s.epsOn p then s.answerClaim p identity 0 .busy
    else
      let s1 := { s with part := { s.part with eps := s.part.eps.put ep { e with port := p } } }
      ((State.commitFw s s1).answerClaim p identity ep .ok).deliverHeld ep
  | none =>
    if s.isStandby then s.answerClaim p identity 0 .notReady
    else if 64 ≤ s.epsOn p ∨ 4096 ≤ s.part.eps.length then s.answerClaim p identity 0 .busy
    else match s.pickEp with
      | none => s.answerClaim p identity 0 .busy
      | some ep =>
        let s1 := { s with part := { s.part with eps := s.part.eps.put ep { identity := identity, port := p, outst := [] } } }
        (State.commitFw s s1).answerClaim p identity ep .ok

/-- EP_CLAIM. -/
def execEpClaim (port vc identity rsvd : Nat) (s : State) : Host.Outcome State Fault Refusal :=
  .next <|
    let s0 := s.freeBuf port vc 1
    if !s.carries port || vc ≠ 5 then s0.discardPkt port
    else if rsvd ≠ 0 then s0.answerClaim port identity 0 .invalid
    else s0.serveClaim port identity

/-- EP_RELEASE (R237). -/
def execEpRelease (h : Hdr) (s : State) : Host.Outcome State Fault Refusal :=
  .next <|
    let s0 := s.freeBuf h.port h.vc (Hdr.credits h)
    if !s.carries h.port || h.vc ≠ 5 || !s.bound h.port h.ep then s0.discardPkt h.port
    else if h.rsvd ≠ 0 || h.len ≠ 0 then s0.enqueue h.port 5 61 0 (.epAssign h.ep .invalid)
    else if s.holdsLease h.ep then s0.enqueue h.port 5 61 0 (.epAssign h.ep .busy)
    else (State.commitFw s0 (s0.freeEp h.ep)).enqueue h.port 5 61 0 (.epAssign h.ep .ok)

/-- EP_ASSIGN from a remote device: the answer to the device's own claim (R242). -/
def execEpAssign (port ep : Nat) (status : Status) (s : State) : Host.Outcome State Fault Refusal :=
  .next <|
    let s0 := s.freeBuf port 5 1
    if !s.carries port then s0.discardPkt port
    else if !(s.port port).claiming then s0.modPort port fun x => { x with unmatched := x.unmatched + 1 }
    else s0.modPort port fun x => { x with claiming := false, ownEp := if status = .ok then some ep else none }

end Sys2Proof.Machine
end

