-- ==== Sys2Proof/Machine/Tables.lean ====
section
/-! DEFINITION. The device copy of translation tables (chapter 6): TABLE_SYNC with its checks, the
switch of the translation units, and TABLE_READBACK. Faults are in `Faults.lean`. -/

namespace Sys2Proof.Machine

/-- A copy of a deckle's tables: tables by number, and the root. -/
abbrev Copy := NMap XTable × Nat

/-- Bytes of a table (Table 6.1). -/
def tableBytes (level : Nat) : Nat := 8 * levelEntries level

/-- Size of a leaf at a level. -/
def leafBytes (level : Nat) : Nat := 2 ^ ((levels[level]?).map (·.2.1)).getD 16

/-- The entry of a table at an index. -/
def XTable.entry (t : XTable) (i : Nat) : Nat := (t.entries.find i).getD 0

/-- A table from its image bytes: absent entries are zero. -/
def tableOf (level image : Nat) : XTable where
  level := level
  entries := (List.range (levelEntries level)).filterMap fun i =>
    let e := bytesFrom image (8 * i) 8
    if e = 0 then none else some (i, e)

/-! ## Checks (R99, R100) -/

/-- DETAIL of a failed check (R100). -/
def syncDetail (page reason table entry : Nat) : Nat := pack [(16, page), (8, reason), (24, table), (16, entry)]

/-- Order 1: header and page entries. -/
def SyncP.badForm (p : SyncP) (old : NMap XTable) : Option Nat :=
  if p.rsvd ≠ 0 ∨ (!p.setRoot ∧ p.root ≠ 0) then some (syncDetail 0xFFFF 1 0 0)
  else
    ((p.entries.zip (List.range p.entries.length)).findSome? fun x =>
      let e := x.1
      if e.rsvd ≠ 0 ∨ e.table = 0 ∨ 4 < e.level ∨ (e.remove ∧ e.imagePva ≠ 0) ∨ e.imagePva % 64 ≠ 0 then
        some (syncDetail x.2 1 e.table 0)
      else if (e.remove ∧ !old.has e.table) ∨ (p.entries.take x.2).any fun f => f.table == e.table then
        some (syncDetail x.2 9 e.table 0)
      else none)

/-- Order 2: reads every image in order: the new copy's tables, or the failing status and DETAIL. -/
def State.readImages (s : State) (caller : Nat) : List PageEntry → Nat → NMap XTable → State × Except (Status × Nat) (NMap XTable)
  | [], _, t => (s, .ok t)
  | e :: r, i, t =>
    if e.remove then s.readImages caller r (i + 1) (t.del e.table)
    else
      match s.readBytes caller e.imagePva (tableBytes e.level) with
      | (s1, .ok, b) => s1.readImages caller r (i + 1) (t.put e.table (tableOf e.level b))
      | (s1, st, _) => (s1, .error (st, syncDetail i 0 e.table 0))

/-- A leaf entry is formed as a run of R96 rules, when CONTIG says it lies in one. -/
def contigOk (t : XTable) (i : Nat) : Bool :=
  let e := t.entry i
  let c := bitsOf e 14 12
  if c = 0 then true
  else if 4 < c then false
  else
    let n := 2 ^ c
    let b := i / n * n
    let units := leafBytes t.level / 65536
    let f0 := bitsOf (t.entry b) 47 16
    b + n ≤ levelEntries t.level && f0 % (n * units) == 0 &&
    (List.range n).all fun k =>
      let x := t.entry (b + k)
      x % 2 ^ 15 == e % 2 ^ 15 && bitsOf x 47 16 == f0 + k * units

/-- PVA of a table's first byte in a copy, by a chain of entries from the root level. -/
def baseOf (t : NMap XTable) : Nat → Nat → Option Nat
  | 0, _ => some 0
  | l + 1, n => t.findSome? fun p =>
      if p.2.level = l then
        (p.2.entries.find? fun e => bitOf e.2 0 && !bitOf e.2 1 && bitsOf e.2 39 16 == n).bind fun e =>
          (baseOf t l p.1).map fun b => b + e.1 * leafBytes l
      else none

/-- Reasons 1 to 4 and 8 on one entry of a new image. -/
def State.entryReason (s : State) (d : Nat) (copy : NMap XTable) (n : Nat) (t : XTable) (i : Nat) : Option Nat :=
  let e := t.entry i
  let leaf := bitOf e 1
  let size := bitsOf e 3 2
  let tier := bitsOf e 5 4
  let units := leafBytes t.level / 65536
  let frame := bitsOf e 47 16
  if !bitOf e 0 then (if e = 0 then none else some 1)
  else if leaf && (bitOf e 15 || bitsOf e 63 48 ≠ 0) then some 1
  else if !leaf && (bitsOf e 15 2 ≠ 0 || bitsOf e 63 40 ≠ 0) then some 1
  else if (leaf && (t.level < 2 || size ≠ 4 - t.level)) || (!leaf && t.level = 4) then some 2
  else if !leaf then none
  else if tier = 3 || frame % units ≠ 0 || s.tierBytes (tierOf tier) < frame * 65536 + leafBytes t.level then some 3
  else if !contigOk t i then some 4
  else if d = 0 && ((baseOf copy t.level n).map fun b =>
      decide (0x00FFFE0000000000 < b + (i + 1) * leafBytes t.level)).getD false then some 8
  else none

/-- Order 3: every entry of every new image. -/
def State.badEntry (s : State) (d : Nat) (copy : NMap XTable) (es : List PageEntry) : Option Nat :=
  (es.zip (List.range es.length)).findSome? fun x =>
    if x.1.remove then none
    else (copy.find x.1.table).bind fun t =>
      t.entries.findSome? fun e => (s.entryReason d copy x.1.table t e.1).map fun r => syncDetail x.2 r x.1.table e.1

/-- Index of the page entry that names a table. -/
def pageIndex (es : List PageEntry) (n : Nat) : Nat :=
  let i := es.findIdx fun e => e.table == n && !e.remove
  if i < es.length then i else 0xFFFE

/-- Non-leaf entries of a copy: table, entry, next. -/
def links (t : NMap XTable) : List (Nat × Nat × Nat) :=
  t.flatMap fun x => x.2.entries.filterMap fun e =>
    if bitOf e.2 0 && !bitOf e.2 1 then some (x.1, e.1, bitsOf e.2 39 16) else none

/-- Order 4: the tree of the new copy. -/
def badTree (c : Copy) (es : List PageEntry) : Option Nat :=
  let ls := links c.1
  let next := ls.findSome? fun l =>
    let lv := ((c.1.find l.1).map (·.level)).getD 0
    if ((c.1.find l.2.2).map fun t => t.level == lv + 1).getD false then none
    else some (syncDetail (pageIndex es l.1) 5 l.1 l.2.1)
  let refs := c.1.findSome? fun t =>
    let k := (ls.filter fun l => l.2.2 == t.1).length
    if 1 < k ∨ (k = 0 ∧ t.1 ≠ c.2) then some (syncDetail (pageIndex es t.1) 6 t.1 0) else none
  let root :=
    if c.1.isEmpty ∧ c.2 = 0 then none
    else if ((c.1.find c.2).map fun t => t.level == 0).getD false && !(ls.any fun l => l.2.2 == c.2) then none
    else some (syncDetail 0xFFFF 7 c.2 0)
  (next.or refs).or root

/-- Leaves of a copy: tier, first granule and granules it touches. -/
def leaves (t : NMap XTable) : List (Tier × Nat × Nat) :=
  t.flatMap fun x => x.2.entries.filterMap fun e =>
    if bitOf e.2 0 && bitOf e.2 1 then
      some (tierOf (bitsOf e.2 5 4), bitsOf e.2 47 16 / 32, max 1 (leafBytes x.2.level / 2 ^ 21))
    else none

/-- A leaf reaches the new frames of a migration. -/
def State.hitsNew (s : State) (m : Nat × Migration) (l : Tier × Nat × Nat) : Bool :=
  let n := ((s.part.extents.find m.1).map (·.granules)).getD 0
  l.1 == m.2.tier && (List.range n).any fun k =>
    let g := frameGranule m.2.tier m.2.first k
    l.2.1 ≤ g && g < l.2.1 + l.2.2

/-- Granules a copy's tables need in the translation store: whole pages packed (log 29). -/
def storeNeed (t : NMap XTable) : Nat := cdiv ((t.map fun x => tableBytes x.2.level).foldl (· + ·) 0) (2 ^ 21)

/-- Granules of a list of runs. -/
def runTotal (l : List (Nat × Nat)) : Nat := (l.map (·.2)).foldl (· + ·) 0

/-- Adds `n` granules to a deckle's translation store, one by one, within its tier-1 quota. -/
def State.growStore (s : State) (d hint : Nat) : Nat → Except (Status × Nat) State
  | 0 => .ok s
  | n + 1 =>
    match s.placeIn d .t1 1 hint with
    | .error e => .error e
    | .ok g =>
      let s1 := s.holdRun .t1 g 1 (s.nextGen .t1 g 1) 4096
      (s1.modDeckle d fun k => { k with store := k.store ++ [(g, 1)] }).growStore d (hint + 1) n

/-! ## Commit and switch (R55, R97, R101) -/

/-- The switch of a migration: its extent lies on the new frames, the old ones drain (R55). -/
def State.switchMigration (s : State) (x : Nat) : State :=
  match s.mem.migr.find x, s.part.extents.find x with
  | some m, some e =>
    let m' : Migration := { m with tier := e.tier, first := e.first, switched := true }
    ({ s with mem := { s.mem with migr := s.mem.migr.put x m' } }).modExtent x fun e => { e with tier := m.tier, first := m.first }
  | _, _ => s

/-- Every unit has switched to the new copy: the old one and store granules it alone needed are
freed, and TABLE_SYNC is answered. -/
def State.finishSync (s : State) (d : Nat) : State :=
  match s.part.deckles.find d with
  | none => s
  | some k =>
    if k.oldCopy.isNone then s
    else
      let need := storeNeed k.tables
      let keep := k.store.take need
      let drop := k.store.drop need
      let s1 := (s.modDeckle d fun k => { k with oldCopy := none, syncReply := none, store := keep }).dropTlb d
      let s2 := drop.foldl (fun a r => a.retireRun .t1 r.1 r.2 false) s1
      State.settle s s2 k.syncReply (okFields 16 [(64, k.syncSeq), (32, k.tables.length), (32, runTotal keep)])

/-- Builds, checks and commits a new copy (R99). -/
def State.sync (s : State) (q : Req) (p : SyncP) (hint reply : Nat) : State × Option Ans :=
  let s0 := s.finishSync p.deckle
  match s0.part.deckles.find p.deckle with
  | none => (s0, some { status := .invalid })
  | some k =>
    match SyncP.badForm p k.tables with
    | some det => (s0, some { status := .invalid, detail := det })
    | none =>
      match s0.readImages q.deckle p.entries 0 k.tables with
      | (s1, .error e) => (s1, some { status := e.1, detail := e.2 })
      | (s1, .ok t) =>
        let c : Copy := (t, if p.setRoot then p.root else k.root)
        match (s1.badEntry p.deckle t p.entries).or (badTree c p.entries) with
        | some det => (s1, some { status := .invalid, detail := det })
        | none =>
          let ls := leaves t
          if s1.mem.migr.any fun m => !m.2.done && ls.any fun l => s1.hitsNew m l then
            (s1, some { status := .busy, detail := 6 })
          else match s1.growStore p.deckle hint (storeNeed t - runTotal k.store) with
            | .error e => (s1, some { status := e.1, detail := e.2 })
            | .ok s2 =>
              let s3 := s2.modDeckle p.deckle fun k =>
                { k with oldCopy := some (k.tables, k.root), tables := t, root := c.2, syncReply := some reply
                         syncSeq := k.syncSeq + 1 }
              let sw := s3.mem.migr.filter fun m => m.2.done && !m.2.switched &&
                ((s3.part.extents.find m.1).map fun e => e.deckle == p.deckle).getD false && ls.any fun l => s3.hitsNew m l
              (sw.foldl (fun a m => a.switchMigration m.1) s3, none)

/-- TABLE_SYNC: code, length and what R27 checks of it first. -/
def tableSyncCmd (p : SyncP) : Cmd :=
  { code := 0x0401, len := 64 + 16 * p.entries.length, own := some p.deckle, names := [p.deckle] }

/-- TABLE_SYNC: its checks in order (R99). -/
def tableSyncChecks (p : SyncP) : State → List Check :=
  fun s => [(s.deckleExists p.deckle && p.entries.length ≤ 65532, .invalid, 0)]

/-- TABLE_SYNC: its effect (R99). -/
def tableSyncAct (q : Req) (p : SyncP) (hint : Nat) : State → Nat → State × Option Ans :=
  fun s r => s.sync q p hint r

/-- TABLE_SYNC (R99). An earlier sync of the deckle has switched before it starts (R102). -/
def execTableSync (q : Req) (p : SyncP) (hint : Nat) (s : State) : Host.Outcome State Fault Refusal :=
  .next (s.serve (.tableSync q p hint) (tableSyncCmd p) q (tableSyncChecks p) (tableSyncAct q p hint))

/-- TABLE_SYNC_SWITCHED (R101). -/
def execTableSyncSwitched (deckle : Nat) (s : State) : Host.Outcome State Fault Refusal :=
  .next (s.finishSync deckle)

/-! ## TABLE_READBACK (R103) -/

/-- Bytes of a copy in canonical order: a table's image, then its children in ascending entries. -/
def canon (t : NMap XTable) : Nat → Nat → List (Nat × Nat)
  | 0, _ => []
  | f + 1, n =>
    match t.find n with
    | none => []
    | some x =>
      ((List.range (levelEntries x.level)).map fun i => (8, x.entry i)) ++
      x.entries.flatMap fun e => if bitOf e.2 0 && !bitOf e.2 1 then canon t f (bitsOf e.2 39 16) else []

/-- Digest of a copy; an empty copy digests the empty string. -/
def copyDigest (c : Copy) : Nat :=
  let l := canon c.1 5 c.2
  Config.shake256 (concatBytes 8 (l.map (·.2))) (8 * l.length) 256

/-- A fault record (Table 6.11). -/
def faultFields (i : Nat) (f : FaultRec) : List (Nat × Nat) :=
  [(32, i), (56, f.pva), (2, f.cause), (3, f.level), (1, b2n f.write), (1, b2n f.first.couch), (1, 0), (5, f.first.core),
   (4, f.first.unit), (7, 0), (16, f.waiters.length), (16, f.other), (64, f.raised), (144, 0)]

/-- Open fault records of a deckle, rising. -/
def State.faultsOf (s : State) (d : Nat) : List (Nat × FaultRec) := s.xlat.faults.filter fun f => f.2.deckle == d

/-- TABLE_READBACK: code, length and what R27 checks of it first. -/
def tableReadbackCmd (p : ReadbackP) : Cmd :=
  { code := 0x0402, len := 8, rsvd := p.rsvd, own := some p.deckle, names := [p.deckle] }

/-- TABLE_READBACK: its checks in order (R103). -/
def tableReadbackChecks (p : ReadbackP) : State → List Check :=
  fun s => [(s.deckleExists p.deckle, .invalid, 0)]

/-- TABLE_READBACK: its effect (R103). -/
def tableReadbackAct (p : ReadbackP) : State → Nat → State × Option Ans :=
  fun s _ =>
      match s.part.deckles.find p.deckle with
      | none => (s, some { status := .invalid })
      | some k =>
        let fs := s.faultsOf p.deckle
        let a := okFields 64 [(256, copyDigest (k.tables, k.root)), (24, k.root), (8, 0), (32, k.tables.length),
          (64, k.syncSeq), (16, fs.length), (16, 0), (32, k.mismatches), (64, 0)]
        (s, some (if p.faults then
          { a with area := 48 * fs.length, entry := 48
                   content := concatBytes 48 (fs.map fun f => pack (faultFields f.1 f.2)) } else a))

/-- TABLE_READBACK (R103). -/
def execTableReadback (q : Req) (p : ReadbackP) (s : State) : Host.Outcome State Fault Refusal :=
  .next (s.serve (.tableReadback q p) (tableReadbackCmd p) q (tableReadbackChecks p) (tableReadbackAct p))

end Sys2Proof.Machine
end

