-- ==== Sys2Proof/Machine/WorkOps.lean ====
section
/-! DEFINITION. Shared operations of work: fault records (R104–R107), stopping work and its first
cause (R147), energy at completion (R269), completions (R146, Table 8.17), cores, engines and
windows (R119, R121). -/

namespace Sys2Proof.Machine

/-! ## Fault records (R106, R107) -/

/-- Opens a fault record for a waiter, or joins the open record of its page and deckle: the
record, or none when no further record may open. -/
def State.joinFault (s : State) (d pva cause level : Nat) (write : Bool) (w : Waiter) (other : Nat) :
    State × Option Nat :=
  match s.xlat.faults.find? fun f => f.2.deckle == d && f.2.pva == pva with
  | some (i, _) =>
    ({ s with xlat := { s.xlat with faults := s.xlat.faults.upd i fun f => { f with waiters := f.waiters ++ [w] } } }, some i)
  | none =>
    if 1024 ≤ (s.faultsOf d).length ∨ 16384 ≤ s.xlat.faults.length then (s, none)
    else
      let i := s.xlat.lastFault + 1
      let f : FaultRec := { deckle := d, pva := pva, cause := cause, level := level, write := write, first := w,
                            other := other, raised := s.dom, waiters := [w], frozen := s.now }
      let s1 := { s with xlat := { s.xlat with faults := s.xlat.faults.put i f, lastFault := i } }
      (s1.raise 0x0401 (.deckle d) (srcOf 2 w.core) (pack (faultFields i f)), some i)

/-- Waiters that a test names leave their records; a record left with none closes (R107). -/
def State.leaveFaults (s : State) (test : Waiter → Bool) : State :=
  let m := s.xlat.faults.each fun _ f => { f with waiters := f.waiters.filter fun w => !test w }
  { s with xlat := { s.xlat with faults := m.keep fun _ f => !f.waiters.isEmpty } }

/-- Extents in revocation among the pages of lines of a deckle. -/
def State.revokingAt (s : State) (d : Nat) (lines : List Nat) : List Nat :=
  match s.part.deckles.find d with
  | none => []
  | some k =>
    ((pagesOf lines).filterMap fun p =>
      match walkFrom k.inForce.1 levels k.inForce.2 (p * 65536) with
      | (some e, l) =>
        let sh := ((levels[l]?).map (·.2.1)).getD 16
        let phys := bitsOf e 47 16 * 65536 + p * 65536 % 2 ^ sh
        (s.extentAt (tierOf (bitsOf e 5 4)) (phys / 2 ^ 21)).bind fun x =>
          if x.2.state == .revoking then some x.1 else none
      | _ => none).eraseDups

/-- Counts a work item stopped by revocations (Table 4.13 STOPPED). -/
def State.countStopped (s : State) (d : Nat) (lines : List Nat) : State :=
  (s.revokingAt d lines).foldl (fun a x => a.modExtent x fun e =>
    { e with revoke := e.revoke.map fun r => { r with stopped := r.stopped + 1 } }) s

/-! ## Cores and engines -/

/-- Key of an engine. -/
def engKey (c e : Nat) : Nat := c * 16 + e

/-- An engine; one that is not listed is at its reset. -/
def State.engine (s : State) (c e : Nat) : Engine := (s.eng.engines.find (engKey c e)).getD Engine.reset

/-- Writes an engine. -/
def State.setEngine (s : State) (c e : Nat) (x : Engine) : State :=
  { s with eng := { s.eng with engines := s.eng.engines.put (engKey c e) x } }

/-- A core; one that is not listed is at its reset. -/
def State.core (s : State) (c : Nat) : Core := (s.eng.cores.find c).getD Core.reset

/-- Changes a core. -/
def State.modCore (s : State) (c : Nat) (f : Core → Core) : State :=
  { s with eng := { s.eng with cores := s.eng.cores.put c (f (s.core c)) } }

/-- Engines that run a work item, by key, rising. -/
def State.enginesOf (s : State) (w : Nat) : List Nat :=
  (s.eng.engines.filter fun e => e.2.work == some w).map Prod.fst

/-- Engines of a core that are free for launches: not running and not reserved for laid forming
(R121). -/
def State.freeEngines (s : State) (c : Nat) : List Nat :=
  let r := (s.eng.reserved.find c).getD 0
  (List.range (16 - r)).filter fun e => (s.engine c e).work.isNone

/-- Windows of a core for launches (R119). -/
def State.launchWindows (s : State) (c : Nat) : Nat := 16 - max (s.core c).spill (s.core c).spillTarget

/-- Windows of a core that are free. -/
def State.freeWindows (s : State) (c : Nat) : List Nat :=
  (List.range (s.launchWindows c)).filter fun i => !(s.core c).winWork.has i

/-- Windows of a work item on a core, rising. -/
def State.windowsOf (s : State) (c w : Nat) : List Nat :=
  ((s.core c).winWork.filter fun x => x.2 == w).map Prod.fst

/-- Changes a work item. -/
def State.modWork (s : State) (w : Nat) (f : Work → Work) : State :=
  { s with eng := { s.eng with work := s.eng.work.upd w f } }

/-- What the pair mirrors of a work item; a formed read is a link request and no item. -/
def workItem (x : Work) : Option ItemRec :=
  let mk := fun (kind arg : Nat) => some
    ({ kind := kind, deckle := x.deckle, cplEp := x.cplEp, ctag := x.ctag, cls := x.cls, queue := x.queue, arg := arg } : ItemRec)
  match x.body with
  | .launch _ => mk 0x0001 (x.cores.headD 0)
  | .open_ _ => mk 0x0020 0
  | .step b => mk 0x0021 b.seq
  | .append b => mk 0x0022 b.seq
  | .close b _ => mk 0x0023 b.seq
  | .topk .. => mk 0x0030 0
  | .rdf .. => none

/-- Mirrors the admission or the end of a WORK item (log 53). -/
def State.mirrorItem (s : State) (i : Option ItemRec) (ended : Bool) : State :=
  match i with
  | some x => if s.mirrors then s.pushMeta 0 0 true true (.item x ended) else s
  | none => s

/-- Adds a work item in a state. -/
def State.addWork (s : State) (w : Work) : State × Nat :=
  let n := s.eng.nextWork
  (({ s with eng := { s.eng with work := s.eng.work.put n w, nextWork := n + 1 } }).mirrorItem (workItem w) false, n)

/-- Commits the first stopping cause of a work item (R147): its waiters leave their records, and its
stream slots that wait on one keep no tile. -/
def State.stopWork (s : State) (w : Nat) (st : Status) (detail : Nat) : State :=
  match s.eng.work.find w with
  | none => s
  | some x =>
    if x.cause.isSome || x.ready.isSome then s
    else
      let es := s.enginesOf w
      (s.modWork w fun x => { x with cause := some (st, detail) }).leaveFaults fun f =>
        !f.couch && es.contains (engKey f.core f.unit)

/-! ## Energy (R269, R270) -/

/-- The ledger measurement of an item in nJ: its activity at the scale factors of the intervals it
ran in, the running interval's among them, which is not known yet (log 11). -/
def State.measure (s : State) : Nat × State := s.draw (2 ^ 64)

/-- The measurement replaces the estimate in the deckle's buckets. -/
def State.settleEnergy (s : State) (d : Nat) (yellow : Bool) (est nj : Nat) : State :=
  s.modDeckle d fun k => { k with energy := k.energy.settle (!yellow) est (nj * 1000) }

/-! ## Completions (R146, R26) -/

/-- Sends a CPL body on VC4 to an endpoint in a queue. -/
def State.sendCpl (s : State) (ep d cls queue : Nat) (body : Nat) : State :=
  s.sendHeld ep 4 queue d (.cpl ep d body) cls

/-- A completion that carries a status, a CTAG and a DETAIL at bit 128 only (Tables 8.17, 12.3). -/
def cplPlain (kind : Nat) (st : Status) (ctag detail : Nat) : Nat :=
  pack [(16, kind), (8, statusCode st), (8, 0), (32, ctag), (64, 0), (32, detail)]

/-- Refuses a WORK message: a completion to the sending endpoint, and nothing runs. -/
def State.refuseWork (s : State) (h : Hdr) (kind : Nat) (ctag : Nat) (st : Status) (detail : Nat) : State :=
  s.sendCpl h.ep h.deckle h.cls (s.queueOf h.deckle h.cls) (cplPlain kind st ctag detail)

/-- Admits a WORK packet on VC4: it moves at once, so its receive buffer is free (R247, R254).
`len` is the body's length; policing meters it (Table 15.3). -/
def State.workGate (s : State) (h : Hdr) (kind ctag len : Nat) (go : State → Nat → Bool → State)
    (no : State → Status → State := fun s st => s.refuseWork h kind ctag st 0) : State :=
  let x := s.gate h 4 { ok := h.len == len, bytes := some h.len }
  match x.2 with
  | .drop => x.1.dropPkt h
  | .refuse st _ => no (x.1.freeBuf h.port h.vc (Hdr.credits h)) st
  | .accept q y _ => go (x.1.freeBuf h.port h.vc (Hdr.credits h)) q y

/-- Work of a deckle that a WORK_CANCEL or a duplicate check names. -/
def State.workNamed (s : State) (d ep ctag : Nat) : List Nat :=
  (s.eng.work.filter fun w => w.2.deckle == d && w.2.cplEp == ep && w.2.ctag == ctag &&
    (match w.2.body with | .rdf .. => false | _ => true)).map Prod.fst

/-- The deckle is ACTIVE (R61). -/
def State.deckleActive (s : State) (d : Nat) : Bool := s.part.deckles.has d && !s.isDissolving d

/-- Windows given to context spill change once no launch holds them (R153). -/
def Core.settleSpill (c : Core) : Core :=
  if c.winWork.any fun w => 16 - max c.spill c.spillTarget ≤ w.1 then c else { c with spill := c.spillTarget }

/-- Ends a work item: its engines and windows are free. -/
def State.freeWork (s : State) (w : Nat) : State :=
  let d := ((s.eng.work.find w).map (·.deckle)).getD 0
  let es := s.eng.engines.each fun _ x => if x.work = some w then
      { x with work := none, slots := [], pend := [], barrier := 0, halting := false, ended := false, loops := [],
               ret := [], lastDeckle := some d }
    else x
  let cs := s.eng.cores.each fun _ c => Core.settleSpill { c with winWork := c.winWork.keep fun _ y => y != w }
  { s with eng := { s.eng with engines := es, cores := cs, work := s.eng.work.del w } }

/-- A kernel that is being unloaded is freed when no launch of it is left (R142). -/
def State.dropKernels (s : State) : State :=
  { s with eng := { s.eng with kernels := s.eng.kernels.keep fun k x => !(x.unloading &&
      !(s.eng.work.any fun w => match w.2.body with | .launch b => b.kernel == k | _ => false)) } }

/-- Starts a launch or another item's engines on a core: those whose last launch was of the same
deckle first (R145). Registers, VSTAT and counters are zero, and the store is zeroised on a change of
deckle (R144). -/
def State.startEngines (s : State) (w d c n : Nat) (init : Engine → Engine) : State :=
  let free := s.freeEngines c
  let same := free.filter fun e => (s.engine c e).lastDeckle == some d
  let pick := (same ++ free.filter fun e => !same.contains e).take n
  pick.foldl (fun a e =>
    let x := a.engine c e
    let keep := x.lastDeckle == some d
    let y : Engine := { Engine.reset with store := if keep then x.store else [], badWords := if keep then x.badWords else [],
                                          work := some w, lastDeckle := some d }
    a.setEngine c e (init y)) s

/-- Gives `n` windows of a core to a work item, zeroised on a change of deckle (R119). -/
def State.startWindows (s : State) (w d c n : Nat) : State :=
  let pick := (s.freeWindows c).take n
  s.modCore c fun k =>
    let wipe := fun i => k.winDeckle.find i != some d
    { k with
      winWork := pick.foldl (fun a i => a.put i w) k.winWork
      winDeckle := pick.foldl (fun a i => a.put i d) k.winDeckle
      store := k.store.keep fun l _ => !(pick.contains (l / 32768) && wipe (l / 32768)) }

/-- A core can start an item now: its engines and windows are free and its clock is not changing. -/
def State.canStart (s : State) (c engines windows : Nat) : Bool :=
  (s.core c).ready && engines ≤ (s.freeEngines c).length && windows ≤ (s.freeWindows c).length

/-- Queued items on a core in a queue that arrived before an item. -/
def State.aheadOf (s : State) (w : Nat) (x : Work) : Bool :=
  s.eng.work.any fun y => y.1 < w && y.2.state == .queued && y.2.queue == x.queue &&
    y.2.cores.any fun c => x.cores.contains c

/-! ## Tiles (R12, R104) -/

/-- Line addresses of the remote side of a tile. -/
def remoteLines (t : List Piece) : List Nat := t.flatMap fun p => lineRun p.remote (p.len / 64)

/-- Line addresses of the local side of a tile. -/
def localLines (t : List Piece) : List Nat := t.flatMap fun p => lineRun p.loc (p.len / 64)

/-- What the translation of both sides of a tile comes to. -/
inductive TileTrans
  | ok (src dst : List LineRef)
  | fault (pva cause level other : Nat) (write : Bool)
  | stop (st : Status) (r95 : Bool)
  deriving DecidableEq, Repr

/-- Failing pages of a side. -/
def Trans.failing : Trans → Nat
  | .fault _ _ _ o => o + 1
  | _ => 0

/-- Translates a tile's source side, then its destination side (R104): R65 and R95 first, then the
lowest failing page, then lode lines (R85). -/
def State.tileTrans (s : State) (d : Nat) (src dst : List Nat) : TileTrans :=
  let a := s.translate d .krd src
  let b := s.translate d .wr dst
  match a, b with
  | .deny st r, _ => .stop st r
  | _, .deny st r => .stop st r
  | .fault p c l o, _ => .fault p c l (o + b.failing) false
  | .ok _, .fault p c l o => .fault p c l o true
  | .ok x, .ok y => if (x ++ y).any fun r => (s.lodeOf r).isSome then .stop .unsupported false else .ok x y
  | _, _ => .stop .noAccess false

/-- A translated line's extent still has its generation (R62). -/
def State.liveRef (s : State) (r : LineRef) : Bool :=
  r.extent == 0 || (match s.part.extents.find r.extent with | some e => e.gen == r.gen | none => false)

/-- Extents in revocation among translated lines. -/
def State.revokingIn (s : State) (refs : List LineRef) : List Nat :=
  ((refs.map (·.extent)).eraseDups).filter fun x =>
    ((s.part.extents.find x).map fun e => e.state == .revoking).getD false

/-- Counts an item of work stopped on extents in revocation (Table 4.13 STOPPED). -/
def State.countStop (s : State) (xs : List Nat) : State :=
  xs.foldl (fun a x => a.modExtent x fun e =>
    { e with revoke := e.revoke.map fun r => { r with stopped := r.stopped + 1 } }) s

/-- Translates a tile of a work item for a waiter: its lines, or the fault record it waits on, or
the item stops (R104–R106, Table 8.18). -/
def State.tileStart (s : State) (w d : Nat) (u : Waiter) (src dst : List Nat) :
    State × Option (List LineRef × List LineRef) × Option Nat :=
  match s.tileTrans d src dst with
  | .ok a b => (s.fillTlb u.core d (src ++ dst) (a ++ b), some (a, b), none)
  | .fault p c l o wr =>
    match s.joinFault d p c l wr u o with
    | (s1, none) => (s1.stopWork w .fault 0, none, none)
    | (s1, some i) => (s1, none, some i)
  | .stop st r95 =>
    let s1 := if r95 then s.mismatch d else s
    let s2 := if st = .revoked then s1.countStopped d (src ++ dst) else s1
    (s2.stopWork w st 0, none, none)

/-- Reads the lines of a tile; lines whose granules were retired fail (R69). -/
def State.readTile (s : State) (refs : List LineRef) (cls : Nat) : State × RdOut × List Line :=
  if refs.all s.liveRef then s.readLines refs cls else (s, .fail .revoked, [])

/-- The stripe of a line (R39, R42). -/
def LineRef.stripe (r : LineRef) : Tier × Nat :=
  (r.tier, match r.tier with | .t1 => r.line / 1024 | .t2 => r.line / 512 | .staging => r.line)

/-- The stripes a tile writes whole (R45). -/
def fullStripes (refs : List LineRef) : List (Tier × Nat) :=
  ((refs.map (·.stripe)).eraseDups).filter fun t =>
    let n := match t.1 with | .t1 => 1024 | .t2 => 512 | .staging => 1
    n ≤ (((refs.filter fun r => r.stripe == t).map (·.line)).eraseDups).length

/-- A tile's write waits: the retention buffer has no room for its mirrored lines (R310). -/
def State.tileWaits (s : State) (refs : List LineRef) : Bool := s.mirrors && s.retentionFull && refs.any (·.mir)

/-- Writes the lines of a tile (R12, R45): the highest MSEQ they produced. -/
def State.writeTile (s : State) (refs : List LineRef) (data : List Line) (cls : Nat) : State × Option Nat :=
  let full := fullStripes refs
  let s1 := ((refs.filter fun r => r.tier == .t1).map (·.stripe.2)).eraseDups.foldl (fun a t => a.closeAsm t) s
  (refs.zip data).foldl (fun a x =>
    let y := a.1.writeWhole x.1 x.2 (full.contains x.1.stripe) { fw := true, cls := cls }
    (y.1, match y.2, a.2 with
      | none, b => b
      | some m, none => some m
      | some m, some k => some (max m k))) (s1, none)

end Sys2Proof.Machine
end

