-- ==== Sys2Proof/Machine/Bundle.lean ====
section
/-! DEFINITION. Engine programs (chapter 8): the scalar and move slots, the issue of a bundle
(R130–R139), barriers, and the static checks of a kernel (R141). -/

namespace Sys2Proof.Machine

/-! ## Bundles (Table 8.1) -/

/-- The four slots of a bundle. -/
def slotS (b : BitVec 128) : Nat := bitsOf b.toNat 31 0
def slotV (b : BitVec 128) : Nat := bitsOf b.toNat 63 32
def slotM (b : BitVec 128) : Nat := bitsOf b.toNat 87 64
def slotX (b : BitVec 128) : Nat := bitsOf b.toNat 127 88

/-- The sign-extended immediate of a scalar operation, modulo 2^64. -/
def immS (w : Nat) : Nat := let i := bitsOf w 31 16; if i < 32768 then i else 2 ^ 64 - 65536 + i

/-! ## Scalar and control slot (R131–R133) -/

/-- What the control operations of the scalar slot do to the sequence of bundles. -/
inductive Ctl
  | next
  | jump (t : Nat)
  | call (t : Nat)
  | ret
  | loop (count last : Nat)
  | barrier (kind : Nat)
  | halt (kcode : Nat)
  | badTarget
  deriving DecidableEq, Repr

/-- What the scalar slot does: results, VSTAT bits it clears, control, and the store it reads. -/
structure ScalarOut where
  sends : List SlotRes := []
  clear : Nat := 0
  ctl   : Ctl := .next
  /-- engine-store word it loads -/
  load  : Option Nat := none
  deriving Repr

/-- A 64-bit arithmetic shift right. -/
def sra64 (a n : Nat) : Nat := ((signedOf 64 a / (2 ^ n : Nat)) % (2 ^ 64 : Nat)).toNat

/-- Operations of two scalar operands (Table 8.3): codes 0x01–0x0C. -/
def alu (op a b : Nat) : Nat :=
  match op with
  | 0x01 => (a + b) % 2 ^ 64
  | 0x02 => (a + 2 ^ 64 - b) % 2 ^ 64
  | 0x03 => a &&& b
  | 0x04 => a ||| b
  | 0x05 => a ^^^ b
  | 0x06 => (a <<< (b % 64)) % 2 ^ 64
  | 0x07 => a >>> (b % 64)
  | 0x08 => sra64 a (b % 64)
  | 0x09 => a * b % 2 ^ 64
  | 0x0A => b2n (decide (signedOf 64 a < signedOf 64 b))
  | 0x0B => b2n (decide (a < b))
  | _ => b2n (a == b)

/-- The scalar slot (Table 8.3). `stat` gives the launch state of Table 8.4. -/
def scalarOp (x : Engine) (w codeLen : Nat) (stat : Nat → Nat) (fr : Nat → Nat) : ScalarOut :=
  let op := w % 64
  let rd := bitsOf w 10 6
  let ra := bitsOf w 15 11
  let rb := bitsOf w 20 16
  let a := x.readS ra (fr 20)
  let b := x.readS rb (fr 21)
  let d := x.readS rd (fr 22)
  let imm := bitsOf w 31 16
  let tgt := bitsOf w 29 16
  let put := fun (v lat : Nat) => ({ sends := [⟨.s rd, v, ones 64, lat⟩] } : ScalarOut)
  let addr := (a + immS w) % engineBytes / 8 * 8
  if 0x01 ≤ op ∧ op ≤ 0x0C then put (alu op a b) (if op = 0x09 then 3 else 1)
  else match op with
    | 0x10 => put ((a + immS w) % 2 ^ 64) 1
    | 0x11 => put (a &&& imm) 1
    | 0x12 => put (a ||| imm) 1
    | 0x13 => put (a ^^^ imm) 1
    | 0x14 => put (alu 0x06 a imm) 1
    | 0x15 => put (alu 0x07 a imm) 1
    | 0x16 => put (alu 0x08 a imm) 1
    | 0x17 => put (alu 0x0A a (immS w)) 1
    | 0x18 =>
      let q := 16 * bitsOf w 12 11
      { sends := [⟨.s rd, imm <<< q, 0xFFFF <<< q, 1⟩] }
    | 0x20 => { put (x.readMem addr 8 (fr 23)) 4 with load := some addr }
    | 0x21 => { sends := [⟨.mem addr, d, ones 64, 3⟩] }
    | 0x24 => put (if imm ≤ 9 then stat imm else fr 24 % 2 ^ 64) 1
    | 0x25 => { clear := a % 2 ^ 32 }
    | 0x30 => { ctl := .jump tgt }
    | 0x31 => { ctl := if d = 0 then .jump tgt else .next }
    | 0x32 => { ctl := if d = 0 then .next else .jump tgt }
    | 0x33 => { ctl := if x.readP (rd % 8) (fr 25) = 0 then .next else .jump tgt }
    | 0x34 => { ctl := if a % 2 ^ 14 < codeLen then .jump (a % 2 ^ 14) else .badTarget }
    | 0x35 => { ctl := .call tgt }
    | 0x36 => { ctl := .ret }
    | 0x38 => { ctl := .loop d tgt }
    | 0x3C => { ctl := .barrier 1 }
    | 0x3D => { ctl := .barrier 2 }
    | 0x3E => { ctl := .halt (a % 2 ^ 16) }
    | _ => {}

/-- The innermost loop whose body a taken branch leaves ends, and so on outward (R132). -/
def leaveLoops (t : Nat) : List Loop → List Loop
  | [] => []
  | l :: r => if l.start ≤ t ∧ t ≤ l.last then l :: r else leaveLoops t r

/-- The bundle after `pc` when no branch is taken: the loops whose last bundle it is jump back while
they have turns left (R132). -/
def stepLoops (pc : Nat) : List Loop → Nat × List Loop
  | [] => (pc + 1, [])
  | l :: r =>
    if l.last = pc then
      if 1 < l.left then (l.start, { l with left := l.left - 1 } :: r) else stepLoops pc r
    else (pc + 1, l :: r)

/-- The engine after its control operation: taken branches issue their target three cycles on. An
ending of the launch is answered with its status and DETAIL (Table 8.18). -/
def control (y : Engine) (pc : Nat) (c : Ctl) : Engine × Option (Status × Nat) :=
  let seq := stepLoops pc y.loops
  let on := { y with pc := seq.1, loops := seq.2, cycles := y.cycles + 1 }
  let jump := fun (t : Nat) => { y with pc := t, loops := leaveLoops t y.loops, cycles := y.cycles + 3 }
  match c with
  | .next => (on, none)
  | .jump t => (jump t, none)
  | .call t =>
    if 8 ≤ y.ret.length then (on, some (.invalid, 0x20000 + pc))
    else ({ y with pc := t, ret := (pc + 1) :: y.ret, cycles := y.cycles + 3 }, none)
  | .ret =>
    match y.ret with
    | [] => (on, some (.invalid, 0x20000 + pc))
    | t :: r => ({ y with pc := t, ret := r, cycles := y.cycles + 3 }, none)
  | .loop n last =>
    if n = 0 then (jump (last + 1), none)
    else if last = pc then (on, none)
    else if 4 ≤ y.loops.length then (on, some (.invalid, 0x30000 + pc))
    else ({ y with pc := pc + 1, loops := ⟨pc + 1, last, n⟩ :: y.loops, cycles := y.cycles + 1 }, none)
  | .barrier k => ({ on with barrier := k }, none)
  | .halt k => ({ on with halting := true, kcode := k, ended := y.slots.isEmpty }, none)
  | .badTarget => (on, some (.invalid, 0x10000 + pc))

/-! ## Streams (R137, R138) -/

/-- Groups the lines of a pattern into tiles (R138, R199): whole lines while they stay within 64 KiB,
or 64 KiB segments of a longer line. A line is its remote address, local address and length. -/
def tilesOfLines (len n : Nat) (at_ : Nat → Nat × Nat) : List (List Piece) :=
  if 65536 < len then
    (List.range n).flatMap fun i => (List.range (cdiv len 65536)).map fun k =>
      [⟨(at_ i).1 + 65536 * k, (at_ i).2 + 65536 * k, min 65536 (len - 65536 * k)⟩]
  else
    let per := 65536 / max len 1
    (List.range (cdiv n per)).map fun t =>
      (List.range (min per (n - per * t))).map fun i => ⟨(at_ (per * t + i)).1, (at_ (per * t + i)).2, len⟩

/-- The stream a descriptor of Table 8.10 starts, or the ending it makes (R137, R138). `windows` is the
bytes of core store the launch has on the core. -/
def streamOf (op : StreamOp) (d sl sr windows pc : Nat) : Except (Status × Nat) Stream :=
  let space := bitsOf d 57 56
  let len := bitsOf d 120 96
  let rs := bitsOf d 159 128
  let ls := bitsOf d 180 160
  let n := bitsOf d 207 192
  let remote := (bitsOf d 55 0 + sr) % 2 ^ 64
  let loc := bitsOf d 84 64 + sl
  if bitsOf d 63 58 ≠ 0 ∨ bitsOf d 95 85 ≠ 0 ∨ bitsOf d 127 121 ≠ 0 ∨ bitsOf d 191 181 ≠ 0 ∨ bitsOf d 511 208 ≠ 0 ∨
      1 < space ∨ bitsOf d 84 64 % 64 ≠ 0 ∨ loc % 64 ≠ 0 ∨ len < 64 ∨ 16777216 < len ∨ len % 64 ≠ 0 ∨ rs % 64 ≠ 0 ∨
      ls % 64 ≠ 0 ∨ n = 0 ∨ (op = .wr ∧ 1 < n ∧ rs < len) then .error (.badDescriptor, pc)
  else if remote % 64 ≠ 0 then .error (.align, pc)
  else
    let tiles := tilesOfLines len n fun i => (remote + i * rs, (loc + i * ls) % engineBytes)
    if space = 1 ∧ windows < remote + (n - 1) * rs + len then .error (.noAccess, pc)
    else .ok { op := op, core := decide (space = 1), tiles := tiles, refs := none, fault := none, mseq := 0 }

/-- The gather a descriptor of Table 8.11 starts; `list` reads its page list. -/
def gatherOf (d sl sr pc : Nat) (list : Nat → Nat → Nat) : Except (Status × Nat) Stream :=
  let at_ := (bitsOf d 20 0 + sr) % engineBytes
  let n := bitsOf d 41 32
  let po := bitsOf d 111 96
  let pb := bitsOf d 144 128
  let st := bitsOf d 180 160
  let loc := bitsOf d 84 64 + sl
  if bitsOf d 31 21 ≠ 0 ∨ bitsOf d 63 42 ≠ 0 ∨ bitsOf d 95 85 ≠ 0 ∨ bitsOf d 127 112 ≠ 0 ∨ bitsOf d 159 145 ≠ 0 ∨
      bitsOf d 511 181 ≠ 0 ∨ at_ % 64 ≠ 0 ∨ n = 0 ∨ 512 < n ∨ po % 64 ≠ 0 ∨ pb < 64 ∨ pb % 64 ≠ 0 ∨ 65536 < po + pb then
    .error (.badDescriptor, pc)
  else
    let pages := list at_ n
    let page := fun i => bytesFrom pages (8 * i) 8
    if (List.range n).any fun i => bitsOf (page i) 63 56 ≠ 0 || bitsOf (page i) 15 0 ≠ 0 then .error (.badDescriptor, pc)
    else
      let step := if st = 0 then pb else st
      .ok { op := .gather, core := false, refs := none, fault := none, mseq := 0
            tiles := (List.range n).map fun i => [⟨page i + po, (loc + i * step) % engineBytes, pb⟩] }

/-! ## Move slot (Table 8.9) -/

/-- What the move slot does: results, a stream on a slot, an ending, and the store it reads. -/
structure MoveOut where
  sends  : List SlotRes := []
  stream : Option (Nat × Stream) := none
  ending : Option (Status × Nat) := none
  load   : Option Nat := none
  deriving Repr

/-- The move slot. `windows` as in `streamOf`. -/
def moveOp (x : Engine) (w windows pc : Nat) (fr : Nat → Nat) : MoveOut :=
  let op := w % 32
  let r := bitsOf w 9 5
  let addr := (x.readS (bitsOf w 14 10) (fr 30) + bitsOf w 35 15) % engineBytes / 64 * 64
  let t := bitsOf w 7 5
  let d := x.readMem (x.readS (bitsOf w 12 8) (fr 31) % engineBytes / 64 * 64) 64 (fr 32)
  let sl := x.readS (bitsOf w 17 13) (fr 33)
  let sr := x.readS (bitsOf w 22 18) (fr 34)
  let start := fun (e : Except (Status × Nat) Stream) =>
    match e with
    | .ok st => ({ stream := some (t, st) } : MoveOut)
    | .error z => { ending := some z }
  match op with
  | 0x01 => { sends := [⟨.v r, x.readMem addr 1024 (fr 35), ones 8192, 5⟩], load := some addr }
  | 0x02 => { sends := [⟨.mem addr, x.readV r (fr 36), ones 8192, 3⟩] }
  | 0x03 =>
    let tile := x.readAcc (bitsOf w 10 10) (fr 37)
    { sends := [⟨.v r, (tile >>> (8192 * bitsOf w 12 11)) % 2 ^ 8192, ones 8192, 4⟩] }
  | 0x08 => start (streamOf .rd d sl sr windows pc)
  | 0x09 => start (streamOf .wr d sl sr windows pc)
  | 0x0A => start (gatherOf d sl sr pc fun a n => x.readMem a (8 * n) (fr 38))
  | _ => {}

/-- The move slot holds the bundle back (R139). -/
def stalls (x : Engine) (w : Nat) : Bool :=
  let op := w % 32
  if op = 0x0B then x.slots.any fun s => (bitsOf w 12 5).testBit s.1
  else (op == 0x08 || op == 0x09 || op == 0x0A) && x.slots.has (bitsOf w 7 5)

/-! ## Issue (R130) -/

/-- Launch state an engine reads (Table 8.4). -/
def State.launchStat (s : State) (w : Nat) (x : Work) (c e : Nat) (y : Engine) (sel : Nat) : Nat :=
  let mine := (s.enginesOf w).filter fun k => k / 16 == c
  match sel with
  | 0 => y.vstat.toNat
  | 1 => y.cycles
  | 2 => mine.idxOf (engKey c e)
  | 3 => x.engines
  | 4 => x.cores.idxOf c
  | 5 => x.cores.length
  | 6 => x.started + x.capNs - s.now
  | 7 => s.dom
  | 8 => (s.windowsOf c w).length
  | _ => (s.core c).clock

/-- The code a work item runs: the bundles of its kernel. -/
def State.codeOf (s : State) (x : Work) : List (BitVec 128) :=
  match x.body with
  | .launch b => ((s.eng.kernels.find b.kernel).map (·.code)).getD []
  | _ => []

/-- All four slots of a bundle issue in one cycle: the engine, and the ending a slot makes. -/
def issue (x : Engine) (b : BitVec 128) (codeLen windows : Nat) (stat : Nat → Nat) (fr : Nat → Nat) :
    Engine × Option (Status × Nat) :=
  let pc := x.pc
  let so := scalarOp x (slotS b) codeLen stat fr
  let vo := vectorOp x (slotV b) fr
  let mo := moveOp x (slotX b) windows pc fr
  let put := fun (l : List SlotRes) (y : Engine) => l.foldl (fun a r => a.send r.dest r.value r.mask r.lat) y
  let x0 := { x with vstat := x.vstat &&& ~~~(BitVec.ofNat 32 so.clear) }
  let x1 := if fr 40 % 2 = 0 then put mo.sends (put so.sends x0) else put so.sends (put mo.sends x0)
  let x2 := (put vo.sends x1).flag vo.flags
  let x3 := { x2 with
    sfuFree := if slotV b % 64 = 0x1E then x.cycles + 4 else x.sfuFree
    sortFree := if slotV b % 64 = 0x1F then x.cycles + 2 else x.sortFree }
  let x4 := matrixOp x x3 (slotM b) fr
  let x5 := match mo.stream with
    | some (t, st) => { x4 with slots := x4.slots.put t st }
    | none => x4
  let halted := match so.ctl with
    | .halt _ =>
      let keep := fun (y : Engine) (n : Nat) =>
        { y with s := y.s.put n (BitVec.ofNat 64 (x.readS n (fr (40 + n)))),
                 pend := y.pend.filter fun p => p.dest != Dest.s n }
      keep (keep x5 1) 2
    | _ => x5
  let r := control halted pc so.ctl
  let bad := (so.load.map fun a => x.badAt a 8).getD false || (mo.load.map fun a => x.badAt a 1024).getD false ||
    (slotM b % 16 != 0 && x.badAt (x.readS (bitsOf (slotM b) 15 11) (fr 11) % engineBytes / 2048 * 2048)
      (bBytes (bitsOf (slotM b) 19 16)))
  let first := if fr 45 % 2 = 0 then r.2.or mo.ending else mo.ending.or r.2
  (r.1, if bad then some (first.getD (.uncorrectable, 0)) else first)

/-- Energy of a bundle's operations (Table 1.10): array, vector and store accesses. -/
def State.chargeBundle (s : State) (d cls : Nat) (b : BitVec 128) : State :=
  let arr := slotM b % 16 ≠ 0
  let stores := b2n (decide arr) + b2n (slotX b % 32 == 1 || slotX b % 32 == 2) + b2n (slotS b % 64 == 0x20 || slotS b % 64 == 0x21)
  let s1 := if arr then s.charge d cls 4 (64 * 85) else s
  let s2 := if slotV b % 64 = 0 then s1 else s1.charge d cls 5 60
  if stores = 0 then s2 else s2.charge d cls 6 (40 * stores)

/-- BUNDLE_ISSUE (R130): the engine issues its next bundle, or spends a cycle stalled by the stream
scoreboard. Nothing issues while the core's clock changes (R122), after HALT, at a barrier, or once
the launch has a stopping cause. -/
def execBundleIssue (core engine : Nat) (s : State) : Host.Outcome State Fault Refusal :=
  .next <| s.unlessTripped <|
    let x0 := s.engine core engine
    match x0.work.bind fun w => (s.eng.work.find w).map fun k => (w, k) with
    | none => s
    | some (w, k) =>
      let code := s.codeOf k
      if code.isEmpty || k.state != .running || k.cause.isSome || (s.core core).clockTarget.isSome || x0.ended ||
          x0.halting || x0.barrier ≠ 0 then s
      else
        let fr := fun i => Config.freeNat (s.free + i)
        let s1 := { s with free := s.free + 64 }
        let x := x0.arrive (fr 50)
        match code[x.pc]? with
        | none => (s1.setEngine core engine x).stopWork w .invalid (0x10000 + x.pc)
        | some b =>
          if stalls x (slotX b) then s1.setEngine core engine { x with cycles := x.cycles + 1 }
          else
            let r := issue x b code.length (2 ^ 21 * (s.windowsOf core w).length) (s.launchStat w k core engine x) fr
            let s2 := (s1.setEngine core engine r.1).chargeBundle k.deckle k.cls b
            match r.2 with
            | some (st, d) => s2.stopWork w st d
            | none => s2

/-! ## Barriers (R133) -/

/-- BARRIER_RELEASE: every engine of the launch on the core, or of the gang, has arrived or ended. -/
def execBarrierRelease (work core : Nat) (gang : Bool) (s : State) : Host.Outcome State Fault Refusal :=
  .next <| s.unlessTripped <|
    let kind := if gang then 2 else 1
    let ks := (s.enginesOf work).filter fun k => gang || k / 16 == core
    let es := ks.map fun k => (k, s.engine (k / 16) (k % 16))
    let live := ((s.eng.work.find work).map fun w => w.cause.isNone).getD false
    if live && es.any (fun e => e.2.barrier == kind) && es.all (fun e => e.2.ended || e.2.barrier == kind) then
      es.foldl (fun a e =>
        if e.2.barrier == kind then
          let last := (es.filter fun f => f.1 / 16 == e.1 / 16).foldl (fun m f => max m f.2.cycles) 0
          a.setEngine (e.1 / 16) (e.1 % 16) { e.2 with barrier := 0, cycles := last + 1 }
        else a) s
    else s

/-! ## Static checks (R141) -/

/-- Scalar opcodes with their formats: 0 none, 1 R, 2 I, 3 B, 4 Q. -/
def scalarFormat (op : Nat) : Option Nat :=
  if op = 0x00 then some 0
  else if 0x01 ≤ op ∧ op ≤ 0x0C then some 1
  else if 0x10 ≤ op ∧ op ≤ 0x17 then some 2
  else match op with
    | 0x18 => some 4 | 0x20 => some 2 | 0x21 => some 2 | 0x24 => some 2 | 0x25 => some 1
    | 0x30 => some 3 | 0x31 => some 3 | 0x32 => some 3 | 0x33 => some 3 | 0x34 => some 1 | 0x35 => some 3
    | 0x36 => some 0 | 0x38 => some 3 | 0x3C => some 0 | 0x3D => some 0 | 0x3E => some 1
    | _ => none

/-- The scalar slot passes. -/
def scalarOk (w pc codeLen : Nat) : Bool :=
  let op := w % 64
  let tgt := bitsOf w 29 16
  match scalarFormat op with
  | none => false
  | some 0 => w / 64 == 0
  | some 1 => bitsOf w 31 21 == 0 &&
      (op != 0x25 || (bitsOf w 10 6 == 0 && bitsOf w 20 16 == 0)) && (op != 0x34 || (bitsOf w 10 6 == 0 && bitsOf w 20 16 == 0))
  | some 2 => op != 0x24 || bitsOf w 15 11 == 0
  | some 3 => bitsOf w 15 11 == 0 && bitsOf w 31 30 == 0 && (op != 0x33 || bitsOf w 10 9 == 0) &&
      decide (tgt < codeLen) && (op != 0x38 || decide (pc ≤ tgt))
  | some _ => bitsOf w 15 13 == 0

/-- Allowed TY values of a vector opcode (Table 8.6). -/
def vectorTys (op : Nat) : List Nat :=
  if (0x01 ≤ op ∧ op ≤ 0x03) ∨ (0x05 ≤ op ∧ op ≤ 0x08) then [0, 1, 2, 3]
  else if op = 0x04 ∨ op = 0x1A ∨ op = 0x1B then [0, 1]
  else if 0x0C ≤ op ∧ op ≤ 0x0E then [2, 3]
  else if 0x11 ≤ op ∧ op ≤ 0x13 then [0, 1, 2]
  else if op = 0x1F then [0, 2, 3]
  else if op ≤ 0x1E then [0]
  else []

/-- The vector slot passes: opcode, TY, AUX and part. -/
def vectorOk (w : Nat) : Bool :=
  let op := w % 64
  let aux := bitsOf w 25 21
  let ty := bitsOf w 31 30
  let vb := bitsOf w 20 16
  (vectorTys op).contains ty &&
  (if (0x11 ≤ op ∧ op ≤ 0x13) ∨ op = 0x14 ∨ op = 0x18 then decide (aux < 8)
   else if op = 0x19 then decide (aux ≤ 6 ∧ bitsOf w 10 6 < 8 ∧ bitsOf w 15 11 < 8 ∧ vb < 8)
   else if op = 0x1A then decide (vb < cvtParts aux) && (ty == 0 || aux == 0x15 || aux == 0x16 || aux == 0x19)
   else if op = 0x1B then decide (aux < (if ty = 1 then 8 else 10))
   else if op = 0x1C then decide (aux ≤ 8)
   else if op = 0x1E then decide (aux ≤ 3)
   else if op = 0x1F then !w.testBit 28 && !w.testBit 29
   else true)

/-- The matrix slot passes. -/
def matrixOk (w : Nat) : Bool :=
  let op := w % 16
  let pair := bitsOf w 19 16
  op ≤ 2 && bitsOf w 23 20 == 0 && (op == 0 || pair ≤ 10) && (op != 2 || (pair != 9 && pair != 10))

/-- The move slot passes. -/
def moveOk (w : Nat) : Bool :=
  match w % 32 with
  | 0x00 => w == 0
  | 0x01 => bitsOf w 39 36 == 0
  | 0x02 => bitsOf w 39 36 == 0
  | 0x03 => bitsOf w 39 13 == 0
  | 0x08 => bitsOf w 39 23 == 0
  | 0x09 => bitsOf w 39 23 == 0
  | 0x0A => bitsOf w 39 23 == 0
  | 0x0B => bitsOf w 39 13 == 0
  | _ => false

/-- A bundle passes the static checks (R141). -/
def bundleOk (b : BitVec 128) (pc codeLen : Nat) : Bool :=
  scalarOk (slotS b) pc codeLen && vectorOk (slotV b) && matrixOk (slotM b) && moveOk (slotX b) &&
  (pc + 1 != codeLen || [0x30, 0x34, 0x36, 0x3E].contains (slotS b % 64))

/-- The first bundle that fails the static checks. -/
def badBundle (code : List (BitVec 128)) : Option Nat :=
  (List.range code.length).find? fun i => !((code[i]?).map fun b => bundleOk b i code.length).getD false

end Sys2Proof.Machine
end

