-- ==== Sys2Proof/Machine/Works.lean ====
section
/-! DEFINITION. Kernels (R140–R142), launches from admission to completion (R121, R143–R147), the
stream tiles of engines (R137–R139), and the built-in kernels that a LAUNCH reaches (R149). -/

namespace Sys2Proof.Machine

/-! ## Kernels (R140–R142) -/

/-- The header fields and the image length pass (Table 8.12, order 1). `h` is the header. -/
def kernelHeaderOk (h len : Nat) : Bool :=
  let code := bitsOf h 79 64
  let consts := bitsOf h 112 96
  let off := bitsOf h 148 128
  let lo := bitsOf h 164 160
  let hi := bitsOf h 169 165
  bitsOf h 31 0 == 0x4C4E524B && bitsOf h 47 32 == 1 && bitsOf h 55 48 ≤ 2 && bitsOf h 63 56 == 0 &&
  1 ≤ code && code ≤ 10240 && bitsOf h 95 80 == 0 && consts ≤ 65536 && consts % 64 == 0 && bitsOf h 127 113 == 0 &&
  off % 64 == 0 && off + consts ≤ 0x1FFF00 && bitsOf h 159 149 == 0 && 1 ≤ lo && lo ≤ 16 && lo ≤ hi && hi ≤ 16 &&
  bitsOf h 175 171 ≤ 16 && bitsOf h 191 176 == 0 && bitsOf h 511 320 == 0 && bitsOf h 4095 1936 == 0 &&
  len == 512 + 16 * code + consts

/-- The key a SIGNER names, when the deckle may use it (order 2). -/
def State.signerKey (s : State) (d signer : Nat) : Option Nat :=
  match signer with
  | 0 => some (Config.fusedKey 1)
  | 1 => if s.part.bulk then none else (s.part.deckles.find d).bind (·.kernelKey)
  | _ => if s.part.bulk then s.sec.operatorKey else none

/-- Bundles of the tenant code area in use (R142). -/
def State.codeUsed (s : State) : Nat := (s.eng.kernels.map fun k => k.2.code.length).foldl (· + ·) 0

/-- Bytes of the kernel constant area in use (R142). -/
def State.constUsed (s : State) : Nat := (s.eng.kernels.map fun k => 64 * k.2.consts.length).foldl (· + ·) 0

/-- Reads and checks an image, and loads it. -/
def State.loadKernel (s : State) (p : KernelP) : State × Option Ans :=
  let bad := fun (s : State) (st : Status) (d : Nat) => (s, some { status := st, detail := d })
  if p.imagePva % 64 ≠ 0 ∨ p.imageLen < 512 then bad s .invalid 1
  else match s.readBytes p.deckle p.imagePva 512 with
    | (s1, .ok, h) =>
      if !kernelHeaderOk h p.imageLen then bad s1 .invalid 1
      else match s1.signerKey p.deckle (bitsOf h 55 48) with
        | none => bad s1 .noAccess 2
        | some key =>
          match s1.readBytes p.deckle (p.imagePva + 512) (p.imageLen - 512) with
          | (s2, .ok, body) =>
            let n := bitsOf h 79 64
            let code := (List.range n).map fun i => BitVec.ofNat 128 (bytesFrom body (16 * i) 16)
            let k : Kernel :=
              { deckle := p.deckle, signer := bitsOf h 55 48, code := code
                consts := linesOf (body >>> (128 * n)) (bitsOf h 112 96), constOffset := bitsOf h 148 128
                minEngines := bitsOf h 164 160, maxEngines := bitsOf h 169 165, gang := h.testBit 170
                windows := bitsOf h 175 171, estUj := bitsOf h 223 192, version := bitsOf h 255 224
                name := bitsOf h 319 256, digest := BitVec.ofNat 512 (bitsOf h 1023 512), unloading := false }
            if !Config.sigValid key (Config.shake256 (h % 2 ^ 1024) 128 512) (bitsOf h 1935 1024) ∨
                Config.shake256 body (p.imageLen - 512) 512 ≠ k.digest.toNat then bad s2 .integrity 1
            else match badBundle code with
              | some i => bad s2 .invalid (0x10000 + i)
              | none =>
                if 16 ≤ s2.eng.kernels.count (fun _ k => k.deckle == p.deckle) ∨ 10240 < s2.codeUsed + n ∨
                    33554432 < s2.constUsed + 64 * k.consts.length then bad s2 .busy 11
                else
                  let i := s2.eng.lastKernel + 1
                  ({ s2 with eng := { s2.eng with kernels := s2.eng.kernels.put i k, lastKernel := i } },
                    some (okFields 8 [(32, i), (32, 0)]))
          | (s2, st, _) => bad s2 st 0
    | (s1, st, _) => bad s1 st 0

/-- KERNEL_LOAD: code, length and what R27 checks of it first. -/
def kernelLoadCmd (p : KernelP) : Cmd :=
  { code := 0x0501, len := 24, rsvd := p.rsvd, own := some p.deckle, names := [p.deckle] }

/-- KERNEL_LOAD: its checks in order (R140). -/
def kernelLoadChecks (p : KernelP) : State → List Check :=
  fun s => [(s.deckleExists p.deckle, .invalid, 0)]

/-- KERNEL_LOAD: its effect (R140). -/
def kernelLoadAct (p : KernelP) : State → Nat → State × Option Ans :=
  fun s _ => s.loadKernel p

/-- KERNEL_LOAD (R140). -/
def execKernelLoad (q : Req) (p : KernelP) (s : State) : Host.Outcome State Fault Refusal :=
  .next (s.serve (.kernelLoad q p) (kernelLoadCmd p) q (kernelLoadChecks p) (kernelLoadAct p))

/-- KERNEL_UNLOAD: code, length and what R27 checks of it first. -/
def kernelUnloadCmd (p : KernelP) : Cmd :=
  { code := 0x0502, len := 8, rsvd := p.rsvd, own := some p.deckle, names := [p.deckle] }

/-- KERNEL_UNLOAD: its checks in order (R142). -/
def kernelUnloadChecks (p : KernelP) : State → List Check :=
  fun s => [(((s.eng.kernels.find p.handle).map fun k => k.deckle == p.deckle && !k.unloading).getD false, .invalid, 0)]

/-- KERNEL_UNLOAD: its effect (R142). -/
def kernelUnloadAct (p : KernelP) : State → Nat → State × Option Ans :=
  fun s _ =>
      ((({ s with eng := { s.eng with kernels := s.eng.kernels.upd p.handle fun k => { k with unloading := true } } }) :
        State).dropKernels, some okAns)

/-- KERNEL_UNLOAD (R142). -/
def execKernelUnload (q : Req) (p : KernelP) (s : State) : Host.Outcome State Fault Refusal :=
  .next (s.serve (.kernelUnload q p) (kernelUnloadCmd p) q (kernelUnloadChecks p) (kernelUnloadAct p))

/-! ## Admission (R143) -/

/-- Bits set of a core mask. -/
def maskCores (m : Nat) : List Nat := (List.range 32).filter fun i => m.testBit i

/-- The fields of a LAUNCH pass (order 2). -/
def State.launchFields (s : State) (d : Nat) (b : LaunchB) : Bool :=
  b.rsvd == 0 && !(b.gang && b.anyCore) && ((b.gang || b.anyCore) → b.core = 0) && b.core < 32 &&
  1 ≤ b.engines && b.engines ≤ 16 && b.windows ≤ 16 &&
  (if b.gang then 2 ≤ (maskCores b.coreMask).length else b.coreMask == 0) &&
  (b.capUs == 0 || (10 ≤ b.capUs && b.capUs ≤ 1000000)) && s.member d b.cplEp

/-- What a launch needs of its kernel: engines at least and at most, gang, windows, estimate in µJ. -/
structure KernelNeeds where
  lo      : Nat
  hi      : Nat
  gang    : Bool
  windows : Nat
  estUj   : Nat
  deriving Repr

/-- The kernel a launch names (order 3). -/
def State.kernelFor (s : State) (d handle : Nat) : Except (Status × Nat) KernelNeeds :=
  if 1 ≤ handle ∧ handle ≤ 5 then .error (.noAccess, 0)
  else if handle = 6 ∨ handle = 7 then .ok ⟨1, 16, false, 0, 0⟩
  else match s.eng.kernels.find handle with
    | some k =>
      if k.deckle ≠ d ∨ k.unloading then .error (.invalid, 1)
      else .ok ⟨k.minEngines, k.maxEngines, k.gang, k.windows, k.estUj⟩
    | none => .error (.invalid, 1)

/-- Ready cores. -/
def State.readyCores (s : State) : List Nat := (List.range 32).filter fun c => (s.core c).ready

/-- Launches queued on a core. -/
def State.queuedOn (s : State) (c : Nat) : Nat :=
  s.eng.work.count fun _ w => w.state == .queued && w.cores.contains c

/-- The device's choice of a core (R143): the lowest that can start now, else the lowest among those
with the fewest queued (log 35). -/
def State.chooseCore (s : State) (engines windows : Nat) : Option Nat :=
  let cs := s.readyCores
  let best := (cs.map s.queuedOn).foldl min (2 ^ 32)
  (cs.find? fun c => s.queuedOn c == 0 && s.canStart c engines windows).or (cs.find? fun c => s.queuedOn c == best)

/-- A new work item after energy admission (R269): queued, waiting for energy, or refused. -/
def State.admitWork (s : State) (h : Hdr) (kind : Nat) (w : Work) : State × Option Nat :=
  match s.admitEnergy w.deckle w.est with
  | (s1, .refuse st) => (s1.refuseWork h kind w.ctag st 0, none)
  | (s1, .wait) => let y := s1.addWork { w with state := .energyQueued }; (y.1, some y.2)
  | (s1, .go yellow) =>
    let y := s1.addWork { w with state := .queued, yellow := yellow, queue := if yellow then 60 else w.queue }
    (y.1, some y.2)

/-- A work item before its admission. -/
def mkWork (h : Hdr) (queue : Nat) (body : WorkBody) (cplEp ctag : Nat) (cores : List Nat) (engines capNs est : Nat) : Work :=
  { body := body, deckle := h.deckle, ep := h.ep, cplEp := cplEp, ctag := ctag, cls := h.cls, queue := queue, yellow := false,
    state := .queued, cores := cores, engines := engines, started := 0, capNs := capNs, est := est, tiles := 0,
    cause := none, after := [] }

/-- Admits a LAUNCH (R143). -/
def State.admitLaunch (s : State) (h : Hdr) (b : LaunchB) (queue : Nat) : State :=
  let no := fun st d => s.refuseWork h 0x0001 b.ctag st d
  if !s.deckleActive h.deckle then no .revoked 0
  else if !s.launchFields h.deckle b then no .invalid 0
  else match s.kernelFor h.deckle b.kernel with
    | .error e => no e.1 e.2
    | .ok k =>
      let win := if b.windows = 0 then k.windows else b.windows
      let named := if b.gang then maskCores b.coreMask else if b.anyCore then [] else [b.core]
      let room := fun c => win ≤ s.launchWindows c
      if b.engines < k.lo ∨ k.hi < b.engines ∨ (b.gang ∧ !k.gang) ∨ !(if b.anyCore then s.readyCores.any room else named.all room) ∨
          ((b.kernel = 6 ∨ b.kernel = 7) ∧ b.windows ≠ 0) then
        no .invalid 2
      else if (s.workNamed h.deckle b.cplEp b.ctag).any (fun w => ((s.eng.work.find w).map fun x => match x.body with
          | .launch _ => true
          | _ => false).getD false) then no .invalid 3
      else
        let cores := if b.anyCore then (s.chooseCore b.engines win).toList else named
        if cores.isEmpty || !cores.all (fun c => (s.core c).ready) then no .notReady 0
        else if cores.any fun c => 4096 ≤ s.queuedOn c then no .busy 0
        else
          let est := (if b.estUj = 0 then k.estUj else b.estUj) * 1000000
          (s.admitWork h 0x0001 (mkWork h queue (.launch { b with windows := win }) b.cplEp b.ctag cores b.engines
            ((if b.capUs = 0 then 10000 else b.capUs) * 1000) est)).1

/-- LAUNCH (R143). -/
def execLaunch (h : Hdr) (b : LaunchB) (s : State) : Host.Outcome State Fault Refusal :=
  .next (s.workGate h 0x0001 b.ctag 320 fun s q _ => s.admitLaunch h b q)

/-! ## Start (R121, R144, R145) -/

/-- Windows per core an item needs. -/
def Work.windows (x : Work) : Nat := match x.body with | .launch b => b.windows | _ => 0

/-- Every core of an item can start it, and what it must follow has ended. -/
def State.startable (s : State) (w : Nat) (x : Work) : Bool :=
  x.state == .queued && x.after.isEmpty && !s.aheadOf w x && x.cores.all fun c => s.canStart c x.engines x.windows

/-- Queues in the order the core scheduler serves them: strict, weighted, yellow (R121, R269). -/
def queueRank (q : Nat) : Nat := if q < 4 then q else if q < 60 then 4 else 5

/-- A startable item of a queue served earlier wants one of the cores. -/
def State.outranked (s : State) (w : Nat) (x : Work) : Bool :=
  s.eng.work.any fun y => y.1 != w && queueRank y.2.queue < queueRank x.queue && s.startable y.1 y.2 &&
    y.2.cores.any fun c => x.cores.contains c

/-- The engine state a launch begins with (R144). -/
def State.launchInit (s : State) (b : LaunchB) (e : Engine) : Engine :=
  let m := putStoreBytes e.store engineBytes 0x1FFF00 256 b.args.toNat (ones 2048)
  match s.eng.kernels.find b.kernel with
  | some k =>
    let n := (k.consts.zip (List.range k.consts.length)).foldl (fun a x => putStoreLine a (k.constOffset / 64 + x.2) x.1) m
    { e with store := n }
  | none => { e with store := m }

/-- Starts a queued item on its cores. -/
def State.startWork (s : State) (w : Nat) (x : Work) : State :=
  let init : Engine → Engine := match x.body with
    | .launch b => s.launchInit b
    | _ => id
  let s1 := x.cores.foldl (fun a c => (a.startEngines w x.deckle c x.engines init).startWindows w x.deckle c x.windows) s
  s1.modWork w fun y => { y with state := .running, started := s.now }

/-- LAUNCH_START (R121): a queued item whose engines and windows are free, the first of its queue. -/
def execLaunchStart (work : Nat) (s : State) : Host.Outcome State Fault Refusal :=
  .next <| s.unlessTripped <| match s.eng.work.find work with
  | some x => if s.startable work x && !s.outranked work x then s.startWork work x else s
  | none => s

/-! ## Stream tiles (R137–R139) -/

/-- The stream of a slot with its work item, when it has a tile to move. -/
def State.streamAt (s : State) (c e slot : Nat) : Option (Nat × Work × Stream) :=
  let x := s.engine c e
  x.work.bind fun w => (s.eng.work.find w).bind fun k => (x.slots.find slot).bind fun st =>
    if st.tiles.isEmpty then none else some (w, k, st)

/-- Changes a stream slot. -/
def State.modSlot (s : State) (c e slot : Nat) (f : Stream → Stream) : State :=
  let x := s.engine c e
  s.setEngine c e { x with slots := x.slots.upd slot f }

/-- The walk of a slot's head tile completes (R104): it may start, waits on a fault record, or stops
its launch. Core-store tiles need none. -/
def State.walkStream (s : State) (c e slot : Nat) : State :=
  match s.streamAt c e slot with
  | none => s
  | some (w, k, st) =>
    if st.core || st.refs.isSome || st.fault.isSome || k.cause.isSome then s
    else
      let lines := remoteLines (st.tiles.headD [])
      let y := if st.op = .wr then s.tileStart w k.deckle ⟨c, e, slot, false⟩ [] lines
        else s.tileStart w k.deckle ⟨c, e, slot, false⟩ lines []
      match y.2 with
      | (some r, _) => y.1.modSlot c e slot fun t => { t with refs := some (r.1 ++ r.2) }
      | (none, some i) => y.1.modSlot c e slot fun t => { t with fault := some i }
      | _ => y.1

/-- The slot's head tile has landed. Once its launch has stopped no other follows (R147). -/
def State.landed (s : State) (c e slot w : Nat) (mseq : Option Nat) : State :=
  let stop := ((s.eng.work.find w).map fun k => k.cause.isSome).getD true
  (s.modSlot c e slot fun t =>
    { t with tiles := if stop then [] else t.tiles.drop 1, refs := none, mseq := max t.mseq (mseq.getD 0) }).modWork w fun k =>
      { k with tiles := k.tiles + 1 }

/-- Lines of an engine store in the order of a tile's local addresses. -/
def Engine.putLines (x : Engine) (at_ : List Nat) (data : List Line) : Engine :=
  let idx := at_.map fun l => l % 32768
  { x with store := (idx.zip data).foldl (fun a y => putStoreLine a y.1 y.2) x.store
           badWords := x.badWords.filter fun w => !idx.contains (w / 8) }

/-- A tile between the engine store and the launch's windows of the core store (SPACE 1, R119). -/
def State.landCore (s : State) (c e slot w : Nat) (st : Stream) (t : List Piece) : State :=
  let wins := s.windowsOf c w
  let at_ := (remoteLines t).map fun l => wins.getD (l / 32768) 16 * 32768 + l % 32768
  let x := s.engine c e
  if st.op = .wr then
    let fr := Config.freeNat s.free
    let s1 := { s with free := s.free + 1 }
    if (localLines t).any fun l => x.badAt (l % 32768 * 64) 64 then s1.stopWork w .uncorrectable 0
    else
      let data := (localLines t).map fun l => BitVec.ofNat 512 (x.readMem (l % 32768 * 64) 64 fr)
      (s1.modCore c fun k => { k with store := (at_.zip data).foldl (fun a y => putStoreLine a y.1 y.2) k.store }).landed c e slot w none
  else
    let data := at_.map fun l => storeLineAt (s.core c).store l
    (s.setEngine c e (x.putLines (localLines t) data)).landed c e slot w none

/-- A tile between the engine store and memory lands whole (R12, R138), or its failure stops the
launch. A tile on an extent in revocation is the last (Table 4.14). -/
def State.landTile (s : State) (c e slot w : Nat) (k : Work) (st : Stream) (t : List Piece) (refs : List LineRef) : State :=
  let x := s.engine c e
  let last := fun (s : State) =>
    let rv := s.revokingIn refs
    if rv.isEmpty then s else (s.countStop rv).stopWork w .revoked 0
  if st.op = .wr then
    let fr := Config.freeNat s.free
    let s1 := { s with free := s.free + 1 }
    if s1.tileWaits refs then s1
    else if !refs.all s1.liveRef then s1.stopWork w .revoked 0
    else if (localLines t).any fun l => x.badAt (l % 32768 * 64) 64 then s1.stopWork w .uncorrectable 0
    else
      let data := (localLines t).map fun l => BitVec.ofNat 512 (x.readMem (l % 32768 * 64) 64 fr)
      let y := s1.writeTile refs data k.cls
      last (y.1.landed c e slot w y.2)
  else
    match s.readTile refs k.cls with
    | (s1, .data _, ls) => last ((s1.setEngine c e (x.putLines (localLines t) ls)).landed c e slot w none)
    | (s1, .fail r, _) => (s1.modSlot c e slot fun t => { t with refs := none, tiles := [] }).stopWork w r 0
    | (s1, _, _) => s1

/-- STREAM_TILE_LAND (R138): the slot's head tile, translated here when its pages hit. -/
def execStreamTileLand (core engine slot : Nat) (s : State) : Host.Outcome State Fault Refusal :=
  .next <| s.unlessTripped <|
    let s0 := s.walkStream core engine slot
    match s0.streamAt core engine slot with
    | none => s0
    | some (w, k, st) =>
      let t := st.tiles.headD []
      if st.core then s0.landCore core engine slot w st t
      else match st.refs with
        | some refs => s0.landTile core engine slot w k st t refs
        | none => s0

/-- STREAM_SLOT_COMPLETE (R139): every tile has landed, and every line a write slot wrote is visible,
the standby's apply included. An engine that issued HALT ends with its last slot (R133). -/
def execStreamSlotComplete (core engine slot : Nat) (s : State) : Host.Outcome State Fault Refusal :=
  .next <| s.unlessTripped <|
    let x := s.engine core engine
    match x.slots.find slot with
    | some st =>
      if !st.tiles.isEmpty || (s.mirrors && s.pair.acked < st.mseq) then s
      else
        let slots := x.slots.del slot
        s.setEngine core engine { x with slots := slots, ended := x.ended || (x.halting && slots.isEmpty) }
    | none => s

/-! ## Built-in kernels (R149) -/

/-- The waiter of a built-in kernel's tile: the first engine of its launch. -/
def State.firstEngine (s : State) (w : Nat) (x : Work) : Waiter :=
  let k := (s.enginesOf w).headD 0
  ⟨x.cores.headD 0, k % 16, 0, false⟩

/-- The item's tile waits on an open fault record. -/
def State.waiting (s : State) (u : Waiter) : Bool := s.xlat.faults.any fun f => f.2.waiters.contains u

/-- Reads one side of a work item's tile. -/
def State.readSide (s : State) (w : Nat) (x : Work) (u : Waiter) (lines : List Nat) : State × Option (List Line) :=
  match s.tileStart w x.deckle u lines [] with
  | (s1, some r, _) =>
    match s1.readTile r.1 x.cls with
    | (s2, .data _, ls) => (s2, some ls)
    | (s2, .fail st, _) => (s2.stopWork w st 0, none)
    | (s2, _, _) => (s2, none)
  | (s1, none, _) => (s1, none)

/-- Moves one tile of a work item: reads its source and writes what `f` makes of it. Answers what it
read when it landed. -/
def State.moveTile (s : State) (w : Nat) (x : Work) (u : Waiter) (src dst : List Nat) (f : List Line → List Line) :
    State × Option (List Line) :=
  match s.tileStart w x.deckle u src dst with
  | (s1, some r, _) =>
    if s1.tileWaits r.2 then (s1, none)
    else match s1.readTile r.1 x.cls with
      | (s2, .data _, ls) =>
        let y := s2.writeTile r.2 (f ls) x.cls
        (y.1.modWork w fun k => { k with pos := k.pos + 1, mseq := max k.mseq (y.2.getD 0) }, some ls)
      | (s2, .fail st, _) => (s2.stopWork w st 0, none)
      | (s2, _, _) => (s2, none)
  | (s1, none, _) => (s1, none)

/-- Lines that hold `n` bytes from an address. -/
def bytesLines (pva n : Nat) : List Nat := lineRun pva (cdiv (pva % 64 + n) 64)

/-- GATHER_ROWS (Table 8.21): item `pos` on, `n` items at most. -/
def State.gatherRows (s : State) (w : Nat) (u : Waiter) (a : Nat) : Nat → State
  | 0 => s
  | n + 1 =>
    match s.eng.work.find w with
    | none => s
    | some x =>
      let src := bitsOf a 55 0
      let idx := bitsOf a 119 64 + 4 * x.pos
      let dst := bitsOf a 183 128
      let rb := bitsOf a 208 192
      match s.readSide w x u (bytesLines idx 4) with
      | (s1, none) => s1
      | (s1, some ls) =>
        let i := bytesFrom (lineNat ls) (idx % 64) 4
        if bitsOf a 287 256 ≤ i then
          (s1.modWork w fun k => { k with pos := k.pos + 1, skipped := k.skipped + 1 }).gatherRows w u a n
        else
          let y := s1.moveTile w x u (lineRun (src + i * rb) (rb / 64)) (lineRun (dst + x.pos * rb) (rb / 64)) id
          if y.2.isSome then y.1.gatherRows w u a n else y.1

/-- The arguments of GATHER_ROWS pass. -/
def gatherArgsOk (a : Nat) : Bool :=
  let rb := bitsOf a 208 192
  bitsOf a 63 56 == 0 && bitsOf a 127 120 == 0 && bitsOf a 191 184 == 0 && bitsOf a 223 209 == 0 && bitsOf a 2047 288 == 0 &&
  64 ≤ rb && rb ≤ 65536 && rb % 64 == 0 && 1 ≤ bitsOf a 255 224 && bitsOf a 255 224 ≤ 1048576

/-- The arguments of CONVERT pass (Table 8.22). -/
def convertArgsOk (a : Nat) : Bool :=
  let sc := bitsOf a 164 160
  let dc := bitsOf a 172 168
  bitsOf a 63 56 == 0 && bitsOf a 127 120 == 0 && bitsOf a 167 165 == 0 && bitsOf a 2047 174 == 0 &&
  bitsOf a 159 128 % 256 == 0 && (sc ≤ 0x0A || sc == 0x1F) && ((0x10 ≤ dc && dc ≤ 0x19) || dc == 0x1F) &&
  (!a.testBit 173 || dc == 0x15 || dc == 0x16 || dc == 0x19)

/-- One element of CONVERT, with the VSTAT bits it sets. -/
def convertElem (sc dc : Nat) (trunc : Bool) (x : Nat) : Nat × Nat :=
  if sc = dc then (x, 0)
  else
    let v := if sc = 0x1F then Fmt.fp32.decode x else widen sc x
    if dc = 0x1F then Fmt.fp32.result v else narrowTo dc trunc v

/-- CONVERT (Table 8.22): 256 elements a tile (log 36), `n` tiles at most. -/
def State.convertRun (s : State) (w : Nat) (u : Waiter) (a : Nat) : Nat → State
  | 0 => s
  | n + 1 =>
    match s.eng.work.find w with
    | none => s
    | some x =>
      let sc := bitsOf a 164 160
      let dc := bitsOf a 172 168
      let sw := if sc = 0x1F then 32 else widenWidth sc
      let dw := if dc = 0x1F then 32 else narrowWidth dc
      let one := fun (v : Nat) => elems 256 dw (fun _ => true) fun i => convertElem sc dc (a.testBit 173) (elem v sw i)
      let src := lineRun (bitsOf a 55 0 + x.pos * 32 * sw) (sw / 2)
      let dst := lineRun (bitsOf a 119 64 + x.pos * 32 * dw) (dw / 2)
      let y := s.moveTile w x u src dst fun ls => linesOf (one (lineNat ls)).1 (32 * dw)
      match y.2 with
      | some ls =>
        let z := y.1.engine u.core u.unit
        (y.1.setEngine u.core u.unit (z.flag (one (lineNat ls)).2)).convertRun w u a n
      | none => y.1

/-- Runs a built-in kernel to its end, its next fault or its stop. -/
def State.runBuiltin (s : State) (w : Nat) (x : Work) (b : LaunchB) : State :=
  let a := b.args.toNat
  let u := s.firstEngine w x
  if x.cause.isSome || s.waiting u then s
  else if b.kernel = 6 then
    if !gatherArgsOk a then s.stopWork w .invalid 4
    else if bitsOf a 5 0 ≠ 0 ∨ bitsOf a 133 128 ≠ 0 then s.stopWork w .align 0
    else s.gatherRows w u a (bitsOf a 255 224 - x.pos)
  else if !convertArgsOk a then s.stopWork w .invalid 4
  else if bitsOf a 5 0 ≠ 0 ∨ bitsOf a 69 64 ≠ 0 then s.stopWork w .align 0
  else s.convertRun w u a (bitsOf a 159 128 / 256 - x.pos)

/-- Items of a built-in kernel. -/
def builtinItems (b : LaunchB) : Nat :=
  if b.kernel = 6 then bitsOf b.args.toNat 255 224 else bitsOf b.args.toNat 159 128 / 256

/-- The launch is one of the built-in library. -/
def LaunchB.builtin (b : LaunchB) : Bool := b.kernel == 6 || b.kernel == 7

/-! ## Completion (R146, R147) -/

/-- The completion of a launch (Table 8.17). -/
def State.launchCpl (s : State) (w : Nat) (x : Work) (b : LaunchB) (nj : Nat) (fr : Nat → Nat) : Nat :=
  let es := (s.enginesOf w).map fun k => (k, s.engine (k / 16) (k % 16))
  let zero := ((es.filter fun e => e.1 / 16 == x.cores.headD 0).head?).map (·.2)
  let halted := (zero.map (·.halting)).getD false
  let started := x.state == .running
  let bi := LaunchB.builtin b
  let r := fun (n : Nat) => if !started then 0 else match zero with
    | some e => if halted then e.readS n 0 else fr n % 2 ^ 64
    | none => 0
  let c := x.cause.getD (.ok, 0)
  pack [(16, 0x0001), (8, statusCode c.1), (8, 0), (32, x.ctag), (16, if halted then (zero.map (·.kcode)).getD 0 else 0),
    (5, (es.map fun e => e.2.vstat.toNat).foldl (· ||| ·) 0), (11, 0),
    (32, if bi && started then fr 3 else x.tiles), (32, c.2), (32, if started then sat 32 (s.now - x.started) else 0),
    (64, if bi && b.kernel = 6 then x.skipped else r 1), (64, r 2), (64, nj),
    (64, if bi && started then fr 4 else (es.map fun e => e.2.cycles).foldl (· + ·) 0), (5, x.cores.headD 0), (59, 0)]

/-- Ends a work item: its measurement replaces its estimate (R269), its engines and windows are free,
and what waited for it may start. -/
def State.closeWork (s : State) (w : Nat) (x : Work) (nj : Nat) : State :=
  let s1 := ((s.settleEnergy x.deckle x.yellow x.est nj).freeWork w).dropKernels
  ({ s1 with eng := { s1.eng with work := s1.eng.work.each fun _ y =>
      { y with after := y.after.filter (· != w) } } }).mirrorItem (workItem x) true

/-- Ends a work item with its completion on VC4. -/
def State.endWork (s : State) (w : Nat) (x : Work) (nj : Nat) (body : Nat) : State :=
  (s.closeWork w x nj).sendCpl x.cplEp x.deckle x.cls x.queue body

/-- Ends a work item with a completion that waits until what it wrote is applied by the standby. -/
def State.finishWork (s : State) (w : Nat) (x : Work) (nj body : Nat) : State :=
  if s.mirrors && s.pair.acked < x.mseq then s.modWork w fun _ => { x with ready := some (body, nj) }
  else s.endWork w x nj body

/-- Ends a launch with its completion. -/
def State.endLaunch (s : State) (w : Nat) (x : Work) (b : LaunchB) : State :=
  let m := if x.state == .running then s.measure else (0, s)
  let fr := fun i => Config.freeNat (m.2.free + i)
  ({ m.2 with free := m.2.free + 5 }).endWork w x m.1 (m.2.launchCpl w x b m.1 fr)

/-- LAUNCH_COMPLETE (R146): the last engine has ended, or the launch stopped. -/
def execLaunchComplete (work : Nat) (s : State) : Host.Outcome State Fault Refusal :=
  .next <| s.unlessTripped <| match s.eng.work.find work with
  | some x0 =>
    match x0.body with
    | .launch b =>
      if x0.state ≠ .running then (if x0.cause.isSome then s.endLaunch work x0 b else s)
      else
        let s1 := if LaunchB.builtin b then s.runBuiltin work x0 b else s
        match s1.eng.work.find work with
        | none => s1
        | some x =>
          let all := if LaunchB.builtin b then x.pos == builtinItems b && !(s1.mirrors && s1.pair.acked < x.mseq)
            else (s1.enginesOf work).all fun k => (s1.engine (k / 16) (k % 16)).ended
          if x.cause.isSome || all then s1.endLaunch work x b else s1
    | _ => s
  | none => s

/-- WORK_TIME_CAP (R147): a running launch, step or query reaches its cap. -/
def execWorkTimeCap (work : Nat) (s : State) : Host.Outcome State Fault Refusal :=
  .next <| match s.eng.work.find work with
  | some x =>
    match x.body with
    | .launch _ | .step .. | .topk .. =>
      if x.state == .running then (s.reach (x.started + x.capNs)).stopWork work .killed 0 else s
    | _ => s
  | none => s

end Sys2Proof.Machine
end

