-- ==== Sys2Proof/Machine/FormOps.lean ====
section
/-! DEFINITION. Formed values (R168, R174–R176): storage and output formats, the elements of a
tensor slice, adapters, and the bytes of a formed tile; the binding and validity of a FORM
program; the adapter cache (R173). -/

namespace Sys2Proof.Machine

/-! ## Formats (Tables 10.4 and 10.8) -/

/-- Bits of a stored element; a Slate-3 index has 3. -/
def storeWidth (f : Nat) : Nat := [8, 8, 8, 8, 6, 6, 4, 8, 8, 4, 3].getD f 8

/-- A storage format has a scale per 32 elements. -/
def storeMx (f : Nat) : Bool := 2 ≤ f && f ≤ 7

/-- Bytes of a row record for C columns. -/
def recordBytes (f c : Nat) : Nat :=
  if f = 10 then 25 * c / 64 else storeWidth f * c / 8 + (if storeMx f then c / 32 else 0)

/-- Bytes between row records (R168). -/
def recordPitch (f c : Nat) : Nat := up64 (recordBytes f c)

/-- Bits of an output element. -/
def outWidth (f : Nat) : Nat := [8, 8, 16, 16, 8, 8, 6, 6, 4, 8].getD f 8

/-- An output format has a scale per 32 elements. -/
def outMx (f : Nat) : Bool := 4 ≤ f

/-- Bytes of an output row of N elements. -/
def outRowBytes (f n : Nat) : Nat := outWidth f * n / 8 + (if outMx f then n / 32 else 0)

/-- The narrowing code of an output format's element. -/
def outCode (f : Nat) : Nat := [0x10, 0x11, 0x17, 0x18, 0x10, 0x11, 0x12, 0x13, 0x14, 0x15].getD f 0

/-- e_max of an output format (Table 7.7). -/
def outEmax (f : Nat) : Nat := [0, 0, 0, 0, 8, 15, 4, 2, 2, 0].getD f 0

/-- An FP32 code is finite. -/
def finite32 (x : BitVec 32) : Bool := x.toNat / 2 ^ 23 % 256 != 255

/-! ## Slices (R168) -/

/-- Rows and columns of a device's slice. -/
def tensorDims (e : TensorEntry) (slices : Nat) : Nat × Nat :=
  if e.axisCols then (e.rows, e.cols / slices) else (e.rows / slices, e.cols)

/-- Bytes of a slice in its version. -/
def sliceBytes (e : TensorEntry) (slices : Nat) : Nat :=
  let d := tensorDims e slices
  recordPitch e.format d.2 * (d.1 - 1) + recordBytes e.format d.2

/-! ## Stored elements (R123–R126) -/

/-- The bytes of a row that a block of columns needs: elements and scales from the first column. -/
structure RowSrc where
  el : Nat
  sc : Nat
  deriving Inhabited

/-- Offsets and lengths in a record of the elements and scales of columns c0 to c1, multiples of 64. -/
def rowSpans (f c c0 c1 : Nat) : List (Nat × Nat) :=
  if f = 10 then [(c0 / 64 * 25, (c1 - c0) / 64 * 25)]
  else (storeWidth f * c0 / 8, storeWidth f * (c1 - c0) / 8) ::
    (if storeMx f then [(storeWidth f * c / 8 + c0 / 32, (c1 - c0) / 32)] else [])

/-- Value of a stored element at a column of a row's bytes. -/
def storedValue (e : TensorEntry) (r : RowSrc) (j : Nat) : Fp :=
  let f := e.format
  if f = 10 then
    let blk := r.el >>> (200 * (j / 64))
    let idx := elem (blk % 2 ^ 192) 3 (j % 64)
    ((Fmt.e4m3.decode (byteOf blk 24)).mul (Fmt.bf16.decode (elem e.codebook.toNat 16 idx))).1
  else
    let x := elem r.el (storeWidth f) j
    let v : Fp := match f with
      | 0 | 2 => Fmt.e4m3.decode x
      | 1 | 3 => Fmt.e5m2.decode x
      | 4 => Fmt.e3m2.decode x
      | 5 => Fmt.e2m3.decode x
      | 6 => Fmt.e2m1.decode x
      | 7 => (Fp.ofInt (signedOf 8 x)).scale (-6)
      | 8 => Fp.ofInt (signedOf 8 x)
      | _ => Fp.ofInt (signedOf 4 x)
    if storeMx f then
      let sc := byteOf r.sc (j / 32)
      if sc = 255 then .nan false else v.scale ((sc : Int) - 127)
    else v

/-! ## Adapters (R172, R175) -/

/-- An element of a resident part: of B, or of A when `inA`. FP8 widens exactly. -/
def partElem (p : CachePart) (fp8 inA : Bool) (i : Nat) : Fp :=
  let at_ := (if inA then p.bBytes else 0) + (if fp8 then i else 2 * i)
  let l := (p.data.getD (at_ / 64) 0#512).toNat >>> (8 * (at_ % 64))
  if fp8 then Fmt.e4m3.decode (l % 256) else Fmt.bf16.decode (l % 65536)

/-- m = Σ B[i][k] × A[k][j], each product exact, the sum in FP32 (R111, R175). -/
def adapterSum (p : CachePart) (fp8 : Bool) (rank cols i j : Nat) : Fp :=
  Fmt.fp32.decode ((List.range rank).foldl (fun s k =>
    (addTerms s [(partElem p fp8 false (i * rank + k)).mul (partElem p fp8 true (k * cols + j))]).1) 0)

/-! ## Formed bytes (R175, R176) -/

/-- Output rows of a program and the elements of each (R174). -/
def formShape (f : FormProg) : Nat × Nat := if f.transpose then (f.cols, f.rows) else (f.rows, f.cols)

/-- Output rows in a tile. -/
def formTileRows (f : FormProg) : Nat := 65536 / f.outPitch

/-- Tiles of a program. -/
def formTiles (f : FormProg) : Nat := cdiv (formShape f).1 (formTileRows f)

/-- Output rows of tile `t`: first and count. -/
def formTileSpan (f : FormProg) (t : Nat) : Nat × Nat :=
  (t * formTileRows f, min (formTileRows f) ((formShape f).1 - t * formTileRows f))

/-- Element (i, j) of the slice as formed (R175); `r` is its row's bytes from column `c0`. -/
def formElem (b : FormBind) (p : Option CachePart) (r : RowSrc) (c0 i j : Nat) : Fp :=
  let w := Fmt.fp32.decode (Fmt.fp32.result ((Fmt.fp32.decode b.entry.tscale.toNat).mul (storedValue b.entry r (j - c0))).1).1
  match b.part, p with
  | some (rank, fp8, alpha, _, _), some p =>
    let m := adapterSum p fp8 rank (tensorDims b.entry b.slices).2 i j
    Fmt.fp32.decode (Fmt.fp32.result (((Fmt.fp32.decode alpha.toNat).mul m).1.add w).1).1
  | _, _ => w

/-- The bytes of an output row (Table 10.8, R127, R128). A block without a finite value has no stated
scale: `fr` stands for it. -/
def outRow (f n : Nat) (val : Nat → Fp) (fr : Nat) : Nat :=
  let w := outWidth f
  if !outMx f then (elems n w (fun _ => true) fun k => narrowTo (outCode f) false (val k)).1
  else
    let scale := fun b => (mxScale (outEmax f) ((List.range 32).map fun k => val (32 * b + k))).getD ((fr >>> (8 * b)) % 256)
    let one := fun k =>
      let x := scale (k / 32)
      if x = 255 then (0, 0)
      else narrowTo (outCode f) false ((val k).scale (127 - (x : Int) + if f = 9 then 6 else 0))
    (elems n w (fun _ => true) one).1 + 2 ^ (w * n) * (elems (n / 32) 8 (fun _ => true) fun b => (scale b, 0)).1

/-- The bytes of a formed tile: output rows one pitch apart, padded with zero (R176). -/
def formTile (b : FormBind) (f : FormProg) (p : Option CachePart) (rows : Nat → RowSrc) (c0 t fr : Nat) : Nat :=
  let sp := formTileSpan f t
  concatBytes f.outPitch ((List.range sp.2).map fun q =>
    outRow f.outFmt (formShape f).2 (fun k =>
      let i := f.row0 + (if f.transpose then k else sp.1 + q)
      let j := f.col0 + (if f.transpose then sp.1 + q else k)
      formElem b p (rows (i - f.row0)) c0 i j) fr)

/-- Slice columns a tile reads, in blocks of 64, and its window rows: first column, end, rows. -/
def formWindow (f : FormProg) (t : Nat) : Nat × Nat × List Nat :=
  let sp := formTileSpan f t
  if f.transpose then ((f.col0 + sp.1) / 64 * 64, cdiv (f.col0 + sp.1 + sp.2) 64 * 64, List.range f.rows)
  else (f.col0, f.col0 + f.cols, (List.range sp.2).map fun q => sp.1 + q)

/-- PVA of a slice row's record. -/
def FormBind.rowPva (b : FormBind) (i : Nat) : Nat :=
  b.basePva + b.entry.offset + i * recordPitch b.entry.format (tensorDims b.entry b.slices).2

/-- Line addresses of a row that a tile reads. -/
def rowLinesOf (b : FormBind) (f : FormProg) (t i : Nat) : List Nat :=
  let w := formWindow f t
  ((rowSpans b.entry.format (tensorDims b.entry b.slices).2 w.1 w.2.1).flatMap fun s =>
    bytesLines (b.rowPva (f.row0 + i) + s.1) s.2).eraseDups

/-- Line addresses that forming a tile reads. -/
def formLines (b : FormBind) (f : FormProg) (t : Nat) : List Nat := (formWindow f t).2.2.flatMap fun i => rowLinesOf b f t i

/-- `n` bytes at an address among lines that were read. -/
def bytesIn (src : List (Nat × Line)) (pva n : Nat) : Nat :=
  bytesFrom (lineNat ((bytesLines pva n).map fun l => ((src.find? fun x => x.1 == l).map (·.2)).getD 0#512)) (pva % 64) n

/-- The rows of a tile from the lines that were read, in the order of `formLines`. -/
def formRows (b : FormBind) (f : FormProg) (t : Nat) (data : List Line) : List (Nat × RowSrc) :=
  let w := formWindow f t
  let spans := rowSpans b.entry.format (tensorDims b.entry b.slices).2 w.1 w.2.1
  (w.2.2.foldl (fun (a : List (Nat × RowSrc) × List Line) i =>
    let ls := rowLinesOf b f t i
    let src := ls.zip (a.2.take ls.length)
    let get := fun k => match spans[k]? with
      | some s => bytesIn src (b.rowPva (f.row0 + i) + s.1) s.2
      | none => 0
    ((i, ⟨get 0, get 1⟩) :: a.1, a.2.drop ls.length)) ([], data)).1

/-- The bytes of tile `t` from the lines read for it. -/
def formedTile (b : FormBind) (f : FormProg) (p : Option CachePart) (t : Nat) (data : List Line) (fr : Nat) : Nat :=
  let rs := formRows b f t data
  formTile b f p (fun i => ((rs.find? fun x => x.1 == i).map (·.2)).getD default) (formWindow f t).1 t fr

/-! ## Programs (R174, R177) -/

/-- Fields and rsvd bits of a program pass (Table 10.7). -/
def progFieldsOk (f : FormProg) : Bool :=
  f.rsvd == 0 && f.outFmt ≤ 9 && finite32 f.alpha && 1 ≤ f.rows && f.rows ≤ 65535 && f.col0 % 64 == 0 && f.cols % 64 == 0 &&
  64 ≤ f.outPitch && f.outPitch ≤ 65536 && f.outPitch % 64 == 0 && f.engines ≤ 16

/-- The shape of a program fits the slice (R174). -/
def progShapeOk (f : FormProg) (dims : Nat × Nat) : Bool :=
  f.row0 + f.rows ≤ dims.1 && f.col0 + f.cols ≤ dims.2 && (formShape f).1 ≤ 65535 && outRowBytes f.outFmt (formShape f).2 ≤ f.outPitch &&
  !(f.transpose && outMx f.outFmt && f.rows % 32 != 0) && !(f.transpose && f.adapter != 0)

/-- A deckle may use a region: it owns it or is a grantee (R82). -/
def State.regionOpen (s : State) (d region : Nat) : Bool :=
  ((s.rgn.regions.find region).map fun r => r.deckle == d || r.grantees.contains d).getD false

/-- A registered adapter of a map. -/
def State.adapter (s : State) (uid id : Nat) : Option Adapter := s.form.adapters.find? fun a => a.mapUid == uid && a.id == id

/-- Binds a program for a deckle (R177, orders 2 and 3): the binding, or the refusal. -/
def State.bindForm (s : State) (d : Nat) (f : FormProg) : Except Status FormBind :=
  match progFieldsOk f, s.form.maps.find f.mapUid with
  | true, some m =>
    match m.tensors.find? fun t => t.layer == f.layer && t.tensor == f.tensor with
    | none => .error .invalid
    | some e =>
      let ad := if f.adapter = 0 then none else s.adapter f.mapUid f.adapter
      let en := ad.bind fun a => (a.entries.find? fun x => x.layer == f.layer && x.tensor == f.tensor).map fun x => (a, x)
      if !progShapeOk f (tensorDims e m.slices) || (f.adapter != 0 && en.isNone) || 67108864 < (formShape f).1 * f.outPitch then .error .invalid
      else if m.deckle ≠ d ∧ !((m.pins.map (·.1) ++ (ad.map (·.region)).toList).all fun r => s.regionOpen d r) then
        .error .noAccess
      else
        let pin := m.pins.getD e.pin (0, 0, 0)
        .ok { owner := m.deckle, entry := e, slices := m.slices, basePva := pin.2.2
              part := en.map fun x => (x.1.rank, x.1.fp8, if f.alpha = 0#32 then x.1.alpha else f.alpha,
                x.1.basePva + x.2.bOff, x.1.basePva + x.2.aOff)
              pins := m.pins.map (fun p => (p.1, p.2.1)) ++ (ad.map fun a => (a.region, a.version)).toList }
  | _, _ => .error .invalid

/-- Engines a program takes. -/
def formEngines (f : FormProg) : Nat := if f.engines = 0 then 16 else f.engines

/-- Dequantise and emit cycles per 256 elements (Tables 10.4 and 10.8). -/
def storeCycles (f : Nat) : Nat := if storeMx f || f = 10 then 3 else 2
def outCycles (f : Nat) : Nat := if outMx f then 2 else 1

/-- Estimate of a program in pJ (R269, Table 1.10, log 37): its source lines, part lines, array and
vector cycles, and the flits of what it emits. -/
def formEstimate (b : FormBind) (f : FormProg) (flits : Bool) : Nat :=
  let c := (tensorDims b.entry b.slices).2
  let lines := f.rows * ((rowSpans b.entry.format c f.col0 (f.col0 + f.cols)).map fun s => cdiv s.2 64).foldl (· + ·) 0
  let units := cdiv (f.rows * f.cols) 256
  let ad := match b.part with
    | some (rank, fp8, _) =>
      let z := if fp8 then 1 else 2
      (cdiv (z * rank * f.rows) 64 + cdiv (z * rank * f.cols) 64, cdiv rank 32)
    | none => (0, 0)
  let v := storeCycles b.entry.format + outCycles f.outFmt + (if b.part.isSome then 2 else 0)
  lines * 900 + ad.1 * 350 + units * 16 * ad.2 * 85 + units * v * 60 +
    (if flits then cdiv ((formShape f).1 * f.outPitch) 240 * 3100 else 0)

/-! ## The adapter cache (R173) -/

/-- The cached part a bound program names. -/
def State.partOf (s : State) (b : FormBind) (f : FormProg) : Option CachePart :=
  match b.part with
  | none => none
  | some (_, _, _, bp, ap) => s.form.cache.find? fun p => p.mapUid == f.mapUid && p.adapter == f.adapter &&
      p.layer == f.layer && p.tensor == f.tensor && p.bPva == bp && p.aPva == ap

/-- Bytes of B and of A of an adapter's part, each rounded up to 64. -/
def partBytes (e : TensorEntry) (slices rank : Nat) (fp8 : Bool) : Nat × Nat :=
  let d := tensorDims e slices
  let z := if fp8 then 1 else 2
  (up64 (d.1 * rank * z), up64 (rank * d.2 * z))

/-- A part is wanted: one that is cached becomes the most recently used, another starts to load. -/
def State.wantPart (s : State) (p : CachePart) : State :=
  let same := fun (q : CachePart) => !q.gone && q.mapUid == p.mapUid && q.adapter == p.adapter && q.layer == p.layer &&
    q.tensor == p.tensor && q.bPva == p.bPva && q.aPva == p.aPva
  let q := (s.form.cache.find? same).getD p
  { s with form := { s.form with cache := q :: s.form.cache.filter fun x => !same x } }

/-- The part a bound program needs is wanted. -/
def State.wantFor (s : State) (d : Nat) (b : FormBind) (f : FormProg) : State :=
  match b.part with
  | none => s
  | some (rank, fp8, _, bp, ap) =>
    let z := partBytes b.entry b.slices rank fp8
    s.wantPart { mapUid := f.mapUid, adapter := f.adapter, layer := f.layer, tensor := f.tensor, owner := b.owner, payer := d,
                 bPva := bp, bBytes := z.1, aPva := ap, aBytes := z.2, loaded := false }

/-- Reads the lines forming needs through the owner's tables for a deckle: the data, or a status, or
none while a partner's line is fetched. A version that is being revoked ends forming with ST_REVOKED
(R181). -/
def State.formRead (s : State) (owner payer cls : Nat) (lines : List Nat) : State × Option (Except Status (List Line)) :=
  match s.translate owner .krd lines with
  | .ok refs =>
    if refs.any fun r => (s.lodeOf r).isSome then (s, some (.error .unsupported))
    else match s.readTile (refs.map fun r => { r with payer := some payer }) cls with
      | (s1, .data _, ls) => (s1, some (.ok ls))
      | (s1, .fail st, _) => (s1, some (.error st))
      | (s1, _, _) => (s1, none)
  | .deny st r95 =>
    let s1 := if r95 then s.mismatch owner else s
    let rv := !(s.revokingAt owner lines).isEmpty
    (s1.countStopped owner lines, some (.error (if rv then .revoked else st)))
  | .fault .. => (s, some (.error .fault))
  | .window _ => (s, some (.error .noAccess))

end Sys2Proof.Machine
end

