-- ==== Sys2Proof/Machine/Forming.lean ====
section
/-! DEFINITION. Model maps, adapters, part loads and formed reads (chapter 10). -/

namespace Sys2Proof.Machine

/-! ## Maps (R167–R171) -/

/-- The header of a map descriptor passes (Tables 10.1 and 10.2). -/
def mapHeaderOk (p : MapP) : Bool :=
  p.rsvd == 0 && p.magic == 0x50414D4B && p.fmt == 1 && p.mapUid != 0 && 1 ≤ p.slices && p.slices ≤ 64 && p.slice < p.slices &&
  1 ≤ p.layers && p.layers ≤ 1024 && 1 ≤ p.tensors.length && p.tensors.length ≤ 8192 && 1 ≤ p.pins.length && p.pins.length ≤ 8 &&
  p.pins.all fun x => x.basePva % 65536 == 0

/-- A tensor entry passes (Table 10.3). -/
def tensorOk (p : MapP) (e : TensorEntry) : Bool :=
  e.rsvd == 0 && e.layer < p.layers && e.tensor ≤ 255 && e.pin < p.pins.length && e.format ≤ 10 && 1 ≤ e.rows && e.rows ≤ 16777215 &&
  64 ≤ e.cols && e.cols ≤ 16777152 && e.cols % 64 == 0 && e.offset % 64 == 0 && finite32 e.tscale && e.tscale.toNat % 2 ^ 31 != 0 &&
  (e.format == 10 || e.codebook == 0#128)

/-- Key of a tensor. -/
def tensorKey (layer tensor : Nat) : Nat := layer * 256 + tensor

/-- The first entry that is out of range or names a tensor again. -/
def badTensor (p : MapP) : Option Nat :=
  (List.range p.tensors.length).find? fun i =>
    match p.tensors[i]? with
    | some e => !tensorOk p e ||
        (p.tensors.take i).any fun x => tensorKey x.layer x.tensor == tensorKey e.layer e.tensor
    | none => false

/-- The slice divides as R168 rules. -/
def divides (p : MapP) (e : TensorEntry) : Bool :=
  if e.axisCols then e.cols % (64 * p.slices) == 0 else e.rows % p.slices == 0

/-- The version a pin names: 0 is the current one. -/
def State.pinVersion (s : State) (region v : Nat) : Nat :=
  if v = 0 then ((s.rgn.regions.find region).map (·.current)).getD 0 else v

/-- The version is retained (R81). -/
def State.isRetained (s : State) (region v : Nat) : Bool :=
  ((s.rgn.regions.find region).map fun r => r.versions.has (s.pinVersion region v)).getD false

/-- The region is the deckle's. -/
def State.ownsRegion (s : State) (d region : Nat) : Bool :=
  ((s.rgn.regions.find region).map fun r => r.deckle == d).getD false

/-- Bytes of a region's versions. -/
def State.versionBytes (s : State) (region : Nat) : Nat :=
  ((s.rgn.regions.find region).map fun r => r.segments * r.segGranules * 2 ^ 21).getD 0

/-- The first entry whose slice does not divide or does not lie in its version (order 4). -/
def State.badSlice (s : State) (p : MapP) : Option Nat :=
  (List.range p.tensors.length).find? fun i =>
    match p.tensors[i]? with
    | some e => !divides p e ||
        s.versionBytes ((p.pins[e.pin]?).map (·.region) |>.getD 0) < e.offset + sliceBytes e p.slices
    | none => false

/-- What REPLACE compares of a tensor (R171). -/
def tensorShape (e : TensorEntry) : List Nat := [e.layer, e.tensor, b2n e.axisCols, e.rows, e.cols, b2n e.adaptable]

/-- A descriptor matches a live map (R171). -/
def shapeMatches (m : MMap) (p : MapP) : Bool :=
  m.deckle == p.deckle && m.slices == p.slices && m.slice == p.slice && m.layers == p.layers &&
  m.tensors.length == p.tensors.length &&
  p.tensors.all fun e => m.tensors.any fun x => tensorShape x == tensorShape e

/-- The checks of R169 in order. -/
def State.mapChecks (s : State) (p : MapP) (replace : Bool) : List Check :=
  let bad := badTensor p
  let cut := s.badSlice p
  let live := s.form.maps.find p.mapUid
  [(mapHeaderOk p, .invalid, 0), (bad.isNone, .invalid, bad.getD 0 + 1),
   if replace then ((live.map fun m => shapeMatches m p).getD false, .invalid, 0x10000) else (live.isNone, .busy, 17),
   (p.pins.all fun x => s.ownsRegion p.deckle x.region, .invalid, 0),
   (p.pins.all fun x => s.isRetained x.region x.version, .staleVersion, 0),
   (cut.isNone, .invalid, cut.getD 0 + 1),
   (replace || s.form.maps.length < 1024, .busy, 14)]

/-- Commits a map and answers with its pinned versions (R169, R170). -/
def State.commitMap (s : State) (p : MapP) : State × Option Ans :=
  let pins := p.pins.map fun x => (x.region, s.pinVersion x.region x.version, x.basePva)
  let m : MMap := { deckle := p.deckle, slices := p.slices, slice := p.slice, layers := p.layers, pins := pins, tensors := p.tensors }
  ({ s with form := { s.form with maps := s.form.maps.put p.mapUid m } },
    some (okFields 64 ([(64, p.mapUid), (16, p.tensors.length), (48, 0)] ++ pins.map fun x => (48, x.2.1))))

/-- MAP_DEFINE and its REPLACE. -/
def mapCmd (p : MapP) : Cmd :=
  { code := 0x0503, len := 512 + 64 * p.tensors.length, own := some p.deckle, names := [p.deckle] }

/-- MAP_DEFINE: code, length and what R27 checks of it first. -/
def mapDefineCmd (p : MapP) : Cmd :=
  mapCmd p

/-- MAP_DEFINE: its checks in order (R169). -/
def mapDefineChecks (p : MapP) : State → List Check :=
  fun s => s.mapChecks p false

/-- MAP_DEFINE: its effect (R169). -/
def mapDefineAct (p : MapP) : State → Nat → State × Option Ans :=
  fun s _ => s.commitMap p

/-- MAP_DEFINE (R169). -/
def execMapDefine (q : Req) (p : MapP) (s : State) : Host.Outcome State Fault Refusal :=
  .next (s.serve (.mapDefine q p) (mapDefineCmd p) q (mapDefineChecks p) (mapDefineAct p))

/-- MAP_DEFINE with REPLACE: code, length and what R27 checks of it first. -/
def mapReplaceCmd (p : MapP) : Cmd :=
  mapCmd p

/-- MAP_DEFINE with REPLACE: its checks in order (R171). -/
def mapReplaceChecks (p : MapP) : State → List Check :=
  fun s => s.mapChecks p true

/-- MAP_DEFINE with REPLACE: its effect (R171). -/
def mapReplaceAct (p : MapP) : State → Nat → State × Option Ans :=
  fun s _ => s.commitMap p

/-- MAP_DEFINE with REPLACE (R171): admitted work keeps the old binding; adapters are kept. -/
def execMapReplace (q : Req) (p : MapP) (s : State) : Host.Outcome State Fault Refusal :=
  .next (s.serve (.mapReplace q p) (mapReplaceCmd p) q (mapReplaceChecks p) (mapReplaceAct p))

/-- The active laid table names a program that a test accepts. -/
def State.laidNames (s : State) (test : FormProg → Bool) : Bool :=
  ((s.laid.active.bind fun i => s.laid.tables.find i).map fun t => t.forms.any fun f => test f.2.1).getD false

/-- Cached parts that a test names lose their registration: freed once unused (R171, R172). -/
def State.endParts (s : State) (test : CachePart → Bool) : State :=
  let cache := s.form.cache.filterMap fun p => if test p then (if s.partUsed p then some { p with gone := true } else none) else some p
  { s with form := { s.form with cache := cache } }

/-- Ends adapters that a test names; a PIN that waits for its parts is answered (log 38). -/
def State.endAdapters (s : State) (test : Adapter → Bool) : State :=
  let gone := s.form.adapters.filter test
  let s1 := { s with form := { s.form with adapters := s.form.adapters.filter fun a => !test a } }
  let s2 := gone.foldl (fun a x => a.answerOpt x.pinReply { status := .aborted }) s1
  s2.endParts fun p => gone.any fun a => a.mapUid == p.mapUid && a.id == p.adapter

/-- Retires a map (R171). -/
def State.retireMap (s : State) (uid : Nat) : State :=
  ({ s with form := { s.form with maps := s.form.maps.del uid } }).endAdapters fun a => a.mapUid == uid

/-- MAP_RETIRE: code, length and what R27 checks of it first. -/
def mapRetireCmd (p : MapRetireP) : Cmd :=
  { code := 0x0504, len := 16, rsvd := p.rsvd, own := some p.deckle, names := [p.deckle] }

/-- MAP_RETIRE: its checks in order (R171). -/
def mapRetireChecks (p : MapRetireP) : State → List Check :=
  fun s => [(((s.form.maps.find p.mapUid).map fun m => m.deckle == p.deckle).getD false, .invalid, 0),
               (!s.laidNames fun f => f.mapUid == p.mapUid, .busy, 13)]

/-- MAP_RETIRE: its effect (R171). -/
def mapRetireAct (p : MapRetireP) : State → Nat → State × Option Ans :=
  fun s _ => (s.retireMap p.mapUid, some okAns)

/-- MAP_RETIRE (R171). -/
def execMapRetire (q : Req) (p : MapRetireP) (s : State) : Host.Outcome State Fault Refusal :=
  .next (s.serve (.mapRetire q p) (mapRetireCmd p) q (mapRetireChecks p) (mapRetireAct p))

/-! ## Adapters (R172) -/

/-- The parameters that only REGISTER takes are zero. -/
def adapterBare (p : AdapterP) : Bool :=
  !p.fp8 && p.rank == 0 && p.region == 0 && p.version == 0 && p.entries == 0 && p.alpha == 0#32 && p.basePva == 0 && p.descOffset == 0

/-- The fields of REGISTER pass (Table 10.5). -/
def registerFields (p : AdapterP) : Bool :=
  1 ≤ p.rank && p.rank ≤ 64 && p.adapter != 0 && 1 ≤ p.entries && p.entries ≤ 8192 && finite32 p.alpha && p.basePva % 65536 == 0 &&
  p.descOffset % 64 == 0

/-- An adapter entry from its bytes (Table 10.6); none when its rsvd bits are not zero. -/
def adEntryOf (x : Nat) : Option AdEntry :=
  if bitsOf x 15 10 ≠ 0 ∨ bitsOf x 63 24 ≠ 0 ∨ bitsOf x 127 112 ≠ 0 ∨ bitsOf x 255 176 ≠ 0 then none
  else some { layer := bitsOf x 9 0, tensor := bitsOf x 23 16, bOff := bitsOf x 111 64, aOff := bitsOf x 175 128 }

/-- An entry passes against its map: tensor ADAPTABLE, parts aligned, within the version and at most
64 MiB. -/
def State.adEntryOk (s : State) (p : AdapterP) (m : MMap) (e : AdEntry) : Bool :=
  match m.tensors.find? fun t => t.layer == e.layer && t.tensor == e.tensor with
  | none => false
  | some t =>
    let d := tensorDims t m.slices
    let z := if p.fp8 then 1 else 2
    let size := s.versionBytes p.region
    let b := partBytes t m.slices p.rank p.fp8
    t.adaptable && e.bOff % 64 == 0 && e.aOff % 64 == 0 && e.bOff + d.1 * p.rank * z ≤ size && e.aOff + p.rank * d.2 * z ≤ size &&
    b.1 + b.2 ≤ 67108864

/-- The first entry that fails. -/
def State.badAdEntry (s : State) (p : AdapterP) (m : MMap) (es : List (Option AdEntry)) : Option Nat :=
  (List.range es.length).find? fun i =>
    match (es[i]?).getD none with
    | some e => !s.adEntryOk p m e ||
        (es.take i).any fun x => (x.map fun y => tensorKey y.layer y.tensor == tensorKey e.layer e.tensor).getD false
    | none => true

/-- REGISTER: reads the entries, checks them in the order of R172 and commits. -/
def State.registerAdapter (s : State) (p : AdapterP) : State × Option Ans :=
  let bad := fun (s : State) (st : Status) (d : Nat) => (s, some { status := st, detail := d })
  if !registerFields p then bad s .invalid 0
  else match s.form.maps.find p.mapUid with
    | none => bad s .invalid 0
    | some m =>
      match s.readBytes p.deckle (p.basePva + p.descOffset) (32 * p.entries) with
      | (s1, .ok, bytes) =>
        let es := (List.range p.entries).map fun i => adEntryOf (bytesFrom bytes (32 * i) 32)
        match s1.badAdEntry p m es with
        | some i => bad s1 .invalid (i + 1)
        | none =>
          if m.deckle ≠ p.deckle ∨ (s1.adapter p.mapUid p.adapter).isSome then bad s1 .invalid 0
          else if !s1.ownsRegion p.deckle p.region then bad s1 .invalid 0
          else if !s1.isRetained p.region p.version then bad s1 .staleVersion 0
          else if 65536 ≤ (s1.form.adapters.filter fun a => a.mapUid == p.mapUid).length ∨ 262144 ≤ s1.form.adapters.length then
            bad s1 .busy 16
          else
            let a : Adapter := { mapUid := p.mapUid, id := p.adapter, fp8 := p.fp8, rank := p.rank, region := p.region
                                 version := s1.pinVersion p.region p.version, alpha := p.alpha, basePva := p.basePva
                                 entries := es.filterMap id, pinned := false, pinReply := none }
            ({ s1 with form := { s1.form with adapters := s1.form.adapters ++ [a] } }, some okAns)
      | (s1, st, _) => bad s1 st 0

/-- The header of ADAPTER_REGISTER's four operations. -/
def adapterCmd (p : AdapterP) : Cmd := { code := 0x0505, len := 48, rsvd := p.rsvd, own := some p.deckle, names := [p.deckle] }

/-- An operation on a registered adapter of the deckle's map. -/
def State.adapterChecks (s : State) (p : AdapterP) : List Check :=
  [(adapterBare p, .invalid, 0),
   (((s.form.maps.find p.mapUid).map fun m => m.deckle == p.deckle).getD false && (s.adapter p.mapUid p.adapter).isSome, .invalid, 0)]

/-- An adapter that the active laid table names is kept (R172). -/
def State.adapterFree (s : State) (p : AdapterP) : Check :=
  (!s.laidNames fun f => f.mapUid == p.mapUid && f.adapter == p.adapter, .busy, 13)

/-- ADAPTER_REGISTER: code, length and what R27 checks of it first. -/
def adapterRegisterCmd (p : AdapterP) : Cmd :=
  adapterCmd p

/-- ADAPTER_REGISTER: its checks in order (R172). -/
def adapterRegisterChecks : State → List Check :=
  fun _ => []

/-- ADAPTER_REGISTER: its effect (R172). -/
def adapterRegisterAct (p : AdapterP) : State → Nat → State × Option Ans :=
  fun s _ => s.registerAdapter p

/-- ADAPTER_REGISTER (R172). -/
def execAdapterRegister (q : Req) (p : AdapterP) (s : State) : Host.Outcome State Fault Refusal :=
  .next (s.serve (.adapterRegister q p) (adapterRegisterCmd p) q adapterRegisterChecks (adapterRegisterAct p))

/-- ADAPTER_REGISTER with UNREGISTER.: code, length and what R27 checks of it first. -/
def adapterUnregisterCmd (p : AdapterP) : Cmd :=
  adapterCmd p

/-- ADAPTER_REGISTER with UNREGISTER.: its checks in order. -/
def adapterUnregisterChecks (p : AdapterP) : State → List Check :=
  fun s => s.adapterChecks p ++ [s.adapterFree p]

/-- ADAPTER_REGISTER with UNREGISTER.: its effect. -/
def adapterUnregisterAct (p : AdapterP) : State → Nat → State × Option Ans :=
  fun s _ => (s.endAdapters fun a => a.mapUid == p.mapUid && a.id == p.adapter, some okAns)

/-- ADAPTER_REGISTER with UNREGISTER. -/
def execAdapterUnregister (q : Req) (p : AdapterP) (s : State) : Host.Outcome State Fault Refusal :=
  .next (s.serve (.adapterUnregister q p) (adapterUnregisterCmd p) q (adapterUnregisterChecks p) (adapterUnregisterAct p))

/-- The parts of a registered adapter. -/
def State.adapterParts (s : State) (a : Adapter) : List CachePart :=
  match s.form.maps.find a.mapUid with
  | none => []
  | some m => a.entries.filterMap fun e =>
      (m.tensors.find? fun t => t.layer == e.layer && t.tensor == e.tensor).map fun t =>
        let z := partBytes t m.slices a.rank a.fp8
        { mapUid := a.mapUid, adapter := a.id, layer := e.layer, tensor := e.tensor, owner := m.deckle, payer := m.deckle,
          bPva := a.basePva + e.bOff, bBytes := z.1, aPva := a.basePva + e.aOff, aBytes := z.2, loaded := false }

/-- Bytes of every pinned adapter's parts. -/
def State.pinnedBytes (s : State) : Nat :=
  ((s.form.adapters.filter (·.pinned)).map fun a => ((s.adapterParts a).map CachePart.bytes).foldl (· + ·) 0).foldl (· + ·) 0

/-- Every part of an adapter is resident. -/
def State.resident (s : State) (a : Adapter) : Bool :=
  (s.adapterParts a).all fun p => s.form.cache.any fun q => q.loaded && !q.gone && q.mapUid == p.mapUid && q.adapter == p.adapter &&
    q.layer == p.layer && q.tensor == p.tensor

/-- Changes the adapters that a test names. -/
def State.modAdapters (s : State) (test : Adapter → Bool) (f : Adapter → Adapter) : State :=
  { s with form := { s.form with adapters := s.form.adapters.map fun a => if test a then f a else a } }

/-- ADAPTER_REGISTER with PIN: code, length and what R27 checks of it first. -/
def adapterPinCmd (p : AdapterP) : Cmd :=
  adapterCmd p

/-- ADAPTER_REGISTER with PIN: its checks in order. -/
def adapterPinChecks (p : AdapterP) : State → List Check :=
  fun s => s.adapterChecks p ++
      [(((s.adapter p.mapUid p.adapter).map fun a => a.pinned ||
          s.pinnedBytes + ((s.adapterParts a).map CachePart.bytes).foldl (· + ·) 0 ≤ 268435456).getD true, .busy, 15)]

/-- ADAPTER_REGISTER with PIN: its effect. -/
def adapterPinAct (p : AdapterP) : State → Nat → State × Option Ans :=
  fun s r =>
      match s.adapter p.mapUid p.adapter with
      | none => (s, some { status := .invalid })
      | some a =>
        let mine := fun (x : Adapter) => x.mapUid == p.mapUid && x.id == p.adapter
        let s1 := (s.adapterParts a).foldl (fun b x => b.wantPart x) (s.modAdapters mine fun x => { x with pinned := true })
        if s1.resident a then (s1, some okAns)
        else
          let s2 := s1.answerOpt a.pinReply { status := .aborted }
          (s2.modAdapters mine fun x => { x with pinReply := some r }, none)

/-- ADAPTER_REGISTER with PIN: answered once every part is resident. -/
def execAdapterPin (q : Req) (p : AdapterP) (s : State) : Host.Outcome State Fault Refusal :=
  .next (s.serve (.adapterPin q p) (adapterPinCmd p) q (adapterPinChecks p) (adapterPinAct p))

/-- ADAPTER_REGISTER with UNPIN.: code, length and what R27 checks of it first. -/
def adapterUnpinCmd (p : AdapterP) : Cmd :=
  adapterCmd p

/-- ADAPTER_REGISTER with UNPIN.: its checks in order. -/
def adapterUnpinChecks (p : AdapterP) : State → List Check :=
  fun s => s.adapterChecks p ++ [s.adapterFree p]

/-- ADAPTER_REGISTER with UNPIN.: its effect. -/
def adapterUnpinAct (p : AdapterP) : State → Nat → State × Option Ans :=
  fun s _ =>
      let mine := fun (x : Adapter) => x.mapUid == p.mapUid && x.id == p.adapter
      let s1 := s.answerOpt ((s.adapter p.mapUid p.adapter).bind (·.pinReply)) { status := .aborted }
      ((s1.modAdapters mine fun x => { x with pinned := false, pinReply := none }).trimCache 0, some okAns)

/-- ADAPTER_REGISTER with UNPIN. -/
def execAdapterUnpin (q : Req) (p : AdapterP) (s : State) : Host.Outcome State Fault Refusal :=
  .next (s.serve (.adapterUnpin q p) (adapterUnpinCmd p) q (adapterUnpinChecks p) (adapterUnpinAct p))

/-! ## Part loads (R173) -/

/-- The PINs whose parts are all resident are answered. -/
def State.answerPins (s : State) : State :=
  (s.form.adapters.filter fun a => a.pinReply.isSome && s.resident a).foldl (fun b a =>
    (b.modAdapters (fun x => x.mapUid == a.mapUid && x.id == a.id) fun x => { x with pinReply := none }).answerOpt a.pinReply okAns) s

/-- A couch descriptor that waits on a part fails with it. -/
def Channel.failPart (c : Channel) (uses : FormProg → Bool) (st : Status) : Channel :=
  let fail := fun (r : DescRun) => if (r.prog.map uses).getD false then { r with broken := some st } else r
  { c with cur := c.cur.map fun k => { k with run := k.run.map fail } }

/-- A part load fails: every waiting request fails with its status, and nothing is kept (R181). -/
def State.failPart (s : State) (p : CachePart) (st : Status) : State :=
  let uses := fun (f : FormProg) => f.mapUid == p.mapUid && f.adapter == p.adapter && f.layer == p.layer && f.tensor == p.tensor
  let pins := s.form.adapters.filter fun a => a.pinReply.isSome && a.mapUid == p.mapUid && a.id == p.adapter
  let stop := fun (_ : Nat) (w : Work) => match w.body with
    | .rdf _ f _ => if uses f && w.tiles == 0 && w.cause.isNone then { w with cause := some (st, 0) } else w
    | _ => w
  let s1 := { s with
    form := { s.form with cache := s.form.cache.filter fun q => q != p }
    eng := { s.eng with work := s.eng.work.each stop }
    couch := { s.couch with chans := s.couch.chans.each fun _ c => c.failPart uses st } }
  pins.foldl (fun b a =>
    (b.modAdapters (fun x => x.mapUid == a.mapUid && x.id == a.id) fun x => { x with pinReply := none, pinned := false }).answerOpt
      a.pinReply { status := st }) s1

/-- ADAPTER_PART_LOAD_DONE (R173): the part is read through its owner's tables into the cache, when
parts that may be evicted leave room for it. -/
def execAdapterPartLoadDone (mapUid adapter layer tensor : Nat) (s : State) : Host.Outcome State Fault Refusal :=
  .next <| s.unlessTripped <| match s.form.cache.find? fun p => !p.loaded && p.mapUid == mapUid && p.adapter == adapter && p.layer == layer &&
      p.tensor == tensor with
  | none => s
  | some p =>
    let s0 := s.trimCache p.bytes
    if s0.cacheBytes < s0.loadedBytes (fun _ => true) + p.bytes then s
    else match s0.formRead p.owner p.payer 0 (lineRun p.bPva (p.bBytes / 64) ++ lineRun p.aPva (p.aBytes / 64)) with
      | (s1, some (.ok ls)) =>
        let cache := s1.form.cache.map fun q => if q = p then { q with loaded := true, data := ls } else q
        let s2 := { s1 with form := { s1.form with cache := cache } }
        (s2.chargeTier p.payer 0 .staging 350 ls.length).answerPins
      | (s1, some (.error st)) => s1.failPart p st
      | (s1, none) => s1

/-! ## Formed reads (R177, R178) -/

/-- The queue an outstanding request's answer takes. -/
def State.reqQueue (s : State) (ep tag : Nat) : Nat :=
  (((s.part.eps.find ep).bind fun e => e.outst.find? fun r => r.tag == tag).map (·.queue)).getD 4

/-- Serves an RDF that passed its port (R177). -/
def State.serveRdf (s : State) (h : Hdr) (f : FormProg) : State :=
  match s.bindForm h.deckle f with
  | .error st => s.answerReq h.ep h.tag h.deckle st
  | .ok b =>
    match s.police h.port h.deckle h.cls ((formShape f).1 * f.outPitch) with
    | (s1, .refuse hint) => s1.answerReq h.ep h.tag h.deckle .throttled 0 [] hint
    | (s1, .accept q _) =>
      let outs := s1.part.eps.upd h.ep fun e =>
        { e with outst := e.outst.map fun r => if r.tag = h.tag then { r with queue := q } else r }
      let s2 := { s1 with part := { s1.part with eps := outs } }
      let w := mkWork h q (.rdf h.tag f b) h.ep 0 [homeCore h.ep] (formEngines f) 0 (formEstimate b f true)
      match s2.admitEnergy h.deckle w.est with
      | (s3, .refuse st) => s3.answerReq h.ep h.tag h.deckle st
      | (s3, .wait) => ((s3.addWork { w with state := .energyQueued }).1).wantFor h.deckle b f
      | (s3, .go yellow) =>
        ((s3.addWork { w with yellow := yellow, queue := if yellow then 60 else q }).1).wantFor h.deckle b f

/-- RDF (R177): a FORM program of 64 bytes. -/
def execRdf (h : Hdr) (f : FormProg) (s : State) : Host.Outcome State Fault Refusal :=
  .next (s.ingress h { ok := h.len == 64 } (fun s _ => s.serveRdf h f))

/-- Ends a formed read with its final response (R178, R243). -/
def State.endRdf (s : State) (w : Nat) (x : Work) (tag : Nat) (st : Status) : State :=
  let m := s.measure
  ((m.2.closeWork w x m.1).answerReq x.ep tag x.deckle st 0 [] x.tiles).trimCache 0

/-- Sends a tile's bytes in packets of up to 4,096 bytes (R243). -/
def State.sendFormed (s : State) (x : Work) (tag at_ len bytes : Nat) : State :=
  (List.range (cdiv len 4096)).foldl (fun a i =>
    let n := min 4096 (len - 4096 * i)
    a.sendEp x.ep 1 (s.reqQueue x.ep tag) x.deckle
      (.rsp x.ep tag x.deckle .ok (at_ + 4096 * i) n (linesOf (bytesFrom bytes (4096 * i) n) n) false) x.cls) s

/-- Engine and staging activity of a formed tile (R180's example). -/
def State.chargeForm (s : State) (d cls : Nat) (b : FormBind) (f : FormProg) (t : Nat) : State :=
  let sp := formTileSpan f t
  let units := cdiv (sp.2 * (formShape f).2) 256
  let v := storeCycles b.entry.format + outCycles f.outFmt + (if b.part.isSome then 2 else 0)
  let s1 := s.charge d cls 5 (units * v * 60)
  match b.part with
  | some (rank, fp8, _) =>
    let z := if fp8 then 1 else 2
    let a := if t = 0 then cdiv (z * rank * f.cols) 64 else 0
    (s1.charge d cls 4 (units * 16 * cdiv rank 32 * 85)).charge d cls 2 ((cdiv (z * rank * sp.2) 64 + a) * 350)
  | none => s1

/-- What forming the next tile of a bound program comes to: nothing yet, a failure, or its bytes. -/
def State.formNext (s : State) (d cls : Nat) (b : FormBind) (f : FormProg) (t : Nat) : State × Option (Except Status Nat) :=
  let part := s.partOf b f
  if b.part.isSome && !((part.map (·.loaded)).getD false) then (if part.isSome then s else s.wantFor d b f, none)
  else match s.formRead b.owner d cls (formLines b f t) with
    | (s1, some (.ok ls)) =>
      let fr := Config.freeNat s1.free
      (({ s1 with free := s1.free + 1 }).chargeForm d cls b f t, some (.ok (formedTile b f part t ls fr)))
    | (s1, some (.error st)) => (s1, some (.error st))
    | (s1, none) => (s1, none)

/-- FORM_TILE_FORMED (R176): the work item's next tile is formed and its bytes leave; a stop takes
effect at a tile boundary (R181). -/
def execFormTileFormed (work : Nat) (s : State) : Host.Outcome State Fault Refusal :=
  .next <| s.unlessTripped <| match s.eng.work.find work with
  | some x =>
    match x.body with
    | .rdf tag f b =>
      match x.cause with
      | some (st, _) => s.endRdf work x tag st
      | none =>
        let s0 := if s.startable work x && !s.outranked work x then s.startWork work x else s
        if x.state ≠ .running && !(s.startable work x && !s.outranked work x) then s
        else if formTiles f ≤ x.pos then s0.endRdf work x tag .ok
        else match s0.formNext x.deckle x.cls b f x.pos with
          | (s1, none) => s1
          | (s1, some (.error st)) => s1.endRdf work x tag st
          | (s1, some (.ok bytes)) =>
            let sp := formTileSpan f x.pos
            let s2 := s1.sendFormed x tag (sp.1 * f.outPitch) (sp.2 * f.outPitch) bytes
            let x' : Work := { x with pos := x.pos + 1, tiles := x.tiles + 1 }
            if formTiles f ≤ x.pos + 1 then (s2.modWork work fun _ => x').endRdf work x' tag .ok
            else s2.modWork work fun y => { y with pos := x'.pos, tiles := x'.tiles }
    | _ => s
  | none => s

end Sys2Proof.Machine
end

