-- ==== Sys2Proof/Machine/Retrieval.lean ====
section
/-! DEFINITION. Indexes and retrieval queries (chapter 11). -/

namespace Sys2Proof.Machine

/-! ## Indexes (R182–R185) -/

/-- Bytes of a row record (R182). -/
def rowBytes (format dim : Nat) : Nat :=
  match format with
  | 2 => dim + dim / 32
  | 3 => dim / 8
  | _ => dim

/-- Bytes from row to row. -/
def rowPitch (format dim : Nat) : Nat := up64 (rowBytes format dim)

/-- The fields of DEFINE and REPLACE pass (Table 11.1); the version's width is the field's. -/
def indexFields (p : IndexP) (replace : Bool) : Bool :=
  p.rsvd == 0 && (replace || p.index == 0) && 64 ≤ p.dim && p.dim ≤ 4096 && p.dim % 64 == 0 &&
  (p.format != 3 || p.dim % 512 == 0) && 1 ≤ p.rows && p.rows < 2 ^ 32 && finite32 p.tscale &&
  ((p.format == 3) == (p.tscale.toNat % 2 ^ 31 == 0)) && (p.format != 3 || p.tscale == 0#32) &&
  p.basePva % 65536 == 0 && p.offset % 64 == 0 &&
  p.idBase + p.rows ≤ 0xFFFFFFFFFFFFFFFF && p.filterPva % 64 == 0 && (p.filterValid || p.filterPva == 0)

/-- The fields of RETIRE pass. -/
def indexBare (p : IndexP) : Bool :=
  p.rsvd == 0 && p.format == 0 && !p.filterValid && p.region == 0 && p.version == 0 && p.dim == 0 && p.rows == 0 &&
  p.tscale == 0#32 && p.basePva == 0 && p.offset == 0 && p.idBase == 0 && p.filterPva == 0

/-- A live index that a deckle owns. -/
def State.ownIndex (s : State) (d i : Nat) : Bool := ((s.retr.indexes.find i).map fun x => x.deckle == d).getD false

/-- Order 4: every row lies within the pinned version. -/
def State.rowsInside (s : State) (p : IndexP) : Bool :=
  p.offset + rowPitch p.format p.dim * (p.rows - 1) + rowBytes p.format p.dim ≤ s.versionBytes p.region

/-- The checks of R184 for DEFINE and REPLACE. -/
def State.indexChecks (s : State) (p : IndexP) (replace : Bool) : List Check :=
  [(indexFields p replace, .invalid, 0),
   if replace then (s.ownIndex p.deckle p.index, .invalid, 1) else (s.retr.indexes.length < 4096, .busy, 18),
   (s.ownsRegion p.deckle p.region, .invalid, 0), (s.isRetained p.region p.version, .staleVersion, 0),
   (s.rowsInside p, .invalid, 2),
   (!replace || ((s.retr.indexes.find p.index).map fun x => x.format == p.format && x.dim == p.dim).getD false, .invalid, 3)]

/-- The binding that the parameters name, its version pinned (R183). -/
def State.indexOf (s : State) (p : IndexP) : IndexB where
  deckle := p.deckle
  format := p.format
  region := p.region
  version := s.pinVersion p.region p.version
  dim := p.dim
  rows := p.rows
  tscale := p.tscale
  basePva := p.basePva
  offset := p.offset
  idBase := p.idBase
  filter := if p.filterValid then some p.filterPva else none

/-- Commits a binding under a handle and answers (Table 11.2). -/
def State.commitIndex (s : State) (p : IndexP) (i : Nat) : State × Option Ans :=
  let b := s.indexOf p
  ({ s with retr := { s.retr with indexes := s.retr.indexes.put i b, lastIndex := max s.retr.lastIndex i } },
    some (okFields 16 [(32, i), (16, rowPitch p.format p.dim), (16, 0), (48, b.version), (16, 0)]))

/-- The header of INDEX_DEFINE's three operations. -/
def indexCmd (p : IndexP) : Cmd := { code := 0x0506, len := 64, own := some p.deckle, names := [p.deckle] }

/-- INDEX_DEFINE: code, length and what R27 checks of it first. -/
def indexDefineCmd (p : IndexP) : Cmd :=
  indexCmd p

/-- INDEX_DEFINE: its checks in order (R184). -/
def indexDefineChecks (p : IndexP) : State → List Check :=
  fun s => s.indexChecks p false

/-- INDEX_DEFINE: its effect (R184). -/
def indexDefineAct (p : IndexP) : State → Nat → State × Option Ans :=
  fun s _ => s.commitIndex p (s.retr.lastIndex + 1)

/-- INDEX_DEFINE (R184). -/
def execIndexDefine (q : Req) (p : IndexP) (s : State) : Host.Outcome State Fault Refusal :=
  .next (s.serve (.indexDefine q p) (indexDefineCmd p) q (indexDefineChecks p) (indexDefineAct p))

/-- INDEX_DEFINE with REPLACE: code, length and what R27 checks of it first. -/
def indexReplaceCmd (p : IndexP) : Cmd :=
  indexCmd p

/-- INDEX_DEFINE with REPLACE: its checks in order (R185). -/
def indexReplaceChecks (p : IndexP) : State → List Check :=
  fun s => s.indexChecks p true

/-- INDEX_DEFINE with REPLACE: its effect (R185). -/
def indexReplaceAct (p : IndexP) : State → Nat → State × Option Ans :=
  fun s _ => s.commitIndex p p.index

/-- INDEX_DEFINE with REPLACE (R185): admitted queries keep the old binding. -/
def execIndexReplace (q : Req) (p : IndexP) (s : State) : Host.Outcome State Fault Refusal :=
  .next (s.serve (.indexReplace q p) (indexReplaceCmd p) q (indexReplaceChecks p) (indexReplaceAct p))

/-- INDEX_DEFINE with RETIRE: code, length and what R27 checks of it first. -/
def indexRetireCmd (p : IndexP) : Cmd :=
  indexCmd p

/-- INDEX_DEFINE with RETIRE: its checks in order (R185). -/
def indexRetireChecks (p : IndexP) : State → List Check :=
  fun s => [(indexBare p, .invalid, 0), (s.ownIndex p.deckle p.index, .invalid, 1)]

/-- INDEX_DEFINE with RETIRE: its effect (R185). -/
def indexRetireAct (p : IndexP) : State → Nat → State × Option Ans :=
  fun s _ =>
      let f := ((s.retr.indexes.find p.index).map fun x => rowPitch x.format x.dim).getD 0
      ({ s with retr := { s.retr with indexes := s.retr.indexes.del p.index } },
        some (okFields 16 [(32, p.index), (16, f), (16, 0), (48, 0), (16, 0)]))

/-- INDEX_DEFINE with RETIRE (R185). -/
def execIndexRetire (q : Req) (p : IndexP) (s : State) : Host.Outcome State Fault Refusal :=
  .next (s.serve (.indexRetire q p) (indexRetireCmd p) q (indexRetireChecks p) (indexRetireAct p))

/-! ## Reading for a work item -/

/-- What reading lines for a work item comes to. -/
inductive Got
  | data (ls : List Line)
  | fault (d : Nat) (lines : List Nat)
  | fail (st : Status)
  | again
  deriving DecidableEq, Repr

/-- Reads lines through a deckle's tables for another deckle's work. A line on an extent in revocation
fails with ST_REVOKED (R165, R193). -/
def State.readFor (s : State) (d payer cls : Nat) (lines : List Nat) : State × Got :=
  match s.tileTrans d lines [] with
  | .ok a _ =>
    match s.readTile (a.map fun r => { r with payer := some payer }) cls with
    | (s1, .data _, ls) => (s1, .data ls)
    | (s1, .fail st, _) => (s1, .fail st)
    | (s1, _, _) => (s1, .again)
  | .fault .. => (s, .fault d lines)
  | .stop st r95 =>
    let s1 := if r95 then s.mismatch d else s
    let rv := !(s.revokingAt d lines).isEmpty
    (if rv then s1.countStopped d lines else s1, .fail (if rv then .revoked else st))

/-- Pushes an output area to an endpoint on VC4 (R245): packets of up to 4,096 bytes. -/
def State.pushOut (s : State) (x : Work) (addr : Nat) (ls : List Line) : State :=
  let tag := s.couch.nextTag
  let s0 := { s with couch := { s.couch with nextTag := (tag + 1) % 65536 } }
  (List.range (cdiv ls.length 64)).foldl (fun a i =>
    a.sendEp x.cplEp 4 x.queue x.deckle (.push x.cplEp x.deckle tag (addr + 4096 * i) ((ls.drop (64 * i)).take 64) false) x.cls) s0

/-- Delivers an output area (R160, R191): pushed, or written through the deckle's translation. A page
that does not translate leaves the item waiting or stops it; the MSEQ of mirrored lines is returned. -/
def State.putOut (s : State) (w : Nat) (x : Work) (pva : Bool) (addr : Nat) (ls : List Line) : State × Option (Option Nat) :=
  if !pva then (s.pushOut x addr ls, some none)
  else
    let at_ := bitsOf addr 55 0
    match s.tileStart w x.deckle (s.firstEngine w x) [] (lineRun at_ ls.length) with
    | (s1, some r, _) =>
      if s1.tileWaits r.2 then (s1, none)
      else if !r.2.all s1.liveRef then (s1.stopWork w .revoked 0, none)
      else let y := s1.writeTile r.2 ls x.cls; (y.1, some y.2)
    | (s1, none, _) => (s1, none)

/-! ## Scores (R188) -/

/-- Bits in which two records of n bits differ. -/
def hamming (n a b : Nat) : Nat := popCount n (a ^^^ b)

/-- An FP32 score with −0 as +0. -/
def plusZero (x : Nat) : Nat := if x = 0x80000000 then 0 else x

/-- The score of a row against a query (R188): an FP32 code, or for BIT1 a count. `qs` and `ts` are
FP32 codes. -/
def scoreOf (format dim qs ts row query : Nat) : Nat :=
  let dec := Fmt.fp32.decode
  let m := fp32Of ((dec qs).mul (dec ts)).1
  let times := fun (d : Nat) => plusZero (fp32Of ((dec m).mul (dec d)).1)
  match format with
  | 0 =>
    let d := ((List.range dim).map fun i => signedOf 8 (byteOf row i) * signedOf 8 (byteOf query i)).foldl (· + ·) 0
    times (fp32Of (Fp.ofInt d))
  | 1 =>
    times ((List.range dim).foldl (fun a i =>
      (addTerms a [(Fmt.e4m3.decode (byteOf row i)).mul (Fmt.e4m3.decode (byteOf query i))]).1) 0)
  | 2 =>
    let r := runCell (mxIntSteps dim (fun i => signedOf 8 (byteOf row i)) (fun i => signedOf 8 (byteOf query i))
      fun i => some (byteOf row (dim + i / 32), byteOf query (dim + i / 32))) 0
    times (r.1.getLastD 0)
  | _ => hamming dim row query

/-- A scored row: row number and score code. -/
structure Scored where
  row   : Nat
  score : Nat
  deriving DecidableEq, Repr, Inhabited

/-- Order of FP32 codes that are not NaN as integers. -/
def key32 (x : Nat) : Int := if x < 2 ^ 31 then x else -((x - 2 ^ 31 : Nat) : Int)

/-- One scored row ranks before another (R189). -/
def ranksBefore (ham : Bool) (a b : Scored) : Bool :=
  if a.score = b.score then decide (a.row < b.row)
  else if ham then decide (a.score < b.score) else decide (key32 b.score < key32 a.score)

/-- Places a row in a ranking. -/
def rankIn (ham : Bool) (a : Scored) : List Scored → List Scored
  | [] => [a]
  | b :: r => if ranksBefore ham a b then a :: b :: r else b :: rankIn ham a r

/-- An FP32 code is a NaN. -/
def isNan32 (x : Nat) : Bool := x / 2 ^ 23 % 256 == 255 && x % 2 ^ 23 != 0

/-- Adds a row to each query's ranking, keeping `n`: the rankings, and whether a score was NaN. -/
def scoreRow (b : IndexB) (n row bytes : Nat) : List (Nat × Nat) → List (List Scored) → List (List Scored) × Bool
  | (qs, qr) :: qrs, l :: ls =>
    let v := scoreOf b.format b.dim qs b.tscale.toNat bytes qr
    let rest := scoreRow b n row bytes qrs ls
    let nan := b.format != 3 && isNan32 v
    ((if nan then l else (rankIn (b.format == 3) ⟨row, v⟩ l).take n) :: rest.1, nan || rest.2)
  | _, ls => (ls, false)

/-! ## The scan (R186, R187, R190) -/

/-- Progress of a scan. -/
structure Scan where
  ranks    : List (List Scored)
  eligible : Nat := 0
  nanRows  : List Nat := []
  deriving DecidableEq, Repr, Inhabited

/-- What scanning comes to. -/
inductive Scanned
  | ok (x : Scan)
  | fault (d : Nat) (lines : List Nat)
  | fail (st : Status) (detail : Nat)
  | again
  deriving DecidableEq, Repr

/-- A read that did not bring data. -/
def Got.stopped (g : Got) (detail : Nat) : Scanned :=
  match g with
  | .data _ => .again
  | .fault d l => .fault d l
  | .fail st => .fail st (if st = .uncorrectable then detail else 0)
  | .again => .again

/-- Reads `n` bytes from a 64-byte-aligned address for a query. -/
def State.bytesFor (s : State) (d : Nat) (x : Work) (pva n : Nat) : State × Except Scanned Nat :=
  match s.readFor d x.deckle x.cls (lineRun pva (cdiv n 64)) with
  | (s1, .data ls) => (s1, .ok (lineNat ls))
  | (s1, g) => (s1, .error (g.stopped 0))

/-- Lines of a row of an index. -/
def IndexB.rowLines (b : IndexB) (i : Nat) : List Nat :=
  lineRun (b.basePva + b.offset + i * rowPitch b.format b.dim) (rowPitch b.format b.dim / 64)

/-- Scans rows in order; every row is read, eligible or not. -/
def State.scanRows (s : State) (x : Work) (b : IndexB) (n : Nat) (qs : List (Nat × Nat)) (elig : Nat) :
    List Nat → Scan → State × Scanned
  | [], sc => (s, .ok sc)
  | i :: r, sc =>
    match s.readFor b.deckle x.deckle x.cls (b.rowLines i) with
    | (s1, .data ls) =>
      if elig.testBit i then
        let y := scoreRow b n i (lineNat ls) qs sc.ranks
        s1.scanRows x b n qs elig r
          { ranks := y.1, eligible := sc.eligible + 1, nanRows := if y.2 then i :: sc.nanRows else sc.nanRows }
      else s1.scanRows x b n qs elig r sc
    | (s1, g) => (s1, g.stopped i)

/-- A filter's bits: all ones when absent. -/
def State.filterBits (s : State) (d : Nat) (x : Work) (pva : Option Nat) (rows : Nat) : State × Except Scanned Nat :=
  match pva with
  | none => (s, .ok (ones rows))
  | some a => s.bytesFor d x a (cdiv rows 8)

/-- Queries and their scales: pairs of FP32 scale and record. -/
def State.readQueries (s : State) (x : Work) (b : IndexB) (q qpva spva : Nat) : State × Except Scanned (List (Nat × Nat)) :=
  let p := rowPitch b.format b.dim
  match s.bytesFor x.deckle x qpva (q * p) with
  | (s1, .error e) => (s1, .error e)
  | (s1, .ok v) =>
    let one := if spva = 0 then (s1, .ok 0) else s1.bytesFor x.deckle x spva (4 * q)
    match one with
    | (s2, .error e) => (s2, .error e)
    | (s2, .ok c) =>
      (s2, .ok ((List.range q).map fun i => (if spva = 0 then 0x3F800000 else bytesFrom c (4 * i) 4, bytesFrom v (p * i) p)))

/-- The first stage. -/
def State.scanFirst (s : State) (x : Work) (t : TopkB) (b : IndexB) : State × Scanned :=
  match s.readQueries x b t.q t.queryPva t.qscalePva with
  | (s1, .error e) => (s1, e)
  | (s1, .ok qs) =>
    match s1.filterBits b.deckle x b.filter b.rows with
    | (s2, .error e) => (s2, e)
    | (s2, .ok f) =>
      match s2.filterBits x.deckle x (if t.filterPva = 0 then none else some t.filterPva) b.rows with
      | (s3, .error e) => (s3, e)
      | (s3, .ok g) =>
        s3.scanRows x b (if t.rescore then t.cand else t.k) qs (f &&& g) (List.range b.rows)
          { ranks := List.replicate t.q [] }

/-- Reads the distinct candidate rows of the second stage, each once. -/
def State.readCands (s : State) (x : Work) (b : IndexB) : List Nat → List (Nat × Nat) → State × Except Scanned (List (Nat × Nat))
  | [], acc => (s, .ok acc)
  | i :: r, acc =>
    match s.readFor b.deckle x.deckle x.cls (b.rowLines i) with
    | (s1, .data ls) => s1.readCands x b r ((i, lineNat ls) :: acc)
    | (s1, g) => (s1, .error (g.stopped i))

/-- The second stage (R190): the rankings, with the distinct rows read. -/
def State.rescoreAll (s : State) (x : Work) (t : TopkB) (b : IndexB) (sc : Scan) : State × Scanned × Nat :=
  match s.readQueries x b t.q t.rqueryPva t.rqscalePva with
  | (s1, .error e) => (s1, e, 0)
  | (s1, .ok qs) =>
    let rows := (sc.ranks.flatMap fun l => l.map (·.row)).eraseDups
    match s1.readCands x b rows [] with
    | (s2, .error e) => (s2, e, 0)
    | (s2, .ok data) =>
      let one := fun (y : (Nat × Nat) × List Scored) =>
        y.2.foldl (fun (a : List Scored × List Nat) c =>
          let bytes := ((data.find? fun d => d.1 == c.row).map (·.2)).getD 0
          let v := scoreOf b.format b.dim y.1.1 b.tscale.toNat bytes y.1.2
          if isNan32 v then (a.1, c.row :: a.2) else ((rankIn false ⟨c.row, v⟩ a.1).take t.k, a.2)) ([], [])
      let rs := (qs.zip sc.ranks).map one
      (s2, .ok { ranks := rs.map (·.1), eligible := sc.eligible, nanRows := sc.nanRows ++ rs.flatMap (·.2) }, rows.length)

/-- The output area: Q blocks of K entries (Table 11.4). -/
def topkOut (t : TopkB) (b : IndexB) (sc : Scan) : List Line :=
  linesOf (concatBytes 16 (sc.ranks.flatMap fun l => (List.range t.k).map fun i =>
    match l[i]? with
    | some e => pack [(64, b.idBase + e.row), (32, e.score), (1, 1)]
    | none => 0)) (t.q * t.k * 16)

/-! ## Queries (R187, R191) -/

/-- Cores of a code of CORES (Tables 9.7 and 11.3). -/
def coreCount (c : Nat) : Nat := 2 ^ c

/-- The aligned group of cores from a first core. -/
def coreGroup (first n : Nat) : List Nat := (List.range n).map fun i => first + i

/-- Fields of a query (order 2). -/
def State.topkFields (s : State) (d : Nat) (t : TopkB) : Bool :=
  t.rsvd == 0 && t.metric ≤ 2 && t.cores ≤ 5 && t.firstCore < 32 && t.firstCore % coreCount t.cores == 0 &&
  1 ≤ t.q && t.q ≤ 1024 && 1 ≤ t.k && t.k ≤ 1024 && t.engines ≤ 16 &&
  (if t.rescore then t.k ≤ t.cand && t.cand ≤ 8192
    else t.rindex == 0 && t.cand == 0 && t.rqueryPva == 0 && t.rqscalePva == 0) &&
  (t.metric != 2 || t.qscalePva == 0) && (t.capUs == 0 || (10 ≤ t.capUs && t.capUs ≤ 1000000)) &&
  (!t.outPva || t.outAddr < 2 ^ 56) && s.member d t.cplEp

/-- Every address of a query is 64-byte aligned. -/
def topkAligned (t : TopkB) : Bool :=
  [t.queryPva, t.qscalePva, t.rqueryPva, t.rqscalePva, t.filterPva, t.outAddr].all fun a => a % 64 == 0

/-- An index that a deckle may query: it owns it, or is a grantee of its region (order 3). -/
def State.mayQuery (s : State) (d : Nat) (b : IndexB) : Bool := b.deckle == d || s.regionOpen d b.region

/-- Estimate of a query in pJ (R269, Table 1.10, log 37). -/
def topkEstimate (t : TopkB) (b : IndexB) (r : Option IndexB) : Nat :=
  let one := fun (i : IndexB) (rows : Nat) => rows * (rowPitch i.format i.dim / 64) * 900
  one b b.rows + (if b.format = 3 then cdiv (b.rows * t.q * b.dim) 4096 * 60 else cdiv (b.rows * t.q * b.dim) 1024 * 85) +
  ((r.map fun i => one i (t.q * t.cand) + cdiv (t.q * t.cand * i.dim) 1024 * 85).getD 0) +
  (if t.outPva then 0 else cdiv (t.q * t.k * 16) 240 * 3100)

/-- The completion of a query (Table 11.5). -/
def topkCpl (st : Status) (ctag detail elapsed eligible nan tiles cands nj vstat : Nat) : Nat :=
  pack [(16, 0x0030), (8, statusCode st), (8, 0), (32, ctag), (32, detail), (32, elapsed), (32, eligible), (32, nan),
    (32, tiles), (32, cands), (64, nj), (5, vstat), (187, 0)]

/-- Where a refusal goes: CPL_EP, or the sender when CPL_EP is not a member (R191, log 39). -/
def State.cplTo (s : State) (h : Hdr) (cplEp : Nat) : Nat := if s.member h.deckle cplEp then cplEp else h.ep

/-- Refuses a query. -/
def State.refuseTopk (s : State) (h : Hdr) (t : TopkB) (st : Status) (detail : Nat) : State :=
  s.sendCpl (s.cplTo h t.cplEp) h.deckle h.cls (s.queueOf h.deckle h.cls) (topkCpl st t.ctag detail 0 0 0 0 0 0 0)

/-- Admits a query (R187). -/
def State.admitTopk (s : State) (h : Hdr) (t : TopkB) (queue : Nat) : State :=
  let no := fun (st : Status) (d : Nat) => s.refuseTopk h t st d
  if !s.deckleActive h.deckle then no .revoked 0
  else if !s.topkFields h.deckle t then no .invalid 2
  else if !topkAligned t then no .align 0
  else match s.retr.indexes.find t.index, (if t.rescore then s.retr.indexes.find t.rindex else none) with
    | none, _ => no .invalid 1
    | some b, r =>
      if t.rescore && r.isNone then no .invalid 1
      else if !s.mayQuery h.deckle b || !((r.map fun i => s.mayQuery h.deckle i).getD true) then no .noAccess 0
      else if (t.metric == 2) != (b.format == 3) then no .invalid 3
      else if !((r.map fun i => i.format == 1 && i.rows == b.rows && i.idBase == b.idBase).getD true) then no .invalid 4
      else
        let w := mkWork h queue (.topk t b r) t.cplEp t.ctag (coreGroup t.firstCore (coreCount t.cores))
          (if t.engines = 0 then 16 else t.engines) ((if t.capUs = 0 then 10000 else t.capUs) * 1000) (topkEstimate t b r)
        match s.admitEnergy h.deckle w.est with
        | (s1, .refuse st) => s1.refuseTopk h t st 0
        | (s1, .wait) => (s1.addWork { w with state := .energyQueued }).1
        | (s1, .go y) => (s1.addWork { w with yellow := y, queue := if y then 60 else queue }).1

/-- TOPK_QUERY (R187). -/
def execTopkQuery (h : Hdr) (b : TopkB) (s : State) : Host.Outcome State Fault Refusal :=
  .next (s.workGate h 0x0030 b.ctag 128 fun s q _ => s.admitTopk h b q)

/-- Ends a query with its completion. TILES and VSTAT of a built-in kernel are open (log 11). -/
def State.endTopk (s : State) (w : Nat) (x : Work) (sc : Scan) (cands : Nat) : State :=
  let run := x.state == .running
  let m := if run then s.measure else (0, s)
  let a := m.2.draw (2 ^ 32)
  let v := a.2.draw 32
  let c := x.cause.getD (.ok, 0)
  v.2.finishWork w x m.1 (topkCpl c.1 x.ctag c.2 (if run then sat 32 (s.now - x.started) else 0) sc.eligible
    (sc.nanRows.eraseDups.length) (if run then a.1 else 0) cands m.1 (if run then v.1 else 0))

/-- Array or vector activity of a query's scores (chapter 11, the ledger example). -/
def State.chargeScores (s : State) (x : Work) (b : IndexB) (pairs : Nat) : State :=
  if b.format = 3 then s.charge x.deckle x.cls 5 (cdiv (pairs * b.dim) 4096 * 60)
  else s.charge x.deckle x.cls 4 (cdiv (pairs * b.dim) 1024 * 85)

/-- Runs both stages of a query. -/
def State.runTopk (s : State) (x : Work) (t : TopkB) (b : IndexB) (r : Option IndexB) : State × Scanned × Nat :=
  match s.scanFirst x t b with
  | (s1, .ok sc) =>
    match r with
    | some i => s1.rescoreAll x t i sc
    | none => (s1, .ok sc, 0)
  | (s1, o) => (s1, o, 0)

/-- TOPK_COMPLETE (R191): the scan's rows land, the output area is written and the completion sent.
A page that does not translate leaves the query waiting; a stop ends it. -/
def execTopkComplete (work : Nat) (s : State) : Host.Outcome State Fault Refusal :=
  .next <| s.unlessTripped <| match s.eng.work.find work with
  | some x =>
    match x.body with
    | .topk t b r =>
      let stop := fun (s : State) => match s.eng.work.find work with
        | some y => if y.cause.isSome then s.endTopk work y { ranks := [] } 0 else s
        | none => s
      if x.cause.isSome then stop s
      else if x.ready.isSome || x.state ≠ .running || s.waiting (s.firstEngine work x) then s
      else match s.runTopk x t b r with
        | (s1, .ok sc, n) =>
          let s0 := (s1.chargeScores x b (b.rows * t.q)).chargeScores x (r.getD b) (n * t.q)
          (match s0.putOut work x t.outPva t.outAddr (topkOut t b sc) with
            | (s2, some m) => s2.endTopk work { x with mseq := m.getD 0 } sc n
            | (s2, none) => stop s2)
        | (_, .fault d lines, _) => stop (s.tileStart work d (s.firstEngine work x) lines []).1
        | (s1, .fail st det, _) => stop (s1.stopWork work st det)
        | (s1, .again, _) => s1
    | _ => s
  | none => s

end Sys2Proof.Machine
end

