-- ==== Sys2Proof/Machine/AttnMath.lean ====
section
/-! DEFINITION. The arithmetic of attention steps (R158–R163): attended sets, the exact reference,
the error bound of R162 and the results the part may give within it. Reals are fixed-point numbers
with `fix` fraction bits, wide enough that their own error lies far below every bound. -/

namespace Sys2Proof.Machine

/-- Fraction bits of the fixed-point reals. -/
def fixBits : Nat := 400

/-- An exact value as a fixed-point real. -/
def Fp.toFix : Fp → Int
  | .fin n m e =>
    let k := e + fixBits
    let v : Int := if 0 ≤ k then m * 2 ^ k.toNat else m / 2 ^ (-k).toNat
    if n then -v else v
  | _ => 0

/-- Product of fixed-point reals. -/
def fixMul (a b : Int) : Int := a * b / 2 ^ fixBits

/-- ln 2, by its series Σ 1 / (k 2^k). -/
def fixLn2 : Int := ((List.range 420).foldl (fun a k => a + 2 ^ fixBits / ((k + 1) * 2 ^ (k + 1))) 0 : Nat)

/-- e^x of a fixed-point real, with `sfuBits` fraction bits. -/
def fixExp (x : Int) : Nat :=
  let y := x * 2 ^ fixBits / fixLn2
  let n := y / 2 ^ fixBits
  let t := exp2Loop 128 ((y % 2 ^ fixBits).toNat / 2 ^ (fixBits - 128)) (2 ^ (sfuBits + 1)) (2 ^ sfuBits)
  if 0 ≤ n then t * 2 ^ n.toNat else t / 2 ^ (-n).toNat

/-- ln of a number with `sfuBits` fraction bits that is at least 1. -/
def fixLn (z : Nat) : Int :=
  let l := Nat.log2 z
  let fr := log2Loop 100 (z * 2 ^ sfuBits / 2 ^ l) 0
  fixMul ((((l : Int) - sfuBits) * 2 ^ 100 + fr) * 2 ^ (fixBits - 100)) fixLn2

/-- A code of a format between two fixed-point bounds: the one of index `idx` among them in rising
order, the lowest when there is none. -/
def pickFix (f : Fmt) (lo hi : Int) (idx : Nat) : Nat :=
  let e : Int := -(fixBits : Int)
  let a : Int := if 0 ≤ lo then f.ceilMag lo.toNat e else -(f.floorMag lo.natAbs e : Int)
  let b : Int := if 0 ≤ hi then f.floorMag hi.toNat e else -(f.ceilMag hi.natAbs e : Int)
  let k : Int := a + (idx % ((b - a).toNat + 1) : Nat)
  if 0 ≤ k then min f.maxCode k.toNat else f.signed true (min f.maxCode k.natAbs)

/-- 2^−k as a fixed-point real. -/
def fixPow (k : Nat) : Int := 2 ^ (fixBits - k)

/-! ## Layout (R150) -/

/-- Elements of a head. -/
def headElems (b : AttnOpenB) : Nat := 64 * 2 ^ b.headDim

/-- Head slots per page. -/
def headSlots (h : Nat) : Nat := if h ≤ 2 then h else if h ≤ 4 then 4 else 8

/-- Head groups. -/
def headGroups (h : Nat) : Nat := cdiv h 8

/-- Tokens per page. -/
def pageTokens (b : AttnOpenB) : Nat :=
  (match b.format with | 0 => 64 | 1 => 32 | _ => 80) / 2 ^ b.headDim * (8 / headSlots b.kvHeads)

/-- Bytes of a stored key, of a value's elements and of its scales. -/
def keyBytes (b : AttnOpenB) : Nat := if b.format = 1 then 2 * headElems b else headElems b
def valueBytes (b : AttnOpenB) : Nat :=
  match b.format with | 0 => headElems b | 1 => 2 * headElems b | _ => headElems b / 2
def scaleBytes (b : AttnOpenB) : Nat := if b.format = 2 then headElems b / 32 else 0

/-- Bytes per token and head. -/
def tokenBytes (b : AttnOpenB) : Nat := keyBytes b + valueBytes b + scaleBytes b

/-- Byte offsets in a page of a token slot's key, value and scales (Table 9.1). -/
def keyAt (b : AttnOpenB) (s t : Nat) : Nat := (s * pageTokens b + t) * keyBytes b
def valueAt (b : AttnOpenB) (s t : Nat) : Nat :=
  (if b.format = 2 then 40960 else 32768) + (s * pageTokens b + t) * valueBytes b
def scaleAt (b : AttnOpenB) (s t : Nat) : Nat := 61440 + (s * pageTokens b + t) * scaleBytes b

/-- Index of a page's entry in its layer's table. -/
def entryIndex (b : AttnOpenB) (page g : Nat) : Nat := page * headGroups b.kvHeads + g

/-- PVA of a page-table entry. -/
def entryPva (b : AttnOpenB) (layer page g : Nat) : Nat := b.ptPva + layer * b.ptStride + 64 * entryIndex b page g

/-- A page-table entry passes (Table 9.2). -/
def entryOk (b : AttnOpenB) (e : Nat) : Bool :=
  e.testBit 63 && bitsOf e 62 56 == 0 && bitsOf e 15 0 == 0 && bitsOf e 127 64 == 0 && bitsOf e 511 384 == 0 &&
  (b.format != 1 || bitsOf e 255 128 == 0) && (b.format == 0 || bitsOf e 383 256 == 0)

/-! ## Attended sets (R159) -/

/-- The visible length of a layer (R155). -/
def SeqCtx.visible (c : SeqCtx) (layer : Nat) : Nat := if layer < c.nextLayer then c.length + c.pending else c.length

/-- Context index `j` is attended by query token `n`. -/
def attends (b : AttnOpenB) (st : AttnStepB) (v n j : Nat) : Bool :=
  let q : Int := if st.qposSet then st.qpos else (b.posBase : Int) + v - 1
  let pn := q - (st.nQ - 1 - n : Nat)
  let p : Int := b.posBase + j
  decide (p ≤ pn) && (decide (p < b.sinks) || b.window == 0 || decide (pn - b.window < p))

/-- Context indices some query token attends, rising. -/
def attendedAny (b : AttnOpenB) (st : AttnStepB) (v : Nat) : List Nat :=
  (List.range v).filter fun j => (List.range st.nQ).any fun n => attends b st v n j

/-! ## A row (R160–R162) -/

/-- A stored token of one KV head: its key and value elements, scaled. -/
structure Tok where
  key : List Fp
  val : List Fp
  deriving Repr, Inhabited

/-- A value is finite. -/
def Fp.isFin : Fp → Bool
  | .fin .. => true
  | _ => false

/-- Largest finite magnitudes of E4M3 and BF16 as fixed-point reals. -/
def maxE4m3 : Int := 448 * 2 ^ fixBits
def maxBf16 : Int := (Fmt.bf16.decode Fmt.bf16.maxCode).toFix

/-- ε_Q, ε_P, σ and τ_P of a step (Table 9.8). -/
def epsQ (b : AttnOpenB) (qFp32 : Bool) : Int := if b.format = 1 then (if qFp32 then fixPow 8 else 0) else fixPow 4
def epsP (b : AttnOpenB) : Int := if b.pvBf16 then fixPow 8 else fixPow 4
def sigmaQ (b : AttnOpenB) : Int := if b.format = 1 then 0 else fixPow 18
def tauP (b : AttnOpenB) : Int := if b.pvBf16 then 0 else fixPow 18

/-- The softmax scale c; 0 means 1/√D (Table 9.4). -/
def softScale (b : AttnOpenB) : Int :=
  if b.scale = 0#32 then (isqrt (2 ^ (2 * fixBits) / headElems b) : Nat) else (Fmt.fp32.decode b.scale.toNat).toFix

/-- Sum of integers. -/
def sumInt (l : List Int) : Int := l.foldl (· + ·) 0

/-- The row's conditions of R162 hold: no NaN, no overflow of FP32, keys and values in range. -/
def rowInRange (b : AttnOpenB) (q : List Fp) (ts : List Tok) : Bool :=
  let kMax := if b.format = 1 then maxBf16 else maxE4m3
  let vMax := if b.pvBf16 then maxBf16 else maxE4m3
  let big : Int := 2 ^ (fixBits + 127)
  q.all Fp.isFin && ts.all fun t =>
    t.key.all Fp.isFin && t.val.all Fp.isFin &&
    t.key.all (fun k => decide (k.toFix.natAbs ≤ kMax)) && t.val.all (fun v => decide (v.toFix.natAbs ≤ vMax)) &&
    decide (sumInt ((q.zip t.key).map fun y => ((y.1.mul y.2).1.toFix.natAbs : Int)) < big)

/-- Fixed-point reference of a row: LSE, Δ, the weights e^(s − max) and Z, these with `sfuBits`
fraction bits. -/
def rowRef (b : AttnOpenB) (qFp32 : Bool) (q : List Fp) (ts : List Tok) : Int × Int × List Nat × Nat :=
  let c := softScale b
  let dots := ts.map fun t => sumInt ((q.zip t.key).map fun y => (y.1.mul y.2).1.toFix)
  let s := dots.map fun d => fixMul c d
  let top := s.foldl max (s.headD 0)
  let ws := s.map fun x => fixExp (x - top)
  let z := ws.foldl (· + ·) 0
  let qm := (q.map fun x => x.toFix.natAbs).foldl max 0
  let err := ts.map fun t =>
    fixMul (epsQ b qFp32) (sumInt ((q.zip t.key).map fun y => ((y.1.mul y.2).1.toFix.natAbs : Int))) +
    fixMul (sigmaQ b) (fixMul (sumInt (t.key.map fun k => (k.toFix.natAbs : Int))) qm)
  (top + fixLn z, fixMul c (err.foldl max 0), ws, z)

/-- The bits a row returns: its D outputs and its LSE. `open_` gives the part's choice within the
bound, or any bits outside R162's conditions, by element; the LSE is element D. -/
def rowOut (b : AttnOpenB) (st : AttnStepB) (q : List Fp) (ts : List Tok) (open_ : Nat → Nat) : List Nat × Nat :=
  let d := headElems b
  let f := if st.outFp32 then Fmt.fp32 else Fmt.bf16
  if ts.isEmpty then (List.replicate d 0, 0xFF800000)
  else if !rowInRange b q ts then ((List.range d).map fun i => open_ i % 2 ^ f.width, open_ d % 2 ^ 32)
  else
    let r := rowRef b st.qryFp32 q ts
    let delta := r.2.1
    let z := r.2.2.2
    if 500 * 2 ^ fixBits < delta then ((List.range d).map fun i => open_ i % 2 ^ f.width, open_ d % 2 ^ 32)
    else
      let grow := (fixExp (2 * delta) : Int) * 2 ^ (fixBits - sfuBits) - 2 ^ fixBits + epsP b + fixPow 16
      let outs := (List.range d).map fun i =>
        let vs := ts.map fun t => (t.val.getD i default).toFix
        let o := sumInt ((r.2.2.1.zip vs).map fun y => (y.1 : Int) * y.2) / z
        let mag := sumInt ((r.2.2.1.zip vs).map fun y => (y.1 * y.2.natAbs : Nat)) / z
        let all := sumInt (vs.map fun v => (v.natAbs : Int))
        let bound := fixMul grow mag + fixMul (tauP b) (all * 2 ^ sfuBits / z) + fixPow 390
        pickFix f (o - bound) (o + bound) (open_ i)
      (outs, pickFix Fmt.fp32 (r.1 - delta - fixPow 16) (r.1 + delta + fixPow 16) (open_ d))

/-! ## A step -/

/-- The elements of an entry's scale of slot `s` (Table 9.2): 1 where the format has none. -/
def entryScale (b : AttnOpenB) (e s : Nat) (val : Bool) : Fp :=
  if b.format = 1 ∨ (val ∧ b.format ≠ 0) then .fin false 1 0
  else Fmt.bf16.decode (bitsOf e (if val then 271 + 16 * s else 143 + 16 * s) (if val then 256 + 16 * s else 128 + 16 * s))

/-- The stored elements of a token slot from a page's bytes, dequantised. -/
def tokOf (b : AttnOpenB) (e s : Nat) (key value scale : Nat) : Tok :=
  let d := headElems b
  let ks := entryScale b e s false
  let vs := entryScale b e s true
  { key := (List.range d).map fun i =>
      (if b.format = 1 then Fmt.bf16.decode (elem key 16 i) else ((Fmt.e4m3.decode (byteOf key i)).mul ks).1)
    val := (List.range d).map fun i =>
      match b.format with
      | 0 => ((Fmt.e4m3.decode (byteOf value i)).mul vs).1
      | 1 => Fmt.bf16.decode (elem value 16 i)
      | _ =>
        let sc := byteOf scale (i / 32)
        if sc = 255 then .nan false else (Fmt.e2m1.decode (elem value 4 i)).scale ((sc : Int) - 127) }

/-- A query row's elements. -/
def queryRow (b : AttnOpenB) (st : AttnStepB) (bytes r : Nat) : List Fp :=
  let d := headElems b
  (List.range d).map fun i =>
    if st.qryFp32 then Fmt.fp32.decode (elem bytes 32 (r * d + i)) else Fmt.bf16.decode (elem bytes 16 (r * d + i))

/-- Query rows of a step (R158). -/
def stepRows (b : AttnOpenB) (st : AttnStepB) : Nat := st.nQ * b.kvHeads * b.group

/-- Bytes of the query rows. -/
def queryBytes (b : AttnOpenB) (st : AttnStepB) : Nat := stepRows b st * headElems b * (if st.qryFp32 then 4 else 2)

/-- Bytes of an output vector. -/
def outVecBytes (b : AttnOpenB) (st : AttnStepB) : Nat := headElems b * (if st.outFp32 then 4 else 2)

/-- The output area (R160): the rows' vectors, then their LSE values at the next 64-byte boundary.
`tok k j` is the token of head k at index j. -/
def stepArea (b : AttnOpenB) (st : AttnStepB) (v query : Nat) (tok : Nat → Nat → Tok) (open_ : Nat → Nat) : List Line :=
  let js := attendedAny b st v
  let rows := (List.range (stepRows b st)).map fun r =>
    let n := r / (b.kvHeads * b.group)
    let k := r / b.group % b.kvHeads
    rowOut b st (queryRow b st query r) ((js.filter fun j => attends b st v n j).map fun j => tok k j)
      fun i => open_ (r * 2 ^ 12 + i)
  linesOf (concatBytes (outVecBytes b st) (rows.map fun y => concatBytes (if st.outFp32 then 4 else 2) y.1))
      (stepRows b st * outVecBytes b st)
    ++ linesOf (concatBytes 4 (rows.map (·.2))) (4 * stepRows b st)

/-- What a step's results depend on, as one number (R163). -/
def seedOf (l : List Nat) : Nat := l.foldl (fun a x => a * 2 ^ 512 + x % 2 ^ 512) 1

end Sys2Proof.Machine
end

