-- ==== Sys2Proof/Machine/Attention.lean ====
section
/-! DEFINITION. Attention (chapter 9): the context store, sequence contexts, appends and steps. -/

namespace Sys2Proof.Machine

/-! ## The context store (R152, R153) -/

/-- Open sequences of a deckle. -/
def State.openSeqs (s : State) (d : Nat) : Nat := s.attn.seqs.count fun _ c => c.deckle == d

/-- Adds `n` granules to a deckle's context store, one by one, within its tier-1 quota. -/
def State.growCtx (s : State) (d hint : Nat) : Nat → Except (Status × Nat) State
  | 0 => .ok s
  | n + 1 =>
    match s.placeIn d .t1 1 hint with
    | .error e => .error e
    | .ok g =>
      let s1 := s.holdRun .t1 g 1 (s.nextGen .t1 g 1) 4096
      (s1.modDeckle d fun k => { k with ctxStore := k.ctxStore ++ [(g, 1)] }).growCtx d (hint + 1) n

/-- The context store is freed when MAX_SEQ is 0 and no sequence is open (R153). -/
def State.dropCtx (s : State) (d : Nat) : State :=
  match s.part.deckles.find d with
  | some k =>
    if k.maxSeq = 0 ∧ s.openSeqs d = 0 then
      k.ctxStore.foldl (fun a r => a.retireRun .t1 r.1 r.2 false) (s.modDeckle d fun k => { k with ctxStore := [] })
    else s
  | none => s

/-- Sets the windows each core gives to context spill; a window changes once no launch holds it. -/
def State.setSpill (s : State) (n : Nat) : State :=
  (List.range 32).foldl (fun a c => a.modCore c fun k => Core.settleSpill { k with spillTarget := n }) s

/-- Sets MAX_SEQ of a deckle (R153). -/
def State.setMaxSeq (s : State) (d n hint : Nat) : Except (Status × Nat) State :=
  let k := s.part.deckles.find d
  match s.growCtx d hint (cdiv n 16384 - runTotal ((k.map (·.ctxStore)).getD [])) with
  | .error e => .error e
  | .ok s1 =>
    let sum := ((s.part.deckles.filter fun x => x.1 != d).map fun x => x.2.maxSeq).foldl (· + ·) 0
    if 4194304 < sum + n then .error (.busy, 12)
    else .ok ((s1.modDeckle d fun k => { k with maxSeq := n }).dropCtx d)

/-- ATTN_POOL_SET: code, length and what R27 checks of it first. -/
def attnPoolSetCmd (p : PoolSetP) : Cmd :=
  { code := 0x0507, oper := true, len := 8, rsvd := p.rsvd, names := if p.setMax then [p.deckle] else [] }

/-- ATTN_POOL_SET: its checks in order (R153). -/
def attnPoolSetChecks (p : PoolSetP) : State → List Check :=
  fun s => [((!p.setWindows || p.windows ≤ 4) && (!p.setMax || (p.maxSeq ≤ 1048576 && s.part.deckles.has p.deckle)), .invalid, 0)]

/-- ATTN_POOL_SET: its effect (R153). -/
def attnPoolSetAct (p : PoolSetP) (hint : Nat) : State → Nat → State × Option Ans :=
  fun s _ =>
      match (if p.setMax then s.setMaxSeq p.deckle p.maxSeq hint else .ok s) with
      | .error e => (s, some { status := e.1, detail := e.2 })
      | .ok s1 => (if p.setWindows then s1.setSpill p.windows else s1, some okAns)

/-- ATTN_POOL_SET (R153). -/
def execAttnPoolSet (q : Req) (p : PoolSetP) (hint : Nat) (s : State) : Host.Outcome State Fault Refusal :=
  .next (s.serve (.attnPoolSet q p hint) (attnPoolSetCmd p) q (attnPoolSetChecks p) (attnPoolSetAct p hint))

/-! ## Messages and completions (R157, R164) -/

/-- KIND of an attention message. -/
def attnKind : WorkBody → Nat
  | .open_ _ => 0x0020
  | .step .. => 0x0021
  | .append _ => 0x0022
  | _ => 0x0023

/-- The sequence an attention message names. -/
def attnSeq : WorkBody → Option Nat
  | .append b => some b.seq
  | .step b => some b.seq
  | .close b _ => some b.seq
  | _ => none

/-- The message is a step. -/
def isStep : WorkBody → Bool
  | .step .. => true
  | _ => false

/-- Work items an attention message follows (R157): a step the earlier appends and closes of its
sequence, an append or close every earlier message. -/
def State.attnAfter (s : State) (d : Nat) (body : WorkBody) : List Nat :=
  match attnSeq body with
  | none => []
  | some q => (s.eng.work.filter fun w => w.2.deckle == d && attnSeq w.2.body == some q &&
      !(isStep body && isStep w.2.body)).map Prod.fst

/-- A context's entry in the home core's table becomes the most recently used (R152). -/
def State.touchCtx (s : State) (seq : Nat) : State :=
  match s.attn.seqs.find seq with
  | some c => s.modCore c.home fun k => { k with resident := (seq :: k.resident.filter (· != seq)).take 512 }
  | none => s

/-- An attention completion (Table 9.10). -/
def attnCpl (kind : Nat) (st : Status) (ctag seq : Nat) (c : Option SeqCtx) (detail elapsed tiles nj attended vstat : Nat) : Nat :=
  pack [(16, kind), (8, statusCode st), (8, 0), (32, ctag), (32, seq), (21, (c.map (·.length)).getD 0), (11, 0),
    (9, (c.map (·.nextLayer)).getD 0), (7, 0), (13, (c.map (·.pending)).getD 0), (3, 0), (32, detail), (32, elapsed),
    (32, tiles), (64, nj), (21, attended), (5, vstat), (166, 0)]

/-- A sequence of a deckle. -/
def State.seqOf (s : State) (d seq : Nat) : Option SeqCtx := (s.attn.seqs.find seq).filter fun c => c.deckle == d

/-- Refuses an attention message with its completion (R164). -/
def State.refuseAttn (s : State) (h : Hdr) (kind ctag seq cplEp : Nat) (st : Status) (detail : Nat) : State :=
  s.sendCpl (s.cplTo h cplEp) h.deckle h.cls (s.queueOf h.deckle h.cls)
    (attnCpl kind st ctag seq (s.seqOf h.deckle seq) detail 0 0 0 0 0)

/-- Ends an attention message: what it changed of the contexts since `old` is committed, and the
completion waits for the standby's apply. -/
def State.endAttn (old s : State) (w : Nat) (x : Work) (st : Status) (detail seq tiles attended vstat : Nat) : State :=
  let m := State.mirrorCommit old s 0 0 true
  let run := x.state == .running && x.started != 0
  let e := if run then m.1.measure else (0, m.1)
  let body := attnCpl (attnKind x.body) st x.ctag seq (s.attn.seqs.find seq) detail
    (if run then sat 32 (s.now - x.started) else 0) tiles e.1 attended vstat
  e.2.finishWork w { x with mseq := max x.mseq (m.2.getD 0) } e.1 body

/-! ## Counter checks (R154, R155, R156, R159) -/

/-- The check of an append against its context: DETAIL of a failure. -/
def appendBad (c : SeqCtx) (b : AttnAppendB) : Option Nat :=
  if b.layer ≠ c.nextLayer then some 3
  else if c.nextLayer = 0 then (if c.cfg.maxTokens < c.length + b.nTokens then some 4 else none)
  else if b.nTokens ≠ c.pending then some 3 else none

/-- The checks of a step against its context. -/
def stepBad (c : SeqCtx) (b : AttnStepB) : Option Nat :=
  if c.cfg.layers ≤ b.layer ∨ 1024 < stepRows c.cfg b ∨ (b.inl ∧ b.inlineLen ≠ queryBytes c.cfg b) then some 2
  else if !b.qposSet && c.visible b.layer < b.nQ then some 5 else none

/-- The check of a truncation. -/
def truncBad (c : SeqCtx) (b : AttnCloseB) : Option Nat :=
  if c.pending ≠ 0 ∨ c.length < b.newLength then some 8 else none

/-- What a message that may take effect now is refused with (Table 9.11). -/
def State.attnBad (s : State) (d : Nat) (body : WorkBody) : Option (Status × Nat) :=
  match body with
  | .open_ b =>
    if !b.pvBf16 && b.format != 0 then some (.invalid, 9)
    else if ((s.part.deckles.find d).map (·.maxSeq)).getD 0 ≤ s.openSeqs d then some (.busy, 7)
    else none
  | .append b => match s.seqOf d b.seq with
    | none => some (.invalid, 1)
    | some c => (appendBad c b).map fun e => (.invalid, e)
  | .step b => match s.seqOf d b.seq with
    | none => some (.invalid, 1)
    | some c => (stepBad c b).map fun e => (.invalid, e)
  | .close b op => match s.seqOf d b.seq with
    | none => some (.invalid, 1)
    | some c => if op = 1 then (truncBad c b).map fun e => (.invalid, e) else none
  | _ => none

/-! ## Opens and closes take effect (R154, R156) -/

/-- The home core of an open (R154). -/
def State.homeFor (s : State) (b : AttnOpenB) : Option Nat :=
  if !b.anyCore then (if (s.core b.core).ready then some b.core else none)
  else
    let cs := s.readyCores
    let n := fun c => s.attn.seqs.count fun _ x => x.home == c
    let low := (cs.map n).foldl min (2 ^ 32)
    cs.find? fun c => n c == low

/-- Changes a context. -/
def State.modSeq (s : State) (q : Nat) (f : SeqCtx → SeqCtx) : State :=
  { s with attn := { s.attn with seqs := s.attn.seqs.upd q f } }

/-- An open, close, truncation or query whose turn has come takes effect and completes. -/
def State.runAttn (s : State) (w : Nat) (x : Work) : State :=
  match x.body with
  | .open_ b =>
    match s.attnBad x.deckle x.body, s.homeFor b with
    | some e, _ => State.endAttn s s w x e.1 e.2 0 0 0 0
    | none, none => State.endAttn s s w x .notReady 0 0 0 0 0
    | none, some core =>
      let q := s.attn.lastSeq + 1
      let c : SeqCtx := { deckle := x.deckle, home := core, cfg := b, length := 0, pending := 0, nextLayer := 0 }
      let s1 := { s with attn := { s.attn with seqs := s.attn.seqs.put q c, lastSeq := q } }
      State.endAttn s (s1.touchCtx q) w x .ok 0 q 0 0 0
  | .close b op =>
    match s.attnBad x.deckle x.body with
    | some e => State.endAttn s s w x e.1 e.2 b.seq 0 0 0
    | none =>
      if op = 1 then
        State.endAttn s ((s.touchCtx b.seq).modSeq b.seq fun c => { c with length := b.newLength }) w x .ok 0 b.seq 0 0 0
      else if op = 2 then State.endAttn s s w x .ok 0 b.seq 0 0 0
      else
        let home := ((s.attn.seqs.find b.seq).map (·.home)).getD 0
        let s1 := s.modCore home fun k => { k with resident := k.resident.filter (· != b.seq) }
        let s2 := { s1 with attn := { s1.attn with seqs := s1.attn.seqs.del b.seq } }
        State.endAttn s (s2.dropCtx x.deckle) w x .ok 0 b.seq 0 0 0
  | _ => s

/-- Opens and closes whose turn has come take effect, in arrival order (R157). -/
def State.pumpAttn (s : State) : State :=
  s.eng.work.keys.foldl (fun a w =>
    match a.eng.work.find w with
    | some x =>
      let simple := match x.body with | .open_ _ => true | .close .. => true | _ => false
      if simple && x.state == .queued && x.after.isEmpty && x.ready.isNone then a.runAttn w x else a
    | none => a) s

/-- Completions whose writes and commits the standby has applied are sent (R310). -/
def State.pumpReady (s : State) : State :=
  (s.eng.work.keys.foldl (fun a w =>
    match a.eng.work.find w with
    | some x => match x.ready with
      | some (body, nj) => if a.mirrors && a.pair.acked < x.mseq then a else a.endWork w x nj body
      | none => a
    | none => a) s).pumpAttn

/-! ## Admission (R164) -/

/-- Admits an attention message: refused, waiting for energy or for its turn, or in force. `early`
holds when no earlier message of the sequence is open, so that its checks are made now. -/
def State.admitAttn (s : State) (h : Hdr) (queue : Nat) (body : WorkBody) (cplEp ctag : Nat) (fields aligned : Bool)
    (cores : List Nat) (engines capNs est : Nat) : State :=
  let seq := (attnSeq body).getD 0
  let no := fun (s : State) (st : Status) (d : Nat) => s.refuseAttn h (attnKind body) ctag seq cplEp st d
  let after := s.attnAfter h.deckle body
  if !s.deckleActive h.deckle then no s .revoked 0
  else if !fields || !s.member h.deckle cplEp then no s .invalid 2
  else if !aligned then no s .align 0
  else match (if after.isEmpty then s.attnBad h.deckle body else none) with
    | some e => no s e.1 e.2
    | none =>
      if cores.isEmpty || !cores.all (fun c => (s.core c).ready) then no s .notReady 0
      else
        let w := { mkWork h queue body cplEp ctag cores engines capNs est with after := after }
        match s.admitEnergy h.deckle est with
        | (s1, .refuse st) => no s1 st 0
        | (s1, .wait) => (s1.addWork { w with state := .energyQueued }).1
        | (s1, .go y) => ((s1.addWork { w with yellow := y, queue := if y then 60 else queue }).1).pumpAttn

/-- The gate of an attention message. -/
def State.attnGate (s : State) (h : Hdr) (kind ctag seq cplEp len : Nat) (go : State → Nat → State) : State :=
  s.workGate h kind ctag len (fun s q _ => go s q) (fun s st => s.refuseAttn h kind ctag seq cplEp st 0)

/-- The fields of ATTN_OPEN pass (Table 9.4). -/
def openFields (b : AttnOpenB) : Bool :=
  b.rsvd == 0 && b.core < 32 && (!b.anyCore || b.core == 0) && b.headDim ≤ 2 && b.format ≤ 2 && 1 ≤ b.kvHeads && b.kvHeads ≤ 64 &&
  1 ≤ b.group && b.group ≤ 16 && 1 ≤ b.layers && b.layers ≤ 256 && 1 ≤ b.maxTokens && b.maxTokens ≤ 1048576 &&
  b.window ≤ 1048576 && b.sinks ≤ 1024 && finite32 b.scale && !b.scale.getLsbD 31 && b.ptStride % 64 == 0 &&
  64 * headGroups b.kvHeads * cdiv b.maxTokens (pageTokens b) ≤ b.ptStride

/-- ATTN_OPEN (R154). -/
def execAttnOpen (h : Hdr) (b : AttnOpenB) (s : State) : Host.Outcome State Fault Refusal :=
  .next (s.attnGate h 0x0020 b.ctag 0 b.cplEp 128 fun s q =>
    s.admitAttn h q (.open_ b) b.cplEp b.ctag (openFields b) (b.ptPva % 64 == 0)
      ((s.homeFor b).toList) 0 0 0)

/-- Home core of a sequence of a deckle, core 0 standing in for a sequence that is unknown. -/
def State.homeOf (s : State) (d seq : Nat) : Nat := ((s.seqOf d seq).map (·.home)).getD 0

/-- Estimate of an append in pJ (R269, log 37). -/
def State.appendEstimate (s : State) (d : Nat) (b : AttnAppendB) : Nat :=
  match s.seqOf d b.seq with
  | some c => if b.copy then cdiv (b.nTokens * c.cfg.kvHeads * tokenBytes c.cfg) 64 * (900 + 2900) else 0
  | none => 0

/-- ATTN_APPEND (R156). -/
def execAttnAppend (h : Hdr) (b : AttnAppendB) (s : State) : Host.Outcome State Fault Refusal :=
  .next (s.attnGate h 0x0022 b.ctag b.seq b.cplEp 128 fun s q =>
    s.admitAttn h q (.append b) b.cplEp b.ctag
      (b.rsvd == 0 && b.layer ≤ 255 && 1 ≤ b.nTokens && b.nTokens ≤ 4096 && (b.copy || b.srcPva == 0)) (b.srcPva % 64 == 0)
      [s.homeOf h.deckle b.seq] 1 0 (s.appendEstimate h.deckle b))

/-- Multiply-accumulates of a step (chapter 9, the rates). -/
def stepMacs (c : AttnOpenB) (b : AttnStepB) (v : Nat) : Nat :=
  b.nQ * (c.group * headElems c * ((if c.format = 1 then 2 else 1) + (if c.pvBf16 then 2 else 1))) * c.kvHeads * v

/-- Estimate of a step in pJ (R158, Table 1.10, log 37). -/
def State.stepEstimate (s : State) (d : Nat) (b : AttnStepB) : Nat :=
  match s.seqOf d b.seq with
  | some c =>
    let v := c.visible b.layer
    let out := stepRows c.cfg b * (outVecBytes c.cfg b + 4)
    cdiv (v * c.cfg.kvHeads * tokenBytes c.cfg) 64 * 900 + cdiv (stepMacs c.cfg b v) 1024 * 85 +
      (if b.outPva then 0 else cdiv out 240 * 3100)
  | none => 0

/-- The aligned group of cores that contains the home core (R158). -/
def stepCores (home n : Nat) : List Nat := coreGroup (home / n * n) n

/-- ATTN_STEP (R158). -/
def execAttnStep (h : Hdr) (b : AttnStepB) (s : State) : Host.Outcome State Fault Refusal :=
  .next (s.attnGate h 0x0021 b.ctag b.seq b.cplEp (128 + if b.inl then b.inlineLen else 0) fun s q =>
    s.admitAttn h q (.step b) b.cplEp b.ctag
      (b.rsvd == 0 && b.cores ≤ 5 && 1 ≤ b.nQ && b.nQ ≤ 8 && b.engines ≤ 16 && (b.capUs == 0 || (10 ≤ b.capUs && b.capUs ≤ 1000000)) &&
        (!b.inl || b.queryPva == 0) && (!b.outPva || b.outAddr < 2 ^ 56) && b.inlineLen ≤ 3968)
      (b.queryPva % 64 == 0 && b.outAddr % 64 == 0)
      (stepCores (s.homeOf h.deckle b.seq) (coreCount b.cores)) (if b.engines = 0 then 16 else b.engines)
      ((if b.capUs = 0 then 10000 else b.capUs) * 1000) (s.stepEstimate h.deckle b))

/-- ATTN_CLOSE of an OP. -/
def State.attnCloseOp (s : State) (h : Hdr) (b : AttnCloseB) (op : Nat) : State :=
  s.attnGate h 0x0023 b.ctag b.seq b.cplEp 64 fun s q =>
    s.admitAttn h q (.close b op) b.cplEp b.ctag (b.rsvd == 0 && (op == 1 || b.newLength == 0)) true
      [s.homeOf h.deckle b.seq] 0 0 0

/-- ATTN_CLOSE (R156). -/
def execAttnClose (h : Hdr) (b : AttnCloseB) (s : State) : Host.Outcome State Fault Refusal := .next (s.attnCloseOp h b 0)

/-- ATTN_CLOSE with TRUNCATE. -/
def execAttnTruncate (h : Hdr) (b : AttnCloseB) (s : State) : Host.Outcome State Fault Refusal := .next (s.attnCloseOp h b 1)

/-- ATTN_CLOSE with QUERY. -/
def execAttnQuery (h : Hdr) (b : AttnCloseB) (s : State) : Host.Outcome State Fault Refusal := .next (s.attnCloseOp h b 2)

/-! ## Page-table entries (R151) -/

/-- What running a message comes to beside its result. -/
inductive Ran (α : Type)
  | ok (x : α)
  | fault (lines : List Nat)
  | fail (st : Status) (detail : Nat)
  | again
  deriving DecidableEq, Repr

/-- Reads the entries of pages and groups: by page × 16 + group. -/
def State.readEntries (s : State) (x : Work) (c : AttnOpenB) (layer : Nat) :
    List (Nat × Nat) → NMap Nat → State × Ran (NMap Nat)
  | [], acc => (s, .ok acc)
  | (p, g) :: r, acc =>
    let i := entryIndex c p g
    match s.readFor x.deckle x.deckle x.cls [entryPva c layer p g / 64] with
    | (s1, .data ls) =>
      let e := lineNat ls
      if entryOk c e then s1.readEntries x c layer r (acc.put (p * 16 + g) e) else (s1, .fail .badDescriptor (6 + 256 * i))
    | (s1, .fault _ l) => (s1, .fault l)
    | (s1, .fail st) => (s1, .fail st (if st = .uncorrectable then 256 * i else 0))
    | (s1, .again) => (s1, .again)

/-- Pages of context indices, each once, with every head group. -/
def pagesWith (c : AttnOpenB) (js : List Nat) : List (Nat × Nat) :=
  ((js.map fun j => j / pageTokens c).eraseDups).flatMap fun p => (List.range (headGroups c.kvHeads)).map fun g => (p, g)

/-- Spans of a token slot in its page: offset and bytes of key, value and scales. -/
def tokSpans (c : AttnOpenB) (k j : Nat) : List (Nat × Nat) :=
  let sl := k % headSlots c.kvHeads
  let t := j % pageTokens c
  [(keyAt c sl t, keyBytes c), (valueAt c sl t, valueBytes c)] ++
    (if c.format = 2 then [(scaleAt c sl t, scaleBytes c)] else [])

/-- The page's entry of a token and head. -/
def entryFor (c : AttnOpenB) (es : NMap Nat) (k j : Nat) : Nat := (es.find (j / pageTokens c * 16 + k / 8)).getD 0

/-! ## Appends (R155, R156) -/

/-- Byte runs an append writes: address, length, value. -/
def appendRuns (c : AttnOpenB) (es : NMap Nat) (v n src : Nat) : List (Nat × Nat × Nat) :=
  (List.range n).flatMap fun t => (List.range c.kvHeads).flatMap fun k =>
    let rec_ := bytesFrom src ((t * c.kvHeads + k) * tokenBytes c) (tokenBytes c)
    let pg := bitsOf (entryFor c es k (v + t)) 55 0
    ((tokSpans c k (v + t)).foldl (fun (a : List (Nat × Nat × Nat) × Nat) sp =>
      (a.1 ++ [(pg + sp.1, sp.2, bytesFrom rec_ a.2 sp.2)], a.2 + sp.2)) ([], 0)).1

/-- Byte runs as lines with masks, each line once, in order of first use. -/
def runLines (rs : List (Nat × Nat × Nat)) : List (Nat × Line × BitVec 64) :=
  rs.foldl (fun acc r =>
    ((bytesLines r.1 r.2.1).zip (List.range (cdiv (r.1 % 64 + r.2.1) 64))).foldl (fun a y =>
      let sh := 8 * (r.1 % 64)
      let d := BitVec.ofNat 512 ((r.2.2 <<< sh) >>> (512 * y.2))
      let bits := ((ones r.2.1) <<< (r.1 % 64)) >>> (64 * y.2)
      let m := BitVec.ofNat 64 bits
      if a.any fun z => z.1 == y.1 then
        a.map fun z => if z.1 = y.1 then (z.1, mergeLine z.2.1 d m, z.2.2 ||| m) else z
      else a ++ [(y.1, mergeLine 0#512 d m, m)]) acc) []

/-- Writes lines with masks in order: merged lines are read first. -/
def State.mergeInto (s : State) (cls : Nat) : List (LineRef × Line × BitVec 64) → Nat → State × Ran Nat
  | [], m => (s, .ok m)
  | (r, d, k) :: rest, m =>
    match (s.closeAsmOf r.tier r.line).writeLine r d k false { fw := true, cls := cls } with
    | (s1, .done q) => s1.mergeInto cls rest (max m (q.getD 0))
    | (s1, .fail st) => (s1, .fail st 0)
    | (s1, .wait) => (s1, .again)

/-- Copies the tokens of an append into their pages: the highest MSEQ. -/
def State.copyTokens (s : State) (x : Work) (c : SeqCtx) (b : AttnAppendB) (es : NMap Nat) : State × Ran Nat :=
  let n := b.nTokens * c.cfg.kvHeads * tokenBytes c.cfg
  match s.readFor x.deckle x.deckle x.cls (lineRun b.srcPva (cdiv n 64)) with
  | (s1, .data src) =>
    let ls := runLines (appendRuns c.cfg es (c.visible b.layer) b.nTokens (lineNat src))
    match s1.tileTrans x.deckle [] (ls.map (·.1)) with
    | .ok _ dst =>
      if s1.tileWaits dst then (s, .again)
      else if !dst.all s1.liveRef then (s1, .fail .revoked 0)
      else s1.mergeInto x.cls (dst.zip (ls.map (·.2))) 0
    | .fault .. => (s1, .fault (ls.map (·.1)))
    | .stop st r95 => (if r95 then s1.mismatch x.deckle else s1, .fail st 0)
  | (s1, .fault _ l) => (s1, .fault l)
  | (s1, .fail st) => (s1, .fail st 0)
  | (s1, .again) => (s1, .again)

/-- Runs an append: the highest MSEQ its writes produced. -/
def State.runAppend (s : State) (x : Work) (c : SeqCtx) (b : AttnAppendB) : State × Ran Nat :=
  let v := c.visible b.layer
  let ps := pagesWith c.cfg ((List.range b.nTokens).map fun t => v + t)
  match s.readEntries x c.cfg b.layer ps [] with
  | (s1, .ok es) => if b.copy then s1.copyTokens x c b es else (s1, .ok 0)
  | (s1, .fault l) => (s1, .fault l)
  | (s1, .fail st d) => (s1, .fail st d)
  | (s1, .again) => (s1, .again)

/-- The counters after a successful append (R155). -/
def SeqCtx.appended (c : SeqCtx) (n : Nat) : SeqCtx :=
  let p := if c.nextLayer = 0 then n else c.pending
  if c.nextLayer + 1 = c.cfg.layers then { c with length := c.length + p, pending := 0, nextLayer := 0 }
  else { c with pending := p, nextLayer := c.nextLayer + 1 }

/-- Whether a fault of the message's lines is one of a write side. -/
def State.faultWait (s : State) (w : Nat) (x : Work) (lines : List Nat) (wr : Bool) : State :=
  if wr then (s.tileStart w x.deckle (s.firstEngine w x) [] lines).1
  else (s.tileStart w x.deckle (s.firstEngine w x) lines []).1

/-- ATTN_APPEND_DONE (R155): the append's tiles land and its counters advance. -/
def execAttnAppendDone (work : Nat) (s : State) : Host.Outcome State Fault Refusal :=
  .next <| s.unlessTripped <| match s.eng.work.find work with
  | some x =>
    match x.body with
    | .append b =>
      let tiles := s.draw (2 ^ 32)
      let stop := fun (s : State) => match s.eng.work.find work with
        | some y => match y.cause with
          | some e => (State.endAttn s s work y e.1 e.2 b.seq (if y.state == .running then tiles.1 else 0) 0 0).pumpAttn
          | none => s
        | none => s
      if x.cause.isSome then stop s
      else if x.ready.isSome || x.state ≠ .running || s.waiting (s.firstEngine work x) then s
      else match s.attnBad x.deckle x.body, s.seqOf x.deckle b.seq with
        | some e, _ => (State.endAttn s s work x e.1 e.2 b.seq 0 0 0).pumpAttn
        | none, none => s
        | none, some c =>
          match (s.touchCtx b.seq).runAppend x c b with
          | (s1, .ok m) =>
            let s2 := { s1 with free := s1.free + 1 }
            (State.endAttn s2 (s2.modSeq b.seq fun c => c.appended b.nTokens) work { x with mseq := m } .ok 0 b.seq tiles.1 0 0).pumpAttn
          | (s1, .fail st d) => stop (s1.stopWork work st d)
          | (_, .fault l) =>
            let rd := match s.tileTrans x.deckle l [] with | .ok .. => true | _ => false
            stop (s.faultWait work x l rd)
          | (s1, .again) => s1
    | _ => s
  | none => s

/-! ## Steps (R158–R164) -/

/-- Reads the tokens a step attends: the bytes of their spans, line by line. -/
def State.readTokens (s : State) (x : Work) (lines : List (Nat × Nat)) (acc : List (Nat × Line)) : State × Ran (List (Nat × Line)) :=
  match lines with
  | [] => (s, .ok acc)
  | (l, i) :: r =>
    match s.readFor x.deckle x.deckle x.cls [l] with
    | (s1, .data ls) => s1.readTokens x r ((l, ls.headD 0#512) :: acc)
    | (s1, .fault _ ls) => (s1, .fault ls)
    | (s1, .fail st) => (s1, .fail st (if st = .uncorrectable then 256 * i else 0))
    | (s1, .again) => (s1, .again)

/-- Lines of the attended tokens' spans, each once with its entry's index. -/
def tokenLines (c : AttnOpenB) (es : NMap Nat) (js : List Nat) : List (Nat × Nat) :=
  (js.flatMap fun j => (List.range c.kvHeads).flatMap fun k =>
    (tokSpans c k j).flatMap fun sp =>
      (bytesLines (bitsOf (entryFor c es k j) 55 0 + sp.1) sp.2).map fun l =>
        (l, entryIndex c (j / pageTokens c) (k / 8))).eraseDups

/-- The query rows of a step. -/
def State.stepQueries (s : State) (x : Work) (c : AttnOpenB) (b : AttnStepB) : State × Ran (List Line) :=
  if b.inl then (s, .ok b.queries)
  else match s.readFor x.deckle x.deckle x.cls (lineRun b.queryPva (cdiv (queryBytes c b) 64)) with
    | (s1, .data ls) => (s1, .ok ls)
    | (s1, .fault _ l) => (s1, .fault l)
    | (s1, .fail st) => (s1, .fail st 0)
    | (s1, .again) => (s1, .again)

/-- What a step depends on (R163): the stored data, the queries, the sequence's configuration, the
visible length and the cores and engines. -/
def stepSeed (c : AttnOpenB) (b : AttnStepB) (v : Nat) (qs : List Line) (data : List (Nat × Line)) : Nat :=
  seedOf ([c.headDim, c.format, b2n c.pvBf16, c.kvHeads, c.group, c.layers, c.maxTokens, c.window, c.sinks, c.scale.toNat,
    c.ptPva, c.ptStride, c.posBase, b.cores, b.engines, b2n b.qryFp32, b2n b.outFp32, b.nQ, b2n b.qposSet, b.qpos, b.layer, v]
    ++ qs.map (·.toNat) ++ data.map fun d => d.2.toNat)

/-- Runs a step: its output area. -/
def State.runStep (s : State) (x : Work) (c : SeqCtx) (b : AttnStepB) : State × Ran (List Line) :=
  let v := c.visible b.layer
  let js := attendedAny c.cfg b v
  match s.stepQueries x c.cfg b with
  | (s1, .ok qs) =>
    match s1.readEntries x c.cfg b.layer (pagesWith c.cfg js) [] with
    | (s2, .ok es) =>
      match s2.readTokens x (tokenLines c.cfg es js) [] with
      | (s3, .ok data) =>
        let tok := fun k j =>
          let pg := bitsOf (entryFor c.cfg es k j) 55 0
          let sp := tokSpans c.cfg k j
          let get := fun i => match sp[i]? with | some y => bytesIn data (pg + y.1) y.2 | none => 0
          tokOf c.cfg (entryFor c.cfg es k j) (k % headSlots c.cfg.kvHeads) (get 0) (get 1) (get 2)
        let seed := stepSeed c.cfg b v qs data
        let s4 := (s3.charge x.deckle x.cls 4 (cdiv (stepMacs c.cfg b js.length) 1024 * 85)).charge x.deckle x.cls 6
          (cdiv (64 * data.length) 1024 * 40)
        (s4, .ok (stepArea c.cfg b v (lineNat qs) tok fun i => Config.freeIndex (seed * 2 ^ 32 + i)))
      | (s3, .fault l) => (s3, .fault l)
      | (s3, .fail st d) => (s3, .fail st d)
      | (s3, .again) => (s3, .again)
    | (s2, .fault l) => (s2, .fault l)
    | (s2, .fail st d) => (s2, .fail st d)
    | (s2, .again) => (s2, .again)
  | (s1, .fault l) => (s1, .fault l)
  | (s1, .fail st d) => (s1, .fail st d)
  | (s1, .again) => (s1, .again)

/-- ATTN_STEP_COMPLETE (R164): the step's pages are read, its output area is complete and its
completion is sent. -/
def execAttnStepComplete (work : Nat) (s : State) : Host.Outcome State Fault Refusal :=
  .next <| s.unlessTripped <| match s.eng.work.find work with
  | some x =>
    match x.body with
    | .step b =>
      let t := s.draw (2 ^ 32)
      let vs := t.2.draw 32
      let stop := fun (s : State) => match s.eng.work.find work with
        | some y => match y.cause with
          | some e =>
            let run := y.state == .running
            (State.endAttn s s work y e.1 e.2 b.seq (if run then t.1 else 0) 0 (if run then vs.1 else 0)).pumpAttn
          | none => s
        | none => s
      if x.cause.isSome then stop s
      else if x.ready.isSome || x.state ≠ .running || s.waiting (s.firstEngine work x) then s
      else match s.attnBad x.deckle x.body, s.seqOf x.deckle b.seq with
        | some e, _ => (State.endAttn s s work x e.1 e.2 b.seq 0 0 0).pumpAttn
        | none, none => s
        | none, some c =>
          match (s.touchCtx b.seq).runStep x c b with
          | (s1, .ok area) =>
            (match s1.putOut work x b.outPva b.outAddr area with
              | (s2, some m) =>
                let n := ((List.range (c.visible b.layer)).filter fun j => attends c.cfg b (c.visible b.layer) (b.nQ - 1) j).length
                let s3 := { s2 with free := s2.free + 2 }
                (State.endAttn s3 s3 work { x with mseq := m.getD 0 } .ok 0 b.seq t.1 n vs.1).pumpAttn
              | (s2, none) => stop s2)
          | (s1, .fail st d) => stop (s1.stopWork work st d)
          | (_, .fault l) => stop (s.faultWait work x l false)
          | (s1, .again) => s1
    | _ => s
  | none => s

end Sys2Proof.Machine
end

