-- ==== Sys2Proof/Machine/Couch.lean ====
section
/-! DEFINITION. Couch engines (chapter 12): chains, descriptors, tiles, retries and completions. -/

namespace Sys2Proof.Machine

/-! ## Structures (Tables 10.7 and 12.2) -/

/-- A descriptor from its 128 bytes. -/
def descOf (x : Nat) : Desc where
  srcKind := bitsOf x 1 0
  dstEndpoint := bitOf x 2
  barrier := bitOf x 3
  mirRequired := bitOf x 4
  haltOnBad := bitOf x 5
  notify := bitOf x 6
  writeback := bitOf x 7
  retries := bitsOf x 10 8
  retrySet := bitOf x 11
  tag := bitsOf x 63 32
  nextPva := bitsOf x 119 64
  srcAddr := bitsOf x 183 128
  srcLineLen := bitsOf x 216 192
  srcStride := bitsOf x 255 224
  srcLines := bitsOf x 271 256
  remoteEp := bitsOf x 283 272
  remoteDeckle := bitsOf x 295 284
  remoteHandle := bitsOf x 351 320
  dstAddr := bitsOf x 447 384
  dstLineLen := bitsOf x 472 448
  dstStride := bitsOf x 511 480
  dstLines := bitsOf x 527 512
  dstEp := bitsOf x 539 528
  rsvd := bitsOf x 31 12 + bitsOf x 127 120 + bitsOf x 191 184 + bitsOf x 223 217 + bitsOf x 319 296 + bitsOf x 383 352 +
    bitsOf x 479 473 + bitsOf x 959 540

/-- A FORM program from its 64 bytes. -/
def formProgOf (x : Nat) : FormProg where
  mapUid := bitsOf x 63 0
  layer := bitsOf x 73 64
  tensor := bitsOf x 87 80
  outFmt := bitsOf x 91 88
  transpose := bitOf x 92
  adapter := bitsOf x 127 96
  alpha := BitVec.ofNat 32 (bitsOf x 159 128)
  row0 := bitsOf x 183 160
  rows := bitsOf x 207 192
  col0 := bitsOf x 247 224
  cols := bitsOf x 279 256
  outPitch := bitsOf x 304 288
  engines := bitsOf x 309 305
  rsvd := bitsOf x 79 74 + bitsOf x 95 93 + bitsOf x 191 184 + bitsOf x 223 208 + bitsOf x 255 248 + bitsOf x 287 280 +
    bitsOf x 511 310

/-! ## Patterns and tiles (R199) -/

/-- Bytes of a descriptor's destination. -/
def descBytes (d : Desc) : Nat := d.dstLineLen * d.dstLines

/-- Tiles of a descriptor. -/
def descTiles (d : Desc) : Nat :=
  if d.dstLineLen ≤ 65536 then cdiv d.dstLines (65536 / d.dstLineLen) else cdiv d.dstLineLen 65536 * d.dstLines

/-- Tile `t` of the byte stream: offset and length. -/
def descTile (d : Desc) (t : Nat) : Nat × Nat :=
  if d.dstLineLen ≤ 65536 then
    let n := 65536 / d.dstLineLen * d.dstLineLen
    (t * n, min n (descBytes d - t * n))
  else
    let k := cdiv d.dstLineLen 65536
    (t / k * d.dstLineLen + t % k * 65536, min 65536 (d.dstLineLen - t % k * 65536))

/-- Address of a byte of a side's stream. -/
def streamAddr (addr len stride k : Nat) : Nat := addr + k / len * stride + k % len

/-- Line addresses of a tile on a side. -/
def tileSide (d : Desc) (t addr len stride : Nat) : List Nat :=
  let x := descTile d t
  (List.range (x.2 / 64)).map fun i => streamAddr addr len stride (x.1 + 64 * i) / 64

/-- Source and destination lines of a tile. -/
def srcLinesOf (d : Desc) (t : Nat) : List Nat := tileSide d t d.srcAddr d.srcLineLen d.srcStride
def dstLinesOf (d : Desc) (t : Nat) : List Nat := tileSide d t d.dstAddr d.dstLineLen d.dstStride

/-- Consecutive lines in runs of at most 64: first line and count. -/
def lineRuns : List Nat → List (Nat × Nat)
  | [] => []
  | a :: r =>
    match lineRuns r with
    | (b, n) :: rest => if b = a + 1 ∧ n < 64 then (a, n + 1) :: rest else (a, 1) :: (b, n) :: rest
    | [] => [(a, 1)]

/-! ## Channels and chains -/

/-- Key of a channel. -/
def chanKey (core ch : Nat) : Nat := core * 8 + ch

/-- A channel; one that is not listed is idle. -/
def State.chan (s : State) (core ch : Nat) : Channel := (s.couch.chans.find (chanKey core ch)).getD { cur := none, queue := [] }

/-- Writes a channel. -/
def State.setChan (s : State) (core ch : Nat) (c : Channel) : State :=
  { s with couch := { s.couch with chans := s.couch.chans.put (chanKey core ch) c } }

/-- Changes the chain a channel runs. -/
def State.modChain (s : State) (core ch : Nat) (f : Chain → Chain) : State :=
  let c := s.chan core ch
  s.setChan core ch { c with cur := c.cur.map f }

/-- Changes the descriptor a channel runs. -/
def State.modRun (s : State) (core ch : Nat) (f : DescRun → DescRun) : State :=
  s.modChain core ch fun k => { k with run := k.run.map f }

/-- Writes or removes a tile of the running descriptor. -/
def State.setTile (s : State) (core ch t : Nat) (x : Option TileState) : State :=
  s.modRun core ch fun r => { r with tiles := r.tiles.set t x }

/-- Every chain of the device, queued or running. -/
def State.allChains (s : State) : List Chain := s.couch.chans.flatMap fun c => c.2.cur.toList ++ c.2.queue

/-- A couch completion (Table 12.3). -/
def couchCpl (st : Status) (desc halted : Bool) (ctag tag descs bad tiles detail bytes nj revoked retries core ch : Nat) : Nat :=
  pack [(16, 0x0010), (8, statusCode st), (1, b2n desc), (1, b2n halted), (6, 0), (32, ctag), (32, tag), (16, descs), (16, bad),
    (32, tiles), (32, detail), (64, bytes), (64, nj), (16, revoked), (3, retries), (5, core), (3, ch), (165, 0)]

/-- What the pair mirrors of a chain. -/
def chainItem (core ch : Nat) (k : Chain) : ItemRec :=
  { kind := 0x0010, deckle := k.deckle, cplEp := k.cplEp, ctag := k.ctag, cls := k.cls, queue := k.queue, arg := chanKey core ch }

/-- Sends a chain's completion. -/
def State.chainCpl (s : State) (core ch : Nat) (k : Chain) (st : Status) (halted : Bool) (detail : Nat) : State :=
  (s.sendCpl k.cplEp k.deckle k.cls k.queue
    (couchCpl st false halted k.ctag k.lastTag k.ended k.bad k.tiles detail k.bytes k.nj k.revoked 0 core ch)).mirrorItem
      (some (chainItem core ch k)) true

/-- Ends the chain a channel runs with its completion (R205). -/
def State.endChain (s : State) (core ch : Nat) (st : Status) (halted : Bool) (detail : Nat) : State :=
  let c := s.chan core ch
  match c.cur with
  | some k => (s.setChan core ch { c with cur := none }).chainCpl core ch k st halted detail
  | none => s

/-- Writes bits 1023:960 of a descriptor back (Table 12.2): the status of the write. -/
def State.writeBack (s : State) (d pva : Nat) (st : Status) (bad : Bool) (retries tiles : Nat) : State × Status :=
  let v := pack [(8, statusCode st), (1, 1), (1, b2n bad), (3, retries), (19, 0), (32, tiles)]
  match s.translate d .wr [pva / 64 + 1] with
  | .ok (r :: _) =>
    match (s.closeAsmOf r.tier r.line).writeLine r (BitVec.ofNat 512 (v <<< 448)) (maskRange 56 8) false { fw := true } with
    | (s1, .done _) => (s1, .ok)
    | (s1, .fail e) => (s1, e)
    | (s1, .wait) => (s1, .uncorrectable)
  | .deny e true => (s.mismatch d, e)
  | t => (s, Trans.status t)

/-- Ends the running descriptor (R202, R205): its measurement, its completion and its writeback. Answers
the writeback's status. -/
def State.closeDesc (s : State) (core ch : Nat) (st : Status) (bad : Bool) (detail : Nat) : State × Status :=
  match (s.chan core ch).cur with
  | none => (s, .ok)
  | some k =>
    match k.run with
    | none => (s, .ok)
    | some r =>
      let m := s.measure
      let s1 := (m.2.settleEnergy k.deckle r.yellow r.est m.1).leaveFaults fun w => w.couch && w.core == core && w.unit == ch
      let k' : Chain := { k with run := none, ended := k.ended + 1, bad := k.bad + b2n bad, revoked := k.revoked + b2n (st == .revoked && !bad),
                                 lastTag := r.d.tag, nj := k.nj + m.1, inl := none, next := r.d.nextPva }
      let s2 := s1.modChain core ch fun _ => k'
      let s3 := if r.d.notify then
          s2.sendCpl k.cplEp k.deckle k.cls k.queue (couchCpl st true false k.ctag r.d.tag k'.ended k'.bad r.landed detail r.bytes m.1
            k'.revoked r.retriesUsed core ch)
        else s2
      match r.d.writeback, r.pva with
      | true, some pva => s3.writeBack k.deckle pva st bad r.retriesUsed r.landed
      | _, _ => (s3, .ok)

/-- Ends the running descriptor, and the chain with it where it halts or has no next (R198, R202). -/
def State.endDesc (s : State) (core ch : Nat) (st : Status) (bad : Bool) (detail : Nat) : State :=
  match ((s.chan core ch).cur.bind (·.run)) with
  | none => s
  | some r =>
    match s.closeDesc core ch st bad detail with
    | (s1, wb) =>
      let s2 := s1.trimCache 0
      if wb ≠ .ok then s2.endChain core ch wb true 0
      else if bad && r.d.haltOnBad then s2.endChain core ch st true detail
      else if r.d.nextPva = 0 then s2.endChain core ch .ok false 0
      else if r.d.nextPva % 64 ≠ 0 then s2.endChain core ch .align true 0
      else s2

/-- Stops the chain a channel runs, its running descriptor not marked BAD (R206, R207). -/
def State.stopChain (s : State) (core ch : Nat) (st : Status) : State :=
  (s.closeDesc core ch st false 0).1.endChain core ch st true 0

/-- Stops every chain that a test names, running or queued: how many. -/
def State.stopChains (s : State) (test : Chain → Bool) (only : Option Nat) (st : Status) : State × Nat :=
  s.couch.chans.keys.foldl (fun a key =>
    if (only.map fun o => o != key).getD false then a
    else
      let core := key / 8
      let ch := key % 8
      let c := a.1.chan core ch
      let gone := c.queue.filter test
      let s1 := a.1.setChan core ch { c with queue := c.queue.filter fun k => !test k }
      let s2 := gone.foldl (fun b k => b.chainCpl core ch k st false 0) s1
      match c.cur with
      | some k => if test k then (s2.stopChain core ch st, a.2 + gone.length + 1) else (s2, a.2 + gone.length)
      | none => (s2, a.2 + gone.length)) (s, 0)

/-! ## Submitting and aborting (R196) -/

/-- Refuses a COUCH message. -/
def State.refuseCouch (s : State) (h : Hdr) (ctag : Nat) (st : Status) (detail : Nat) : State :=
  s.sendCpl h.ep h.deckle h.cls (s.queueOf h.deckle h.cls) (couchCpl st false false ctag 0 0 0 0 detail 0 0 0 0 0 0)

/-- Orders 1 to 4 of R196. -/
def State.couchBad (s : State) (h : Hdr) (b : CouchB) (fields : Bool) : Option (Status × Nat) :=
  if !s.deckleActive h.deckle then some (.revoked, 0)
  else if b.rsvd ≠ 0 ∨ 32 ≤ b.core ∨ 8 ≤ b.channel ∨ !fields ∨ !s.member h.deckle b.cplEp then some (.invalid, 0)
  else if b.chainPva % 64 ≠ 0 then some (.align, 0)
  else if s.allChains.any fun k => k.deckle == h.deckle && k.cplEp == b.cplEp && k.ctag == b.ctag then some (.invalid, 3)
  else none

/-- The channel of a SUBMIT: named, or on the home core the one with the fewest queued chains. -/
def State.pickChannel (s : State) (ep : Nat) (b : CouchB) : Nat × Nat :=
  if !b.anyChannel then (b.core, b.channel)
  else
    let core := homeCore ep
    let n := fun c => (s.chan core c).queue.length
    let low := ((List.range 8).map n).foldl min (2 ^ 16)
    (core, ((List.range 8).find? fun c => n c == low).getD 0)

/-- Admits a SUBMIT. -/
def State.admitCouch (s : State) (h : Hdr) (b : CouchB) (queue : Nat) : State :=
  let fields := (!b.anyChannel || (b.core == 0 && b.channel == 0)) && (b.inl.isNone || b.chainPva == 0)
  match s.couchBad h b fields with
  | some e => s.refuseCouch h b.ctag e.1 e.2
  | none =>
    let t := s.pickChannel h.ep b
    let c := s.chan t.1 t.2
    if 256 ≤ c.queue.length then s.refuseCouch h b.ctag .busy 0
    else if !(s.core t.1).ready then s.refuseCouch h b.ctag .notReady 0
    else
      let k : Chain := { deckle := h.deckle, ep := h.ep, cplEp := b.cplEp, ctag := b.ctag, cls := h.cls, queue := queue, inl := b.inl,
                         next := b.chainPva, run := none, ended := 0, bad := 0, revoked := 0, tiles := 0, bytes := 0, lastTag := 0, nj := 0 }
      (s.setChan t.1 t.2 { c with queue := c.queue ++ [k] }).mirrorItem (some (chainItem t.1 t.2 k)) false

/-- COUCH with SUBMIT (R196). -/
def execCouchSubmit (h : Hdr) (b : CouchB) (s : State) : Host.Outcome State Fault Refusal :=
  .next (s.workGate h 0x0010 b.ctag (64 + if b.inl.isSome then 128 else 0) (fun s q _ => s.admitCouch h b q)
    (fun s st => s.refuseCouch h b.ctag st 0))

/-- COUCH with ABORT (R196, R206). -/
def execCouchAbort (h : Hdr) (b : CouchB) (s : State) : Host.Outcome State Fault Refusal :=
  .next (s.workGate h 0x0010 b.ctag 64 (fun s q _ =>
    match s.couchBad h b (b.inl.isNone && !b.anyChannel && b.chainPva == 0) with
    | some e => s.refuseCouch h b.ctag e.1 e.2
    | none =>
      let x := s.stopChains (fun k => k.deckle == h.deckle) (some (chanKey b.core b.channel)) .aborted
      x.1.sendCpl b.cplEp h.deckle h.cls q
        (couchCpl (if x.2 = 0 then .late else .ok) false false b.ctag 0 x.2 0 0 0 0 0 0 0 b.core b.channel))
    (fun s st => s.refuseCouch h b.ctag st 0))

/-- Chains a free channel may take next (R195): the head of the first strict queue, or the heads of
the weighted queues. -/
def nextChains (l : List Chain) : List Chain :=
  match (List.range 4).findSome? fun q => l.find? fun k => k.queue == q with
  | some k => [k]
  | none => ((l.map (·.queue)).eraseDups).filterMap fun q => l.find? fun k => k.queue == q

/-- COUCH_CHAIN_START (R195): among weighted queues the finishing times of the core scheduler decide,
which the model leaves open (log 43). -/
def execCouchChainStart (core channel : Nat) (s : State) : Host.Outcome State Fault Refusal :=
  .next <|
    let c := s.chan core channel
    if c.cur.isSome then s
    else
      let l := nextChains c.queue
      let x := if l.length ≤ 1 then (0, s) else s.draw l.length
      match l[x.1]? with
      | some k => x.2.setChan core channel { cur := some k, queue := c.queue.erase k }
      | none => s

/-! ## Descriptors (R197, R198, R204) -/

/-- Kinds, ranges and rsvd bits (order 2). -/
def State.descFields (s : State) (deckle : Nat) (d : Desc) (inl : Bool) : Bool :=
  let form := d.srcKind == 2
  let rem := d.srcKind == 1
  d.rsvd == 0 && d.srcKind ≤ 2 && (d.retrySet || d.retries == 0) && (!inl || (d.nextPva == 0 && !d.writeback)) &&
  (if form then d.srcLineLen == 0 && d.srcStride == 0 && d.srcLines == 0
    else 64 ≤ d.srcLineLen && d.srcLineLen ≤ 16777216 && 1 ≤ d.srcLines) &&
  (rem || (d.remoteEp == 0 && d.remoteDeckle == 0 && d.remoteHandle == 0)) &&
  64 ≤ d.dstLineLen && d.dstLineLen ≤ 16777216 && 1 ≤ d.dstLines &&
  (if d.dstEndpoint then s.member deckle d.dstEp else d.dstEp == 0 && d.dstAddr < 2 ^ 56)

/-- Addresses, lengths and strides are aligned (order 5). -/
def descAligned (d : Desc) : Bool :=
  [d.srcAddr, d.dstAddr, d.srcLineLen, d.srcStride, d.dstLineLen, d.dstStride].all fun x => x % 64 == 0

/-- MIR_REQUIRED (order 6, R204): what it is refused with. Pages that do not translate yet are looked
at when their tile is. -/
def State.mirBad (s : State) (deckle : Nat) (d : Desc) : Option (Status × Nat) :=
  if !d.mirRequired then none
  else
    let plain := d.dstEndpoint || (List.range (descTiles d)).any fun t =>
      match s.translate deckle .wr (dstLinesOf d t) with
      | .ok refs => refs.any fun r => !r.mir
      | _ => false
    if plain then some (.invalid, 5)
    else if !s.inSync then some (.notReady, 6)
    else none

/-- The first failing check of R198 from order 2 on, or the binding of its FORM program. -/
def State.descCheck (s : State) (deckle : Nat) (d : Desc) (inl : Bool) :
    State × Except (Status × Nat) (Option (FormProg × FormBind)) :=
  if !s.descFields deckle d inl then (s, .error (.badDescriptor, 0))
  else
    let f : State × Except (Status × Nat) (Option (FormProg × FormBind)) :=
      if d.srcKind ≠ 2 then
        (s, if d.srcLineLen * d.srcLines = descBytes d then .ok none else .error (.badDescriptor, 0))
      else match s.readBytes deckle d.srcAddr 64 with
        | (s1, .ok, b) =>
          let p := formProgOf b
          (match s1.bindForm deckle p with
            | .error st => (s1, .error (st, 0))
            | .ok fb => (s1, if d.dstLineLen = p.outPitch ∧ d.dstLines = (formShape p).1 then .ok (some (p, fb))
                else .error (.badDescriptor, 0)))
        | (s1, st, _) => (s1, .error (st, 0))
    match f with
    | (s1, .error e) => (s1, .error e)
    | (s1, .ok b) =>
      if d.dstLines > 1 ∧ d.dstStride < d.dstLineLen then (s1, .error (.badDescriptor, 0))
      else if !descAligned d then (s1, .error (.align, 0))
      else match s1.mirBad deckle d with
        | some e => (s1, .error e)
        | none => (s1, .ok b)

/-- Estimate of a descriptor in pJ (R205, Table 1.10, log 37). -/
def descEstimate (d : Desc) (f : Option (FormProg × FormBind)) : Nat :=
  let n := descBytes d / 64
  (match f with
    | some (p, b) => formEstimate b p false
    | none => if d.srcKind = 0 then n * 900 else 0) +
  (if d.dstEndpoint then cdiv (descBytes d) 240 * 3100 else n * 1100)

/-- A descriptor as it starts. -/
def newRun (d : Desc) (pva : Option Nat) (f : Option (FormProg × FormBind)) (est : Nat) (yellow : Bool) : DescRun :=
  { d := d, pva := pva, next := 0, tiles := [], retriesLeft := if d.retrySet then d.retries else 3, retriesUsed := 0, landed := 0,
    bytes := 0, formed := f.map (·.2), prog := f.map (·.1), broken := none, mseq := 0, est := est, yellow := yellow }

/-- Starts or refuses a descriptor that was read (R198). -/
def State.startDesc (s : State) (core ch : Nat) (k : Chain) (d : Desc) (pva : Option Nat) : State :=
  let put := fun (s : State) (r : DescRun) => s.modChain core ch fun k => { k with run := some r, lastTag := d.tag }
  match s.descCheck k.deckle d pva.isNone with
  | (s1, .error e) => (put s1 (newRun d pva none 0 false)).endDesc core ch e.1 true e.2
  | (s1, .ok f) =>
    match s1.admitEnergy k.deckle (descEstimate d f) with
    | (s2, .go y) =>
      let s3 := put s2 (newRun d pva f (descEstimate d f) y)
      (match f with
        | some (p, b) => s3.wantFor k.deckle b p
        | none => s3)
    | _ => s

/-- COUCH_DESC_START (R197, R198): the channel's next descriptor is read and checked. One whose
deckle's energy buckets are empty waits (log 34). -/
def execCouchDescStart (core channel : Nat) (s : State) : Host.Outcome State Fault Refusal :=
  .next <| match (s.chan core channel).cur with
  | some k =>
    if k.run.isSome then s
    else if 65535 ≤ k.ended then s.endChain core channel .invalid true 4
    else match k.inl with
      | some d => s.startDesc core channel k d none
      | none =>
        match s.readBytes k.deckle k.next 128 with
        | (s1, .ok, b) => s1.startDesc core channel k (descOf b) (some k.next)
        | (s1, st, _) =>
          (s1.modChain core channel fun k => { k with ended := k.ended + 1, bad := k.bad + 1 }).endChain core channel st true 0
  | none => s

/-! ## Tiles (R199–R204) -/

/-- The running descriptor with its chain. -/
def State.runAt (s : State) (core ch : Nat) : Option (Chain × DescRun) :=
  (s.chan core ch).cur.bind fun k => k.run.map fun r => (k, r)

/-- Tiles of a channel that are in flight: pushed ones that await their answer no longer count. -/
def DescRun.inFlight (r : DescRun) : Nat := r.tiles.count fun _ t => match t with | .pushed .. => false | .failed .. => false | _ => true

/-- Pushed tiles that await their answers. -/
def DescRun.awaiting (r : DescRun) : Nat := r.tiles.count fun _ t => match t with | .pushed .. => true | _ => false

/-- A tile waits on a fault record and holds the channel. -/
def DescRun.held (r : DescRun) : Bool := r.tiles.any fun t => match t.2 with | .faulted _ => true | _ => false

/-- The destination lines a tile writes in pool memory, and the source lines it reads there. -/
def poolSides (d : Desc) (t : Nat) : List Nat × List Nat :=
  (if d.srcKind = 0 then srcLinesOf d t else [], if d.dstEndpoint then [] else dstLinesOf d t)

/-- Not-retried errors end the descriptor BAD; a revocation ends it not BAD (Table 12.4). -/
def State.tileError (s : State) (core ch : Nat) (st : Status) (detail : Nat) : State :=
  s.endDesc core ch st (st != .revoked) detail

/-- A transient error of a tile (R202): its retry waits, or the descriptor is BAD with the status. -/
def State.tileTransient (s : State) (core ch t : Nat) (st : Status) : State :=
  match s.runAt core ch with
  | none => s
  | some (_, r) =>
    if r.retriesLeft = 0 then s.endDesc core ch st true 0
    else
      (s.setTile core ch t (some (.failed st (s.now + 10000 * 2 ^ r.retriesUsed)))).modRun core ch fun r =>
        { r with retriesLeft := r.retriesLeft - 1, retriesUsed := r.retriesUsed + 1 }

/-- The statuses a descriptor may carry when its tile met no status of its own (log 42). -/
def anyStatus : List Status :=
  [.late, .deferred, .throttled, .busy, .noAccess, .revoked, .leaseExpired, .readOnly, .staleVersion, .conflict, .fault, .align,
   .badDescriptor, .uncorrectable, .integrity, .lost, .failedOver, .domainDown, .aborted, .killed, .unsupported, .invalid,
   .emergency, .notReady]

/-- A status of the part's choice. -/
def State.openStatus (s : State) : State × Status :=
  let x := s.draw anyStatus.length
  (x.2, anyStatus.getD x.1 .aborted)

/-- Translates a tile that was issued (R104): it is ready, waits on a fault record, or ends the
descriptor. -/
def State.walkTile (s : State) (core ch t : Nat) : State :=
  match s.runAt core ch with
  | none => s
  | some (k, r) =>
    if r.tiles.find t ≠ some .waiting then s
    else
      let sd := poolSides r.d t
      match s.tileTrans k.deckle sd.1 sd.2 with
      | .ok a b =>
        if r.d.mirRequired && b.any (fun x => !x.mir) then s.endDesc core ch .invalid true 5
        else (s.fillTlb core k.deckle (sd.1 ++ sd.2) (a ++ b)).setTile core ch t (some (.translated a b))
      | .fault p c l o wr =>
        (match s.joinFault k.deckle p c l wr ⟨core, ch, t, true⟩ o with
          | (s1, none) => s1.endDesc core ch .fault true 0
          | (s1, some i) => s1.setTile core ch t (some (.faulted i)))
      | .stop st r95 =>
        let s1 := if r95 then s.mismatch k.deckle else s
        let lines := sd.1 ++ sd.2
        let rv := !(s1.revokingAt k.deckle lines).isEmpty
        let s2 := if rv then s1.countStopped k.deckle lines else s1
        s2.tileError core ch (if rv then .revoked else st) 0

/-- Issues tiles in ascending order up to a tile, within R199's limits. -/
def State.issueTo (s : State) (core ch t : Nat) : Nat → State
  | 0 => s
  | n + 1 =>
    match s.runAt core ch with
    | none => s
    | some (_, r) =>
      if t < r.next ∨ descTiles r.d ≤ r.next ∨ 4 ≤ r.inFlight ∨ 16 ≤ r.awaiting ∨ r.held then s
      else
        let i := r.next
        ((s.modRun core ch fun r => { r with next := i + 1, tiles := r.tiles.put i .waiting }).walkTile core ch i).issueTo core ch t n

/-- The descriptor ends once every tile has landed (R203): with BARRIER, once the standby has applied
what it wrote. -/
def State.settleDesc (s : State) (core ch : Nat) : State :=
  match s.runAt core ch with
  | some (_, r) =>
    if r.tiles.isEmpty && r.next == descTiles r.d && !(r.d.barrier && s.mirrors && s.pair.acked < r.mseq) then
      s.endDesc core ch .ok false 0
    else s
  | none => s

/-- A tile has landed. `last`: on an extent in revocation, the descriptor ends there (Table 4.14). -/
def State.landCouch (s : State) (core ch t : Nat) (mseq : Option Nat) (last : List Nat) : State :=
  match s.runAt core ch with
  | none => s
  | some (_, r) =>
    let n := (descTile r.d t).2
    let s1 := (s.modRun core ch fun r =>
        { r with tiles := r.tiles.del t, landed := r.landed + 1, bytes := r.bytes + n, mseq := max r.mseq (mseq.getD 0) }).modChain
      core ch fun k => { k with tiles := k.tiles + 1, bytes := k.bytes + n }
    if !last.isEmpty then (s1.countStop last).endDesc core ch .revoked false 0 else s1.settleDesc core ch

/-- Pushes a tile to its endpoint (R201, R245): it awaits one answer. A port that is down is a
transient error. -/
def State.pushTile (s : State) (core ch t : Nat) (k : Chain) (r : DescRun) (data : List Line) : State :=
  if (s.route r.d.dstEp).isNone then
    let x := s.openStatus
    x.1.tileTransient core ch t x.2
  else
    let tag := s.couch.nextTag
    let s0 := { s with couch := { s.couch with nextTag := (tag + 1) % 65536 } }
    let runs := lineRuns (dstLinesOf r.d t)
    let s1 := (runs.foldl (fun (a : State × List Line) y =>
      (a.1.sendEp r.d.dstEp 4 (if r.yellow then 60 else k.queue) k.deckle
        (.push r.d.dstEp k.deckle tag (64 * y.1) (a.2.take y.2) true) k.cls, a.2.drop y.2)) (s0, data)).1
    s1.setTile core ch t (some (.pushed tag s.now))

/-- Delivers the source bytes of a tile to its destination. -/
def State.deliverTile (s : State) (core ch t : Nat) (k : Chain) (r : DescRun) (src dst : List LineRef) (data : List Line) : State :=
  let rv := s.revokingIn (src ++ dst)
  if r.d.dstEndpoint then
    if rv.isEmpty then s.pushTile core ch t k r data else (s.countStop rv).endDesc core ch .revoked false 0
  else if s.tileWaits dst then s
  else if !dst.all s.liveRef then s.endDesc core ch .revoked false 0
  else
    let y := s.writeTile dst data k.cls
    let z := y.1.landCouch core ch t y.2 rv
    if r.d.mirRequired && !z.inSync && (z.runAt core ch).isSome then z.endDesc core ch .notReady true 6 else z

/-- Sends the RDs of a REMOTE tile (R241, R242). A port that is down, or that has no device endpoint
yet, is a transient error. -/
def State.remoteReads (s : State) (core ch t : Nat) (k : Chain) (r : DescRun) : State :=
  match s.route r.d.remoteEp with
  | some p =>
    let own := (s.port p).ownEp
    if own.isNone then
      let x := s.openStatus
      x.1.tileTransient core ch t x.2
    else
      let s0 := s.modPort p fun x =>
        { x with remoteDeckles := if x.remoteDeckles.contains r.d.remoteDeckle then x.remoteDeckles else x.remoteDeckles ++ [r.d.remoteDeckle] }
      let y := (lineRuns (srcLinesOf r.d t)).foldl (fun (a : State × List RemoteRd) run =>
        let tag := a.1.couch.nextTag
        let s1 := { a.1 with couch := { a.1.couch with nextTag := (tag + 1) % 65536 } }
        (s1.enqueue p 0 (if r.yellow then 60 else k.queue) k.deckle
          (.remoteRd (own.getD 0) tag r.d.remoteDeckle r.d.remoteHandle (64 * run.1) run.2) k.cls,
          a.2 ++ [(⟨tag, run.2, none⟩ : RemoteRd)])) (s0, [])
      y.1.setTile core ch t (some (.reading y.2 s.now))
  | none =>
    let x := s.openStatus
    x.1.tileTransient core ch t x.2

/-- A translated tile moves (R199): its source is read whole, then written or pushed. -/
def State.moveCouch (s : State) (core ch t : Nat) (k : Chain) (r : DescRun) (src dst : List LineRef) : State :=
  match r.d.srcKind with
  | 0 =>
    match s.readTile src k.cls with
    | (s1, .data _, ls) => s1.deliverTile core ch t k r src dst ls
    | (s1, .fail st, _) => s1.tileError core ch st 0
    | (s1, _, _) => s1
  | 1 => s.remoteReads core ch t k r
  | _ =>
    match r.prog, r.formed with
    | some p, some b =>
      if (s.freeEngines core).length < formEngines p then s
      else match s.formNext k.deckle k.cls b p t with
        | (s1, some (.ok bytes)) => s1.deliverTile core ch t k r src dst (linesOf bytes (descTile r.d t).2)
        | (s1, some (.error st)) => s1.tileError core ch st 0
        | (s1, none) => s1
    | _, _ => s

/-- The data of a REMOTE tile once every RD is answered. -/
def remoteData (l : List RemoteRd) : Option (List Line) :=
  l.foldl (fun a q => a.bind fun ls => q.data.map fun d => ls ++ d) (some [])

/-- COUCH_TILE_DONE (R199): the tile is issued if it is next, moves, or lands. -/
def execCouchTileDone (core channel tile : Nat) (s : State) : Host.Outcome State Fault Refusal :=
  .next <| s.unlessTripped <| match s.runAt core channel with
  | none => s
  | some (_, r0) =>
    match r0.broken with
    | some st => s.tileError core channel st 0
    | none =>
      if r0.d.mirRequired && !s.inSync then s.endDesc core channel .notReady true 6
      else
        let s1 := (s.issueTo core channel tile 4).walkTile core channel tile
        match s1.runAt core channel with
        | none => s1
        | some (k, r) =>
          match r.tiles.find tile with
          | some (.translated a b) => s1.moveCouch core channel tile k r a b
          | some (.reading q _) =>
            (match remoteData q with
              | none => s1
              | some data =>
                match s1.tileTrans k.deckle [] (poolSides r.d tile).2 with
                | .ok _ dst => s1.deliverTile core channel tile k r [] dst data
                | _ => (s1.setTile core channel tile (some .waiting)).walkTile core channel tile)
          | _ => s1.settleDesc core channel

/-- COUCH_TILE_TIMEOUT (R202): 1 ms without an answer is a transient error. -/
def execCouchTileTimeout (core channel tile : Nat) (s : State) : Host.Outcome State Fault Refusal :=
  .next <| s.unlessTripped <| match (s.runAt core channel).bind fun x => x.2.tiles.find tile with
  | some (.pushed _ sent) =>
    let x := (s.reach (sent + 1000000)).openStatus
    x.1.tileTransient core channel tile x.2
  | some (.reading _ sent) =>
    let x := (s.reach (sent + 1000000)).openStatus
    x.1.tileTransient core channel tile x.2
  | _ => s

/-- The failed tile whose back-off ends first. -/
def DescRun.dueRetry (r : DescRun) : Option (Nat × Nat) :=
  r.tiles.foldl (fun a t => match t.2, a with
    | .failed _ at_, none => some (t.1, at_)
    | .failed _ at_, some b => if at_ < b.2 then some (t.1, at_) else some b
    | _, a => a) none

/-- COUCH_RETRY (R202): the back-off of the failing tile expires and it is issued again. -/
def execCouchRetry (core channel : Nat) (s : State) : Host.Outcome State Fault Refusal :=
  .next <| match (s.runAt core channel).bind fun x => x.2.dueRetry with
  | some (t, at_) => ((s.reach at_).setTile core channel t (some .waiting)).walkTile core channel t
  | none => s

/-- Descriptors that only waited for the standby end (R203). -/
def State.pumpCouch (s : State) : State :=
  s.couch.chans.keys.foldl (fun a k => a.settleDesc (k / 8) (k % 8)) s

/-! ## Answers to the device's own requests (R244, R245) -/

/-- Where a TAG of an endpoint's answer is awaited: channel key and tile. -/
def State.tileOfTag (s : State) (ep tag : Nat) : Option (Nat × Nat × TileState) :=
  s.couch.chans.findSome? fun c =>
    ((c.2.cur.bind (·.run)).bind fun r => r.tiles.findSome? fun t =>
      match t.2 with
      | .pushed g _ => if g = tag ∧ r.d.dstEp = ep then some (t.1, t.2) else none
      | .reading q _ => if r.d.remoteEp = ep ∧ q.any (fun x => x.tag == tag && x.data.isNone) then some (t.1, t.2) else none
      | _ => none).map fun y => (c.1, y.1, y.2)

/-- Statuses that are transient on a tile (Table 12.4). -/
def isTransient (st : Status) : Bool := st == .busy || st == .throttled

/-- RSP (R244): answers a push tile or a read of a REMOTE tile. One that matches nothing is discarded
and counted. -/
def execRsp (h : Hdr) (status : Status) (last : Bool) (data : List Line) (s : State) : Host.Outcome State Fault Refusal :=
  .next <|
    let s0 := s.freeBuf h.port h.vc (Hdr.credits h)
    if !s0.carries h.port || !s0.bound h.port h.ep then s0.discardPkt h.port
    else match (if h.vc = 1 ∧ last then s0.tileOfTag h.ep h.tag else none) with
      | none => s0.modPort h.port fun x => { x with unmatched := x.unmatched + 1 }
      | some (key, t, x) =>
        let core := key / 8
        let ch := key % 8
        if isTransient status then s0.tileTransient core ch t status
        else if status ≠ .ok then s0.tileError core ch status 0
        else match x with
          | .pushed .. => s0.landCouch core ch t none []
          | .reading q sent =>
            if (q.find? fun y => y.tag == h.tag).map (·.lines) ≠ some data.length then
              s0.modPort h.port fun x => { x with unmatched := x.unmatched + 1 }
            else
              let q' := q.map fun y => if y.tag = h.tag then { y with data := some data } else y
              s0.setTile core ch t (some (.reading q' sent))
          | _ => s0

end Sys2Proof.Machine
end

