-- ==== Sys2Proof/Machine/Faults.lean ====
section
/-! DEFINITION. Fault records at work (R104–R107): walks that complete, records resumed and
aborted; and the stopping of work from outside it: WORK_CANCEL (R148, R165, R193, R206) and what
dissolves, promotions and revocations share. -/

namespace Sys2Proof.Machine

/-! ## Walks (R104) -/

/-- TRANSLATION_WALK_DONE (R104): the walk of a stream slot's head tile or of a couch tile ends. -/
def execTranslationWalkDone (core unit slot : Nat) (couch : Bool) (s : State) : Host.Outcome State Fault Refusal :=
  .next <| s.unlessTripped (if couch then s.walkTile core unit slot else s.walkStream core unit slot)

/-! ## Closing records (R107) -/

/-- The record closes: it is open no more. -/
def State.closeFault (s : State) (f : Nat) : State :=
  { s with xlat := { s.xlat with faults := s.xlat.faults.del f } }

/-- A waiter of a closed record retranslates its tile (R107). An attention, retrieval or built-in item
translates again at its next step. -/
def State.resumeWaiter (s : State) (f : Nat) (w : Waiter) : State :=
  if w.couch then
    match (s.runAt w.core w.unit).bind fun x => x.2.tiles.find w.slot with
    | some (.faulted i) => if i = f then (s.setTile w.core w.unit w.slot (some .waiting)).walkTile w.core w.unit w.slot else s
    | _ => s
  else match (s.engine w.core w.unit).slots.find w.slot with
    | some t =>
      if t.fault = some f then (s.modSlot w.core w.unit w.slot fun t => { t with fault := none }).walkStream w.core w.unit w.slot
      else s
    | none => s

/-- A waiter's work ends with ST_FAULT and its whole tiles; DETAIL names the record (Table 8.18). -/
def State.abortWaiter (s : State) (f : Nat) (w : Waiter) : State :=
  if w.couch then s.endDesc w.core w.unit .fault true f
  else match (s.engine w.core w.unit).work with
    | some k => s.stopWork k .fault f
    | none => s

/-- Closes a record and gives each of its waiters to `f`. -/
def State.closeWith (s : State) (i : Nat) (r : FaultRec) (f : State → Waiter → State) : State :=
  r.waiters.foldl f (s.closeFault i)

/-- The open record of a deckle that a command names. -/
def State.faultNamed (s : State) (p : FaultP) : Option FaultRec := (s.xlat.faults.find p.fault).filter fun r => r.deckle == p.deckle

/-- The command of FAULT_RESUME and FAULT_ABORT (Table 6.12). -/
def faultCmd (code : Nat) (p : FaultP) : Cmd := { code := code, len := 8, rsvd := p.rsvd, own := some p.deckle, names := [p.deckle] }

/-- The inline result: waiters restarted or ended. -/
def faultAns (r : FaultRec) : Ans := okFields 8 [(16, r.waiters.length), (48, 0)]

/-- FAULT_RESUME: code, length and what R27 checks of it first. -/
def faultResumeCmd (p : FaultP) : Cmd :=
  faultCmd 0x0403 p

/-- FAULT_RESUME: its checks in order (R107). -/
def faultResumeChecks (p : FaultP) : State → List Check :=
  fun s => [((s.faultNamed p).isSome, .invalid, 1)]

/-- FAULT_RESUME: its effect (R107). -/
def faultResumeAct (p : FaultP) : State → Nat → State × Option Ans :=
  fun s _ => match s.faultNamed p with
      | some r => (s.closeWith p.fault r fun a w => a.resumeWaiter p.fault w, some (faultAns r))
      | none => (s, some { status := .invalid, detail := 1 })

/-- FAULT_RESUME (R107). -/
def execFaultResume (q : Req) (p : FaultP) (s : State) : Host.Outcome State Fault Refusal :=
  .next (s.serve (.faultResume q p) (faultResumeCmd p) q (faultResumeChecks p) (faultResumeAct p))

/-- FAULT_ABORT: code, length and what R27 checks of it first. -/
def faultAbortCmd (p : FaultP) : Cmd :=
  faultCmd 0x0404 p

/-- FAULT_ABORT: its checks in order (R107). -/
def faultAbortChecks (p : FaultP) : State → List Check :=
  fun s => [((s.faultNamed p).isSome, .invalid, 1)]

/-- FAULT_ABORT: its effect (R107). -/
def faultAbortAct (p : FaultP) : State → Nat → State × Option Ans :=
  fun s _ => match s.faultNamed p with
      | some r => (s.closeWith p.fault r fun a w => a.abortWaiter p.fault w, some (faultAns r))
      | none => (s, some { status := .invalid, detail := 1 })

/-- FAULT_ABORT (R107). -/
def execFaultAbort (q : Req) (p : FaultP) (s : State) : Host.Outcome State Fault Refusal :=
  .next (s.serve (.faultAbort q p) (faultAbortCmd p) q (faultAbortChecks p) (faultAbortAct p))

/-- FAULT_AUTO_ABORT (R107): 1 s of unwedged time after its opening the device aborts a record. -/
def execFaultAutoAbort (fault : Nat) (s : State) : Host.Outcome State Fault Refusal :=
  .next <| match s.xlat.faults.find fault with
  | some r =>
    if s.hubStopped then s
    else (s.reach (r.frozen + 1000000000)).closeWith fault r fun a w => a.abortWaiter fault w
  | none => s

/-! ## Stopping work from outside (R147, R148) -/

/-- The completion of an item that stopped before it started. -/
def State.endStopped (s : State) (w : Nat) : State :=
  match s.eng.work.find w with
  | none => s
  | some x =>
    let c := x.cause.getD (.aborted, 0)
    match x.body with
    | .launch b => s.endLaunch w x b
    | .topk .. => s.endTopk w x { ranks := [] } 0
    | .rdf tag .. => s.endRdf w x tag c.1
    | b => State.endAttn s s w x c.1 c.2 ((attnSeq b).getD 0) 0 0 0

/-- Stops one item: a queued one completes at once, a running one at its completion event. -/
def State.stopItem (s : State) (w : Nat) (st : Status) : State :=
  match s.eng.work.find w with
  | none => s
  | some x =>
    if x.ready.isSome then s
    else
      let s1 := s.stopWork w st 0
      if x.state == .running then s1 else s1.endStopped w

/-- Stops every item a test names; how many. -/
def State.stopItems (s : State) (test : Work → Bool) (st : Status) : State × Nat :=
  let ws := (s.eng.work.filter fun w => test w.2 && w.2.ready.isNone).map Prod.fst
  ((ws.foldl (fun a w => a.stopItem w st) s).pumpAttn, ws.length)

/-- WORK_CANCEL applies to the kind (R148, R165, R193). -/
def cancels : WorkBody → Bool
  | .launch _ => true
  | .step _ => true
  | .topk .. => true
  | _ => false

/-- WORK_CANCEL (R148): ST_OK when work of the deckle that has not completed matches. -/
def execWorkCancel (h : Hdr) (b : CancelB) (s : State) : Host.Outcome State Fault Refusal :=
  .next (s.workGate h 0x0002 b.ctag 64 fun s q _ =>
    if b.rsvd ≠ 0 then s.refuseWork h 0x0002 b.ctag .invalid 0
    else
      let x := s.stopItems (fun w => w.deckle == h.deckle && w.cplEp == b.cplEp && w.ctag == b.ctag && cancels w.body) .aborted
      let y := x.1.stopChains (fun k => k.deckle == h.deckle && k.cplEp == b.cplEp && k.ctag == b.ctag) none .aborted
      y.1.sendCpl h.ep h.deckle h.cls q (cplPlain 0x0002 (if x.2 + y.2 = 0 then .late else .ok) b.ctag 0))

end Sys2Proof.Machine
end

