-- ==== Sys2Proof/Machine/Report.lean ====
section
/-! DEFINITION. The attestation report (R336–R338, Tables 19.9–19.11), which ATTEST and
DRIVER_ATTACH write. -/

namespace Sys2Proof.Machine

/-- PAIR_ROLE (Table 2.6): 3 for an active that runs solo. -/
def State.pairRoleField (s : State) : Nat :=
  if s.pair.role == .active && s.pair.state == .linkLost then 3 else pairRoleCode s.pair.role

/-- ORDER (Table 2.6). -/
def State.orderField (s : State) : Nat := if s.board.orderH then 1 else 2

/-- Bytes of the certificate chain, 0 to 4,096. -/
def certLen : Nat := Config.certBytes % 4097

/-- The certificate chain as a number, padded with zero to 64 bytes. -/
def certChain : Nat :=
  lineNat ((List.range (cdiv certLen 64)).map fun i => Config.partBytes 0 0 i) % 2 ^ (8 * certLen)

/-- A deckle entry (Table 19.10). -/
def State.deckleEntry (s : State) (d : Nat) (k : Deckle) : Nat :=
  pack [(12, d), (4, k.epoch), (1, b2n k.operatorVisible), (1, b2n k.kernelKey.isSome), (1, b2n k.sweep.isSome),
    (1, b2n k.dissolving.isSome), (12, 0), (32, s.used d .t1), (32, s.used d .t2), (16, s.used d .staging),
    (10, cdiv (s.lode64k d) 16), (6, 0)]

/-- A kernel entry (Table 19.11). -/
def kernelEntry (h : Nat) (k : Kernel) : Nat :=
  pack [(32, h), (32, k.version), (8, k.signer), (1, b2n k.unloading), (55, 0), (64, k.name), (512, k.digest.toNat), (64, 0)]

/-- A bit per port that passes a test. -/
def State.portMask (s : State) (f : Port → Bool) : Nat :=
  (s.link.ports.filter fun p => f p.2).foldl (fun a p => a ||| 2 ^ p.1) 0

/-- What a report is asked for. -/
structure ReportAsk where
  perDeckle : Option Nat := none
  first     : Nat := 0
  nonce     : Nat
  area      : Nat
  deriving Repr

/-- A report: its bytes, its length and its deckle entries. -/
structure Report where
  bytes : Nat
  len   : Nat
  count : Nat
  deriving Repr

/-- The report that fits the area (R336). Its parts start on 64-byte boundaries and its signature takes
the last 128 bytes. -/
def State.report (s : State) (a : ReportAsk) : Report :=
  let kernels : List (Nat × Kernel) := match a.perDeckle with
    | some d => s.eng.kernels.filter fun k => k.2.deckle == d
    | none => []
  let listed : List (Nat × Deckle) := match a.perDeckle with
    | some d => s.part.deckles.filter fun k => k.1 == d
    | none => s.part.deckles.filter fun k => a.first ≤ k.1
  let cOff := 512
  let dOff := cOff + up64 certLen
  let room := (a.area - dOff - 128 - up64 (96 * kernels.length)) / 64 * 4
  let ds := listed.take room
  let kOff := dOff + up64 (16 * ds.length)
  let len := kOff + up64 (96 * kernels.length) + 128
  let img := s.hub.running.getD default
  let act := (s.laid.active.bind fun i => s.laid.tables.find i).map fun t => t.digest.toNat
  let head := pack [
    (32, 0x54535441), (16, 1), (1, b2n a.perDeckle.isSome), (1, b2n (ds.length < listed.length)), (14, 0),
    (32, len), (8, s.orderField), (8, 0xB1), (1, b2n s.part.bulk), (2, s.pairRoleField), (1, b2n s.hub.fillAtStart), (12, 0),
    (64, s.board.deviceId * 64), (256, a.nonce), (64, s.dom),
    (512, (Config.partBytes 1 0 0).toNat), (512, img.digest.toNat), (512, (Config.partBytes 2 img.digest.toNat 0).toNat),
    (32, img.fwVersion), (16, img.secVersion), (16, s.board.fusedMinSec), (1, b2n s.board.production), (6, s.board.raises), (25, 0),
    (1, b2n s.sec.session.isSome), (1, b2n s.sec.debugEver), (1, b2n s.sec.jtagEver), (13, 0), (16, s.sec.sessions),
    (256, act.getD 0), (64, s.portMask (·.encrypted)), (64, s.portMask fun p => p.encrypted && p.unauth), (1, b2n s.link.strict), (15, 0),
    (32, cOff), (16, certLen), (32, dOff), (12, (ds.head?.map Prod.fst).getD 0), (4, 0), (13, ds.length), (3, 0),
    (13, s.deckleCount), (3, 0), (32, if a.perDeckle.isSome then kOff else 0), (5, kernels.length), (11, 0),
    (32, if s.pair.role == .none then 0 else s.pair.term), (1312, 0)]
  let body := head
    + 2 ^ (8 * cOff) * certChain
    + 2 ^ (8 * dOff) * concatBytes 16 (ds.map fun k => s.deckleEntry k.1 k.2)
    + 2 ^ (8 * kOff) * concatBytes 96 (kernels.map fun k => kernelEntry k.1 k.2)
  let sig := Config.deviceSign (Config.shake256 body (len - 128) 512) % 2 ^ 912
  { bytes := body + 2 ^ (8 * (len - 128)) * sig, len := len, count := ds.length }

/-- The area a report needs (R28, R336): 16 KiB at least. -/
def reportArea (q : Req) : Check := (q.resultPva ≠ 0 && 16384 ≤ q.resultLen, .invalid, 35)

/-- An answer that writes a report into the result area whole (R23). -/
def Report.answer (r : Report) (inline : Nat) (bits : Nat) : Ans :=
  { status := .ok, rlen := inline, bits := bits, area := r.len, entry := 64, content := r.bytes }

end Sys2Proof.Machine
end

