-- ==== Sys2Proof/Machine/Hub.lean ====
section
/-! DEFINITION. The hub firmware (chapter 2): loading under the boot ROM, device query and
configuration, the driver lease, live update, the watchdog and the wedged hub, and the bedrock
commands that chapter 2 gives in full. -/

namespace Sys2Proof.Machine

/-! ## Images (R21) -/

/-- The header's form (R21, Table 2.1). `h` is its 4,096 bytes. -/
def imageFormOk (h len : Nat) : Bool :=
  let n := bitsOf h 95 64
  bitsOf h 31 0 == 0x534D4D45 && bitsOf h 47 32 == 1 && 64 ≤ n && n ≤ 33550336 && n % 64 == 0 && bitsOf h 199 192 == 0 &&
  bitsOf h 511 200 == 0 && bitsOf h 32767 1936 == 0 && len == 4096 + n

/-- The image a header names. -/
def imageOf (h : Nat) : Image where
  fwVersion := bitsOf h 127 96
  secVersion := bitsOf h 63 48
  buildId := bitsOf h 191 128
  digest := BitVec.ofNat 512 (Config.shake256 (h % 2 ^ 1024) 128 512)

/-- The three checks of R21 in their order. -/
def State.imageBad (s : State) (h body : Nat) : Option (Status × Nat) :=
  if !Config.sigValid (Config.fusedKey 0) (Config.shake256 (h % 2 ^ 1024) 128 512) (bitsOf h 1935 1024) then some (.integrity, 1)
  else if Config.shake256 body (bitsOf h 95 64) 512 ≠ bitsOf h 1023 512 then some (.integrity, 1)
  else if bitsOf h 63 48 < s.board.fusedMinSec then some (.integrity, 2)
  else none

/-- Bytes of the load window from an offset. -/
def State.windowBytes (s : State) (off n : Nat) : Nat := lineNat ((List.range (n / 64)).map fun i => s.windowLine (off / 64 + i))

/-! ## Under the boot ROM (R19–R21) -/

/-- A verification failed: the window reopens to every endpoint (R20). -/
def State.reopenWindow (s : State) (st : Status) : State :=
  { s with hub := { s.hub with verifying := none, loader := none, lastStatus := st } }

/-- FW_ACTIVATE under the boot ROM: another endpoint's, or one during verification, is refused; the
form of the header is checked and verification starts (R20, R21). -/
def State.bootActivate (s : State) (q : Req) (p : FwP) (r : Nat) : State × Option Ans :=
  if s.hub.verifying.isSome ∨ (s.hub.loader.isSome ∧ s.hub.loader ≠ some q.ep) then (s, some (Ans.of .busy))
  else if p.cancel then (s, some okAns)
  else if p.imagePva ≠ 0 then (s, some (Ans.of .invalid))
  else if !imageFormOk (s.windowBytes 0 4096) p.imageLen then (s.reopenWindow .invalid, some (Ans.of .invalid))
  else ({ s with hub := { s.hub with verifying := some ⟨r, p.imageLen, p.fillAtStart⟩ } }, none)

/-- The firmware starts (R21, R29, R57, R58): deckle 0 with its key, the loader's lease, empty rings,
and the device unattended. -/
def State.startFirmware (s : State) (i : Image) (fill : Bool) : State :=
  let k := s.newKey
  let d := freshDeckle s.now k.2
  let s1 := k.1
  let s2 := { s1 with
    part := { s1.part with deckles := s1.part.deckles.put 0 d }
    mbx := { s1.mbx with rings := [], evEp := [] }
    hub := { s1.hub with verifying := none, windowOpen := false, fillAtStart := fill, running := some i, lastStatus := .ok,
                         fwStart := s.now, unattended := true, driver := none, rspDiscarded := 0 } }
  let s3 := match s.hub.loader with
    | some ep => s2.setLease 0 ep (some (s2.newLease 200 50))
    | none => s2
  s3.setPhase .running

/-- BOOT_IMAGE_VERIFIED (R21): the image starts, or the window reopens with the status of the first
check that failed. -/
def execBootImageVerified (s : State) : Host.Outcome State Fault Refusal :=
  .next <| match s.hub.verifying with
  | some v =>
    if !s.underBoot then s
    else
      let h := s.windowBytes 0 4096
      match s.imageBad h (s.windowBytes 4096 (v.len - 4096)) with
      | some e => (s.reopenWindow e.1).answer v.reply (Ans.of e.1 e.2)
      | none =>
        let i := imageOf h
        (s.answer v.reply (Ans.of .ok i.fwVersion)).startFirmware i v.fill
  | none => s

/-! ## Live update (R31–R34) -/

/-- An open debug session closes (R332). -/
def State.closeSession (s : State) : State := { s with sec := { s.sec with session := none } }

/-- Activation of the staged image starts on hub cores 4 to 7 (R33). -/
def State.startActivation (s : State) (reply : Option Nat) : State :=
  match s.hub.staged with
  | some i =>
    let s1 := s.closeSession
    State.setPhase { s1 with hub := { s1.hub with activation := some ⟨s.now, reply, i⟩, autoPending := false } } .activating
  | none => s

/-- FW_ACTIVATE outside the boot ROM (R31–R33). -/
def State.liveActivate (s : State) (p : FwP) (r : Nat) : State × Option Ans :=
  if p.imagePva ≠ 0 ∨ p.imageLen ≠ 0 ∨ p.fillAtStart then (s, some (Ans.of .invalid))
  else if p.cancel then ({ s with hub := { s.hub with autoPending := false } }, some okAns)
  else if s.hub.staged.isNone then (s, some (Ans.of .invalid))
  else if s.cal.emergency.isSome then
    ({ s with hub := { s.hub with autoPending := s.hub.autoPending || p.auto } }, some (Ans.of .deferred))
  else (s.startActivation (some r), none)

/-- FW_ACTIVATE: code, length and what R27 checks of it first. Under the boot ROM it needs staging
SRAM (Table 20.11). -/
def fwActivateCmd (p : FwP) (s : State) : Cmd :=
  { code := 0x0B02, oper := true, len := 16, rsvd := p.rsvd, attended := true, boot := true,
    needs := if s.underBoot && !s.hub.stagingReady then some (.notReady, 0) else none }

/-- FW_ACTIVATE: its effect (R21, R32, R33). -/
def fwActivateAct (q : Req) (p : FwP) : State → Nat → State × Option Ans :=
  fun s r => if s.underBoot then s.bootActivate q p r else s.liveActivate p r

/-- FW_ACTIVATE. -/
def State.fwActivate (s : State) (self : Instr) (q : Req) (p : FwP) : State :=
  s.serve self (fwActivateCmd p s) q (fun _ => []) (fwActivateAct q p)

/-- FW_ACTIVATE under the boot ROM (R21). -/
def execBootFwActivate (q : Req) (p : FwP) (s : State) : Host.Outcome State Fault Refusal :=
  .next (s.fwActivate (.bootFwActivate q p) q p)

/-- FW_ACTIVATE (R33). -/
def execFwActivate (q : Req) (p : FwP) (s : State) : Host.Outcome State Fault Refusal :=
  .next (s.fwActivate (.fwActivate q p) q p)

/-- FW_ACTIVATE with CANCEL (R31). -/
def execFwActivateCancel (q : Req) (p : FwP) (s : State) : Host.Outcome State Fault Refusal :=
  .next (s.fwActivate (.fwActivateCancel q p) q { p with cancel := true })

/-- The copy and the checks of FW_STAGE (R31): what is staged afterwards, and the answer. -/
def State.stage (s : State) (p : FwP) : State × Option Ans :=
  let put := fun (s : State) (i : Option Image) (st : Status) (d : Nat) =>
    (({ s with hub := { s.hub with staged := i, lastStatus := st } } : State), some (Ans.of st d))
  match s.readBytes 0 p.imagePva 4096 with
  | (s1, .ok, h) =>
    if !imageFormOk h p.imageLen then put s1 none .invalid 0
    else match s1.readBytes 0 (p.imagePva + 4096) (p.imageLen - 4096) with
      | (s2, .ok, body) =>
        (match s2.imageBad h body with
          | some e => put s2 none e.1 e.2
          | none => put s2 (some (imageOf h)) .ok 0)
      | (s2, st, _) => put s2 none st 0
  | (s1, st, _) => put s1 none st 0

/-- FW_STAGE: code, length and what R27 checks of it first. -/
def fwStageCmd (p : FwP) : Cmd :=
  { code := 0x0B01, oper := true, len := 16, rsvd := p.rsvd, attended := true }

/-- FW_STAGE: its checks in order (R31). -/
def fwStageChecks (p : FwP) : State → List Check :=
  fun s => [(!p.auto && !p.cancel && !p.fillAtStart && 4160 ≤ p.imageLen && p.imageLen ≤ 33554432, .invalid, 0),
      (p.imagePva % 64 == 0, .align, 0), (!s.hub.autoPending, .busy, 0)]

/-- FW_STAGE: its effect (R31). -/
def fwStageAct (p : FwP) : State → Nat → State × Option Ans :=
  fun s _ => s.stage p

/-- FW_STAGE (R31). -/
def execFwStage (q : Req) (p : FwP) (s : State) : Host.Outcome State Fault Refusal :=
  .next (s.serve (.fwStage q p) (fwStageCmd p) q (fwStageChecks p) (fwStageAct p))

/-- FW_STATUS's inline result (Table 2.11). -/
def State.fwStatusAns (s : State) : Ans :=
  let st := if s.hub.activation.isSome then 3 else if s.hub.autoPending then 2 else if s.hub.staged.isSome then 1 else 0
  okFields 24 [(32, (s.hub.running.map (·.fwVersion)).getD 0), (16, (s.hub.running.map (·.secVersion)).getD 0), (16, 0),
    (32, (s.hub.staged.map (·.fwVersion)).getD 0), (2, st), (6, 0), (8, statusCode s.hub.lastStatus), (80, 0)]

/-- FW_STATUS.: code, length and what R27 checks of it first. -/
def fwStatusCmd : Cmd :=
  { code := 0x0B03, oper := true, boot := true }

/-- FW_STATUS.: its checks in order. -/
def fwStatusChecks : State → List Check :=
  fun _ => []

/-- FW_STATUS.: its effect. -/
def fwStatusAct : State → Nat → State × Option Ans :=
  fun s _ => (s, some s.fwStatusAns)

/-- FW_STATUS. -/
def execFwStatus (q : Req) (s : State) : Host.Outcome State Fault Refusal :=
  .next (s.serve (.fwStatus q) fwStatusCmd q fwStatusChecks fwStatusAct)

/-- FW_SWITCH_POINT (R33): all duties pass to the new image. -/
def execFwSwitchPoint (s : State) : Host.Outcome State Fault Refusal :=
  .next <| match s.hub.activation with
  | some a =>
    if s.hub.phase ≠ .activating then s
    else
      let h : Hub := { s.hub with activation := none, staged := none, running := some a.image, slotB := !s.hub.slotB,
                                  lastStatus := .ok }
      let s1 := State.setPhase { s with hub := h } .running
      (s1.answerOpt a.reply (Ans.of .ok a.image.fwVersion)).raise 0x0B01 .device
  | none => s

/-- An activation ends without its switch point: the old image resumes and the staged image is
discarded (R34, R36, R38). -/
def State.dropActivation (s : State) (detail : Nat) : State :=
  match s.hub.activation with
  | some a =>
    let s1 := { s with hub := { s.hub with activation := none, staged := none, lastStatus := .aborted } }
    s1.answerOpt a.reply (Ans.of .aborted detail)
  | none => s

/-- FW_ACTIVATE_TIMEOUT (R34): 100 ms after the start of the activation. -/
def execFwActivateTimeout (s : State) : Host.Outcome State Fault Refusal :=
  .next <| match s.hub.activation with
  | some a =>
    if s.hub.phase ≠ .activating then s
    else ((s.reach (a.start + 100000000)).setPhase .running).dropActivation 0
  | none => s

/-! ## Query and configuration -/

/-- DEVICE_QUERY's inline result (Table 2.6); `oper` on the operator mailbox. -/
def State.deviceResult (s : State) (oper : Bool) : Ans :=
  let o := fun (n : Nat) => if oper then n else 0
  let cores := (s.eng.cores.filter fun c => c.2.ready).foldl (fun a c => a ||| 2 ^ c.1) 0
  let far := (List.range 4).foldl (fun a d => if s.farReady d then a ||| 2 ^ d else a) 0
  okFields 176 [(8, s.orderField), (8, 0xB1), (8, b2n s.part.bulk), (8, s.pairRoleField),
    (32, (s.hub.running.map (·.fwVersion)).getD 0), (1, b2n s.hub.ready), (1, b2n s.sec.ready), (1, b2n s.tier1Ready),
    (1, b2n (s.tier1Ready && !(s.group 0).lost.isEmpty)), (1, b2n s.hub.stagingReady), (4, far), (1, b2n s.hub.unattended),
    (1, b2n s.cal.emergency.isSome), (1, b2n s.hub.autoPending), (20, 0), (32, o cores), (64, o (s.portMask Port.up)),
    (16, s.deckleCount), (16, s.deckleMax), (12, o (s.hub.driver.getD 0)), (1, o (b2n s.hub.driver.isSome)), (19, 0),
    (64, s.dom), (32, s.t1Bytes / 2 ^ 30), (32, s.t2Bytes / 2 ^ 30), (32, o s.hub.rspDiscarded), (992, 0)]

/-- DEVICE_QUERY.: code, length and what R27 checks of it first. -/
def deviceQueryCmd : Cmd :=
  { code := 0x0001, boot := true, standby := true }

/-- DEVICE_QUERY.: its checks in order. -/
def deviceQueryChecks : State → List Check :=
  fun _ => []

/-- DEVICE_QUERY.: its effect. -/
def deviceQueryAct (q : Req) : State → Nat → State × Option Ans :=
  fun s _ => (s, some (s.deviceResult (q.deckle == 0)))

/-- DEVICE_QUERY. -/
def execDeviceQuery (q : Req) (s : State) : Host.Outcome State Fault Refusal :=
  .next (s.serve (.deviceQuery q) deviceQueryCmd q deviceQueryChecks (deviceQueryAct q))

/-- The profile changes (R15, R18): credits are counted against the new allowances, open mode enables
every policer with the values of R264 and keys every trained port, bulk mode grants shared credits. -/
def State.setProfile (s : State) (bulk : Bool) : State :=
  if bulk = s.part.bulk then s
  else
    let s1 := { s with part := { s.part with bulk := bulk } }
    if bulk then s1.link.ports.keys.foldl (fun a p => a.grantShared p) s1
    else
      let pol := s1.cal.policers.keep fun _ b => b.enable
      State.keyPorts { s1 with cal := { s1.cal with policers := pol } }

/-- DEVICE_CONFIGURE: code, length and what R27 checks of it first. -/
def configureCmd (p : DevCfgP) : Cmd := { code := 0x0002, oper := true, len := 16, rsvd := p.rsvd, attended := true }

/-- DEVICE_CONFIGURE: its checks in order (R15, Table 2.7). -/
def configureChecks (p : DevCfgP) : State → List Check :=
  fun s => [(!p.setWedge || p.wedgeMs == 0 || (100 ≤ p.wedgeMs && p.wedgeMs ≤ 60000), .invalid, 0),
    (!p.setProfile || p.bulk == s.part.bulk || s.deckleCount ≤ 1, .busy, 0)]

/-- DEVICE_CONFIGURE: its effect (R15, R18, R36). -/
def configureAct (p : DevCfgP) : State → Nat → State × Option Ans :=
  fun s _ =>
    let s1 := if p.setWedge then { s with hub := { s.hub with wedgeMs := p.wedgeMs } } else s
    (if p.setProfile then s1.setProfile p.bulk else s1, some okAns)

/-- DEVICE_CONFIGURE. -/
def State.configure (s : State) (self : Instr) (q : Req) (p : DevCfgP) : State :=
  s.serve self (configureCmd p) q (configureChecks p) (configureAct p)

/-- DEVICE_CONFIGURE with SET_PROFILE (R15, R18). -/
def execDeviceConfigureProfile (q : Req) (p : DevCfgP) (s : State) : Host.Outcome State Fault Refusal :=
  .next (s.configure (.deviceConfigureProfile q p) q { p with setProfile := true })

/-- DEVICE_CONFIGURE with SET_WEDGE (R36). -/
def execDeviceConfigureWedge (q : Req) (p : DevCfgP) (s : State) : Host.Outcome State Fault Refusal :=
  .next (s.configure (.deviceConfigureWedge q p) q { p with setWedge := true })

/-! ## The driver (R28, R29, R356) -/

/-- The command of DRIVER_ATTACH. -/
def State.attachCmd (s : State) (p : AttachP) : Cmd :=
  { code := 0x0003, oper := true, len := 40, rsvd := p.rsvd, attach := true, standby := true,
    needs := if s.sec.ready then none else some (.notReady, 0) }

/-- The device report DRIVER_ATTACH writes. -/
def State.attachAns (s : State) (q : Req) (p : AttachP) : Ans :=
  (s.report { nonce := p.nonce, area := q.resultLen }).answer 0 0

/-- DRIVER_ATTACH with ATTEST_ONLY.: code, length and what R27 checks of it first. -/
def driverAttachAttestOnlyCmd (p : AttachP) (s : State) : Cmd :=
  s.attachCmd p

/-- DRIVER_ATTACH with ATTEST_ONLY.: its checks in order. -/
def driverAttachAttestOnlyChecks (q : Req) : State → List Check :=
  fun _ => [reportArea q]

/-- DRIVER_ATTACH with ATTEST_ONLY.: its effect. -/
def driverAttachAttestOnlyAct (q : Req) (p : AttachP) : State → Nat → State × Option Ans :=
  fun s _ => (s, some (s.attachAns q p))

/-- DRIVER_ATTACH with ATTEST_ONLY. -/
def execDriverAttachAttestOnly (q : Req) (p : AttachP) (s : State) : Host.Outcome State Fault Refusal :=
  .next (s.serve (.driverAttachAttestOnly q p) (driverAttachAttestOnlyCmd p s) q
    (driverAttachAttestOnlyChecks q) (driverAttachAttestOnlyAct q p))

/-- ADOPT's lease in deckle 0, when the endpoint holds none (R58). -/
def State.adoptLease (s : State) (ep : Nat) : State :=
  if s.member 0 ep then s else s.setLease 0 ep (some (s.newLease 200 50))

/-- DRIVER_ATTACH with ADOPT. An endpoint that is a member of 16 deckles cannot take a lease in deckle 0: code, length and what R27 checks of it first. -/
def driverAttachAdoptCmd (p : AttachP) (s : State) : Cmd :=
  s.attachCmd p

/-- DRIVER_ATTACH with ADOPT. An endpoint that is a member of 16 deckles cannot take a lease in deckle 0: its checks in order (R58). -/
def driverAttachAdoptChecks (q : Req) : State → List Check :=
  fun s => [reportArea q, (s.hub.driver.isNone || s.hub.driver == some q.ep, .busy, 0),
      (s.member 0 q.ep || s.memberships q.ep < 16, .busy, 0)]

/-- DRIVER_ATTACH with ADOPT. An endpoint that is a member of 16 deckles cannot take a lease in deckle 0: its effect (R58). -/
def driverAttachAdoptAct (q : Req) (p : AttachP) : State → Nat → State × Option Ans :=
  fun s _ =>
      let a := s.attachAns q p
      let s1 := s.adoptLease q.ep
      let s2 := { s1 with hub := { s1.hub with driver := some q.ep, driverDeadline := s.now + 2000000000, unattended := false } }
      ((s2.setEvEp 0 q.ep).raise 0x0003 .device, some a)

/-- DRIVER_ATTACH with ADOPT. An endpoint that is a member of 16 deckles cannot take a lease in deckle
0 (R58). -/
def execDriverAttachAdopt (q : Req) (p : AttachP) (s : State) : Host.Outcome State Fault Refusal :=
  .next (s.serve (.driverAttachAdopt q p) (driverAttachAdoptCmd p s) q (driverAttachAdoptChecks q) (driverAttachAdoptAct q p))

/-- The driver lease ends (R29). -/
def State.loseDriver (s : State) : State :=
  State.raise { s with hub := { s.hub with driver := none, unattended := true } } 0x0002 .device

/-- DRIVER_DETACH: code, length and what R27 checks of it first. -/
def driverDetachCmd : Cmd :=
  { code := 0x0004, oper := true, standby := true }

/-- DRIVER_DETACH: its checks in order (R28). -/
def driverDetachChecks (q : Req) : State → List Check :=
  fun s => [(s.hub.driver == some q.ep, .noAccess, 0)]

/-- DRIVER_DETACH: its effect (R28). -/
def driverDetachAct : State → Nat → State × Option Ans :=
  fun s _ => (s.loseDriver, some okAns)

/-- DRIVER_DETACH (R28). -/
def execDriverDetach (q : Req) (s : State) : Host.Outcome State Fault Refusal :=
  .next (s.serve (.driverDetach q) driverDetachCmd q (driverDetachChecks q) driverDetachAct)

/-- DRIVER_LEASE_LAPSE (R29): the lease's 2 s pass; it is frozen while the hub is stopped (R35). -/
def execDriverLeaseLapse (s : State) : Host.Outcome State Fault Refusal :=
  .next <| if s.hub.driver.isSome && !s.hubStopped then (s.reach s.hub.driverDeadline).loseDriver else s

/-! ## The wedged hub (R35, R36) -/

/-- The hub cores stop (R35, R36): an activation before its switch point is abandoned. -/
def State.stopHub (s : State) (p : Phase) : State :=
  let s1 := { s with hub := { s.hub with ready := false, stoppedAt := some (s.hub.stoppedAt.getD s.now) } }
  (s1.setPhase p).dropActivation 3

/-- HUB_WEDGE (R35): the watchdog was not refreshed for 100 ms. -/
def execHubWedge (s : State) : Host.Outcome State Fault Refusal :=
  .next <|
    if !s.fwRuns then s
    else
      let s1 := s.stopHub .wedged
      State.closeSession { s1 with hub := { s1.hub with wedges := sat 16 (s1.hub.wedges + 1), dumping := some s.now, dumpDone := none } }

/-- A dump is written: a serial number of its own names its content (log 13). -/
def State.writeDump (s : State) : State :=
  { s with free := s.free + 1, hub := { s.hub with dumpValid := true, dumpSerial := s.free + 1 } }

/-- An event the bedrock controller sends itself, with its I3C interrupt byte (R350). -/
def State.raiseBr (s : State) (code ibi params : Nat) : State :=
  let s1 := (s.raise code .device 0 params).pumpRingIf true 0
  { s1 with mbx := { s1.mbx with ibi := s1.mbx.ibi ++ [ibi] } }

/-- WEDGE_DUMP_DONE (R35, R36): a dump that has not been cleared is not overwritten; a BR_RESET HUB
that waited for the dump restarts the hub (R38). -/
def execWedgeDumpDone (s : State) : Host.Outcome State Fault Refusal :=
  .next <|
    if s.hub.phase ≠ .wedged ∨ s.hub.dumping.isNone then s
    else
      let s1 := if s.hub.dumpValid then s else s.writeDump
      let s2 := State.raiseBr { s1 with hub := { s1.hub with dumping := none, dumpDone := some s.now } } 0xFF01 0x02 0
      if s2.hub.resetAfterDump then State.setPhase { s2 with hub := { s2.hub with resetAfterDump := false } } .restarting else s2

/-- WEDGE_RESTART (R36): WEDGE_RESTART_MS after the dump. -/
def execWedgeRestart (s : State) : Host.Outcome State Fault Refusal :=
  .next <| match s.hub.dumpDone with
  | some t =>
    if s.hub.phase = .wedged ∧ s.hub.wedgeMs ≠ 0 then (s.reach (t + s.hub.wedgeMs * 1000000)).setPhase .restarting else s
  | none => s

/-- Frozen timers resume from their frozen values (R35, R36). -/
def State.thaw (s : State) (d : Nat) : State :=
  let ls := s.part.leases.each fun _ l => if l.isMember then { l with deadline := l.deadline + d } else l
  let fs := s.xlat.faults.each fun _ f => { f with frozen := f.frozen + d }
  { s with
    part := { s.part with leases := ls }
    xlat := { s.xlat with faults := fs }
    hub := { s.hub with driverDeadline := s.hub.driverDeadline + d, stoppedAt := none, dumpDone := none } }

/-- Requests that waited in their mailboxes end uncommitted (R36, R38). -/
def State.abortWaiting (s : State) : State :=
  let s0 := { s with mbx := { s.mbx with waiting := [] } }
  s.mbx.waiting.foldl (fun a w => a.answerNow w.req w.code w.at_ (Ans.of .aborted)) s0

/-- Commands that committed while the hub was stopped are answered with their result (R36). -/
def State.answerCommitted (s : State) : State :=
  s.mbx.outst.keys.foldl (fun a r => match a.mbx.outst.find r with
    | some o => (match o.progress with
      | .committed x => a.answer r x
      | _ => a)
    | none => a) s

/-- Every ring's waiting events are sent. -/
def State.pumpRings (s : State) : State := s.mbx.rings.keys.foldl (fun a d => a.pumpRing d) s

/-- The hub becomes ready: EV_READY of every function that waits, in the order they became ready, and
once of the hub (R354). -/
def State.raiseReady (s : State) : State :=
  let s1 := s.pkg.readyWait.foldl (fun a x => a.raise 0x0001 .device 0 x) s
  let s2 := if s.pkg.hubAnnounced then s1 else s1.announce 2 0
  { s2 with pkg := { s2.pkg with readyWait := [], hubAnnounced := true } }

/-- HUB_RESTART_DONE (R36): the hub is ready again. -/
def execHubRestartDone (s : State) : Host.Outcome State Fault Refusal :=
  .next <|
    if s.hub.phase ≠ .restarting then s
    else
      let s1 := s.thaw (s.now - s.hub.stoppedAt.getD s.now)
      let s2 := State.setPhase { s1 with hub := { s1.hub with ready := true }, cal := { s1.cal with wedgeFloor := false } } .running
      s2.raiseReady.answerCommitted.abortWaiting.pumpRings

/-! ## The bedrock controller (R37, R38) -/

/-- BR_STATUS's inline result (Table 2.13). -/
def State.brStatusAns (s : State) : Ans :=
  okFields 32 [(4, phaseCode s.hub.phase), (1, b2n s.hub.dumpValid), (1, b2n s.pkg.recThermal), (1, b2n s.pkg.recSupply),
    (1, b2n s.hub.driver.isSome), (4, s.hub.resetCause), (4, 0), (16, s.hub.wedges), (16, s.tjMax), (16, s.cal.powerW),
    (32, (s.hub.running.map (·.fwVersion)).getD 0), (160, 0)]

/-- BR_STATUS.: code, length and what R27 checks of it first. -/
def brStatusCmd : Cmd :=
  { code := 0xFF01 }

/-- BR_STATUS.: its effect. -/
def brStatusAct : State → Nat → State × Option Ans :=
  fun s _ => (s, some s.brStatusAns)

/-- BR_STATUS. -/
def execBrStatus (q : Req) (s : State) : Host.Outcome State Fault Refusal :=
  .next (s.serveBr brStatusCmd q brStatusAct)

/-- BR_DUMP with DUMP: code, length and what R27 checks of it first. -/
def brDumpCmd (p : BrP) : Cmd :=
  { code := 0xFF02, len := 8, rsvd := p.rsvd }

/-- BR_DUMP with DUMP: its effect (R38). -/
def brDumpAct (p : BrP) : State → Nat → State × Option Ans :=
  fun s _ =>
    if p.word % 128 ≠ 0 ∨ 67108864 ≤ p.word then (s, some (Ans.of .invalid)) else (s.writeDump, some okAns)

/-- BR_DUMP with DUMP (R38): overwrites an uncleared dump. -/
def execBrDump (q : Req) (p : BrP) (s : State) : Host.Outcome State Fault Refusal :=
  .next (s.serveBr (brDumpCmd p) q (brDumpAct p))

/-- BR_DUMP with READ: code, length and what R27 checks of it first. -/
def brDumpReadCmd (p : BrP) : Cmd :=
  { code := 0xFF02, len := 8, rsvd := p.rsvd }

/-- BR_DUMP with READ: its effect. -/
def brDumpReadAct (p : BrP) : State → Nat → State × Option Ans :=
  fun s _ =>
    if p.word % 128 ≠ 0 ∨ 67108864 ≤ p.word then (s, some (Ans.of .invalid))
    else (s, some (Ans.okBits 128 (if s.hub.dumpValid then Config.dumpBytes s.hub.dumpSerial p.word % 2 ^ 1024 else 0)))

/-- BR_DUMP with READ: zero when DUMP_VALID is 0. -/
def execBrDumpRead (q : Req) (p : BrP) (s : State) : Host.Outcome State Fault Refusal :=
  .next (s.serveBr (brDumpReadCmd p) q (brDumpReadAct p))

/-- BR_DUMP with CLEAR.: code, length and what R27 checks of it first. -/
def brDumpClearCmd (p : BrP) : Cmd :=
  { code := 0xFF02, len := 8, rsvd := p.rsvd }

/-- BR_DUMP with CLEAR.: its effect. -/
def brDumpClearAct (p : BrP) : State → Nat → State × Option Ans :=
  fun s _ =>
    if p.word % 128 ≠ 0 ∨ 67108864 ≤ p.word then (s, some (Ans.of .invalid))
    else ({ s with hub := { s.hub with dumpValid := false, dumpSerial := 0 } }, some okAns)

/-- BR_DUMP with CLEAR. -/
def execBrDumpClear (q : Req) (p : BrP) (s : State) : Host.Outcome State Fault Refusal :=
  .next (s.serveBr (brDumpClearCmd p) q (brDumpClearAct p))

/-- Every key of the key store and of the ports is destroyed, and ports that ran encryption go down
with CAUSE 3 (R38, R323). -/
def State.destroyKeys (s : State) : State :=
  let enc := (s.link.ports.filter fun p => p.2.encrypted).map Prod.fst
  let s1 := { s with sec := { s.sec with keys := [], pairKey := false, ready := false } }
  enc.foldl (fun a p => a.portDown p 3) s1

/-- The zeroisation (R38): the keys go, what was not committed is aborted, an activation or a
verification ends. -/
def State.zeroise (s : State) : State :=
  let s1 := s.destroyKeys
  let s2 := s1.setPhase .zeroised
  let s3 := match s2.hub.verifying with
    | some v => (s2.reopenWindow .aborted).answer v.reply (Ans.of .aborted)
    | none => s2
  ((s3.dropActivation 0).answerCommitted.abortWaiting).closeSession

/-- BR_ZEROISE: code, length and what R27 checks of it first. -/
def brZeroiseCmd (p : BrP) : Cmd :=
  { code := 0xFF03, len := 8, rsvd := p.rsvd }

/-- BR_ZEROISE: its effect (R38). -/
def brZeroiseAct (p : BrP) : State → Nat → State × Option Ans :=
  fun s _ =>
    if p.word ≠ 0x5A45524F then (s, some (Ans.of .invalid)) else (s.zeroise, some okAns)

/-- BR_ZEROISE (R38). -/
def execBrZeroise (q : Req) (p : BrP) (s : State) : Host.Outcome State Fault Refusal :=
  .next (s.serveBr (brZeroiseCmd p) q (brZeroiseAct p))

/-- BR_RESET with scope HUB: code, length and what R27 checks of it first. -/
def brResetHubCmd (p : BrP) : Cmd :=
  { code := 0xFF05, len := 8, rsvd := p.rsvd }

/-- BR_RESET with scope HUB: its effect (R36, R38). -/
def brResetHubAct (p : BrP) : State → Nat → State × Option Ans :=
  fun s _ =>
    if p.word ≠ 0 then (s, some (Ans.of .invalid))
    else match s.hub.phase with
      | .bootRom => (s, some (Ans.of .invalid))
      | .zeroised => (s, some (Ans.of .invalid))
      | .wedged =>
        if s.hub.dumping.isSome then ({ s with hub := { s.hub with resetAfterDump := true } }, some okAns)
        else (s.setPhase .restarting, some okAns)
      | .running => (s.stopHub .restarting, some okAns)
      | .activating => (s.stopHub .restarting, some okAns)
      | _ => (s, some okAns)

/-- BR_RESET with scope HUB (R36, R38): answered, then the hub stops and restarts without a dump. Under a
wedge whose dump still runs it restarts after the dump. -/
def execBrResetHub (q : Req) (p : BrP) (s : State) : Host.Outcome State Fault Refusal :=
  .next (s.serveBr (brResetHubCmd p) q (brResetHubAct p))

/-! ## Resets (R345) -/

/-- Every part of the device at its reset; what is the model's own or the part's is kept, and the reset
stays asserted until its release. -/
def State.wiped (s : State) : State :=
  { State.reset with
    pending := s.pending, now := s.now, free := s.free, board := s.board
    sec := { Sec.reset with lastKey := s.sec.lastKey } }

/-- A warm reset (R345): everything but the analogue die's PLLs, sensors and fuse shadow, and the
trip record. -/
def State.warmed (s : State) (cause : Nat) : State :=
  let w := s.wiped
  { w with
    hub := { w.hub with resetCause := cause }
    pkg := { Pkg.reset with
      coldLow := false, releasedAt := s.pkg.releasedAt, pll := s.pkg.pll, sensors := s.pkg.sensors, recThermal := s.pkg.recThermal,
      recSupply := s.pkg.recSupply, recKept := s.pkg.recKept } }

/-- The outstanding command that `serve` has just accepted from a request. -/
def State.accepted (s : State) (q : Req) (code : Nat) : Option (Nat × Outst) :=
  (s.mbx.outst.find? fun o => o.2.req == q && o.2.code == code && o.2.progress == .running).map fun o => (o.1, o.2)

/-- Answers a command, then resets the device as WARM_RST_N does (R28, R38): the answer leaves before
the reset, which ends at once. A latched trip's power-down proceeds instead (R345). -/
def State.answerReset (s : State) (q : Req) (code accepted : Nat) (a : Ans) : State :=
  let x := s.fillArea q a
  let r : MbxRsp := { code := code, tag := q.tag, deckle := 0, cookie := q.cookie, elapsed := s.elapsed accepted,
                      total := a.rlen + a.area, ans := x.2 }
  if s.pkg.tripped then s.answerNow q code accepted a
  else
    let w := s.warmed 2
    { w with pkg := { w.pkg with releasedAt := s.now, resetAnswer := some (q.port, r) } }

/-- DRIVER_ATTACH with RESET (R28): the report, ST_OK, then BR_RESET with scope DEVICE. -/
def execDriverAttachReset (q : Req) (p : AttachP) (s : State) : Host.Outcome State Fault Refusal :=
  .next <|
    let s1 := s.serve (.driverAttachReset q p) (s.attachCmd p) q (driverAttachAttestOnlyChecks q) (fun s _ => (s, none))
    match s1.accepted q 0x0003 with
    | some (_, o) => s1.answerReset q 0x0003 o.accepted (s1.attachAns q p)
    | none => s1

/-- BR_RESET with scope DEVICE: code, length and what R37 checks of it first. -/
def brResetDeviceCmd (p : BrP) : Cmd := { code := 0xFF05, len := 8, rsvd := p.rsvd }

/-- BR_RESET with scope DEVICE: refused for a wrong word, else outstanding until the reset (R38). -/
def brResetDeviceAct (p : BrP) : State → Nat → State × Option Ans :=
  fun s _ => if p.word ≠ 0 then (s, some (Ans.of .invalid)) else (s, none)

/-- BR_RESET with scope DEVICE (R38): answered before the warm reset. -/
def execBrResetDevice (q : Req) (p : BrP) (s : State) : Host.Outcome State Fault Refusal :=
  .next <|
    let s1 := s.serveBr (brResetDeviceCmd p) q (brResetDeviceAct p)
    match s1.accepted q 0xFF05 with
    | some (_, o) => s1.answerReset q 0xFF05 o.accepted okAns
    | none => s1

end Sys2Proof.Machine
end

