-- ==== Sys2Proof/Machine/Integrity.lean ====
section
/-! DEFINITION. Data integrity at work (chapter 17): scrubbing, injection, correctable-error buckets,
failed units and rebuild, the seal pass, the poison list and the hardware integrity log. -/

namespace Sys2Proof.Machine

/-! ## Lines and their owners -/

/-- The line as its granule's current owner would read it: an extent's line, or one of deckle 0's
control extent. -/
def State.refAt (s : State) (t : Tier) (line : Nat) : Option LineRef :=
  match s.extentAt t (line / 32768) with
  | some (x, e) => some { tier := t, line := line, extent := x, gen := e.gen, deckle := e.deckle, mir := e.mir }
  | none =>
    if t == .staging && 0x200000 ≤ line && line < 0x240000 then
      some { tier := t, line := line, extent := 0, gen := 1, deckle := 0 }
    else none

/-- The stored line is poisoned. -/
def State.isPoisoned (s : State) (t : Tier) (line : Nat) : Bool :=
  ((s.mem.cells.find (cellKey t line)).map fun c => isPoisonDiff c.diff).getD false

/-- A poisoning enters the poison list (R295): once, while the line is still poisoned, and not when the
list is full. -/
def State.listPoison (s : State) (p : Poison) : State :=
  if s.mem.poison.any (fun q => q.tier == p.tier && q.phys == p.phys) || !s.isPoisoned p.tier (p.phys / 64) then s
  else if s.mem.poison.length < 65536 then { s with mem := { s.mem with poison := s.mem.poison ++ [p] } }
  else { s with mem := { s.mem with overflow := true, scrubbed := [] } }

/-! ## Scrubbing (R301) -/

/-- What a scrub has counted. -/
structure Tally where
  lines   : Nat := 0
  corr    : Nat := 0
  recon   : Nat := 0
  poison  : Nat := 0
  unform  : Nat := 0
  skipped : Nat := 0
  /-- address and KIND of the first failures -/
  fails   : List (Nat × Nat) := []
  deriving Repr

/-- Adds a failure of a kind at an address: the first 16 are kept. -/
def Tally.fail (y : Tally) (addr kind : Nat) : Tally := if y.fails.length < 16 then { y with fails := y.fails ++ [(addr, kind)] } else y

/-- Counts how the read of an owned line ended. -/
def Tally.note (y : Tally) (addr : Nat) (n : ReadNote) : Tally :=
  let y1 := { y with lines := y.lines + 1, corr := y.corr + b2n n.corrected, recon := y.recon + b2n n.reconstructed,
                     poison := y.poison + b2n n.poisoned, unform := y.unform + b2n n.unformed }
  if n.reconstructed then y1.fail addr 0 else if n.poisoned then y1.fail addr 1 else if n.unformed then y1.fail addr 2 else y1

/-- Clears the corrected symbol of a stored line by rewriting it (R301). -/
def State.rewriteLine (s : State) (t : Tier) (line : Nat) : State :=
  match s.mem.cells.find (cellKey t line) with
  | some c => s.storeCell t line { c with err := 0#640 } false
  | none => s

/-- Reads one owned line of a scrub. -/
def State.scrubOwned (s : State) (r : LineRef) (rewrite : Bool) (addr : Nat) (y : Tally) : State × Tally :=
  let x := s.readLineN r
  let s1 := if x.2.2.poisoned then
      x.1.listPoison { extent := r.extent, line := x.1.lineIx r, tier := r.tier, deckle := r.deckle, cause := 0, raised := x.1.dom,
                       phys := r.line * 64 }
    else if x.2.2.corrected && rewrite then x.1.rewriteLine r.tier r.line else x.1
  (s1, y.note addr x.2.2)

/-- Decodes one line of a free granule (R301): neither reconstructed nor poisoned. -/
def State.scrubFree (s : State) (t : Tier) (line : Nat) (rewrite : Bool) (addr : Nat) (y : Tally) : State × Tally :=
  let d := match s.cell t line with
    | some c => c.diff
    | none => if s.blankAtStart t then 0#640 else Config.rawLine (tierCode t) line
  let s1 := s.chargeDev (match t with | .t1 => 0 | .t2 => 1 | .staging => 2) (readPj t)
  let y1 := { y with lines := y.lines + 1 }
  if d = 0#640 then (s1, y1)
  else match correction d with
    | none => (s1, ({ y1 with unform := y1.unform + 1 } : Tally).fail addr 2)
    | some k =>
      if k = 0#640 then (s1, y1)
      else
        let s2 := s1.countCe (s1.unitOf t line).1
        (if rewrite then s2.rewriteLine t line else s2, { y1 with corr := y1.corr + 1 })

/-- Decodes the parity line of a row (R301 PARITY): corrected when every data line of the row is a code
word. -/
def State.scrubParity (s : State) (t : Tier) (line : Nat) (rewrite : Bool) (y : Tally) : State × Tally :=
  match s.place t line with
  | none => (s, y)
  | some p =>
    let e := (s.mem.parityErr.find (rowKey t line)).getD 0#640
    let v := s.rowView t line p
    if line ≠ (rowLines t line).headD 0 ∨ e = 0#640 ∨ !v.2.2 ∨ (s.group p.group).lostAt p.parity p.stripe then (s, y)
    else match correction e with
      | none => (s, { y with unform := y.unform + 1 })
      | some k =>
        let s1 := s.countCe (unitKey p.group ((s.group p.group).unitAt p.group p.parity p.stripe))
        let left := e ^^^ k
        let rows := s1.mem.parityErr.set (rowKey t line) (if left = 0#640 then none else some left)
        (if rewrite then { s1 with mem := { s1.mem with parityErr := rows } } else s1, { y with corr := y.corr + 1 })

/-- A scrub of physical data addresses. -/
def State.scrubPhys (s : State) (t : Tier) (p : ScrubP) : State × Tally :=
  (List.range (p.length / 64)).foldl (fun a i =>
    let l := p.start / 64 + i
    let b := match a.1.refAt t l with
      | some r => a.1.scrubOwned { r with payer := some 4096 } p.rewrite (l * 64) a.2
      | none => a.1.scrubFree t l p.rewrite (l * 64) a.2
    if p.parity then b.1.scrubParity t l p.rewrite b.2 else b) (s, {})

/-- A scrub of a deckle's PVAs: pages that do not translate are skipped and counted. -/
def State.scrubPva (s : State) (p : ScrubP) : State × Tally :=
  let lines := lineRun p.start (p.length / 64)
  (sortNat (pagesOf lines)).foldl (fun a page =>
    let mine := lines.filter fun l => l * 64 / 65536 == page
    match a.1.translate p.deckle .any mine with
    | .ok refs => (refs.zip mine).foldl (fun b x => b.1.scrubOwned x.1 p.rewrite (x.2 * 64) b.2) a
    | _ => (a.1, { a.2 with skipped := a.2.skipped + 1 })) (s, {})

/-- Table 17.8. -/
def Tally.ans (y : Tally) : Ans :=
  okFields 160 ([(64, y.lines), (32, sat 32 y.corr), (32, sat 32 y.recon), (32, sat 32 y.poison), (32, sat 32 y.unform),
    (32, sat 32 y.skipped), (5, y.fails.length), (27, 0)] ++ y.fails.map fun f => (64, f.1 + f.2 * 2 ^ 56))

/-- Intervals cover every byte below a bound. -/
def coversTo : List (Nat × Nat) → Nat → Nat → Bool
  | [], at_, n => n ≤ at_
  | (a, b) :: r, at_, n => n ≤ at_ || (a ≤ at_ && coversTo r (max at_ b) n)

/-- Inserts an interval by its start. -/
def insertIv (x : Nat × Nat) : List (Nat × Nat) → List (Nat × Nat)
  | [] => [x]
  | y :: r => if x.1 ≤ y.1 then x :: y :: r else y :: insertIv x r

/-- The scrubs completed since OVERFLOW was set cover a tier. -/
def State.scrubCovers (s : State) (t : Tier) : Bool :=
  coversTo ((s.mem.scrubbed.filterMap fun x => if x.1 = tierCode t then some (x.2.1, x.2.2) else none).foldr insertIv []) 0 (s.tierBytes t)

/-- A SPACE 0 scrub counts towards the clearing of OVERFLOW (R295). -/
def State.scrubbedRange (s : State) (t : Tier) (p : ScrubP) : State :=
  if !s.mem.overflow then s
  else
    let s1 := { s with mem := { s.mem with scrubbed := s.mem.scrubbed ++ [(tierCode t, p.start, p.start + p.length)] } }
    if s1.mem.poison.length < 65536 && s1.scrubCovers .t1 && (!s1.hasTier2 || s1.scrubCovers .t2) && s1.scrubCovers .staging then
      { s1 with mem := { s1.mem with overflow := false, scrubbed := [] } }
    else s1

/-- SCRUB: code, length and what R27 checks of it first. -/
def scrubCmd (p : ScrubP) : Cmd :=
  { code := 0x0801, oper := true, len := 32, rsvd := p.rsvd + (if p.pva then p.group else p.deckle),
                   names := if p.pva then [p.deckle] else [] }

/-- SCRUB: its checks in order (R301). -/
def scrubChecks (p : ScrubP) : State → List Check :=
  fun s => [(p.group ≤ 2 && p.share ≤ 50 && 64 ≤ p.length && p.length % 64 == 0, .invalid, 0), (p.start % 64 == 0, .align, 0),
      (if p.pva then s.deckleExists p.deckle && p.start + p.length ≤ 2 ^ 56
        else p.start + p.length ≤ s.tierBytes (tierOf p.group), .invalid, 0),
      (s.mem.scrubs.length < 4, .busy, 26)]

/-- SCRUB: its effect (R301). -/
def scrubAct (p : ScrubP) : State → Nat → State × Option Ans :=
  fun s r =>
      let n := s.mem.nextScrub
      ({ s with mem := { s.mem with scrubs := s.mem.scrubs.put n ⟨r, p⟩, nextScrub := n + 1 } }, none)

/-- SCRUB (R301). -/
def execScrub (q : Req) (p : ScrubP) (s : State) : Host.Outcome State Fault Refusal :=
  .next (s.serve (.scrub q p) (scrubCmd p) q (scrubChecks p) (scrubAct p))

/-- SCRUB_DONE (R301): the range is done, and SCRUB is answered. Deferrable work does not go on while it
is stopped (R274, R277, R304). -/
def execScrubDone (scrub : Nat) (s : State) : Host.Outcome State Fault Refusal :=
  .next <| match s.mem.scrubs.find scrub with
  | some w =>
    if s.deferStopped then s
    else
      let s0 := { s with mem := { s.mem with scrubs := s.mem.scrubs.del scrub } }
      let t := tierOf w.p.group
      let y := if w.p.pva then s0.scrubPva w.p else s0.scrubPhys t w.p
      (if w.p.pva then y.1 else y.1.scrubbedRange t w.p).answer w.reply y.2.ans
  | none => s

/-! ## Injection (R302) -/

/-- The unit exists and may be armed: not failed out, and on a far die that has modules and trained. -/
def State.unitArms (s : State) (g u : Nat) : Bool :=
  if g = 5 then u < 4
  else if g = 0 then u < 18 && !(s.group 0).failed.contains u
  else g < 5 && u < 10 && s.farDies.contains (g - 1) && !(s.group g).failed.contains u

/-- INJECT: code, length and what R27 checks of it first. -/
def injectCmd (p : InjectP) : Cmd :=
  { code := 0x0802, oper := true, len := 96, rsvd := p.rsvd }

/-- INJECT: its checks in order (R302). -/
def injectChecks (p : InjectP) : State → List Check :=
  fun s => [(s.unitArms p.group p.unit && p.kind ≤ 2 && !(p.group == 5 && p.kind == 2) && p.row % 64 == 0, .invalid, 0)]

/-- INJECT: its effect (R302). -/
def injectAct (p : InjectP) : State → Nat → State × Option Ans :=
  fun s _ =>
      let i : Inject := { kind := p.kind, row := if p.isMatch then some p.row else none, mask := p.mask }
      ({ s with mem := { s.mem with inject := s.mem.inject.put (unitKey p.group p.unit) i } }, some okAns)

/-- INJECT (R302). -/
def execInject (q : Req) (p : InjectP) (s : State) : Host.Outcome State Fault Refusal :=
  .next (s.serve (.inject q p) (injectCmd p) q (injectChecks p) (injectAct p))

/-- INJECT with CANCEL: code, length and what R27 checks of it first. -/
def injectCancelCmd (p : InjectP) : Cmd :=
  { code := 0x0802, oper := true, len := 96,
                   rsvd := p.rsvd + p.kind + p.row + p.mask.toNat + b2n p.isMatch }

/-- INJECT with CANCEL: its checks in order. -/
def injectCancelChecks (p : InjectP) : State → List Check :=
  fun s => [(s.unitArms p.group p.unit, .invalid, 0)]

/-- INJECT with CANCEL: its effect. -/
def injectCancelAct (p : InjectP) : State → Nat → State × Option Ans :=
  fun s _ => ({ s with mem := { s.mem with inject := s.mem.inject.del (unitKey p.group p.unit) } }, some okAns)

/-- INJECT with CANCEL: disarms the unit; every other field is zero. -/
def execInjectCancel (q : Req) (p : InjectP) (s : State) : Host.Outcome State Fault Refusal :=
  .next (s.serve (.injectCancel q p) (injectCancelCmd p) q (injectCancelChecks p) (injectCancelAct p))

/-! ## Correctable errors and failed units (R296, R297) -/

/-- A bucket's level set down to a value re-arms its storm at half the size. -/
def CeUnit.lower (u : CeUnit) (level size : Nat) : CeUnit :=
  { u with level := level, storm := u.storm && size / 2 < level }

/-- CE_CONFIG with SET: code, length and what R27 checks of it first. -/
def ceConfigSetCmd (p : CeP) : Cmd :=
  { code := 0x0803, oper := true, len := 16, rsvd := p.rsvd + p.group + p.unit }

/-- CE_CONFIG with SET: its checks in order (R296). -/
def ceConfigSetChecks (p : CeP) : State → List Check :=
  fun _ => [(p.leakMs ≤ 10000 && p.rebuildShare ≤ 50 && p.sealShare ≤ 50, .invalid, 0)]

/-- CE_CONFIG with SET: its effect (R296). -/
def ceConfigSetAct (p : CeP) : State → Nat → State × Option Ans :=
  fun s _ =>
      let keep := fun (n old : Nat) => if n = 0 then old else n
      let size := keep p.bucketSize s.mem.bucketSize
      let ce := s.mem.ce.each fun _ u => u.lower (min u.level size) size
      ({ s with mem := { s.mem with
          bucketSize := size, leakMs := keep p.leakMs s.mem.leakMs, rebuildShare := keep p.rebuildShare s.mem.rebuildShare,
          sealShare := keep p.sealShare s.mem.sealShare, failUe := keep p.failUe s.mem.failUe, ce := ce } }, some okAns)

/-- CE_CONFIG with SET (R296): a bucket above its new size is clamped. -/
def execCeConfigSet (q : Req) (p : CeP) (s : State) : Host.Outcome State Fault Refusal :=
  .next (s.serve (.ceConfigSet q p) (ceConfigSetCmd p) q (ceConfigSetChecks p) (ceConfigSetAct p))

/-- The unit is the idle spare of its group: no member of it. -/
def Group.idleSpare (x : Group) (g u : Nat) : Bool := u == spareUnit g && !x.rebuilding && !x.posMap.contains u

/-- CE_CONFIG with FAIL_OUT: code, length and what R27 checks of it first. -/
def ceConfigFailOutCmd (p : CeP) : Cmd :=
  { code := 0x0803, oper := true, len := 16,
                   rsvd := p.rsvd + p.bucketSize + p.leakMs + p.rebuildShare + p.sealShare + p.failUe }

/-- CE_CONFIG with FAIL_OUT: its checks in order (R297). -/
def ceConfigFailOutChecks (p : CeP) : State → List Check :=
  fun s => [(if p.group = 0 then p.unit < 18 else p.group ≤ 4 && p.unit < 10 && s.farDies.contains (p.group - 1), .invalid, 0),
      ((s.group p.group).lost.isEmpty || (s.group p.group).idleSpare p.group p.unit, .busy, 25)]

/-- CE_CONFIG with FAIL_OUT: its effect (R297). -/
def ceConfigFailOutAct (p : CeP) : State → Nat → State × Option Ans :=
  fun s _ => (s.failOut p.group p.unit 2, some okAns)

/-- CE_CONFIG with FAIL_OUT (R297). -/
def execCeConfigFailOut (q : Req) (p : CeP) (s : State) : Host.Outcome State Fault Refusal :=
  .next (s.serve (.ceConfigFailOut q p) (ceConfigFailOutCmd p) q (ceConfigFailOutChecks p) (ceConfigFailOutAct p))

/-- CE_BUCKET_LEAK (R296): the level falls by 1. -/
def execCeBucketLeak (group unit : Nat) (s : State) : Host.Outcome State Fault Refusal :=
  let ce := s.mem.ce.upd (unitKey group unit) fun u => u.lower (u.level - 1) s.mem.bucketSize
  .next { s with mem := { s.mem with ce := ce } }

/-- STACK_TRAINING_LOST (R297): the controller did not retrain within 10 ms. -/
def execStackTrainingLost (group unit : Nat) (s : State) : Host.Outcome State Fault Refusal :=
  .next <| if group < 5 && (s.group group).ready && unit ≤ spareUnit group then s.failOut group unit 0 else s

/-! ## Rebuild and seal (R299, R300, R303) -/

/-- Rows of one unit of a group. -/
def State.groupRows (s : State) (g : Nat) : Nat := (if g = 0 then s.t1Bytes / 16 else s.chGib * 2 ^ 30) / 64

/-- STATE (Table 17.6). -/
def Group.stateCode (x : Group) : Nat :=
  if x.lost.isEmpty then 0 else if 2 ≤ x.lost.length then 3 else if x.rebuilding then 1 else 2

/-- A record of REBUILD_STATUS. -/
def State.rebuildRec (s : State) (g : Nat) : List (Nat × Nat) :=
  if g = 0 || s.populated.contains (g - 1) then
    let x := s.group g
    let pos := x.lost.headD 0
    [(2, x.stateCode), (1, b2n x.spareFree), (1, b2n x.sealed), (4, 0), (5, pos), (3, 0),
     (5, if x.lost.isEmpty then 0 else at0 x.posMap pos), (11, 0), (32, x.cursor), (32, x.sealCursor), (32, x.lostLines)]
  else [(128, 0)]

/-- REBUILD_STATUS: code, length and what R27 checks of it first. -/
def rebuildStatusCmd : Cmd :=
  { code := 0x0804, oper := true }

/-- REBUILD_STATUS: its checks in order (R300). -/
def rebuildStatusChecks : State → List Check :=
  fun _ => []

/-- REBUILD_STATUS: its effect (R300). -/
def rebuildStatusAct : State → Nat → State × Option Ans :=
  fun s _ => (s, some (okFields 80 ((List.range 5).flatMap fun g => s.rebuildRec g)))

/-- REBUILD_STATUS (R300). -/
def execRebuildStatus (q : Req) (s : State) : Host.Outcome State Fault Refusal :=
  .next (s.serve (.rebuildStatus q) rebuildStatusCmd q rebuildStatusChecks rebuildStatusAct)

/-- Tier of a group. -/
def groupTier (g : Nat) : Tier := if g = 0 then .t1 else .t2

/-- Listed lines of a group. -/
def State.groupLines (s : State) (g : Nat) : List Nat :=
  s.mem.cells.filterMap fun c =>
    let l := c.1 % 2 ^ 40
    if c.1 / 2 ^ 40 == tierCode (groupTier g) && ((s.place (groupTier g) l).map (·.group)) == some g then some l else none

/-- Lines of the extents of a group's tier that lie at a position. -/
def State.ownedAt (s : State) (g pos : Nat) : List Nat :=
  (s.part.extents.flatMap fun x => if x.2.tier == groupTier g then
      (runGranules x.2.tier x.2.first x.2.granules).flatMap fun k => (List.range 32768).map fun i => k * 32768 + i
    else []).filter fun l => ((s.place (groupTier g) l).map fun p => p.group == g && p.pos == pos).getD false

/-- The rebuild writes one line of the lost position to the spare: the reconstructed line, or poison with
CAUSE 3 (R299). -/
def State.rebuildLine (s : State) (g : Nat) (line : Nat) : State :=
  let t := groupTier g
  match s.place t line, s.refAt t line with
  | some p, some r =>
    let put := fun (s : State) (c : Cell) (d : Stored) =>
      let i := s.takeInject (unitKey g (spareUnit g)) p.row false
      i.2.putCell t line { c with err := d ^^^ i.1 }
    if !(s.group g).sealedAt p.row then s.poisonLine r 3
    else match s.candidate t line p, s.cell t line with
      | some d, some c =>
        (match s.readSteps r { c with err := d } with
          | (.data _, _) => put s c d
          | (.fail .uncorrectable, _) => put s c d
          | (.fail .integrity, _) => put s c d
          | _ => s.poisonLine r 3)
      | none, _ => s.poisonLine r 3
      | some _, none => s
  | _, _ => s

/-- Sum of the residuals of a row's data lines: what its parity line, formed now, differs by. -/
def State.rowSum (s : State) (t : Tier) (line : Nat) : Stored :=
  (rowLines t line).foldl (fun a l => match s.cell t l with | some c => a ^^^ c.residual | none => a) 0#640

/-- The parity lines of the rows of a group that a test names are formed anew from their data lines. -/
def State.reparity (s : State) (g : Nat) (test : Place → Bool) : State :=
  let t := groupTier g
  let hit := fun l => ((s.place t l).map fun p => p.group == g && test p).getD false
  let rows := s.mem.parityErr.keep fun k _ => !(k / 2 ^ 40 == tierCode t && hit (k % 2 ^ 40))
  (s.groupLines g).foldl (fun a l =>
    if hit l then
      let e := a.rowSum t l
      let m := a.mem.parityErr.set (rowKey t l) (if e = 0#640 then none else some e)
      { a with mem := { a.mem with parityErr := m } }
    else a) { s with mem := { s.mem with parityErr := rows } }

/-- REBUILD_DONE (R299, R300): the lost position's lines are on the spare, which takes the position. -/
def execRebuildDone (group : Nat) (s : State) : Host.Outcome State Fault Refusal :=
  .next <|
    let g := s.group group
    if !g.rebuilding || s.hubStopped || s.hub.phase == .activating then s
    else
      let pos := g.lost.headD 0
      let lines := if g.sealed then (s.groupLines group).filter fun l => ((s.place (groupTier group) l).map fun p => p.pos == pos).getD false
        else s.ownedAt group pos
      let s1 := lines.foldl (fun a l => a.rebuildLine group l) s
      let s2 := s1.reparity group fun p => p.parity == pos
      let s3 := s2.modGroup group fun x =>
        { x with posMap := setAt x.posMap pos (spareUnit group), lost := x.lost.drop 1, rebuilding := false, spareFree := false,
                 cursor := 0 }
      s3.logRec (.rebuildDone group (spareUnit group) pos (s.now - g.rebuildStart) (s3.group group).lostLines)

/-- SEAL_DONE (R303): every row's parity line holds the XOR of its data lines' parity values. -/
def execSealDone (group : Nat) (s : State) : Host.Outcome State Fault Refusal :=
  .next <|
    let g := s.group group
    if !g.ready || g.sealed || s.hubStopped then s
    else (s.reparity group fun _ => true).modGroup group fun x => { x with sealed := true, sealCursor := s.groupRows group }

/-! ## The poison list (R295) -/

/-- A poison entry (Table 17.3) with a LOG_LOST. -/
def Poison.fields (p : Poison) (lost : Nat) : List (Nat × Nat) :=
  [(32, p.extent), (30, p.line), (2, tierCode p.tier), (12, p.deckle), (3, p.cause), (1, 0), (16, lost), (32, 0), (64, p.raised), (64, p.phys)]

/-- Inserts an entry by tier, then by address. -/
def insertPoison (x : Poison) : List Poison → List Poison
  | [] => [x]
  | y :: r => if cellKey x.tier x.phys ≤ cellKey y.tier y.phys then x :: y :: r else y :: insertPoison x r

/-- POISON_LIST: code, length and what R27 checks of it first. -/
def poisonListCmd (p : PoisonP) : Cmd :=
  { code := 0x0805, len := 8, rsvd := p.rsvd, own := some p.deckle, names := [p.deckle] }

/-- POISON_LIST: its checks in order (R295). -/
def poisonListChecks (p : PoisonP) : State → List Check :=
  fun s => [(s.deckleExists p.deckle, .invalid, 0)]

/-- POISON_LIST: its effect (R295). -/
def poisonListAct (p : PoisonP) : State → Nat → State × Option Ans :=
  fun s _ =>
      let l := (s.mem.poison.filter fun x => x.deckle == p.deckle && (p.extent == 0 || x.extent == p.extent)).foldr insertPoison []
      (s, some { okFields 16 [(32, l.length), (1, b2n s.mem.overflow), (95, 0)] with
        area := 32 * l.length, entry := 32, content := concatBytes 32 (l.map fun x => pack (x.fields 0)) })

/-- POISON_LIST (R295). -/
def execPoisonList (q : Req) (p : PoisonP) (s : State) : Host.Outcome State Fault Refusal :=
  .next (s.serve (.poisonList q p) (poisonListCmd p) q (poisonListChecks p) (poisonListAct p))

/-! ## The integrity log (R304) -/

/-- SOURCE of a unit: stack, far die or staging die (Table 2.9). -/
def unitSource (g u : Nat) : Nat := if g = 0 then srcOf 6 u else if g = 5 then srcOf 5 u else srcOf 4 (g - 1)

/-- Raises the event of one record and enters a poisoning into the list; `lost` is the LOG_LOST an
EV_CE_STORM or EV_POISON carries. The flag: it carried it. -/
def State.raiseLog (s : State) (r : LogRec) (lost : Nat) : State × Bool :=
  match r with
  | .ceStorm g u level corrected =>
    (({ s with mem := { s.mem with stormAt := some s.now } }).raise 0x0801 .device (unitSource g u) (pack [(3, g), (5, u), (8, 0), (16, level), (48, corrected), (16, lost), (256, 0)]), true)
  | .reconstructed g u source extent line phys =>
    (s.raise 0x0802 .device (unitSource g u) (pack [(3, g), (5, u), (1, source), (23, 0), (32, extent), (30, line), (2, 0), (64, phys),
      (192, 0)]), false)
  | .poison p =>
    ((s.listPoison p).raise 0x0803 (.both p.deckle) (match s.place p.tier (p.phys / 64) with
      | some x => unitSource x.group ((s.group x.group).unitAt x.group x.pos x.stripe)
      | none => unitSource 5 (p.phys / 2 ^ 30)) (pack (p.fields lost ++ [(96, 0)])), true)
  | .stackFailed g u position cause rebuilding =>
    (s.raise 0x0804 .device (unitSource g u) (pack [(3, g), (5, u), (5, position), (2, cause), (1, b2n rebuilding), (336, 0)]), false)
  | .rebuildDone g u position duration lostLines =>
    (s.raise 0x0805 .device (unitSource g u) (pack [(3, g), (5, u), (5, position), (51, 0), (64, duration), (32, lostLines), (192, 0)]), false)

/-- INTEGRITY_LOG_DRAIN (R304): the firmware raises the records in order. -/
def execIntegrityLogDrain (s : State) : Host.Outcome State Fault Refusal :=
  .next <|
    if !s.fwRuns || !s.hub.ready then s
    else
      let x := s.mem.log.foldl (fun (a : State × Nat) r =>
        let y := a.1.raiseLog r a.2
        (y.1, if y.2 then 0 else a.2)) ({ s with mem := { s.mem with log := [] } }, s.mem.logLost)
      { x.1 with mem := { x.1.mem with logLost := x.2 } }

end Sys2Proof.Machine
end

