-- ==== Sys2Proof/Machine/Security.lean ====
section
/-! DEFINITION. Security (chapter 19): attestation, KEY_ROTATE and the sweep of a rotation, operator
debug, and the dissolving of a deckle. -/

namespace Sys2Proof.Machine

/-! ## Attestation (R336–R338) -/

/-- ATTEST: code, length and what R27 checks of it first. -/
def attestCmd (p : AttestP) (s : State) : Cmd :=
  { code := 0x0A01, len := 40, rsvd := p.rsvd + (if p.perDeckle then p.firstDeckle else p.deckle), standby := true,
                   own := if p.perDeckle then some p.deckle else none, names := if p.perDeckle then [p.deckle] else [],
                   needs := if s.sec.ready then none else some (.notReady, 0) }

/-- ATTEST: its checks in order (R336). -/
def attestChecks (q : Req) (p : AttestP) : State → List Check :=
  fun s => [(!p.perDeckle || s.deckleExists p.deckle, .invalid, 0), reportArea q]

/-- ATTEST: its effect (R336). -/
def attestAct (q : Req) (p : AttestP) : State → Nat → State × Option Ans :=
  fun s _ =>
      let r := s.report { perDeckle := if p.perDeckle then some p.deckle else none, first := p.firstDeckle, nonce := p.nonce,
                          area := q.resultLen }
      (s, some (r.answer 8 (pack [(32, r.len), (13, r.count), (19, 0)])))

/-- ATTEST (R336). -/
def execAttest (q : Req) (p : AttestP) (s : State) : Host.Outcome State Fault Refusal :=
  .next (s.serve (.attest q p) (attestCmd p s) q (attestChecks q p) (attestAct q p))

/-! ## KEY_ROTATE (R327–R331) -/

/-- KEY_ROTATE's inline result (Table 19.4). -/
def State.keyAns (s : State) (epoch : Nat) : Ans :=
  okFields 16 [(4, epoch), (28, 0), (13, s.link.trust.length), (3, 0), (16, s.board.fusedMinSec), (64, 0)]

/-- The command of an OP that the operator mailbox alone may send (R330); `bare` is what of the
parameters the OP does not take. -/
def keyCmd (p : KeyP) (bare : Nat) : Cmd :=
  { code := 0x0A02, len := 96, rsvd := p.rsvd + p.deckle + bare, own := some 0 }

/-- KEY_ROTATE with DECKLE_KEY: code, length and what R27 checks of it first. -/
def keyRotateDeckleKeyCmd (p : KeyP) (s : State) : Cmd :=
  { code := 0x0A02, len := 96, rsvd := p.rsvd + b2n p.strict + p.confirm + p.target + p.pubkey, own := some p.deckle,
                   names := [p.deckle], needs := if s.sec.ready then none else some (.notReady, 0) }

/-- KEY_ROTATE with DECKLE_KEY: its checks in order (R331). -/
def keyRotateDeckleKeyChecks (p : KeyP) : State → List Check :=
  fun s => [(s.deckleExists p.deckle, .invalid, 0),
      (((s.part.deckles.find p.deckle).map (·.sweep.isNone)).getD true, .busy, 32),
      (s.part.deckles.count (fun _ k => k.sweep.isSome) < 4, .busy, 33)]

/-- KEY_ROTATE with DECKLE_KEY: its effect (R331). -/
def keyRotateDeckleKeyAct (p : KeyP) : State → Nat → State × Option Ans :=
  fun s _ =>
      let k := s.newKey
      let old := s.keyOf p.deckle
      let e := (old.1 + 1) % 16
      let w : Sweep := { oldEpoch := old.1, oldKey := old.2, start := s.now, lines := 0 }
      (k.1.modDeckle p.deckle fun d => { d with epoch := e, key := k.2, sweep := some w }, some (s.keyAns e))

/-- KEY_ROTATE with DECKLE_KEY (R331). -/
def execKeyRotateDeckleKey (q : Req) (p : KeyP) (s : State) : Host.Outcome State Fault Refusal :=
  .next (s.serve (.keyRotateDeckleKey q p) (keyRotateDeckleKeyCmd p s) q (keyRotateDeckleKeyChecks p) (keyRotateDeckleKeyAct p))

/-- Re-encrypts one stored line of a deckle under its new key: unformed lines stay, poisoned ones stay
poisoned (R331). The flag: it was rewritten. -/
def State.sweepLine (s : State) (r : LineRef) : State × Bool :=
  match s.readLineN r with
  | (s1, .data l, _) => ((s1.writeWhole r l false { fw := true }).1, true)
  | (s1, .fail .uncorrectable, n) => if n.poisoned then (s1.storeCell r.tier r.line (s1.poisonCell r) false, true) else (s1, false)
  | (s1, _, _) => (s1, false)

/-- Listed lines of a deckle's live extents, and of deckle 0's control extent, that an older key wrote. -/
def State.oldLines (s : State) (d oldKey : Nat) : List LineRef :=
  s.mem.cells.filterMap fun c =>
    match s.refAt (tierOf (c.1 / 2 ^ 40)) (c.1 % 2 ^ 40) with
    | some r =>
      let live := ((s.part.extents.find r.extent).map fun e => e.state != .revoking).getD true
      if r.deckle = d ∧ live ∧ c.2.key = oldKey then some r else none
    | none => none

/-- Re-encrypts the zero lines of a deckle's zeroed granules (R64): how many lines. -/
def State.sweepZero (s : State) (d oldKey : Nat) : State × Nat :=
  let k := s.keyOf d
  let old := fun (g : Granule) => (g.zero.map fun z => z.deckle == d && z.key == oldKey && z.gen == g.gen && !g.retired).getD false
  let listed := fun (i : Nat) => (s.mem.cells.filter fun c => granOf c.1 == i).length
  let n := (s.part.granules.filter fun g => old g.2).foldl (fun a g => a + (32768 - listed g.1)) 0
  let m := s.part.granules.each fun _ g => if old g then { g with zero := g.zero.map fun z => { z with epoch := k.1, key := k.2 } } else g
  (State.canon { s with part := { s.part with granules := m } }, n)

/-- KEY_SWEEP_DONE (R331): every line of the deckle is under the new epoch, and the old key is destroyed.
The lines of the stores that were formed are not the manual's to say (log 44). -/
def execKeySweepDone (deckle : Nat) (s : State) : Host.Outcome State Fault Refusal :=
  .next <| match s.part.deckles.find deckle with
  | some k =>
    match k.sweep with
    | some w =>
      if s.deferStopped then s
      else
        let x := (s.oldLines deckle w.oldKey).foldl (fun (a : State × Nat) r =>
          let y := a.1.sweepLine r
          (y.1, a.2 + b2n y.2)) (s, w.lines)
        let z := x.1.sweepZero deckle w.oldKey
        let f := z.1.draw (k.storeGranules * 32768 + 1)
        let s1 := (f.2.dropKey w.oldKey).modDeckle deckle fun d => { d with sweep := none }
        (State.commitFw s s1).raise 0x0A02 (.deckle deckle) 0 (pack [(4, w.oldEpoch), (4, k.epoch), (56, 0), (64, x.2 + z.2 + f.1),
          (64, s.now - w.start), (160, 0)])
    | none => s
  | none => s

/-- KEY_ROTATE with LINK_REKEY: code, length and what R27 checks of it first. -/
def linkRekeyCmd (p : KeyP) : Cmd :=
  keyCmd p (b2n p.strict + p.confirm + p.pubkey)

/-- KEY_ROTATE with LINK_REKEY: its checks in order (R329). -/
def linkRekeyChecks : State → List Check :=
  fun _ => []

/-- KEY_ROTATE with LINK_REKEY: its effect (R329). -/
def linkRekeyAct (p : KeyP) : State → Nat → State × Option Ans :=
  fun s _ =>
      let s1 := (List.range 64).foldl (fun a i =>
        let x := a.port i
        let need := x.encrypted || a.encRequired || ((x.partner.map (·.encRequired)).getD false)
        if bitOf p.target i && x.up && need then a.startKeyx i else a) s
      (s1, some (s1.keyAns 0))

/-- KEY_ROTATE with LINK_REKEY (R329): KEYX at once on the named ports that are encrypted or required to be. -/
def execLinkRekey (q : Req) (p : KeyP) (s : State) : Host.Outcome State Fault Refusal :=
  .next (s.serve (.linkRekey q p) (linkRekeyCmd p) q linkRekeyChecks (linkRekeyAct p))

/-- KEY_ROTATE with TRUST_ADD: code, length and what R27 checks of it first. -/
def trustAddCmd (p : KeyP) : Cmd :=
  keyCmd p (b2n p.strict + p.confirm)

/-- KEY_ROTATE with TRUST_ADD: its checks in order (R329). -/
def trustAddChecks (p : KeyP) : State → List Check :=
  fun s => [(s.link.trust.has p.target || s.link.trust.length < 4096, .busy, 38)]

/-- KEY_ROTATE with TRUST_ADD: its effect (R329). -/
def trustAddAct (p : KeyP) : State → Nat → State × Option Ans :=
  fun s _ =>
      let s1 := { s with link := { s.link with trust := s.link.trust.put p.target p.pubkey } }
      (s1, some (s1.keyAns 0))

/-- KEY_ROTATE with TRUST_ADD (R329). -/
def execTrustAdd (q : Req) (p : KeyP) (s : State) : Host.Outcome State Fault Refusal :=
  .next (s.serve (.trustAdd q p) (trustAddCmd p) q (trustAddChecks p) (trustAddAct p))

/-- KEY_ROTATE with TRUST_REMOVE: code, length and what R27 checks of it first. -/
def trustRemoveCmd (p : KeyP) : Cmd :=
  keyCmd p (b2n p.strict + p.confirm + p.pubkey)

/-- KEY_ROTATE with TRUST_REMOVE: its checks in order (R329, R330). -/
def trustRemoveChecks : State → List Check :=
  fun _ => []

/-- KEY_ROTATE with TRUST_REMOVE: its effect (R329, R330). -/
def trustRemoveAct (p : KeyP) : State → Nat → State × Option Ans :=
  fun s _ =>
      let s1 := { s with link := { s.link with trust := s.link.trust.del p.target } }
      (s1, some (s1.keyAns 0))

/-- KEY_ROTATE with TRUST_REMOVE (R329, R330). -/
def execTrustRemove (q : Req) (p : KeyP) (s : State) : Host.Outcome State Fault Refusal :=
  .next (s.serve (.trustRemove q p) (trustRemoveCmd p) q trustRemoveChecks (trustRemoveAct p))

/-- KEY_ROTATE with TRUST_POLICY: code, length and what R27 checks of it first. -/
def trustPolicyCmd (p : KeyP) : Cmd :=
  keyCmd p (p.confirm + p.target + p.pubkey)

/-- KEY_ROTATE with TRUST_POLICY: its checks in order (R329). -/
def trustPolicyChecks : State → List Check :=
  fun _ => []

/-- KEY_ROTATE with TRUST_POLICY: its effect (R329). -/
def trustPolicyAct (p : KeyP) : State → Nat → State × Option Ans :=
  fun s _ =>
      let s1 := { s with link := { s.link with strict := p.strict } }
      (s1, some (s1.keyAns 0))

/-- KEY_ROTATE with TRUST_POLICY (R329). -/
def execTrustPolicy (q : Req) (p : KeyP) (s : State) : Host.Outcome State Fault Refusal :=
  .next (s.serve (.trustPolicy q p) (trustPolicyCmd p) q trustPolicyChecks (trustPolicyAct p))

/-- KEY_ROTATE with OPERATOR_KERNEL_KEY: code, length and what R27 checks of it first. -/
def operatorKernelKeyCmd (p : KeyP) : Cmd :=
  keyCmd p (b2n p.strict + p.confirm + p.target)

/-- KEY_ROTATE with OPERATOR_KERNEL_KEY: its checks in order (R328). -/
def operatorKernelKeyChecks : State → List Check :=
  fun s => [(s.part.bulk, .invalid, 0)]

/-- KEY_ROTATE with OPERATOR_KERNEL_KEY: its effect (R328). -/
def operatorKernelKeyAct (p : KeyP) : State → Nat → State × Option Ans :=
  fun s _ => ({ s with sec := { s.sec with operatorKey := some p.pubkey } }, some (s.keyAns 0))

/-- KEY_ROTATE with OPERATOR_KERNEL_KEY (R328). -/
def execOperatorKernelKey (q : Req) (p : KeyP) (s : State) : Host.Outcome State Fault Refusal :=
  .next (s.serve (.operatorKernelKey q p) (operatorKernelKeyCmd p) q operatorKernelKeyChecks (operatorKernelKeyAct p))

/-- SEC_VERSION of the running image (Table 2.1). -/
def State.runningSec (s : State) : Nat := (s.hub.running.map (·.secVersion)).getD 0

/-- KEY_ROTATE with OP RAISE_SEC: code, length and what R27 checks of it first. -/
def raiseSecCmd (p : KeyP) : Cmd := keyCmd p (b2n p.strict + p.target + p.pubkey)

/-- KEY_ROTATE with OP RAISE_SEC: its checks in order (R327). -/
def raiseSecChecks (p : KeyP) : State → List Check :=
  fun s => [(p.confirm == 0x53454356, .invalid, 0),
            (s.board.raises < 32 && s.board.fusedMinSec < s.runningSec, .busy, 34)]

/-- KEY_ROTATE with OP RAISE_SEC: its effect (R327). -/
def raiseSecAct : State → Nat → State × Option Ans :=
  fun s _ =>
    let s1 := { s with board := { s.board with fusedMinSec := s.runningSec, raises := s.board.raises + 1 } }
    (s1, some (s1.keyAns 0))

/-- KEY_ROTATE with RAISE_SEC (R327, R330). -/
def execRaiseSec (q : Req) (p : KeyP) (s : State) : Host.Outcome State Fault Refusal :=
  .next (s.serve (.raiseSec q p) (raiseSecCmd p) q (raiseSecChecks p) raiseSecAct)

/-! ## Operator debug (R332, R333) -/

/-- A session timeout: 0 for 600,000 ms, or 1,000 to 3,600,000 (Table 19.6). -/
def debugMs (t : Nat) : Option Nat := if t = 0 then some 600000 else if 1000 ≤ t ∧ t ≤ 3600000 then some t else none

/-- A session opens (R332). -/
def State.openSession (s : State) (ms : Nat) (jtag : Bool) : State :=
  let s1 := { s with sec := { s.sec with
      session := some ⟨s.now + ms * 1000000, jtag⟩, debugEver := true, jtagEver := s.sec.jtagEver || jtag,
      sessions := sat 16 (s.sec.sessions + 1) } }
  (s1.part.deckles.keys.filter (· != 0)).foldl (fun a d => a.raise 0x0A01 (.deckle d)) (s1.raise 0x0A01 .device)

/-- DEBUG_OPEN with OPEN: code, length and what R27 checks of it first. -/
def debugOpenCmd (p : DebugP) : Cmd :=
  { code := 0x0A03, oper := true, len := 32, rsvd := p.rsvd + p.space + p.tier + p.deckle + p.addr + p.len,
                   standby := true }

/-- DEBUG_OPEN with OPEN: its checks in order (R332). -/
def debugOpenChecks (p : DebugP) : State → List Check :=
  fun s => [((debugMs p.timeoutMs).isSome, .invalid, 0), (s.sec.session.isNone, .busy, 36)]

/-- DEBUG_OPEN with OPEN: its effect (R332). -/
def debugOpenAct (p : DebugP) : State → Nat → State × Option Ans :=
  fun s _ => (s.openSession ((debugMs p.timeoutMs).getD 0) false, some okAns)

/-- DEBUG_OPEN with OPEN (R332). -/
def execDebugOpen (q : Req) (p : DebugP) (s : State) : Host.Outcome State Fault Refusal :=
  .next (s.serve (.debugOpen q p) (debugOpenCmd p) q (debugOpenChecks p) (debugOpenAct p))

/-- The remainder of a message of `n` more bytes by the generator of R290: check symbols, bytes 76–79. -/
def checkSymbols (w : Nat) : Nat → List Nat → List Nat
  | 0, r => r
  | n + 1, r =>
    let k := gfMul 1 (byteOf w (75 - n)) ^^^ at0 r 0
    checkSymbols w n [at0 r 1 ^^^ gfMul k 0x0F, at0 r 2 ^^^ gfMul k 0x36, at0 r 3 ^^^ gfMul k 0x78, gfMul k 0x40]

/-- The code word whose bytes 0 to 75 are given (R290). -/
def codeWord (w : Nat) : Nat :=
  let r := checkSymbols w 76 [0, 0, 0, 0]
  w % 2 ^ 608 + 2 ^ 608 * (at0 r 0 + 256 * at0 r 1 + 65536 * at0 r 2 + 16777216 * at0 r 3)

/-- The 80 bytes stored at a line (Table 17.1, R294, R324, R325). -/
def State.storedBytes (s : State) (t : Tier) (line : Nat) : Nat :=
  match s.cell t line with
  | some c =>
    let data := if c.poisoned then 0#512 else Config.cipher c.key c.epoch (tierCode t) line c.data
    let tag := if c.poisoned then 0#64 else Config.lineTag c.key c.epoch (tierCode t) line c.deckle c.gen data
    let w := codeWord (pack [(512, data.toNat), (64, tag.toNat), (12, c.deckle), (4, c.epoch), (16, c.gen)])
    w ^^^ c.diff.toNat
  | none => if s.blankAtStart t then 0 else (Config.rawLine (tierCode t) line).toNat

/-- Bytes of a debug space: status and content (R333). CIPHERTEXT holds a record of 80 bytes per line. -/
def State.debugBytes (s : State) (p : DebugP) : State × Status × Nat :=
  if p.space = 3 then
    (s, .ok, concatBytes 80 ((List.range (cdiv p.len 80)).map fun i => s.storedBytes (tierOf p.tier) (p.addr / 64 + i)) % 2 ^ (8 * p.len))
  else if p.space = 4 then
    match s.translate p.deckle .any (lineRun p.addr (p.len / 64)) with
    | .ok refs =>
      (match s.readLines (refs.map fun r => { r with payer := some 4096 }) 0 with
        | (s1, .data _, ls) => (s1, .ok, lineNat ls)
        | (s1, .fail st, _) => (s1, st, 0)
        | (s1, _, _) => (s1, .uncorrectable, 0))
    | .fault .. => (s, .fault, 0)
    | t => (s, Trans.status t, 0)
  else (s, .ok, lineNat ((List.range (p.len / 64)).map fun i => Config.partBytes (3 + p.space) s.free (p.addr / 64 + i)))

/-- DEBUG_OPEN with READ: code, length and what R27 checks of it first. -/
def debugReadCmd (p : DebugP) : Cmd :=
  { code := 0x0A03, oper := true, len := 32, standby := true,
                   rsvd := p.rsvd + p.timeoutMs + (if p.space = 3 then 0 else p.tier) + (if p.space = 4 then 0 else p.deckle),
                   names := if p.space = 4 then [p.deckle] else [] }

/-- DEBUG_OPEN with READ: its checks in order (R333). -/
def debugReadChecks (p : DebugP) : State → List Check :=
  fun s => [(s.sec.session.isSome, .invalid, 37), (p.addr % 64 == 0, .align, 0),
      (p.space ≤ 4 && 64 ≤ p.len && p.len ≤ 1048576 && p.len % 64 == 0, .invalid, 0),
      (p.space != 3 || (p.tier ≤ 2 && p.addr / 64 + cdiv p.len 80 ≤ s.tierBytes (tierOf p.tier) / 64), .invalid, 0),
      (p.space != 4 || s.deckleExists p.deckle, .invalid, 0),
      (p.space != 4 || ((s.part.deckles.find p.deckle).map (·.operatorVisible)).getD false, .noAccess, 0)]

/-- DEBUG_OPEN with READ: its effect (R333). -/
def debugReadAct (p : DebugP) : State → Nat → State × Option Ans :=
  fun s _ =>
      match s.debugBytes p with
      | (s1, .ok, v) =>
        let s2 := if p.space < 3 then { s1 with free := s1.free + 1 } else s1
        (s2, some { status := .ok, area := p.len, entry := 64, content := v })
      | (s1, st, _) => (s1, some (Ans.of st))

/-- DEBUG_OPEN with READ (R333). -/
def execDebugRead (q : Req) (p : DebugP) (s : State) : Host.Outcome State Fault Refusal :=
  .next (s.serve (.debugRead q p) (debugReadCmd p) q (debugReadChecks p) (debugReadAct p))

/-- DEBUG_CLOSE: code, length and what R27 checks of it first. -/
def debugCloseCmd : Cmd :=
  { code := 0x0A04, oper := true, standby := true }

/-- DEBUG_CLOSE: its checks in order (R332). -/
def debugCloseChecks : State → List Check :=
  fun _ => []

/-- DEBUG_CLOSE: its effect (R332). -/
def debugCloseAct : State → Nat → State × Option Ans :=
  fun s _ => (s.closeSession, some okAns)

/-- DEBUG_CLOSE (R332). -/
def execDebugClose (q : Req) (s : State) : Host.Outcome State Fault Refusal :=
  .next (s.serve (.debugClose q) debugCloseCmd q debugCloseChecks debugCloseAct)

/-- DEBUG_SESSION_TIMEOUT (R332): TIMEOUT_MS after the opening. -/
def execDebugSessionTimeout (s : State) : Host.Outcome State Fault Refusal :=
  .next <| match s.sec.session with
  | some x => (s.reach x.deadline).closeSession
  | none => s

/-! ## Dissolving a deckle (R334, R335) -/

/-- What of a deckle's regions, maps, indexes, kernels, contexts and leases ends with stage 2. -/
def State.endTenant (s : State) (d : Nat) : State :=
  let mine := (s.rgn.regions.filter fun r => r.2.deckle == d).map Prod.fst
  let drafts := (s.rgn.drafts.filter fun x => mine.contains x.2.region).map Prod.fst
  let s1 := drafts.foldl (fun a i => a.endDraft i 2) s
  let s2 := (s1.form.maps.filter fun m => m.2.deckle == d).foldl (fun a m => a.retireMap m.1) s1
  let grant := (s2.rgn.regions.keep fun _ r => r.deckle != d).each fun _ r => { r with grantees := r.grantees.filter (· != d) }
  let s3 := { s2 with
    rgn := { s2.rgn with
      regions := grant
      handles := s2.rgn.handles.keep fun _ h => h.deckle != d && !mine.contains h.region }
    retr := { s2.retr with indexes := s2.retr.indexes.keep fun _ i => i.deckle != d }
    attn := { s2.attn with seqs := s2.attn.seqs.keep fun _ x => x.deckle != d }
    xlat := { s2.xlat with faults := s2.xlat.faults.keep fun _ f => f.deckle != d }
    eng := { s2.eng with kernels := s2.eng.kernels.each fun _ k => if k.deckle = d then { k with unloading := true } else k } }
  s3.dropKernels.checkRetention

/-- The deckle's leases end without grace: a reclaim that runs ends, held answers are discarded, and
identifiers that hold no other lease on a port that is down are freed (R26, R237, R334). -/
def State.endLeases (s : State) (d : Nat) : State :=
  let eps := (s.part.leases.filter fun l => l.1 / 4096 == d).map fun l => l.1 % 4096
  let rcs := s.part.reclaims.filter fun r => r.1 / 4096 == d
  let s1 := rcs.foldl (fun a r => a.answerOpt r.2.reply (Ans.of .revoked)) s
  let s2 := { s1 with part := { s1.part with
      leases := s1.part.leases.keep fun k _ => k / 4096 != d
      reclaims := s1.part.reclaims.keep fun k _ => k / 4096 != d } }
  eps.foldl (fun a e => a.freeIfIdle e) (s2.discardHeld fun d' _ => d' == d)

/-- DECKLE_DISSOLVE: code, length and what R27 checks of it first. -/
def deckleDissolveCmd (p : DeckleP) : Cmd :=
  { code := 0x0102, oper := true, len := 8, rsvd := p.rsvd, names := [p.deckle] }

/-- DECKLE_DISSOLVE: its checks in order (R334). -/
def deckleDissolveChecks (p : DeckleP) : State → List Check :=
  fun s => [(p.deckle != 0 && s.deckleExists p.deckle, .invalid, 0)]

/-- DECKLE_DISSOLVE: its effect (R334). -/
def deckleDissolveAct (p : DeckleP) : State → Nat → State × Option Ans :=
  fun s r =>
      let d := p.deckle
      let exts := s.part.extents.filter fun x => x.2.deckle == d
      let bytes := (s.used d .t1 + s.used d .t2 + s.used d .staging) * 2 ^ 21
      let x : Dissolve := { reply := r, start := s.now, stopped := 0, extents := exts.length, bytes := bytes }
      let s1 := s.modDeckle d fun k => { k with dissolving := some x }
      let a := s1.stopItems (fun w => w.deckle == d) .revoked
      let b := a.1.stopChains (fun k => k.deckle == d) none .revoked
      let s2 := (exts.map Prod.fst).foldl (fun a i => a.revokeExtent i 2 1000 none) b.1
      let s3 := (s2.lodesDown (fun _ l => l.deckle == d) 2 0).endTenant d
      ((s3.endLeases d).modDeckle d fun k => { k with dissolving := some { x with stopped := a.2 + b.2 } }, none)

/-- DECKLE_DISSOLVE (R334): stages 1 and 2. -/
def execDeckleDissolve (q : Req) (p : DeckleP) (s : State) : Host.Outcome State Fault Refusal :=
  .next (s.serve (.deckleDissolve q p) (deckleDissolveCmd p) q (deckleDissolveChecks p) (deckleDissolveAct p))

/-- The deckle's drains have ended: no extent, no item and no chain of it is left. -/
def State.drained (s : State) (d : Nat) : Bool :=
  !(s.part.extents.any fun x => x.2.deckle == d) && !(s.eng.work.any fun w => w.2.deckle == d) &&
  !(s.couch.chans.any fun c => (c.2.cur.map fun k => k.deckle == d).getD false || c.2.queue.any fun k => k.deckle == d)

/-- DISSOLVE_COMPLETE (R334): the key goes, the identifier is FREE, and the command is answered. Under a
wedge it waits for the restart (R335). -/
def execDissolveComplete (deckle : Nat) (s : State) : Host.Outcome State Fault Refusal :=
  .next <| match s.part.deckles.find deckle with
  | some k =>
    match k.dissolving with
    | some x =>
      if !s.drained deckle || s.hubStopped then s
      else
        let s1 := (k.store ++ k.ctxStore).foldl (fun a r => a.retireRun .t1 r.1 r.2 false) s
        let s2 := (s1.dropKey k.key).dropKey ((k.sweep.map (·.oldKey)).getD 0)
        let late := (s2.mbx.outst.filter fun o => o.2.box == deckle).map Prod.fst
        let s3 := late.foldl (fun a r => a.answer r (Ans.of .revoked)) s2
        let res := [(64, x.bytes), (32, x.extents), (32, x.stopped), (32, sat 32 ((s.now - x.start) / 1000)), (32, 0)]
        let s4 := s3.raise 0x0101 (.both deckle) 0 (pack res)
        let s5 := { s4 with
          part := { s4.part with deckles := s4.part.deckles.del deckle }
          lode := { s4.lode with lodes := s4.lode.lodes.keep fun _ l => l.deckle != deckle }
          mbx := { s4.mbx with evEp := s4.mbx.evEp.del deckle, rings := s4.mbx.rings.del deckle }
          eng := { s4.eng with kernels := s4.eng.kernels.keep fun _ k => k.deckle != deckle } }
        State.settle s (s5.dropTlb deckle) (some x.reply) (okFields 24 res)
    | none => s
  | none => s

end Sys2Proof.Machine
end

