-- ==== Sys2Proof/Machine/Package.lean ====
section
/-! DEFINITION. Package and bring-up (chapter 20): resets, trips, readiness, the I3C sideband, the
IEEE 1149.1 port and the VSET bus. -/

namespace Sys2Proof.Machine

/-! ## Resets (R345) -/

/-- A reset is asserted. -/
def State.inReset (s : State) : Bool := s.pkg.coldLow || s.pkg.warmLow

/-- COLD_RESET (R345): everything is reset and the trip latches clear. The trip record survives one cold
reset with PG_AON asserted, which then reports RESET_CAUSE 3. -/
def execColdReset (pgAonLost : Bool) (s : State) : Host.Outcome State Fault Refusal :=
  let k := s.pkg
  let keep := !pgAonLost && (k.recThermal || k.recSupply) && !k.recKept
  let w := s.wiped
  .next { w with
    hub := { w.hub with resetCause := if keep then 3 else 0 }
    pkg := { w.pkg with recThermal := keep && k.recThermal, recSupply := keep && k.recSupply, recKept := keep } }

/-- COLD_RESET_RELEASE (R353). -/
def execColdResetRelease (s : State) : Host.Outcome State Fault Refusal :=
  .next <| if s.pkg.coldLow then { s with pkg := { s.pkg with coldLow := false, releasedAt := s.now } } else s

/-- WARM_RESET (R345): a cold reset that is asserted applies instead, and a trip's power-down proceeds. -/
def execWarmReset (s : State) : Host.Outcome State Fault Refusal :=
  .next <|
    if s.pkg.coldLow || s.pkg.tripped then s
    else
      let w := s.warmed 1
      { w with pkg := { w.pkg with warmLow := true } }

/-- WARM_RESET_RELEASE (R353). -/
def execWarmResetRelease (s : State) : Host.Outcome State Fault Refusal :=
  .next <| if s.pkg.warmLow then { s with pkg := { s.pkg with warmLow := false, releasedAt := s.now } } else s

/-! ## Trips (R347) -/

/-- The orderly power-down (Table 20.8): packets not yet sent are dropped, EV_TRIP is raised and the keys
are destroyed. The ports keep their keys for EV_TRIP's flit (log 45). -/
def State.trip (s : State) (thermal : Bool) (cause sensor rail value : Nat) : State :=
  let k := { s.pkg with tripped := true, thermTrip := true, recThermal := thermal, recSupply := !thermal, recKept := false }
  let quiet := s.link.ports.each fun _ x => { x with txq := [], bq := [] }
  let s1 := State.setPhase { s with pkg := k, link := { s.link with ports := quiet } } .poweringDown
  let s2 := s1.raiseBr 0xFF02 0x03 (pack [(2, cause), (6, 0), (7, sensor), (1, 0), (4, rail), (12, 0), (16, value), (16, 0), (64, s.dom),
    (224, 0)])
  let sec := { s2.sec with keys := [], pairKey := false, ready := false, session := none }
  { s2 with sec := sec }

/-- THERMAL_TRIP (R347): a sensor reads 115 °C or above. -/
def execThermalTrip (sensor value : Nat) (s : State) : Host.Outcome State Fault Refusal :=
  let s1 := { s with pkg := { s.pkg with sensors := setAt s.pkg.sensors sensor value } }
  .next <| if value < 920 || 96 ≤ sensor || s.pkg.tripped || s.pkg.coldLow then s1 else s1.trip true 0 sensor 0 value

/-- SUPPLY_TRIP (R347): a rail out of range, a PG input or VSET_ALERT_N; PG inputs are ignored while
COLD_RST_N is low (R345). -/
def execSupplyTrip (cause rail value : Nat) (s : State) : Host.Outcome State Fault Refusal :=
  .next <| if cause = 0 || 3 < cause || s.pkg.tripped || s.pkg.coldLow then s else s.trip false cause 0 rail value

/-! ## Readiness (R353, R354) -/

/-- PLL_LOCK: the PLLs lock and domain time counts from 0. -/
def execPllLock (s : State) : Host.Outcome State Fault Refusal :=
  .next <| if s.inReset || s.laid.counting then s
    else { s with pkg := { s.pkg with pll := true }, laid := { s.laid with counting := true } }

/-- STAGING_READY: staging SRAM is filled with blank lines (R303). -/
def execStagingReady (s : State) : Host.Outcome State Fault Refusal :=
  .next <| if s.inReset || s.hub.stagingReady then s
    else State.announce { s with hub := { s.hub with stagingReady := true } } 6 0

/-- BEDROCK_READY: the bedrock controller and I3C. -/
def execBedrockReady (s : State) : Host.Outcome State Fault Refusal :=
  .next <| if s.inReset || s.hub.bedrockReady then s
    else State.announce { s with hub := { s.hub with bedrockReady := true } } 0 0

/-- HUB_READY (R354). -/
def execHubReady (s : State) : Host.Outcome State Fault Refusal :=
  .next <| if !s.fwRuns || s.hub.ready then s
    else (State.raiseReady { s with hub := { s.hub with ready := true } }).pumpRings

/-- SECURITY_READY (R353, R232): KEYX that waited starts. A zeroised block is not ready until a reset. -/
def execSecurityReady (s : State) : Host.Outcome State Fault Refusal :=
  .next <| if s.hub.running.isNone || s.sec.ready || s.hub.phase == .zeroised || s.pkg.tripped then s
    else (State.announce { s with sec := { s.sec with ready := true } } 3 0).keyPorts

/-- CORE_READY: the core passed its self-test. -/
def execCoreReady (core : Nat) (s : State) : Host.Outcome State Fault Refusal :=
  .next <| if s.hub.running.isNone || 32 ≤ core || (s.core core).ready || s.pkg.tripped then s
    else (s.modCore core fun k => { k with ready := true }).announce 4 core

/-- A group comes into service: with one unit of its positions untrained it is failed out with CAUSE 0, a
spare that did not train is not available, and under FILL_AT_START it is sealed (R303, R353). -/
def State.groupReady (s : State) (g fn index : Nat) (untrained : List Nat) : State :=
  let sp := spareUnit g
  let bad := (untrained.filter fun u => u < sp).eraseDups
  let filled := s.hub.fillAtStart
  let s1 := s.modGroup g fun x => { x with
    ready := true, sealed := filled, sealCursor := if filled then s.groupRows g else 0
    spareFree := x.spareFree && !untrained.contains sp
    failed := if untrained.contains sp then sp :: x.failed else x.failed }
  let s2 := match bad with
    | u :: _ => s1.failOut g u 0
    | [] => s1
  s2.announce fn index bad.head? filled

/-- Positions of a group whose unit did not train. -/
def lostUnits (g : Nat) (untrained : List Nat) : Nat := ((untrained.filter fun u => u < spareUnit g).eraseDups).length

/-- TIER1_READY (R353): a group that misses two positions never becomes ready. -/
def execTier1Ready (untrained : List Nat) (s : State) : Host.Outcome State Fault Refusal :=
  .next <| if s.hub.running.isNone || (s.group 0).ready || 2 ≤ lostUnits 0 untrained || s.pkg.tripped then s
    else s.groupReady 0 5 0 untrained

/-- Far memory follows R41 on a die: modules, part and capacity as on every populated die. -/
def State.farLegal (s : State) (d : Nat) : Bool :=
  match s.board.far[d]? with
  | some x =>
    x.populated && (x.modules == 1 || x.modules == 2) && x.mt8800 &&
      (x.chGib == 128 || x.chGib == 256 || x.chGib == 512 || x.chGib == 1024) &&
      s.populated.all fun i => ((s.board.far[i]?).map fun y => y.modules == x.modules && y.part == x.part && y.chGib == x.chGib).getD true
  | none => false

/-- FAR_DIE_READY (R41, R353): the die is checked against the population rules; one that breaks them or
misses two positions is not trained and raises nothing. -/
def execFarDieReady (die : Nat) (untrained : List Nat) (s : State) : Host.Outcome State Fault Refusal :=
  .next <|
    if s.hub.running.isNone || !s.populated.contains die || (s.group (die + 1)).ready || s.mem.farFailed.contains die || s.pkg.tripped then s
    else if !s.farLegal die || 2 ≤ lostUnits (die + 1) untrained then
      { s with mem := { s.mem with farFailed := s.mem.farFailed ++ [die] } }
    else s.groupReady (die + 1) 7 die untrained

/-! ## I3C (R350) -/

/-- I3C_PRIVATE_READ: the oldest waiting response, with its in-band interrupt taken, or a NACK. -/
def execI3cPrivateRead (s : State) : Host.Outcome State Fault Refusal :=
  .next <| match s.mbx.i3c with
  | r :: l =>
    { s with mbx := { s.mbx with i3c := l, ibi := s.mbx.ibi.erase 0x01 }, pkg := { s.pkg with i3cRead := some r } }
  | [] => { s with pkg := { s.pkg with i3cRead := none } }

/-- SETDASA: assigns the dynamic address. -/
def execSetdasa (addr : Nat) (s : State) : Host.Outcome State Fault Refusal :=
  .next <| if s.hub.bedrockReady then { s with pkg := { s.pkg with i3cAddr := some (addr % 128) } } else s

/-! ## IEEE 1149.1 (R351) -/

/-- Selects a TAP instruction: what it drives, and what its data register captures. -/
def State.tap (s : State) (i : TapIr) (driving hiZ : Bool) (len value : Nat) : State :=
  { s with pkg := { s.pkg with ir := i, driving := driving, hiZ := hiZ, capture := (len, value) } }

/-- The bypass register: 1 bit. -/
def State.tapBypass (s : State) (i : TapIr) (driving hiZ : Bool) : State := s.tap i driving hiZ 1 0

/-- TAP_RESET: Test-Logic-Reset selects IDCODE. -/
def execTapReset (s : State) : Host.Outcome State Fault Refusal := .next (s.tap .idcode false false 32 0x29640A63)

/-- IDCODE. -/
def execIdcode (s : State) : Host.Outcome State Fault Refusal := .next (s.tap .idcode false false 32 0x29640A63)

/-- BYPASS. -/
def execBypass (s : State) : Host.Outcome State Fault Refusal := .next (s.tapBypass .bypass false false)

/-- EXTEST: the boundary register drives; accepted only while HEALTH_OK is low. What the pins sample to is
open (log 8). -/
def execExtest (s : State) : Host.Outcome State Fault Refusal :=
  .next <|
    if s.pkg.healthOk then s.tapBypass .bypass false false
    else
      let x := { s with free := s.free + 1 }
      x.tap .extest true false 0 (Config.freeNat s.free)

/-- SAMPLE/PRELOAD: the pins are sampled, and the boundary register takes what is shifted in. -/
def execSamplePreload (shiftIn : Nat) (s : State) : Host.Outcome State Fault Refusal :=
  .next <|
    let x := { s with free := s.free + 1, pkg := { s.pkg with boundary := shiftIn } }
    x.tap .samplePreload false false 0 (Config.freeNat s.free)

/-- CLAMP: accepted only while HEALTH_OK is low. -/
def execClamp (s : State) : Host.Outcome State Fault Refusal :=
  .next (if s.pkg.healthOk then s.tapBypass .bypass false false else s.tapBypass .clamp true false)

/-- HIGHZ. -/
def execHighz (s : State) : Host.Outcome State Fault Refusal := .next (s.tapBypass .highz false true)

/-- Status of DBG_OPEN (R332, Table 19.6). -/
def State.dbgStatus (s : State) (ms : Nat) : Status :=
  if !s.fwRuns || !s.hub.ready then .notReady
  else if (debugMs ms).isNone then .invalid
  else if s.sec.session.isSome then .busy
  else .ok

/-- DBG_OPEN (R332): opens a session through the TAP and captures the status. -/
def execDbgOpen (timeoutMs : Nat) (s : State) : Host.Outcome State Fault Refusal :=
  .next <|
    let st := s.dbgStatus timeoutMs
    let s1 := if st = .ok then s.openSession ((debugMs timeoutMs).getD 0) true else s
    s1.tap .dbgOpen false false 32 (statusCode st)

/-- DBG_CLOSE (R332): closes the session and captures the status (log 46). -/
def execDbgClose (s : State) : Host.Outcome State Fault Refusal :=
  .next (s.closeSession.tap .dbgClose false false 8 (statusCode (if !s.fwRuns || !s.hub.ready then .notReady else .ok)))

/-- DBG_MBX (R351): the request shifted in is the operator mailbox's next, and the response to the
previous one is captured. -/
def execDbgMbx (c : Instr) (s : State) : Host.Outcome State Fault Refusal :=
  let s1 := s.tap .dbgMbx false false 2048 0
  .next { s1 with pkg := { s1.pkg with tapReq := some c, tapOut := s.pkg.tapRsp, tapRsp := none } }

/-! ## VSET (R342) -/

/-- Voltage of a clock step in mV (Table 20.4) with the part's offset and the 30 mV margin, in 5 mV steps. -/
def State.stepMv (s : State) (mhz : Nat) : Nat :=
  (if mhz ≥ 600 then 600 else if mhz ≥ 525 then 580 else if mhz ≥ 450 then 560 else if mhz ≥ 375 then 540
    else if mhz ≥ 300 then 520 else if mhz ≥ 225 then 510 else 500) + cdiv s.board.coreOffsetMv 5 * 5 + 30

/-- VSET_ACK (R342): the rail of a core die takes its setting, and the cores that waited for it rise. -/
def execVsetAck (die : Nat) (s : State) : Host.Outcome State Fault Refusal :=
  .next <| match s.pkg.vsetWait.find die with
  | some mv =>
    let s1 := { s with pkg := { s.pkg with vddEng := setAt s.pkg.vddEng die mv, vsetWait := s.pkg.vsetWait.del die } }
    (List.range 4).foldl (fun a i =>
      let c := die * 4 + i
      match (a.core c).clockTarget with
      | some f => if a.stepMv f ≤ mv then a.modCore c fun k => { k with clock := f, clockTarget := none } else a
      | none => a) s1
  | none => s

end Sys2Proof.Machine
end

