-- ==== Sys2Proof/Machine/LaidOps.lean ====
section
/-! DEFINITION. Laid tables as the power loop and the executor see them: wire length and bound
(R284, R286), slot times (R282), reservations (R285), shedding (R275), slips (R287) and the
standing conditions of R288. Times are domain times in units of 2^-16 ns. -/

namespace Sys2Proof.Machine

/-! ## Rates and bounds -/

/-- Payload rate of a width in units of 10 MB/s (Table 13.1). -/
def payloadRate (width : Nat) : Nat :=
  if width ≥ 8 then 18500 else if width ≥ 4 then 9250 else if width ≥ 2 then 4625 else 2310

/-- Wire length of `n` bytes in packets of up to 4,096 (R284). -/
def wireLen (n : Nat) : Nat := n + 48 * cdiv n 4096

/-- Time `w` wire bytes take at a width, in 2^-16 ns. -/
def wireTime (w width : Nat) : Nat := w * 100 * 65536 / payloadRate width

/-- Nanoseconds as the domain time counts them. -/
def nsTime (n : Nat) : Nat := n * 65536

/-- Width of a port at load (R284). -/
def LaidTable.widthOf (t : LaidTable) (p : Nat) : Nat := ((t.widths.find? fun x => x.1 == p).map (·.2)).getD 8

/-- Time from a slot to its bound (R286). -/
def LaidTable.boundOf (t : LaidTable) (e : LaidEntry) : Nat :=
  nsTime (180 + e.slack) + wireTime (wireLen e.length) (t.widthOf e.port)

/-- Length of a cycle in ns. -/
def LaidTable.cycleNs (t : LaidTable) : Nat := t.cycle * 8

/-- Start of cycle `k` in ns. -/
def LaidTable.cycleStart (t : LaidTable) (k : Nat) : Nat := t.start + k * t.cycleNs

/-- Domain time in ns of an entry's slot in the running cycle (R282). -/
def LaidTable.slotNs (t : LaidTable) (e : LaidEntry) : Nat := t.cycleStart t.cycles + e.offset * 8

/-- The lead of R282 in ns. -/
def LaidTable.leadNs (t : LaidTable) : Nat := 1000 + t.refLen * 8

/-! ## Tables and run states -/

/-- The run state an entry begins with. -/
def LaidRun.fresh : LaidRun where
  degraded := none
  shed := false
  shedCap := false
  removed := false
  lastReason := 0
  slips := 0
  slipRun := 0
  okRun := 0
  lastLate := 0
  lastSlip := 0
  onTime := 0
  done := false
  slipped := false
  left := none
  lead := false

/-- A table slot. -/
def State.laidSlotTable (s : State) (slot : Nat) : Option LaidTable := s.laid.tables.find slot

/-- The active slot with its table. -/
def State.activeTable (s : State) : Option (Nat × LaidTable) :=
  s.laid.active.bind fun i => (s.laid.tables.find i).map fun t => (i, t)

/-- Changes a table. -/
def State.modTable (s : State) (slot : Nat) (f : LaidTable → LaidTable) : State :=
  { s with laid := { s.laid with tables := s.laid.tables.upd slot f } }

/-- Run state of an entry. -/
def LaidTable.runOf (t : LaidTable) (i : Nat) : LaidRun := t.run.getD i LaidRun.fresh

/-- Changes the run state of an entry. -/
def State.modEntry (s : State) (slot i : Nat) (f : LaidRun → LaidRun) : State :=
  s.modTable slot fun t => { t with run := modAt t.run i f }

/-! ## Reservations (R272, R285) -/

/-- A shed entry resumes at the next cycle boundary: neither an emergency nor a cap holds it (R275). -/
def State.resuming (s : State) (r : LaidRun) : Bool := r.shed && !r.shedCap && s.cal.emergency.isNone

/-- The entry's reservation counts. -/
def State.reserves (s : State) (r : LaidRun) : Bool := !r.removed && (!r.shed || s.resuming r)

/-- Power reservation of a table in mW: the energy per cycle of the entries that count, over the cycle. -/
def State.tableMw (s : State) (t : LaidTable) : Nat :=
  cdiv (((t.pjs.zip t.run).map fun x => if s.reserves x.2 then x.1 else 0).foldl (· + ·) 0) t.cycleNs

/-- Slots whose reservations count: the active and the pending one (R285). -/
def State.laidSlots (s : State) : List Nat := s.laid.active.toList ++ s.laid.pendSlot.toList

/-- P_laid in mW: the larger of the two tables' reservations (R285). -/
def State.laidMw (s : State) : Nat :=
  (s.laidSlots.map fun i => ((s.laid.tables.find i).map s.tableMw).getD 0).foldl max 0

/-- The POWER_CAP last accepted (R273). -/
def State.capSet (s : State) : Nat := s.cal.capNext.getD s.cal.capW

/-- A reservation in mW fits a budget in W beside the static power. -/
def State.fits (s : State) (budgetMw mw : Nat) : Bool := mw + s.cal.staticW * 1000 ≤ budgetMw

/-! ## LAID_DEGRADED (R288) -/

/-- An entry enters LAID_DEGRADED, which raises its event once. -/
def State.degrade (s : State) (slot i reason : Nat) : State :=
  match s.laid.tables.find slot with
  | none => s
  | some t =>
    match t.entries[i]? with
    | none => s
    | some e =>
      if (t.runOf i).degraded.isSome then s
      else (s.modEntry slot i fun r => { r with degraded := some (reason, s.dom), okRun := 0 }).raise 0x0702 .device (srcOf 3 (e.port / 16))
        (pack [(32, e.id), (6, e.port), (4, reason), (22, 0), (64, s.dom)])

/-! ## Shedding (R275) -/

/-- The first of two entries is shed before the second: lower priority, then higher port, then later
offset. -/
def LaidEntry.before (a b : LaidEntry) : Bool :=
  a.shedPrio < b.shedPrio || (a.shedPrio == b.shedPrio && (b.port < a.port || (a.port == b.port && b.offset < a.offset)))

/-- The entry among those a test accepts that comes first in an order. -/
def pickEntry (ok : LaidRun → Bool) (first : LaidEntry → LaidEntry → Bool) (t : LaidTable) : Option Nat :=
  ((t.entries.zip t.run).zip (List.range t.entries.length)).foldl (fun a x =>
    if !ok x.1.2 then a
    else match a with
      | none => some (x.1.1, x.2)
      | some y => if first x.1.1 y.1 then some (x.1.1, x.2) else some y) none |>.map (·.2)

/-- Sheds one table's entries until its reservation fits a budget in mW; how many were shed. -/
def State.shedTable (s : State) (slot budgetMw : Nat) (cap : Bool) : Nat → State × Nat
  | 0 => (s, 0)
  | fuel + 1 =>
    match s.laid.tables.find slot with
    | none => (s, 0)
    | some t =>
      if s.fits budgetMw (s.tableMw t) then (s, 0)
      else match pickEntry (fun r => s.reserves r) LaidEntry.before t with
        | none => (s, 0)
        | some i =>
          let s1 := (s.modEntry slot i fun r => { r with shed := true, shedCap := cap }).degrade slot i 9
          let x := State.shedTable s1 slot budgetMw cap fuel
          (x.1, x.2 + 1)

/-- Sheds entries of the active and the pending table until the reservation fits. -/
def State.shedLaid (s : State) (budgetMw : Nat) (cap : Bool) : State × Nat :=
  s.laidSlots.foldl (fun a i =>
    let x := a.1.shedTable i budgetMw cap (((s.laid.tables.find i).map fun t => t.entries.length).getD 0)
    (x.1, a.2 + x.2)) (s, 0)

/-- Entries a forced cap shed resume while a later cap has room, the last shed first. -/
def State.unshedTable (s : State) (slot budgetMw : Nat) : Nat → State
  | 0 => s
  | fuel + 1 =>
    match s.laid.tables.find slot with
    | none => s
    | some t =>
      match pickEntry (fun r => r.shed && r.shedCap && !r.removed) (fun a b => LaidEntry.before b a) t with
      | none => s
      | some i =>
        let s1 := s.modEntry slot i fun r => { r with shedCap := false }
        if s1.fits budgetMw s1.laidMw then State.unshedTable s1 slot budgetMw fuel else s

/-- A later POWER_CAP restores room (R275). -/
def State.unshedLaid (s : State) (budgetMw : Nat) : State :=
  s.laidSlots.foldl (fun a i => a.unshedTable i budgetMw (((s.laid.tables.find i).map fun t => t.entries.length).getD 0)) s

end Sys2Proof.Machine
end

