-- ==== Sys2Proof/Machine/Calender.lean ====
section
/-! DEFINITION. The Calender (chapter 15): queue mapping and weights, shapers and policers, energy
buckets and their queue, the energy ledger, the power loop and emergencies, the thermal loop. -/

namespace Sys2Proof.Machine

/-! ## QUEUE_MAP (R262) -/

/-- QUEUE_MAP MAP: code, length and what R27 checks of it first. -/
def queueMapMapCmd (p : QueueMapP) : Cmd :=
  { code := 0x0601, oper := true, len := 16, rsvd := p.rsvd + p.weight, names := [p.deckle] }

/-- QUEUE_MAP MAP: its checks in order (Table 15.1, R262). -/
def queueMapMapChecks (p : QueueMapP) : State → List Check :=
  fun s => [(p.queue < 60 && p.classMask < 256 && s.deckleExists p.deckle, .invalid, 0)]

/-- QUEUE_MAP MAP: its effect (Table 15.1, R262). -/
def queueMapMapAct (p : QueueMapP) : State → Nat → State × Option Ans :=
  fun s _ =>
      (s.modDeckle p.deckle fun k =>
        { k with classMap := (List.range 8).map fun i => if p.classMask.testBit i then p.queue else k.classMap.getD i (4 + i) },
        some okAns)

/-- QUEUE_MAP MAP (Table 15.1, R262). -/
def execQueueMapMap (q : Req) (p : QueueMapP) (s : State) : Host.Outcome State Fault Refusal :=
  .next (s.serve (.queueMapMap q p) (queueMapMapCmd p) q (queueMapMapChecks p) (queueMapMapAct p))

/-- QUEUE_MAP WEIGHT: code, length and what R27 checks of it first. -/
def queueMapWeightCmd (p : QueueMapP) : Cmd :=
  { code := 0x0601, oper := true, len := 16, rsvd := p.rsvd + p.deckle + p.classMask }

/-- QUEUE_MAP WEIGHT: its checks in order (Table 15.1, R262). -/
def queueMapWeightChecks (p : QueueMapP) : State → List Check :=
  fun _ => [(4 ≤ p.queue && p.queue < 60 && 1 ≤ p.weight && p.weight < 1024, .invalid, 0)]

/-- QUEUE_MAP WEIGHT: its effect (Table 15.1, R262). -/
def queueMapWeightAct (p : QueueMapP) : State → Nat → State × Option Ans :=
  fun s _ =>
      let w := s.cal.weights.set p.queue (if p.weight = 64 then none else some p.weight)
      ({ s with cal := { s.cal with weights := w } }, some okAns)

/-- QUEUE_MAP WEIGHT (Table 15.1, R262). Weight 64 is the value after reset. -/
def execQueueMapWeight (q : Req) (p : QueueMapP) (s : State) : Host.Outcome State Fault Refusal :=
  .next (s.serve (.queueMapWeight q p) (queueMapWeightCmd p) q (queueMapWeightChecks p) (queueMapWeightAct p))

/-! ## SHAPER_SET and POLICER_SET (R264, R265) -/

/-- Every field lies in its range (Table 15.2). -/
def State.bucketOk (s : State) (p : BucketP) : Bool :=
  let top := if p.targetDeckle then 11840000 else 185000
  let place := if p.targetDeckle then !p.allPorts && p.port == 0 && p.queue == 0 && s.deckleExists p.deckle
    else p.deckle == 0 && p.queue < 60 && p.port < 64 && (!p.allPorts || p.port == 0)
  place && p.cir ≤ p.pir && p.pir ≤ top && 4096 ≤ p.cbs && p.cbs ≤ 67108864 && 4096 ≤ p.pbs && p.pbs ≤ 67108864

/-- The pair a command sets, its tokens zero or full. -/
def bucketOf (p : BucketP) (now : Nat) : Bucket where
  enable := p.enable
  cir := p.cir
  pir := p.pir
  cbs := p.cbs
  pbs := p.pbs
  ctok := if p.resetFill then p.cbs * 1000 else 0
  ptok := if p.resetFill then p.pbs * 1000 else 0
  last := now
  resetFill := p.resetFill

/-- Keys of the (port, queue) pairs a command sets. -/
def bucketKeys (p : BucketP) : List Nat :=
  if p.allPorts then (List.range 64).map fun i => pqKey i p.queue else [pqKey p.port p.queue]

/-- The command of SHAPER_SET and POLICER_SET. -/
def bucketCmd (code : Nat) (p : BucketP) : Cmd :=
  { code := code, oper := true, len := 32, rsvd := p.rsvd, names := if p.targetDeckle then [p.deckle] else [] }

/-- SHAPER_SET.: code, length and what R27 checks of it first. -/
def shaperSetCmd (p : BucketP) : Cmd :=
  bucketCmd 0x0602 p

/-- SHAPER_SET.: its checks in order. -/
def shaperSetChecks (p : BucketP) : State → List Check :=
  fun s => [(s.bucketOk p, .invalid, 0)]

/-- SHAPER_SET.: its effect. -/
def shaperSetAct (p : BucketP) : State → Nat → State × Option Ans :=
  fun s _ =>
      let b := bucketOf p s.now
      (if p.targetDeckle then s.modDeckle p.deckle fun k => { k with shaper := b }
        else { s with cal := { s.cal with shapers := (bucketKeys p).foldl (fun a k => a.put k b) s.cal.shapers } }, some okAns)

/-- SHAPER_SET. -/
def execShaperSet (q : Req) (p : BucketP) (s : State) : Host.Outcome State Fault Refusal :=
  .next (s.serve (.shaperSet q p) (shaperSetCmd p) q (shaperSetChecks p) (shaperSetAct p))

/-- POLICER_SET.: code, length and what R27 checks of it first. -/
def policerSetCmd (p : BucketP) : Cmd :=
  bucketCmd 0x0603 p

/-- POLICER_SET.: its checks in order. -/
def policerSetChecks (p : BucketP) : State → List Check :=
  fun s => [(s.bucketOk p, .invalid, 0), (p.targetDeckle || p.enable || s.part.bulk, .invalid, 20)]

/-- POLICER_SET.: its effect. -/
def policerSetAct (p : BucketP) : State → Nat → State × Option Ans :=
  fun s _ =>
      let b := bucketOf p s.now
      (if p.targetDeckle then s.modDeckle p.deckle fun k => { k with policer := b }
        else { s with cal := { s.cal with policers := (bucketKeys p).foldl (fun a k => a.put k b) s.cal.policers } }, some okAns)

/-- POLICER_SET. -/
def execPolicerSet (q : Req) (p : BucketP) (s : State) : Host.Outcome State Fault Refusal :=
  .next (s.serve (.policerSet q p) (policerSetCmd p) q (policerSetChecks p) (policerSetAct p))

/-! ## Energy buckets (R268, R269) -/

/-- An item that waited for energy is admitted with a colour: it queues for its engines. -/
def State.admitWaiting (s : State) (w : Nat) (yellow : Bool) : State :=
  (s.modWork w fun x => { x with state := .queued, yellow := yellow, queue := if yellow then 60 else x.queue }).pumpAttn

/-- ENERGY_QUEUE_RELEASE (R269): the head of the deckle's energy queue is coloured again. -/
def execEnergyQueueRelease (deckle : Nat) (s : State) : Host.Outcome State Fault Refusal :=
  .next <| match s.energyWaiting deckle with
  | [] => s
  | w :: _ =>
    match s.eng.work.find w with
    | none => s
    | some x =>
      let b := (s.energy deckle).accrue s.now
      match b.colour x.est with
      | .red => s.modDeckle deckle fun k => { k with energy := b }
      | c => (s.modDeckle deckle fun k => { k with energy := b.take c x.est }).admitWaiting w (c == .yellow)

/-- ENERGY_SET: code, length and what R27 checks of it first. -/
def energySetCmd (p : EnergyP) : Cmd :=
  { code := 0x0604, oper := true, len := 32, rsvd := p.rsvd, names := [p.deckle] }

/-- ENERGY_SET: its checks in order (Table 15.4, R268). -/
def energySetChecks (p : EnergyP) : State → List Check :=
  fun s => [(s.deckleExists p.deckle && p.queueLimit ≤ 4096 && p.cerMw ≤ p.perMw && p.perMw ≤ 1400000 &&
      1000 ≤ p.cebUj && p.cebUj ≤ 4000000000 && 1000 ≤ p.pebUj && p.pebUj ≤ 4000000000, .invalid, 0)]

/-- ENERGY_SET: its effect (Table 15.4, R268). -/
def energySetAct (p : EnergyP) : State → Nat → State × Option Ans :=
  fun s _ =>
      let b : EnergyB := {
        enable := p.enable, cer := p.cerMw, per := p.perMw, ceb := p.cebUj, peb := p.pebUj, queueLimit := p.queueLimit
        ctok := if p.resetFill then p.cebUj * 1000000 else 0
        ptok := if p.resetFill then p.pebUj * 1000000 else 0
        last := s.now, effC := p.cerMw, effP := p.perMw, resetFill := p.resetFill }
      let s1 := s.modDeckle p.deckle fun k => { k with energy := b }
      (if p.enable then s1 else (s1.energyWaiting p.deckle).foldl (fun a w => a.admitWaiting w false) s1, some okAns)

/-- ENERGY_SET (Table 15.4, R268). The power loop sets the effective rates at its next period. -/
def execEnergySet (q : Req) (p : EnergyP) (s : State) : Host.Outcome State Fault Refusal :=
  .next (s.serve (.energySet q p) (energySetCmd p) q (energySetChecks p) (energySetAct p))

/-- Counters in pJ as 64-bit fields of µJ, wrapping (R271). -/
def ujFields (l : List Nat) : List (Nat × Nat) := (List.range 8).map fun i => (64, at0 l i / 1000000)

/-- ENERGY_READ: code, length and what R27 checks of it first. -/
def energyReadCmd (p : EnergyReadP) : Cmd :=
  { code := 0x0605, len := 8, rsvd := p.rsvd, own := some (if p.device then 0 else p.deckle), query := true }

/-- ENERGY_READ: its checks in order (Table 15.5, R271). -/
def energyReadChecks (p : EnergyReadP) : State → List Check :=
  fun s => [(p.device || s.deckleExists p.deckle, .invalid, 0)]

/-- ENERGY_READ: its effect (Table 15.5, R271). -/
def energyReadAct (p : EnergyReadP) : State → Nat → State × Option Ans :=
  fun s _ =>
      (s, some (match p.device, s.part.deckles.find p.deckle with
        | false, some k =>
          let b := k.energy.accrue s.now
          okFields 160 (ujFields k.usedClass ++ ujFields k.usedKind ++
            [(64, satInt 64 (b.ctok / 1000)), (64, satInt 64 (b.ptok / 1000)), (13, (s.energyWaiting p.deckle).length), (115, 0)])
        | _, _ =>
          okFields 160 (ujFields [] ++ ujFields s.cal.kinds ++
            [(64, 0), (64, 0), (13, s.eng.work.count fun _ w => w.state == .energyQueued), (115, 0)])))

/-- ENERGY_READ (Table 15.5, R271). -/
def execEnergyRead (q : Req) (p : EnergyReadP) (s : State) : Host.Outcome State Fault Refusal :=
  .next (s.serve (.energyRead q p) (energyReadCmd p) q (energyReadChecks p) (energyReadAct p))

/-! ## The energy ledger (R270) -/

/-- Kind of an activity key: class × 8 + kind, class 8 and up for work without admission. -/
def keyKind (k : Nat) : Nat := k % 8
def keyClass (k : Nat) : Nat := k / 8 % 8
def keyUnadmitted (k : Nat) : Bool := decide (8 ≤ k / 8)

/-- Activity in pJ by the coefficients in force. -/
def State.coefPj (s : State) (k pj : Nat) : Nat := pj * at0 s.cal.coef (keyKind k) / 1000

/-- Activity that E_a sums: all but the estimate of the modules. -/
def State.activitySum (s : State) (m : NMap Nat) : Nat :=
  (m.map fun x => if keyKind x.1 = 7 then 0 else s.coefPj x.1 x.2).foldl (· + ·) 0

/-- Adds to position `i` of eight counters. -/
def addAt (l : List Nat) (i n : Nat) : List Nat := setAt l i (at0 l i + n)

/-- E_a (log 47): the activity of every deckle and of the device's own work. -/
def State.activityAll (s : State) : Nat :=
  (s.part.deckles.map fun d => s.activitySum d.2.activity).foldl (· + ·) 0 + s.activitySum s.cal.activity

/-- What an activity count is charged: its share of the measured energy beyond the static part; the
module estimate is not scaled. -/
def State.attributed (s : State) (rest total k pj : Nat) : Nat :=
  if keyKind k = 7 then s.coefPj k pj else if total = 0 then 0 else s.coefPj k pj * rest / total

/-- The interval of one deckle: its counters per class and kind, and the measured energy of work
without admission off both buckets (R269). -/
def State.ledgerDeckle (s : State) (rest total : Nat) (k : Deckle) : Deckle :=
  let ch := k.activity.map fun x => (x.1, s.attributed rest total x.1 x.2)
  let counted := ch.filter fun x => keyKind x.1 != 7
  let debit := ((counted.filter fun x => keyUnadmitted x.1).map (·.2)).foldl (· + ·) 0
  { k with
    usedClass := counted.foldl (fun a x => addAt a (keyClass x.1) x.2) k.usedClass
    usedKind := ch.foldl (fun a x => addAt a (keyKind x.1) x.2) k.usedKind
    energy := (k.energy.accrue s.now).settle true 0 debit
    activity := [] }

/-- The device totals of an interval: every charge, and the static part under kind 6. -/
def State.ledgerKinds (s : State) (rest total staticPj : Nat) : List Nat :=
  let all := s.part.deckles.flatMap (fun d => d.2.activity) ++ s.cal.activity
  let base := addAt s.cal.kinds 6 (staticPj + (if total = 0 then rest else 0))
  all.foldl (fun a x => addAt a (keyKind x.1) (s.attributed rest total x.1 x.2)) base

/-- LEDGER_TICK (R270): E_m and E_s of the interval in nJ. While the hub is stopped the counters go on,
and the next interval covers the whole time. -/
def execLedgerTick (measuredNj staticNj : Nat) (s : State) : Host.Outcome State Fault Refusal :=
  .next <|
    if !s.fwRuns then s
    else
      let s0 := s.reach (s.cal.ledgerAt + 100000)
      let total := s0.activityAll
      let rest := (measuredNj - staticNj) * 1000
      let kinds := s0.ledgerKinds rest total (staticNj * 1000)
      let ds := s0.part.deckles.each fun _ k => s0.ledgerDeckle rest total k
      { s0 with
        part := { s0.part with deckles := ds }
        cal := { s0.cal with kinds := kinds, activity := [], ledgerAt := s0.now } }

/-- LEDGER_REFINE (R270): new coefficients, in thousandths of the nominal. -/
def execLedgerRefine (coef : List Nat) (s : State) : Host.Outcome State Fault Refusal :=
  .next <| if s.fwRuns then { s with cal := { s.cal with coef := (List.range 8).map fun i => at0 coef i } } else s

/-! ## Clocks and rails (R122, R276, R342) -/

/-- The seven engine clock steps (Table 7.10), lowest first. -/
def clockSteps : List Nat := [150, 225, 300, 375, 450, 525, 600]

/-- Position of a step. -/
def stepIndex (mhz : Nat) : Nat := (clockSteps.findIdx? (· == mhz)).getD 0

/-- A step `up` places higher or `down` places lower, within the seven. -/
def stepBy (mhz up down : Nat) : Nat := clockSteps.getD (min 6 (stepIndex mhz + up) - down) 150

/-- The setting each rail needs for its cores' clocks and targets; one that differs goes out over VSET (R342). -/
def State.setRails (s : State) : State :=
  let w := (List.range 8).foldl (fun (a : NMap Nat) d =>
    let need := ((List.range 4).map fun i =>
      let k := s.core (d * 4 + i)
      s.stepMv (max k.clock (k.clockTarget.getD 0))).foldl max 0
    a.set d (if need = at0 s.pkg.vddEng d then none else some need)) s.pkg.vsetWait
  { s with pkg := { s.pkg with vsetWait := w } }

/-- Every core at 150 MHz. -/
def State.floorClocks (s : State) : State :=
  ((List.range 32).foldl (fun a c => a.modCore c fun k => { k with clock := 150, clockTarget := none }) s).setRails

/-! ## POWER_CAP (R273, R275) -/

/-- POWER_CAP: code, length and what R27 checks of it first. -/
def powerCapCmd (p : PowerCapP) : Cmd :=
  { code := 0x0606, oper := true, len := 8, rsvd := p.rsvd }

/-- POWER_CAP: its checks in order (Table 15.6). -/
def powerCapChecks (p : PowerCapP) : State → List Check :=
  fun s => [(600 ≤ p.capW && p.capW ≤ 1400, .invalid, 0), (p.force || s.fits (p.capW * 1000) s.laidMw, .busy, 19)]

/-- POWER_CAP: its effect (Table 15.6). -/
def powerCapAct (p : PowerCapP) : State → Nat → State × Option Ans :=
  fun s _ =>
      let x := s.shedLaid (p.capW * 1000) true
      let s1 := if x.2 = 0 then x.1.unshedLaid (p.capW * 1000) else x.1
      ({ s1 with cal := { s1.cal with capNext := some p.capW } },
        some (okFields 16 [(16, x.2), (16, s1.cal.staticW), (16, cdiv s1.laidMw 1000), (80, 0)]))

/-- POWER_CAP (Table 15.6). The cap takes effect at the next period; entries are shed at once. -/
def execPowerCap (q : Req) (p : PowerCapP) (s : State) : Host.Outcome State Fault Refusal :=
  .next (s.serve (.powerCap q p) (powerCapCmd p) q (powerCapChecks p) (powerCapAct p))

/-! ## Emergencies (R274) -/

/-- The budget in force in mW. -/
def State.budgetMw (s : State) : Nat := if s.cal.emergency.isSome then s.cal.capW * 850 else s.cal.capW * 1000

/-- An emergency begins (Table 15.7): a cap in progress completes first (R275). A second cause in an
emergency only engages its clock floor. -/
def State.beginEmergency (s : State) (cause : Nat) : State :=
  let s0 := (State.floorClocks { s with cal := { s.cal with floor := s.cal.floor || cause ≠ 0 } })
  if s0.cal.emergency.isSome then s0
  else
    let e : Emergency := { cause := cause, start := s.now, below := 0, coolSince := none }
    let cal : Cal := { s0.cal with emergency := some e, capW := s0.capSet, capNext := none }
    let x := (State.pins { s0 with cal := cal }).shedLaid (cal.capW * 850) false
    x.1.raise 0x0601 .device (if cause = 0 then 0 else srcOf 1 0)
      (pack [(2, cause), (14, 0), (16, s.cal.powerW), (16, s.tjMax), (16, x.2), (64, 0)])

/-- The emergency ends: the clock floor releases, and an activation that waited for it starts (R32). -/
def State.endEmergency (s : State) (e : Emergency) : State :=
  let s1 := State.pins { s with cal := { s.cal with emergency := none, floor := false, above := 0 } }
  let s2 := s1.raise 0x0602 .device 0 (pack [(16, 0), (16, s.cal.powerW), (16, s.tjMax), (16, 0), (64, s.now - e.start)])
  if s2.hub.autoPending && s2.hub.phase == .running then s2.startActivation none else s2

/-- How long every sensor has been at or below 100 °C. -/
def State.noteCool (s : State) : State :=
  { s with cal := { s.cal with emergency := s.cal.emergency.map fun e =>
      { e with coolSince := if s.tjMax ≤ 800 then some (e.coolSince.getD s.now) else none } } }

/-- POWER_COMPARATOR (R274): above 1,650 W for 2 ms. -/
def execPowerComparator (powerW : Nat) (s : State) : Host.Outcome State Fault Refusal :=
  .next <| if s.inReset || powerW ≤ 1650 then s else s.beginEmergency 1

/-- THERMAL_COMPARATOR (R274): a sensor at or above 105 °C. -/
def execThermalComparator (sensor value : Nat) (s : State) : Host.Outcome State Fault Refusal :=
  .next <|
    if s.inReset || 96 ≤ sensor || value < 840 then s
    else (State.beginEmergency { s with pkg := { s.pkg with sensors := setAt s.pkg.sensors sensor value } } 2).noteCool

/-- WEDGE_POWER_FLOOR (R277): under a wedge, above POWER_CAP for 2 ms. -/
def execWedgePowerFloor (powerW : Nat) (s : State) : Host.Outcome State Fault Refusal :=
  .next <| if s.hubStopped && s.cal.capW < powerW then
      State.floorClocks { s with cal := { s.cal with wedgeFloor := true } }
    else s

/-! ## The power loop (R272) -/

/-- CER and PER of a deckle as the loop counts them. -/
def EnergyB.rates (b : EnergyB) : Nat × Nat := if b.enable then (b.cer, b.per) else (0, 1400000)

/-- Effective refill rates of a deckle for a budget A in mW, ΣCER and Σ(PER − CER). -/
def EnergyB.effective (b : EnergyB) (a cers spans : Nat) : EnergyB :=
  let r := b.rates
  if cers ≤ a then
    { b with effC := r.1, effP := min r.2 (r.1 + (if spans = 0 then 0 else (a - cers) * (r.2 - r.1) / spans)) }
  else { b with effC := r.1 * a / cers, effP := r.1 * a / cers }

/-- Sets every enabled deckle's effective rates. -/
def State.setRates (s : State) : State :=
  let a := s.budgetMw - s.cal.staticW * 1000 - s.laidMw - s.cal.deferW * 1000
  let rs := s.part.deckles.map fun d => d.2.energy.rates
  let cers := (rs.map (·.1)).foldl (· + ·) 0
  let spans := (rs.map fun r => r.2 - r.1).foldl (· + ·) 0
  { s with part := { s.part with deckles := s.part.deckles.each fun _ k =>
      if k.energy.enable then { k with energy := (k.energy.accrue s.now).effective a cers spans } else k } }

/-- The emergency at a period: it ends after 10 consecutive periods below 90 % of POWER_CAP with every
sensor at or below 100 °C for 100 ms. -/
def State.emergencyTick (s : State) : State :=
  let s0 := s.noteCool
  match s0.cal.emergency with
  | none => if 3 ≤ s0.cal.above then s0.beginEmergency 0 else s0
  | some e =>
    let e' : Emergency := { e with below := if s0.cal.powerW * 10 < s0.cal.capW * 9 then e.below + 1 else 0 }
    let s1 := { s0 with cal := { s0.cal with emergency := some e' } }
    let cool := match e'.coolSince with | some t => decide (t + 100000000 ≤ s1.now) | none => false
    if decide (10 ≤ e'.below) && cool then s1.endEmergency e' else s1

/-- POWER_LOOP_TICK (R272–R275): the power measured over the last period, its static part and the power
planned for deferrable work, in W. -/
def execPowerLoopTick (powerW staticW deferW : Nat) (s : State) : Host.Outcome State Fault Refusal :=
  .next <|
    if !s.fwRuns then s
    else
      let cap := s.capSet
      let ceil := if cap < powerW then stepBy s.cal.ceiling 0 1
        else if powerW * 100 < cap * 95 then stepBy s.cal.ceiling 1 0 else s.cal.ceiling
      let cal : Cal := { s.cal with
        capW := cap, capNext := none, powerW := powerW, staticW := staticW, deferW := deferW, ceiling := ceil
        above := if cap < powerW then min 3 (s.cal.above + 1) else 0 }
      let s1 := State.emergencyTick { s with cal := cal }
      let s2 := if s1.cal.emergency.isSome then (s1.shedLaid s1.budgetMw false).1 else s1
      s2.setRates

/-! ## The thermal loop (R276) -/

/-- Reading of the hottest sensor over a core. -/
def State.hottest (s : State) (c : Nat) : Nat :=
  ((s.pkg.sensors.zip (List.range 96)).map fun x => if Config.sensorOver c x.2 then x.1 else 0).foldl max 0

/-- The step a core's reading asks for, under the ceiling. -/
def State.thermalStep (s : State) (c : Nat) : Nat :=
  let f := (s.core c).clock
  let t := s.hottest c
  min s.cal.ceiling (if 824 ≤ t then stepBy f 0 2 else if 800 ≤ t then stepBy f 0 1 else if t ≤ 760 then stepBy f 1 0 else f)

/-- Sets a core's step: a lowering at once, with its event; a raise once the rail carries it (R342). -/
def State.setStep (s : State) (c : Nat) : State :=
  let k := s.core c
  let f := s.thermalStep c
  if f < k.clock then
    (s.modCore c fun k => { k with clock := f, clockTarget := none }).raise 0x0603 .device (srcOf 2 c)
      (pack [(5, c), (11, 0), (10, k.clock), (10, f), (16, s.hottest c), (76, 0)])
  else if f = k.clock then s.modCore c fun k => { k with clockTarget := none }
  else if s.stepMv f ≤ at0 s.pkg.vddEng (c / 4) then s.modCore c fun k => { k with clock := f, clockTarget := none }
  else s.modCore c fun k => { k with clockTarget := some f }

/-- THERMAL_LOOP_TICK (R276): every sensor's reading. Clock floors and an emergency hold the clocks. -/
def execThermalLoopTick (sensors : List Nat) (s : State) : Host.Outcome State Fault Refusal :=
  .next <|
    if !s.fwRuns then s
    else
      let read := (List.range 96).map fun i => (sensors.getD i 0) % 65536
      let s1 := State.noteCool { s with pkg := { s.pkg with sensors := read } }
      if s1.cal.floor || s1.cal.wedgeFloor || s1.cal.emergency.isSome then s1
      else ((List.range 32).foldl (fun a c => a.setStep c) s1).setRails

/-- CLOCK_DROOP_STRETCH (R11): an island stretches its clock; no state that software sees changes. -/
def execClockDroopStretch (island : Nat) (s : State) : Host.Outcome State Fault Refusal :=
  let _ := island
  .next { s with pkg := { s.pkg with stretches := s.pkg.stretches + 1 } }

end Sys2Proof.Machine
end

