-- ==== Sys2Proof/Machine/LaidLoad.lean ====
section
/-! DEFINITION. LAID_LOAD (R284): the table image, its checks in order, its reservations, and the
table a slot then holds. -/

namespace Sys2Proof.Machine

/-! ## The image (Tables 16.4 and 16.5) -/

/-- An entry of 64 bytes. -/
def laidEntryOf (x : Nat) : LaidEntry where
  offset := bitsOf x 22 0
  port := bitsOf x 28 23
  inbound := bitOf x 29
  lateDrop := bitOf x 30
  form := bitOf x 31
  target := bitsOf x 43 32
  deckle := bitsOf x 55 44
  shedPrio := bitsOf x 59 56
  addr := bitsOf x 127 64
  srcPva := bitsOf x 183 128
  length := bitsOf x 216 192
  slack := bitsOf x 239 224
  id := bitsOf x 287 256
  formCore := bitsOf x 292 288
  engines := bitsOf x 297 293
  rsvd := bitsOf x 63 60 + bitsOf x 191 184 + bitsOf x 223 217 + bitsOf x 255 240 + bitsOf x 511 298

/-- The entries of an image of `n`. -/
def laidEntries (img n : Nat) : List LaidEntry := (List.range n).map fun i => laidEntryOf (bytesFrom img (256 + 64 * i) 64)

/-- Cycle, refresh period, window and offset of a header. -/
structure LaidHead where
  tableId : Nat
  cycle   : Nat
  period  : Nat
  len     : Nat
  offset  : Nat
  entries : Nat
  deriving DecidableEq, Repr, Inhabited

/-- The header's fields. -/
def laidHead (img : Nat) : LaidHead where
  tableId := bitsOf img 127 64
  cycle := bitsOf img 150 128
  period := bitsOf img 175 160
  len := bitsOf img 191 176
  offset := bitsOf img 207 192
  entries := bitsOf img 245 224

/-- The header lies within Table 16.4, and the image is as long as it says. -/
def headOk (img len : Nat) : Bool :=
  let h := laidHead img
  bitsOf img 31 0 == 0x4449414C && bitsOf img 47 32 == 1 &&
  bitsOf img 63 48 + bitsOf img 159 151 + bitsOf img 223 208 + bitsOf img 2047 246 == 0 &&
  125 ≤ h.period && h.period ≤ 3900 && 125 ≤ h.cycle && h.cycle ≤ 8000000 && h.cycle % h.period == 0 &&
  38 ≤ h.len && h.len ≤ 200 && h.period * 45 ≤ h.len * 1000 && h.offset + h.len ≤ h.period &&
  1 ≤ h.entries && h.entries ≤ 2097152 && len == 256 + 64 * h.entries

/-- An entry lies within Table 16.5. -/
def laidEntryOk (h : LaidHead) (e : LaidEntry) : Bool :=
  e.rsvd == 0 && e.offset < h.cycle && 64 ≤ e.length && e.length ≤ 16777216 && e.length % 64 == 0 &&
  (if e.inbound then !e.form && e.srcPva == 0 && e.addr < 2 ^ 56 else e.addr % 64 == 0) &&
  (if e.form then 1 ≤ e.engines && e.engines ≤ 16 else e.formCore == 0 && e.engines == 0)

/-- Entries stand in order of port, then offset. -/
def laidInOrder (a b : LaidEntry) : Bool := a.port < b.port || (a.port == b.port && a.offset ≤ b.offset)

/-- The first entry that is out of order, repeats an ENTRY_ID, or is its port's 32,769th. -/
def unsorted (es : List LaidEntry) : Option Nat :=
  (List.range es.length).find? fun i => match es[i]? with
    | none => false
    | some e =>
      let prev := es.take i
      !((prev.getLast?.map fun p => laidInOrder p e).getD true) || prev.any (fun p => p.id == e.id) ||
      32768 ≤ prev.countP fun p => p.port == e.port

/-- DETAIL of a refused image: reason and entry index, 0xFFFFFF for the header (Table 16.7). -/
def laidDetail (reason index : Nat) : Nat := reason + 256 * index

/-! ## Sources (orders 3 to 5) -/

/-- Deckle, endpoint and port of an entry (order 3). -/
def State.entryPlaces (s : State) (e : LaidEntry) : Bool :=
  s.deckleActive e.deckle && s.member e.deckle e.target &&
  !(62 ≤ e.port && s.pair.role != .none && s.pair.state != .armed)

/-- Lines an entry reads or, inbound, writes. -/
def LaidEntry.lines (e : LaidEntry) : List Nat := bytesLines (if e.inbound then e.addr else e.srcPva) e.length

/-- Translation, permission and tier of an entry (order 4). -/
def State.entryMapped (s : State) (e : LaidEntry) : Bool :=
  if e.form then true
  else match s.translate e.deckle (if e.inbound then .wr else .krd) e.lines with
    | .ok refs => e.inbound || refs.all fun r => r.tier != .t2 && (s.lodeOf r).isNone
    | _ => false

/-- Extents of a pinned version. -/
def State.pinExtents (s : State) (p : Nat × Nat) : List Nat :=
  (((s.rgn.regions.find p.1).bind fun r => r.versions.find p.2).map (·.segs)).getD []

/-- The program of a FORM entry and its binding (order 5). -/
def State.entryForm (s : State) (e : LaidEntry) : State × Option (FormProg × FormBind) :=
  match s.readBytes e.deckle e.srcPva 64 with
  | (s1, .ok, x) =>
    let f := formProgOf x
    (match s1.bindForm e.deckle f with
      | .error _ => (s1, none)
      | .ok b =>
        let pinned := f.adapter == 0 || ((s1.adapter f.mapUid f.adapter).map (·.pinned)).getD false
        let far := (b.pins.flatMap s1.pinExtents).any fun x => ((s1.part.extents.find x).map (·.tier)) == some Tier.t2
        if e.srcPva % 64 = 0 ∧ pinned ∧ !far ∧ (formShape f).1 * f.outPitch = e.length then (s1, some (f, b)) else (s1, none))
  | (s1, _, _) => (s1, none)

/-- Engines of a core that the other slot's table has reserved. -/
def State.otherReserved (s : State) (slot core : Nat) : Nat :=
  ((s.laid.tables.filter fun t => t.1 != slot).flatMap fun t => t.2.entries.map fun e =>
    if e.form && e.formCore == core then e.engines else 0).foldl (· + ·) 0

/-- Binds the FORM entries in order: the bindings, or the index of the first that is refused. -/
def State.bindLaid (s : State) (slot : Nat) (es : List LaidEntry) : State × Except Nat (NMap (FormProg × FormBind)) :=
  (es.zip (List.range es.length)).foldl (fun a x =>
    match a.2 with
    | .error _ => a
    | .ok m =>
      if !x.1.form then a
      else
        let used := (((es.take (x.2 + 1)).filter fun y => y.form && y.formCore == x.1.formCore).map (·.engines)).foldl (· + ·) 0
        match a.1.entryForm x.1 with
        | (s1, some fb) => if used + s1.otherReserved slot x.1.formCore ≤ 16 then (s1, .ok (m.put x.2 fb)) else (s1, .error x.2)
        | (s1, none) => (s1, .error x.2)) (s, .ok [])

/-! ## Occupancy (order 7) -/

/-- Window of an entry on its port, start and length, in units of 1/rate ns. -/
def occupancy (rate : Nat) (e : LaidEntry) : Nat × Nat := (e.offset * 8 * rate, (180 + e.slack) * rate + wireLen e.length * 100)

/-- Windows in order of their start do not overlap modulo the cycle. -/
def apart (cycle first : Nat) : List (Nat × Nat) → Bool
  | [] => true
  | [(a, n)] => a + n ≤ first + cycle
  | (a, n) :: (b, m) :: r => a + n ≤ b && apart cycle first ((b, m) :: r)

/-- Entries of a port in one direction. -/
def dirEntries (es : List LaidEntry) (p : Nat) (inb : Bool) : List LaidEntry := es.filter fun e => e.port == p && e.inbound == inb

/-- Ports and directions an image names. -/
def portDirs (es : List LaidEntry) : List (Nat × Bool) := (es.map fun e => (e.port, e.inbound)).eraseDups

/-- A port's laid share of its payload rate in thousandths. -/
def portPermille (h : LaidHead) (width : Nat) (es : List LaidEntry) : Nat :=
  (es.map fun e => wireLen e.length).foldl (· + ·) 0 * 100 * 1000 / (h.cycle * 8 * payloadRate width)

/-- Windows and rate of one port and direction are acceptable. -/
def portFits (h : LaidHead) (width : Nat) (es : List LaidEntry) : Bool :=
  let rate := payloadRate width
  let w := es.map (occupancy rate)
  apart (h.cycle * 8 * rate) ((w.head?.map (·.1)).getD 0) w &&
  (es.map fun e => wireLen e.length).foldl (· + ·) 0 * 10000 ≤ h.cycle * 8 * rate * 85

/-! ## Bank time (order 8) -/

/-- Bank time in units of 1/12,000 ns: a stripe on every stack, and a staging line on its die. -/
def stripeTime : Nat := 20480
def stagingTime : Nat := 192

/-- Bank time of the lines of a tile by resource: 0 the stacks, 1 + d staging die d (log 20). -/
def State.bankUse (s : State) (inb : Bool) (refs : List LineRef) : List (Nat × Nat) :=
  let stg := refs.filter fun r => r.tier == .staging
  let one := stg.map fun r => (1 + (s.unitOf r.tier r.line).1 % 4, stagingTime)
  let t1 := refs.filter fun r => r.tier == .t1
  if inb then
    if s.part.bulk then one ++ (t1.map fun r => (1 + r.line / 1024 % 4, stagingTime)) ++ [(0, cdiv (t1.length * 85) 4)]
    else one ++ [(0, t1.length * 80)]
  else one ++ [(0, (t1.map fun r => r.line / 1024).eraseDups.length * stripeTime)]

/-- Lines of tile `j` of an entry. -/
def State.tileRefs (s : State) (e : LaidEntry) (fb : Option (FormProg × FormBind)) (j : Nat) : List LineRef :=
  let get := fun d (a : Access) ls => match s.translate d a ls with | .ok refs => refs | _ => []
  match fb with
  | some (f, b) => get b.owner .krd (formLines b f j)
  | none => get e.deckle (if e.inbound then .wr else .krd)
      (bytesLines ((if e.inbound then e.addr else e.srcPva) + 65536 * j) (min 65536 (e.length - 65536 * j)))

/-- Bytes of a full tile: 64 KiB, or the whole rows of a formed tile. -/
def laidTileBytes : Option (FormProg × FormBind) → Nat
  | some (f, _) => formTileRows f * f.outPitch
  | none => 65536

/-- Bank time of a table by refresh period × 8 + resource: a tile counts in the period it begins in. -/
def State.bankMap (s : State) (h : LaidHead) (widths : List (Nat × Nat)) (es : List LaidEntry)
    (forms : NMap (FormProg × FormBind)) : NMap Nat :=
  (es.zip (List.range es.length)).foldl (fun m x =>
    let e := x.1
    let fb := forms.find x.2
    let width := ((widths.find? fun w => w.1 == e.port).map (·.2)).getD 8
    (List.range (cdiv e.length (laidTileBytes fb))).foldl (fun m j =>
      let at_ := e.offset * 8 + wireTime (wireLen (laidTileBytes fb * j)) width / 65536
      let per := at_ % (h.cycle * 8) / (h.period * 8)
      (s.bankUse e.inbound (s.tileRefs e fb j)).foldl (fun m u =>
        m.put (per * 8 + u.1) ((m.find (per * 8 + u.1)).getD 0 + u.2)) m) m) []

/-- Bank time of a refresh period outside its window. -/
def bankAvail (h : LaidHead) : Nat := (h.period - h.len) * 8 * 12000

/-! ## Forming and power (orders 9 and 10) -/

/-- Engine cycles of a program (R180). -/
def formCycles (b : FormBind) (f : FormProg) : Nat :=
  let a := match b.part with | some (rank, _, _, _, _) => cdiv rank 32 | none => 0
  let v := storeCycles b.entry.format + outCycles f.outFmt + (if b.part.isSome then 2 else 0)
  cdiv ((formShape f).1 * (formShape f).2) 256 * max v (16 * a)

/-- Forming of every core fits in 85 % of its reserved engines' time at 600 MHz. -/
def formsFit (h : LaidHead) (es : List LaidEntry) (forms : NMap (FormProg × FormBind)) : Bool :=
  (List.range 32).all fun c =>
    let mine := (es.zip (List.range es.length)).filter fun x => x.1.form && x.1.formCore == c
    let cycles := (mine.map fun x => ((forms.find x.2).map fun fb => formCycles fb.2 fb.1).getD 0).foldl (· + ·) 0
    let engines := (mine.map fun x => x.1.engines).foldl (· + ·) 0
    cycles * 1000 ≤ engines * h.cycle * 8 * 510

/-- Energy of an entry per cycle in pJ (Table 1.10): its tier lines, the flits it sends, its forming. -/
def State.entryPj (s : State) (e : LaidEntry) (fb : Option (FormProg × FormBind)) : Nat :=
  let flits := if e.inbound then 0 else cdiv (wireLen e.length) 240 * 3100
  match fb with
  | some (f, b) => formEstimate b f false + flits
  | none =>
    let one := fun (r : LineRef) => if !e.inbound then readPj r.tier
      else if r.tier == .t1 && s.part.bulk then 350 + writePj .t1 true false else writePj r.tier false false
    match s.translate e.deckle (if e.inbound then .wr else .krd) e.lines with
    | .ok refs => (refs.map one).foldl (· + ·) 0 + flits
    | _ => flits

/-! ## LAID_LOAD -/

/-- The first refusal of orders 1 to 4, which look at the image and at translation. -/
def State.laidEarly (s : State) (slot img len : Nat) (es : List LaidEntry) : Option (Status × Nat) :=
  let h := laidHead img
  if !headOk img len then some (.invalid, laidDetail 1 0xFFFFFF)
  else match es.findIdx? (fun e => !laidEntryOk h e) with
    | some i => some (.invalid, laidDetail 1 i)
    | none => match unsorted es with
      | some i => some (.invalid, laidDetail 2 i)
      | none =>
        if s.laid.active == some slot || s.laid.pendSlot == some slot then some (.busy, 24)
        else match es.findIdx? (fun e => !s.entryPlaces e) with
          | some i => some (.invalid, laidDetail 3 i)
          | none => (es.findIdx? fun e => !s.entryMapped e).map fun i => (.invalid, laidDetail 4 i)

/-- The first refusal of orders 6 to 10. -/
def State.laidLate (s : State) (h : LaidHead) (es : List LaidEntry) (widths : List (Nat × Nat)) (bank : NMap Nat)
    (forms : NMap (FormProg × FormBind)) (mw : Nat) : Option (Status × Nat) :=
  match (es.map (·.port)).find? fun p => (s.port p).train != .active with
  | some p => some (.notReady, p)
  | none =>
    let wide := fun p => ((widths.find? fun w => w.1 == p).map (·.2)).getD 8
    if !(portDirs es).all (fun d => portFits h (wide d.1) (dirEntries es d.1 d.2)) then some (.busy, 21)
    else if bank.any fun x => bankAvail h * 60 < x.2 * 100 then some (.busy, 22)
    else if !formsFit h es forms then some (.busy, 23)
    else if !s.fits (s.capSet * 1000) (max mw s.laidMw) then some (.busy, 19)
    else none

/-- LAID_LOAD's effect: the image read, checked, and stored unless CHECK_ONLY. -/
def State.loadLaid (s : State) (p : LaidLoadP) : State × Option Ans :=
  if p.imagePva % 64 ≠ 0 ∨ p.imageLen < 320 ∨ 134217984 < p.imageLen then (s, some (Ans.of .invalid (laidDetail 1 0xFFFFFF)))
  else match s.readBytes 0 p.imagePva p.imageLen with
    | (s0, .ok, img) =>
      let h := laidHead img
      let es := if headOk img p.imageLen then laidEntries img h.entries else []
      (match s0.laidEarly p.slot img p.imageLen es with
        | some e => (s0, some (Ans.of e.1 e.2))
        | none =>
          match s0.bindLaid p.slot es with
          | (s1, .error i) => (s1, some (Ans.of .invalid (laidDetail 5 i)))
          | (s1, .ok forms) =>
            let widths := ((es.map (·.port)).eraseDups).map fun q => (q, (s1.port q).width)
            let bank := s1.bankMap h widths es forms
            let pjs := (es.zip (List.range es.length)).map fun x => s1.entryPj x.1 (forms.find x.2)
            let mw := cdiv (pjs.foldl (· + ·) 0) (h.cycle * 8)
            match s1.laidLate h es widths bank forms mw with
            | some e => (s1, some (Ans.of e.1 e.2))
            | none =>
              let wide := fun q => ((widths.find? fun w => w.1 == q).map (·.2)).getD 8
              let digest := BitVec.ofNat 256 (Config.shake256 img p.imageLen 256)
              let t : LaidTable := {
                tableId := h.tableId, cycle := h.cycle, refPeriod := h.period, refLen := h.len, refOffset := h.offset
                entries := es, run := es.map fun _ => LaidRun.fresh, forms := forms, pjs := pjs, digest := digest, mw := mw
                widths := widths, start := 0, cycles := 0, slips := 0, unscheduled := 0 }
              let share := ((portDirs es).map fun d => portPermille h (wide d.1) (dirEntries es d.1 d.2)).foldl max 0
              let banks := (bank.map fun x => x.2 * 1000 / bankAvail h).foldl max 0
              let a := okFields 64 [(256, digest.toNat), (32, sat 32 mw), (10, share), (10, banks),
                (10, ((es.map (·.engines)).foldl (· + ·) 0)), (194, 0)]
              (if p.checkOnly then s1 else { s1 with laid := { s1.laid with tables := s1.laid.tables.put p.slot t } }, some a))
    | (s0, st, _) => (s0, some (Ans.of st))

/-- LAID_LOAD: code, length and what R27 checks of it first. -/
def laidLoadCmd (p : LaidLoadP) : Cmd :=
  { code := 0x0703, oper := true, len := 24, rsvd := p.rsvd }

/-- LAID_LOAD: its checks in order (Table 16.6, R284). -/
def laidLoadChecks (p : LaidLoadP) : State → List Check :=
  fun _ => [(p.slot < 2, .invalid, laidDetail 1 0xFFFFFF)]

/-- LAID_LOAD: its effect (Table 16.6, R284). -/
def laidLoadAct (p : LaidLoadP) : State → Nat → State × Option Ans :=
  fun s _ => s.loadLaid p

/-- LAID_LOAD (Table 16.6, R284). -/
def execLaidLoad (q : Req) (p : LaidLoadP) (s : State) : Host.Outcome State Fault Refusal :=
  .next (s.serve (.laidLoad q p) (laidLoadCmd p) q (laidLoadChecks p) (laidLoadAct p))

end Sys2Proof.Machine
end

