-- ==== Sys2Proof/Machine/Laid.lean ====
section
/-! DEFINITION. Domain time (R278–R281) and the running of laid tables: activation (R285), slots and
tiles (R282, R286), slips and LAID_DEGRADED (R287, R288), inbound laid writes (R249) and LAID_STATUS. -/

namespace Sys2Proof.Machine

/-! ## Slips (R287) -/

/-- LATE_NS of a skipped or ended transfer (Table 16.9). -/
def neverLate : Nat := 0xFFFFFFFF

/-- A slip: counted always, sent once per entry and cycle while the port is up. -/
def State.slip (s : State) (slot i reason outcome late : Nat) : State :=
  match s.laid.tables.find slot with
  | none => s
  | some t =>
    match t.entries[i]? with
    | none => s
    | some e =>
      let first := !(t.runOf i).slipped
      let s1 := (s.modEntry slot i fun r => { r with lastReason := reason, slips := sat 32 (r.slips + 1), lastSlip := s.dom, slipped := true }).modTable
        slot fun t => { t with slips := t.slips + 1 }
      if first && s1.portActive e.port then s1.bypassSlot e.port (.slip reason outcome e.target e.id (sat 32 late)) else s1

/-- Tier 1 is degraded: a position is lost (Table 2.6). -/
def State.t1Degraded (s : State) : Bool := !(s.group 0).lost.isEmpty

/-- HOLDOVER has lasted more than 10 ms (R286). -/
def State.longHoldover (s : State) : Bool :=
  match s.laid.holdoverAt with
  | some t => s.laid.state == .holdover && decide (t + 10000000 < s.now)
  | none => false

/-- Lines an entry's source translates to; its program's source for FORM. -/
def State.sourceOf (s : State) (t : LaidTable) (i : Nat) (e : LaidEntry) : Trans :=
  match t.forms.find i with
  | some (f, b) => s.translate b.owner .krd ((List.range (formTiles f)).flatMap fun j => formLines b f j)
  | none => if e.inbound || e.form then .ok [] else s.translate e.deckle .krd e.lines

/-- The source conditions of R288 that stand: TIER2, DEGRADED, FAILOVER. -/
def State.sourceReason (s : State) (t : LaidTable) (i : Nat) (e : LaidEntry) : Option Nat :=
  match s.sourceOf t i e with
  | .ok refs =>
    if refs.any fun r => r.tier == .t2 then some 5
    else if s.t1Degraded && refs.any fun r => r.tier == .t1 then some 4 else none
  | .deny .lost _ => some 10
  | _ => none

/-- The standing condition of an entry (R288). -/
def State.standing (s : State) (t : LaidTable) (i : Nat) (e : LaidEntry) : Option Nat :=
  if (t.runOf i).shed then some 9
  else if s.portActive e.port && (s.port e.port).width < t.widthOf e.port then some 2
  else if s.longHoldover then some 11
  else s.sourceReason t i e

/-- Why a transfer is late (Table 16.10): what of the port's and source's state explains it. -/
def State.lateReason (s : State) (t : LaidTable) (i : Nat) (e : LaidEntry) : Nat :=
  let x := s.port e.port
  let since := s.now - (s.dom - (t.slotNs e - t.leadNs))
  if x.width < t.widthOf e.port then 2
  else if (x.lastRetrain.map fun r => decide (since ≤ r)).getD false then 1
  else if s.longHoldover then 11
  else match s.sourceReason t i e with
    | some r => r
    | none => if at0 x.txCred 2 < 65 then 12 else 0

/-- Lateness in 2^-16 ns beyond the bound of a transfer that has `left` bytes to send. -/
def State.lateness (s : State) (t : LaidTable) (e : LaidEntry) (start left : Nat) : Nat :=
  start + wireTime (wireLen left) (s.port e.port).width - (nsTime (t.slotNs e) + t.boundOf e)

/-! ## Tiles (R282) -/

/-- SLIP reason of a source that cannot be read. -/
def laidReason (st : Status) : Nat :=
  if st == .revoked then 7 else if st == .uncorrectable then 8 else if st == .lost then 10 else 6

/-- The tile of an entry that begins at a byte of its transfer: nothing while a line is fetched, a
reason, or its bytes. -/
def State.laidTile (s : State) (t : LaidTable) (i : Nat) (e : LaidEntry) (off : Nat) : State × Option (Except Nat (Nat × Nat)) :=
  match t.forms.find i with
  | some (f, b) =>
    let j := off / laidTileBytes (some (f, b))
    match s.formNext e.deckle 0 b f j with
    | (s1, none) => (s1, none)
    | (s1, some (.error st)) => (s1, some (.error (laidReason st)))
    | (s1, some (.ok bytes)) => (s1, some (.ok ((formTileSpan f j).2 * f.outPitch, bytes)))
  | none =>
    let n := min 65536 (e.length - off)
    let ls := bytesLines (e.srcPva + off) n
    match s.translate e.deckle .krd ls with
    | .ok refs =>
      if refs.any fun r => (s.lodeOf r).isSome then (s, some (.error 6))
      else match s.readTile refs 0 with
        | (s1, .data _, d) => (s1, some (.ok (n, bytesFrom (lineNat d) ((e.srcPva + off) % 64) n)))
        | (s1, .fail st, _) => (s1, some (.error (laidReason st)))
        | (s1, _, _) => (s1, none)
    | .deny st r95 => ((if r95 then s.mismatch e.deckle else s).countStopped e.deckle ls, some (.error (laidReason st)))
    | _ => (s, some (.error 6))

/-- Sends bytes of a transfer on VC2 in WR packets of up to 4,096 bytes. -/
def State.sendLaid (s : State) (e : LaidEntry) (off n bytes : Nat) : State :=
  (List.range (cdiv n 4096)).foldl (fun a k =>
    let m := min 4096 (n - 4096 * k)
    a.enqueue e.port 2 62 e.deckle
      (.laidWr e.target e.deckle ((e.addr + off + 4096 * k) % 2 ^ 64) (linesOf (bytesFrom bytes (4096 * k) m) m))) s

/-- A transfer ends before its last tile (R287): stopped under LATE_DROP, ended early without it. -/
def State.endTransfer (s : State) (slot i reason : Nat) (e : LaidEntry) : State :=
  (s.modEntry slot i fun r => { r with left := none }).slip slot i reason (if e.lateDrop then 1 else 3) neverLate

/-- Sends the next tile of a transfer with `left` bytes to send. -/
def State.nextTile (s : State) (slot i : Nat) (t : LaidTable) (e : LaidEntry) (left : Nat) : State :=
  match s.laidTile t i e (e.length - left) with
  | (s1, none) => s1
  | (s1, some (.error r)) => s1.endTransfer slot i r e
  | (s1, some (.ok (n, bytes))) =>
    (s1.sendLaid e (e.length - left) n bytes).modEntry slot i fun r => { r with left := some (left - n) }

/-- A slot is skipped (R287). -/
def State.skipSlot (s : State) (slot i reason : Nat) : State :=
  (s.modEntry slot i fun r => { r with done := true }).slip slot i reason 2 neverLate

/-- Why an entry's slot is skipped before anything moves (Table 16.10). -/
def State.skipReason (s : State) (e : LaidEntry) (r : LaidRun) : Option Nat :=
  if r.left.isSome then some r.lastReason
  else if !s.portActive e.port then some 3
  else if r.shed then some 9
  else if !s.deckleActive e.deckle then some 7
  else none

/-- The active table's entry that a time event names, when its cycle still awaits it. -/
def State.pushEntry (s : State) (i : Nat) : Option (Nat × LaidTable × LaidEntry) :=
  s.activeTable.bind fun a => (a.2.entries[i]?).bind fun e =>
    if e.inbound || (a.2.runOf i).removed then none else some (a.1, a.2, e)

/-- LAID_LEAD (R282, R287): the source reads start, and the first projection is made. -/
def execLaidLead (entry : Nat) (s : State) : Host.Outcome State Fault Refusal :=
  .next <| match s.pushEntry entry with
  | none => s
  | some (slot, t, e) =>
    let r := t.runOf entry
    if r.done || r.lead || s.pkg.tripped then s
    else
      let s1 := (s.reachDom (t.slotNs e - t.leadNs)).modEntry slot entry fun r => { r with lead := true }
      let late := s1.lateness t e (nsTime (t.slotNs e)) e.length
      if !s1.portActive e.port || late = 0 then s1
      else if e.lateDrop then s1.skipSlot slot entry (s1.lateReason t entry e)
      else s1.slip slot entry (s1.lateReason t entry e) 0 (late / 65536)

/-- LAID_SLOT (R282): the slot begins, and the first tile departs unless it is skipped. -/
def execLaidSlot (entry : Nat) (s : State) : Host.Outcome State Fault Refusal :=
  .next <| match s.pushEntry entry with
  | none => s
  | some (slot, t, e) =>
    let r := t.runOf entry
    if r.done || s.pkg.tripped then s
    else
      let s1 := s.reachDom (t.slotNs e)
      match s1.skipReason e r with
      | some c => s1.skipSlot slot entry c
      | none =>
        match s1.laidTile t entry e 0 with
        | (s2, none) => s2
        | (s2, some (.error c)) => if c = 8 then (s2.modEntry slot entry fun r => { r with done := true }).endTransfer slot entry c e
          else s2.skipSlot slot entry c
        | (s2, some (.ok (n, bytes))) =>
          (s2.sendLaid e 0 n bytes).modEntry slot entry fun r => { r with done := true, lead := true, left := some (e.length - n) }

/-- The last byte has departed: within the bound or late (Table 16.12). -/
def State.finishTransfer (s : State) (slot i : Nat) (t : LaidTable) (e : LaidEntry) : State :=
  let late := s.lateness t e s.laid.time 0 / 65536
  if late = 0 then s.modEntry slot i fun r => { r with left := none, onTime := r.onTime + 1 }
  else
    let s1 := s.modEntry slot i fun r => { r with left := none, lastLate := sat 32 late }
    if (t.runOf i).slipped then s1 else s1.slip slot i (s.lateReason t i e) 0 late

/-- LAID_TILE_BOUNDARY (R287): the tile in flight has left its port; the transfer ends, is projected, or
sends its next tile. While the port retrains no tile boundary comes. -/
def execLaidTileBoundary (entry : Nat) (s : State) : Host.Outcome State Fault Refusal :=
  .next <| match s.pushEntry entry with
  | none => s
  | some (slot, t, e) =>
    match (t.runOf entry).left with
    | none => s
    | some left =>
      let x := s.port e.port
      if !x.up then s.endTransfer slot entry 3 e
      else if x.train ≠ .active ∨ x.txq.any (fun y => y.queue == 62) ∨ s.pkg.tripped then s
      else if left = 0 then s.finishTransfer slot entry t e
      else if !s.deckleActive e.deckle then s.endTransfer slot entry 7 e
      else
        let late := s.lateness t e s.laid.time left
        let reason := s.lateReason t entry e
        if late = 0 then s.nextTile slot entry t e left
        else if e.lateDrop then (s.modEntry slot entry fun r => { r with left := none }).slip slot entry reason 1 (late / 65536)
        else (if (t.runOf entry).slipped then s else s.slip slot entry reason 0 (late / 65536)).nextTile slot entry t e left

/-! ## Cycles and tables (R285, R288) -/

/-- Sends what is left of an entry's started transfer. -/
def State.sendRest (s : State) (slot i : Nat) : Nat → State
  | 0 => s
  | fuel + 1 =>
    match (s.laid.tables.find slot).bind fun t => (t.entries[i]?).map fun e => (t, e) with
    | none => s
    | some (t, e) =>
      match (t.runOf i).left with
      | none => s
      | some 0 => s.finishTransfer slot i t e
      | some left => State.sendRest (s.nextTile slot i t e left) slot i fuel

/-- Transfers of a table that ends which have started finish (R285). -/
def State.finishTransfers (s : State) (slot : Nat) : State :=
  match s.laid.tables.find slot with
  | none => s
  | some t => (List.range t.entries.length).foldl (fun a i => a.sendRest slot i 600) s

/-- Engines that the active table's FORM entries reserve (R121, R284). -/
def State.setReserved (s : State) : State :=
  let es : List LaidEntry := match s.activeTable with
    | some (_, t) => (t.entries.zip t.run).filterMap fun x => if x.1.form && !x.2.removed then some x.1 else none
    | none => []
  { s with eng := { s.eng with reserved := es.foldl (fun m e => m.put e.formCore ((m.find e.formCore).getD 0 + e.engines)) [] } }

/-- The active table ends: its slot holds it as loaded. -/
def State.endTable (s : State) : State :=
  match s.laid.active with
  | none => s
  | some i =>
    let s1 := (s.finishTransfers i).modTable i fun t => { t with start := 0 }
    State.setReserved { s1 with laid := { s1.laid with active := none, stopAt := none } }

/-- The pending table's cycle 0 begins. -/
def State.startTable (s : State) : State :=
  match s.laid.pendSlot with
  | none => s
  | some i =>
    let s1 := s.endTable
    State.setReserved { s1 with laid := { s1.laid with active := some i, pendSlot := none, stopAt := none } }

/-- LAID_TABLE_START (R285): START_NS arrives. -/
def execLaidTableStart (s : State) : Host.Outcome State Fault Refusal :=
  .next <| match s.laid.pendSlot.bind fun i => s.laid.tables.find i with
  | some t => (s.reachDom t.start).startTable
  | none => s

/-- An entry at a cycle boundary (R275, R288): removal with its deckle, LAID_DEGRADED, resumption. -/
def State.entryBoundary (s : State) (slot i : Nat) : State :=
  match (s.laid.tables.find slot).bind fun t => (t.entries[i]?).map fun e => (t, e) with
  | none => s
  | some (t, e) =>
    let r := t.runOf i
    if r.removed then s
    else
      let gone := !s.deckleActive e.deckle
      let cond := s.standing t i e
      let slips := if r.slipped then r.slipRun + 1 else 0
      let ok := if r.slipped || cond.isSome then 0 else r.okRun + 1
      let s1 := match cond with
        | some c => s.degrade slot i c
        | none => if 3 ≤ slips then s.degrade slot i r.lastReason else s
      s1.modEntry slot i fun x => { x with
        removed := gone
        degraded := if 16 ≤ ok then none else x.degraded
        slipRun := slips, okRun := if x.degraded.isSome && r.degraded.isNone then 0 else ok
        shed := x.shed && !s.resuming x, done := false, slipped := false, lead := false }

/-- A cycle of the active table ends; a STOP that is due ends the table (R285). -/
def State.cycleEnd (s : State) : State :=
  match s.activeTable with
  | none => s
  | some (slot, t) =>
    let s1 := (List.range t.entries.length).foldl (fun a i => a.entryBoundary slot i) s
    let s2 := (s1.modTable slot fun t => { t with cycles := t.cycles + 1 }).setReserved
    match s.laid.stopAt with
    | some x => if x ≤ t.cycleStart (t.cycles + 1) then s2.endTable else s2
    | none => s2

/-- Every slot of the running cycle has begun or been skipped. -/
def LaidTable.slotsDone (t : LaidTable) : Bool :=
  (t.entries.zip t.run).all fun x => x.1.inbound || x.2.removed || x.2.done

/-- LAID_CYCLE_BOUNDARY (R288): the cycle's last slot lies behind it. -/
def execLaidCycleBoundary (s : State) : Host.Outcome State Fault Refusal :=
  .next <| match s.activeTable with
  | some (_, t) => if t.slotsDone then (s.reachDom (t.cycleStart (t.cycles + 1))).cycleEnd else s
  | none => s

/-! ## Steps of domain time (R281) -/

/-- Slots of the running cycle up to a time are skipped with TIME_LOST. -/
def State.skipDue (s : State) (ns : Nat) : State :=
  match s.activeTable with
  | none => s
  | some (slot, t) =>
    (List.range t.entries.length).foldl (fun a i =>
      match t.entries[i]? with
      | some e => if e.inbound || (t.runOf i).removed || (t.runOf i).done || ns < t.slotNs e then a else a.skipSlot slot i 11
      | none => a) s

/-- A forward step passes over slots, cycle boundaries and table starts. -/
def State.jumpLaid (s : State) (ns : Nat) : Nat → State
  | 0 => s
  | fuel + 1 =>
    let s1 := s.skipDue ns
    let bound := s1.activeTable.map fun a => a.2.cycleStart (a.2.cycles + 1)
    let start := (s1.laid.pendSlot.bind fun i => s1.laid.tables.find i).map (·.start)
    match start, bound with
    | some a, none => if a ≤ ns then State.jumpLaid s1.startTable ns fuel else s1
    | some a, some b =>
      if a ≤ ns ∧ a ≤ b then State.jumpLaid s1.startTable ns fuel
      else if b ≤ ns then State.jumpLaid s1.cycleEnd ns fuel else s1
    | none, some b => if b ≤ ns then State.jumpLaid s1.cycleEnd ns fuel else s1
    | none, none => s1

/-- Domain time steps to a value in 2^-16 ns: forward skips, backward repeats nothing. -/
def State.stepTime (s : State) (v : Nat) : State :=
  let s1 := { s with laid := { s.laid with time := v % 2 ^ 80 } }
  if s.laid.time < v then s1.jumpLaid (v / 65536) ((v - s.laid.time) / 65536 / 1000 + 3) else s1

/-! ## Domain time (R278–R281) -/

/-- The device is a master. -/
def State.isMaster (s : State) : Bool := s.laid.role != .follower

/-- TIME_TICK (R279): every 1 ms on every ACTIVE port. -/
def execTimeTick (s : State) : Host.Outcome State Fault Refusal :=
  .next <|
    let ps := (s.link.ports.filter fun p => p.2.train == .active).map Prod.fst
    let sync := s.isMaster || s.laid.state == .locked
    ps.foldl (fun a p =>
      (if sync then a.bypassSlot p (.sync s.laid.hops 0 0) else a).bypassSlot p .pdelayReq) s

/-- PDELAY_REQ (R279): it is answered; the turnaround is taken at departure. -/
def execPdelayReq (port : Nat) (s : State) : Host.Outcome State Fault Refusal :=
  .next <| if s.portActive port then s.bypassSlot port (.pdelayResp s.now) else s

/-- PDELAY_RESP (R279): a measurement, unless its round trip is 10 ns above the smallest of the last 16. -/
def execPdelayResp (port turnaround roundTrip : Nat) (s : State) : Host.Outcome State Fault Refusal :=
  .next <| if !s.portActive port then s
    else s.modPort port fun x =>
      let bad := match x.trips with | [] => false | a :: r => decide (r.foldl min a + 10 < roundTrip)
      { x with trips := (roundTrip :: x.trips).take 16
               delay := if bad then x.delay else some ((roundTrip - turnaround) * 32768) }

/-- The port a follower takes as upstream: the fixed one, or the lowest HOPS, then the lowest port (R279). -/
def State.bestUpstream (s : State) : Option Nat :=
  if !s.laid.autoPort then
    if (s.port s.laid.fixedPort).hops.isSome && s.portActive s.laid.fixedPort then some s.laid.fixedPort else none
  else
    (s.link.ports.foldl (fun a x => match x.2.hops with
      | some h => if !x.2.up then a else match a with
        | none => some (x.1, h)
        | some b => if h < b.2 then some (x.1, h) else a
      | none => a) none).map Prod.fst

/-- An accepted SYNC of the upstream port (R280, R281). -/
def State.acceptSync (s : State) (port hops v : Nat) : State :=
  let off : Int := (v : Int) - s.laid.time
  let s1 := if off.natAbs ≤ 1000 * 65536 then
      { s with laid := { s.laid with time := ((s.laid.time : Int) + max (-3276800) (min 3276800 off)).toNat } }
    else s.stepTime v
  { s1 with laid := { s1.laid with
      state := .locked, upstream := port, hops := hops + 1, offsetPs := off * 1000 / 65536
      lastSync := s1.laid.time / 65536, syncAt := s1.now, holdoverAt := none } }

/-- SYNC (R279, R280): its NS and FRAC, and how much later than the link delay it arrived. -/
def execTimeSync (port hops ns frac lateNs : Nat) (s : State) : Host.Outcome State Fault Refusal :=
  .next <|
    if !s.portActive port || !s.laid.counting then s
    else if s.isMaster then { s with laid := { s.laid with conflictAt := some s.now } }
    else if 15 ≤ hops || 20 < lateNs then s
    else
      let s1 := s.modPort port fun x => { x with hops := some hops }
      match s1.bestUpstream, (s1.port port).delay with
      | some p, some d => if p = port then s1.acceptSync port hops (ns * 65536 + frac + d) else s1
      | _, _ => s1

/-- HOLDOVER_ENTRY (R281): 3 ms without an accepted SYNC, unless another port becomes upstream. -/
def execHoldoverEntry (s : State) : Host.Outcome State Fault Refusal :=
  .next <|
    if s.isMaster || s.laid.state ≠ .locked then s
    else
      let s0 := (s.reach (s.laid.syncAt + 3000000)).modPort s.laid.upstream fun x => { x with hops := none }
      match s0.bestUpstream with
      | some p =>
        { s0 with laid := { s0.laid with upstream := p, syncAt := s0.now, hops := ((s0.port p).hops.getD 14) + 1 } }
      | none =>
        State.raise { s0 with laid := { s0.laid with state := .holdover, holdoverAt := some s0.now } } 0x0701 .device (srcOf 1 0)
          (pack [(6, s.laid.upstream), (58, 0), (64, s.laid.lastSync)])

/-- TIME_PPS_IN (R280): a PPS master aligns to the edge; later edges come at whole seconds from the first. -/
def execTimePpsIn (s : State) : Host.Outcome State Fault Refusal :=
  .next <| match s.laid.role, s.laid.ppsNs with
  | .pps, some n =>
    let s1 := s.stepTime (n * 65536)
    { s1 with laid := { s1.laid with ppsNs := some (n + 1000000000) } }
  | _, _ => s

/-- PPS_OUT_SECOND (R280): TIME_PPS_OUT pulses at the next whole second of domain time. -/
def execPpsOutSecond (s : State) : Host.Outcome State Fault Refusal :=
  .next <|
    if !s.laid.counting then s
    else
      let s1 := s.reachDom ((s.dom / 1000000000 + 1) * 1000000000)
      { s1 with pkg := { s1.pkg with ppsOut := s1.pkg.ppsOut + 1 } }

/-- Codes of roles and time states (Tables 16.2 and 16.3). -/
def timeRoleCode : Role → Nat
  | .follower => 0
  | .internal => 1
  | .pps => 2
def tstateCode : TState → Nat
  | .free => 0
  | .locked => 1
  | .holdover => 2

/-- TIME_STATUS: code, length and what R27 checks of it first. -/
def timeStatusCmd : Cmd :=
  { code := 0x0701, oper := true, query := true }

/-- TIME_STATUS: its checks in order (Table 16.3). -/
def timeStatusChecks : State → List Check :=
  fun _ => []

/-- TIME_STATUS: its effect (Table 16.3). -/
def timeStatusAct : State → Nat → State × Option Ans :=
  fun s _ =>
    let l := s.laid
    let seen := match l.conflictAt with | some t => decide (s.now < t + 1000000000) | none => false
    (s, some (okFields 32 [(2, timeRoleCode l.role), (2, tstateCode l.state), (6, l.upstream), (4, l.hops), (1, b2n seen), (17, 0),
      (32, satInt 32 l.offsetPs), (64, s.dom), (64, l.lastSync), (32, (((s.port l.upstream).delay.getD 0) * 1000 / 65536)), (32, 0)]))

/-- TIME_STATUS (Table 16.3). -/
def execTimeStatus (q : Req) (s : State) : Host.Outcome State Fault Refusal :=
  .next (s.serve (.timeStatus q) timeStatusCmd q timeStatusChecks timeStatusAct)

/-- TIME_MASTER_SET: code, length and what R27 checks of it first; fields its ROLE does not use are
reserved (Table 16.2). -/
def timeMasterSetCmd (p : TimeMasterP) : Cmd :=
  let stray := (if p.role = 0 ∧ !p.autoPort then 0 else p.port) + (if p.role = 2 then 0 else p.ppsNs)
  { code := 0x0702, oper := true, len := 16, rsvd := p.rsvd + stray }

/-- TIME_MASTER_SET: its checks (Table 16.2). -/
def timeMasterSetChecks (p : TimeMasterP) : State → List Check :=
  fun _ => [(p.role < 3 && p.port < 64, .invalid, 0)]

/-- TIME_MASTER_SET: its effect (Table 16.2, R278). -/
def timeMasterSetAct (p : TimeMasterP) : State → Nat → State × Option Ans :=
  fun s _ =>
    let l := s.laid
    (({ s with laid := if p.role = 0 then
          { l with role := .follower, autoPort := p.autoPort, fixedPort := p.port, ppsNs := none
                   syncAt := if l.role == .follower then l.syncAt else s.now
                   hops := if l.role == .follower then l.hops else 15 }
        else
          { l with role := if p.role = 1 then .internal else .pps, state := .locked, hops := 0, holdoverAt := none
                   ppsNs := if p.role = 2 then some p.ppsNs else none } } : State), some okAns)

/-- TIME_MASTER_SET (Table 16.2, R278). A master is always LOCKED with HOPS 0; a device that becomes a
follower counts its 3 ms from then. -/
def execTimeMasterSet (q : Req) (p : TimeMasterP) (s : State) : Host.Outcome State Fault Refusal :=
  .next (s.serve (.timeMasterSet q p) (timeMasterSetCmd p) q (timeMasterSetChecks p) (timeMasterSetAct p))

/-! ## LAID_ACTIVATE (R285) -/

/-- The command of LAID_ACTIVATE. -/
def laidActCmd (p : LaidActP) (stray : Nat) : Cmd := { code := 0x0704, oper := true, len := 16, rsvd := p.rsvd + stray }

/-- START_NS is 1 ms ahead and, while a table is active, one of its cycle boundaries. -/
def State.startOk (s : State) (start : Nat) : Bool :=
  decide (s.dom + 1000000 ≤ start) &&
  match s.activeTable with
  | some (_, t) => decide (t.start ≤ start) && (start - t.start) % t.cycleNs == 0
  | none => true

/-- LAID_ACTIVATE ACTIVATE.: code, length and what R27 checks of it first. -/
def laidActivateCmd (p : LaidActP) : Cmd :=
  laidActCmd p 0

/-- LAID_ACTIVATE ACTIVATE.: its checks in order. -/
def laidActivateChecks (p : LaidActP) : State → List Check :=
  fun s => [(p.slot < 2, .invalid, 0), (s.laid.state != .free, .notReady, 0),
      (s.laid.tables.has p.slot && s.laid.active != some p.slot, .invalid, 1), (s.startOk p.startNs, .invalid, 2),
      (s.fits (s.capSet * 1000) (max (((s.laid.tables.find p.slot).map (·.mw)).getD 0)
        (((s.activeTable).map fun a => s.tableMw a.2).getD 0)), .busy, 19)]

/-- LAID_ACTIVATE ACTIVATE.: its effect. -/
def laidActivateAct (p : LaidActP) : State → Nat → State × Option Ans :=
  fun s _ =>
      let old := s.laid.pendSlot
      let s1 := match old with
        | some o => s.modTable o fun t => { t with start := 0 }
        | none => s
      let s2 := s1.modTable p.slot fun t =>
        { t with start := p.startNs, cycles := 0, slips := 0, unscheduled := 0, run := t.entries.map fun _ => LaidRun.fresh }
      ({ s2 with laid := { s2.laid with pendSlot := some p.slot } }, some okAns)

/-- LAID_ACTIVATE ACTIVATE. -/
def execLaidActivate (q : Req) (p : LaidActP) (s : State) : Host.Outcome State Fault Refusal :=
  .next (s.serve (.laidActivate q p) (laidActivateCmd p) q (laidActivateChecks p) (laidActivateAct p))

/-- LAID_ACTIVATE STOP: code, length and what R27 checks of it first. -/
def laidStopCmd (p : LaidActP) : Cmd :=
  laidActCmd p p.slot

/-- LAID_ACTIVATE STOP: its checks in order. -/
def laidStopChecks : State → List Check :=
  fun s => [(s.laid.active.isSome, .late, 0)]

/-- LAID_ACTIVATE STOP: its effect. -/
def laidStopAct (p : LaidActP) : State → Nat → State × Option Ans :=
  fun s _ => ({ s with laid := { s.laid with stopAt := some p.startNs } }, some okAns)

/-- LAID_ACTIVATE STOP: the table ends at its first cycle boundary from START_NS on. -/
def execLaidStop (q : Req) (p : LaidActP) (s : State) : Host.Outcome State Fault Refusal :=
  .next (s.serve (.laidStop q p) (laidStopCmd p) q laidStopChecks (laidStopAct p))

/-- LAID_ACTIVATE CANCEL: code, length and what R27 checks of it first. -/
def laidCancelCmd (p : LaidActP) : Cmd :=
  laidActCmd p (p.slot + p.startNs)

/-- LAID_ACTIVATE CANCEL: its checks in order. -/
def laidCancelChecks : State → List Check :=
  fun s => [(((s.laid.pendSlot.bind fun i => s.laid.tables.find i).map fun t => decide (s.dom < t.start)).getD false, .late, 0)]

/-- LAID_ACTIVATE CANCEL: its effect. -/
def laidCancelAct : State → Nat → State × Option Ans :=
  fun s _ =>
      let s1 := match s.laid.pendSlot with
        | some o => s.modTable o fun t => { t with start := 0 }
        | none => s
      ({ s1 with laid := { s1.laid with pendSlot := none } }, some okAns)

/-- LAID_ACTIVATE CANCEL: ST_LATE once START_NS has passed. -/
def execLaidCancel (q : Req) (p : LaidActP) (s : State) : Host.Outcome State Fault Refusal :=
  .next (s.serve (.laidCancel q p) (laidCancelCmd p) q laidCancelChecks laidCancelAct)

/-! ## LAID_STATUS (Table 16.12) -/

/-- ESTATE of an entry. -/
def estate (r : LaidRun) : Nat := if r.removed then 3 else if r.shed then 2 else if r.degraded.isSome then 1 else 0

/-- STATE of a slot. -/
def State.slotCode (s : State) (slot : Nat) : Nat :=
  if s.laid.active == some slot then 3 else if s.laid.pendSlot == some slot then 2 else b2n (s.laid.tables.has slot)

/-- An entry record. -/
def entryRecord (e : LaidEntry) (r : LaidRun) : Nat :=
  pack [(32, e.id), (2, estate r), (4, r.lastReason), (26, 0), (32, r.slips), (32, r.lastLate), (64, r.lastSlip), (64, r.onTime)]

/-- LAID_STATUS.: code, length and what R27 checks of it first. -/
def laidStatusCmd (p : LaidStatusP) : Cmd :=
  { code := 0x0705, oper := true, len := 8, rsvd := p.rsvd, query := true }

/-- LAID_STATUS.: its checks in order. -/
def laidStatusChecks (p : LaidStatusP) : State → List Check :=
  fun _ => [(p.slot < 2, .invalid, 0)]

/-- LAID_STATUS.: its effect. -/
def laidStatusAct (p : LaidStatusP) : State → Nat → State × Option Ans :=
  fun s _ =>
    match s.laid.tables.find p.slot with
    | none => (s, some (okFields 64 []))
    | some t =>
      let recs := if p.records then (t.entries.zip t.run).filter fun x => !p.degradedOnly || estate x.2 != 0 else []
      let live := t.run.filter fun r => !r.removed
      (s, some { okFields 64 [(2, s.slotCode p.slot), (6, 0), (22, live.length), (34, 0),
          (32, live.countP fun r => r.degraded.isSome), (32, live.countP fun r => r.shed), (64, t.tableId), (64, t.start),
          (64, t.cycles), (64, t.slips), (32, t.unscheduled), (96, 0)] with
        area := 32 * recs.length, entry := 32, content := concatBytes 32 (recs.map fun x => entryRecord x.1 x.2) })

/-- LAID_STATUS. -/
def execLaidStatus (q : Req) (p : LaidStatusP) (s : State) : Host.Outcome State Fault Refusal :=
  .next (s.serve (.laidStatus q p) (laidStatusCmd p) q (laidStatusChecks p) (laidStatusAct p))

/-! ## Inbound laid writes (R249, R282) -/

/-- The checks of R247 that apply on VC2. -/
def State.laidAdmits (s : State) (h : Hdr) (f : PktForm) : Bool :=
  s.bound h.port h.ep && s.pair.state != .fenced && s.pair.handover.isNone && !s.isStandby && !s.underBoot &&
  (s.accessCheck h.deckle h.ep).isNone && f.ok && h.rsvd == 0 && h.cls < 8 && f.aligned

/-- The INBOUND entry of the active table that a write belongs to. -/
def State.inboundEntry (s : State) (h : Hdr) (m : MemExt) : Option (Nat × Nat × LaidTable × LaidEntry) :=
  s.activeTable.bind fun a =>
    ((a.2.entries.zip (List.range a.2.entries.length)).find? fun x =>
      x.1.inbound && !(a.2.runOf x.2).removed && x.1.port == h.port && x.1.deckle == h.deckle && x.1.target == h.ep &&
      x.1.addr ≤ m.addr && m.addr + 64 * m.lines ≤ x.1.addr + x.1.length).map fun x => (a.1, x.2, a.2, x.1)

/-- An inbound write is matched to its entry, whose last byte is on time or late (R286), or counted
UNSCHEDULED. -/
def State.countInbound (s : State) (h : Hdr) (m : MemExt) : State :=
  match s.inboundEntry h m with
  | some (slot, i, t, e) =>
    if m.addr + 64 * m.lines < e.addr + e.length ∨ (t.runOf i).done then s
    else
      let late := (s.laid.time - (nsTime (t.slotNs e) + t.boundOf e)) / 65536
      s.modEntry slot i fun r =>
        if late = 0 then { r with done := true, onTime := r.onTime + 1 } else { r with done := true, lastLate := sat 32 late }
  | none => match s.laid.active with
    | some slot => s.modTable slot fun t => { t with unscheduled := sat 32 (t.unscheduled + 1) }
    | none => s

/-- LAID_INBOUND_WR (R249): served under the laid class and not answered; one that fails a check is
discarded and counted. -/
def execLaidInboundWr (h : Hdr) (m : MemExt) (data : List Line) (s : State) : Host.Outcome State Fault Refusal :=
  .next <|
    if !s.carries h.port then s
    else
      let s0 := s.freeBuf h.port 2 (Hdr.credits h)
      let drop := fun (s : State) => s.modPort h.port fun x => { x with vc2Discards := x.vc2Discards + 1 }
      if h.vc ≠ 2 ∨ !s0.laidAdmits h (wrForm h m data) then drop s0
      else match s0.translate h.deckle .wr (lineRun m.addr m.lines) with
        | .ok refs =>
          if (s0.lodeCheck h.ep refs).isSome then drop s0
          else
            let s1 := (s0.countInbound h m).fillTlb (homeCore h.ep) h.deckle (lineRun m.addr m.lines) refs
            let ls := (refs.zip (data.zip (List.range data.length))).map fun x => (x.1, x.2.1, wrMask m x.2.2)
            let s2 := (s1.newJob h false .laidIn m.addr ls).1
            (s0.lodesOf refs).foldl (fun a i => a.pumpLode i) s2
        | .deny _ true => drop (s0.mismatch h.deckle)
        | _ => drop s0

end Sys2Proof.Machine
end

