-- ==== Sys2Proof/Machine/Link.lean ====
section
/-! DEFINITION. The link layer's commands (chapter 13): flits out and in, credits,
acknowledgement and replay, training, key exchange and the link timers. -/

namespace Sys2Proof.Machine

/-! ## Sending (R209, R210, R258) -/

/-- Slots of the messages that are sent only unsequenced (R213). -/
def Slot.unseq : Slot → Bool
  | .retrain .. => true
  | .resume .. => true
  | .paramA _ => true
  | .paramB .. => true
  | _ => false

/-- A key-exchange fragment fills a flit (Table 13.4). -/
def Slot.fills : Slot → Bool
  | .keyx .. => true
  | _ => false

/-- The messages the next bypass flit carries: one key-exchange fragment, or up to four of one
kind, sequenced or not (R213). -/
def nextSlots : List Slot → List Slot
  | [] => []
  | a :: r =>
    if a.fills then [a]
    else a :: (r.takeWhile fun b => b.unseq == a.unseq && !b.fills).take 3

/-- The next bypass flit may carry new messages: replays go first, and the replay buffer has room
for a sequenced one (R223). -/
def Port.slotsNow (x : Port) : List Slot :=
  if !x.breplayLeft.isEmpty then []
  else match nextSlots x.bq with
    | [] => []
    | a :: r => if a.unseq || x.breplay.length < 64 then a :: r else []

/-- An acknowledgement, a NAK or the start of a replay is to be sent. -/
def Port.signals (x : Port) : Bool := x.ackDue || x.nakDue || x.backDue || x.bnakDue || x.rstart.isSome

/-- Something waits for a bypass opportunity. -/
def Port.wantsBypass (x : Port) : Bool := x.signals || !x.breplayLeft.isEmpty || !x.slotsNow.isEmpty

/-- Time messages carry their departure: the domain time of a SYNC, and the turnaround of a PDELAY_RESP,
which waits with its request's arrival time (R279). -/
def State.stampSlot (s : State) : Slot → Slot
  | .sync h _ _ => .sync h (s.laid.time / 65536 % 2 ^ 64) (s.laid.time % 65536)
  | .pdelayResp t => .pdelayResp (s.now - t)
  | m => m

/-- Sends a bypass flit: acknowledgements with new messages, or a stored flit again, unchanged
(R211, R220–R223). The receiver drops the old key once it has acknowledged a flit of the new one
(R235). -/
def State.sendBypass (s : State) (p : Nat) : State :=
  let x := s.port p
  if !x.signals && !x.breplayLeft.isEmpty then
    match x.breplay.find? fun f => x.breplayLeft.head? == some f.seq with
    | some f => s.setPort p { x with
        breplayLeft := x.breplayLeft.drop 1, sinceBypass := 0, sent := .bypassFlit f.hdr f.slots
        breplay := x.breplay.map fun g => if g.seq = f.seq then { g with replays := g.replays + 1, since := g.since + 1 } else g }
    | none => s.setPort p { x with breplayLeft := x.breplayLeft.drop 1 }
  else
    let slots := x.slotsNow.map s.stampSlot
    let seqd := !slots.isEmpty && !slots.any Slot.unseq
    let mack := if x.nakDue then some (true, x.rxSeq)
      else if x.ackDue then some (false, (x.rxSeq + 65535) % 65536) else none
    let back := if x.bnakDue then some (true, x.rxB)
      else if x.backDue then some (false, (x.rxB + 255) % 256) else none
    let h : BypassHdr := { bseq := if seqd then x.txB else 0, seqd := seqd, back := back, mack := mack, rstart := x.rstart }
    s.setPort p { x with
      sent := .bypassFlit h slots, sinceBypass := 0
      bq := x.bq.drop slots.length
      txB := if seqd then (x.txB + 1) % 256 else x.txB
      breplay := if seqd then x.breplay ++ [⟨x.txB, h, slots, 0, 0⟩] else x.breplay
      bprogressAt := if seqd && x.breplay.isEmpty then s.now else x.bprogressAt
      ackDue := false, backDue := false, rstart := none
      unacked := if mack.isSome then 0 else x.unacked
      nakDue := false, nakSent := if x.nakDue then some s.now else x.nakSent
      bnakDue := false, bnakSent := if x.bnakDue then some s.now else x.bnakSent
      keys := if mack.isSome && x.rxSwitched then x.keys.take 1 else x.keys
      rxSwitched := if mack.isSome then false else x.rxSwitched }

/-- Sends the next stored flit of a replay (R222). -/
def State.sendReplay (s : State) (p : Nat) : State :=
  let x := s.port p
  match x.replay.find? fun f => x.replayLeft.head? == some f.seq with
  | none => s.setPort p { x with replayLeft := x.replayLeft.drop 1 }
  | some f =>
    (s.setPort p { x with
      replayLeft := x.replayLeft.drop 1, sinceBypass := x.sinceBypass + 1, sent := .data f true
      replay := x.replay.map fun g =>
        if g.seq = f.seq then { g with replays := g.replays + 1, since := g.since + 1 } else g }).chargeDev 3 3100

/-- Sends a new flit of the chosen packet (R212, R214, R219, R220, R234, R260, R267). A KEYX starts
after 2^32 flits under one key (R235). -/
def State.sendNew (s : State) (p i : Nat) (e : Egress) : State :=
  let x := s.port p
  let n := e.fill
  let txq := if e.left ≤ n then x.txq.eraseIdx i
    else x.txq.set i { e with left := e.left - n, started := true }
  let f : Flit := { seq := x.txSeq, vc := e.vc, fill := n, enc := x.encrypted,
                    epoch := x.encrypted && x.epoch % 2 == 1, counter := x.keyCount,
                    ackReq := decide (1536 ≤ x.replay.length), replays := 0, since := 0,
                    ends := if e.left ≤ n then [e.msg] else [] }
  let x1 := s.afterFlit x e txq
  let x2 := { x1 with
    txq := txq, txSeq := (x.txSeq + 1) % 65536, replay := x.replay ++ [f]
    progressAt := if x.replay.isEmpty then s.now else x.progressAt
    txCred := if e.started then x.txCred else modAt x.txCred e.vc (· - cdiv (Msg.bytes e.msg) 64)
    keyCount := if x.encrypted then x.keyCount + 1 else x.keyCount
    sinceBypass := x.sinceBypass + 1, sent := .data f false }
  let s1 := ((s.takeShape p e).setPort p x2).charge e.deckle e.cls 3 3100
  if x.encrypted && x2.keyCount == 2 ^ 32 then s1.startKeyx p else s1

/-- A new DATA flit may be sent: the replay buffer has room and the key is not used up (R220, R235). -/
def Port.mayNew (x : Port) : Bool := x.replay.length < 2048 && !(x.encrypted && 2 ^ 33 ≤ x.keyCount)

/-- FLIT_TRANSMIT (R209, R258): the start of a replay and due acknowledgements in the bypass
opportunity, then replays, then new data, then an IDLE flit. In training only bypass flits move. -/
def execFlitTransmit (port : Nat) (s : State) : Host.Outcome State Fault Refusal :=
  let x := s.port port
  .next <| match x.train with
  | .active =>
    let new := if x.mayNew then s.choose port else none
    let waiting := !x.replayLeft.isEmpty || new.isSome
    let narrow := x.width == 1 && waiting && !x.owed.all (· == 0)
    let open_ := !waiting || 16 ≤ x.sinceBypass
    if x.rstart.isSome || (open_ && (x.wantsBypass || narrow)) then
      (if narrow then s.returnCredits port else s).sendBypass port
    else if !x.replayLeft.isEmpty then s.sendReplay port
    else match new with
      | some (i, e) => s.sendNew port i e
      | none => s.setPort port { x with sent := .idle, sinceBypass := x.sinceBypass + 1 }
  | .param | .start | .keying =>
    if x.wantsBypass then s.sendBypass port else s.setPort port { x with sent := .idle }
  | _ => s

/-! ## Receiving (R211, R219–R223) -/

/-- A bad or out-of-order DATA flit draws a NAK, unless one is out (R221). -/
def State.nak (s : State) (p : Nat) : State :=
  s.modPort p fun x => if x.nakSent.isSome then x else { x with nakDue := true }

/-- The same for bypass flits (R223). -/
def State.bnak (s : State) (p : Nat) : State :=
  s.modPort p fun x => if x.bnakSent.isSome then x else { x with bnakDue := true }

/-- DATA flits reach the port: it is active, or the last steps of a full training remain. -/
def Port.hears (x : Port) : Bool :=
  x.train == .active || x.train == .keying || (x.full && x.train == .start)

/-- An encrypted flit can be checked only under a key the port holds with its EPOCH parity (R235). -/
def Port.keyFor (x : Port) (f : DataFlit) : Bool := !f.enc || x.keys.any fun e => (e % 2 == 1) == f.epoch

/-- DATA_FLIT_RECEIVE (R211, R214, R219–R221): accepted, a duplicate, or NAKed. An accepted flit
occupies the buffer of the packets it completes until their command frees it. -/
def execDataFlitReceive (port : Nat) (f : DataFlit) (s : State) : Host.Outcome State Fault Refusal :=
  let x := s.port port
  .next <|
    if !x.hears then s
    else if !(f.good && x.keyFor f) then s.nak port
    else if f.seq = x.rxSeq then
      let n := x.unacked + 1
      s.setPort port { x with
        rxSeq := (x.rxSeq + 1) % 65536
        nakSent := none, nakDue := false
        unacked := n, unackedAt := if x.unacked = 0 then s.now else x.unackedAt
        ackDue := x.ackDue || f.ackReq || decide (32 ≤ n)
        rxUsed := modAt x.rxUsed f.vc (· + f.credits)
        rxHeld := modAt x.rxHeld f.vc (· - f.credits)
        rxSwitched := x.rxSwitched || (f.enc && 2 ≤ x.keys.length && ((x.keys.headD 0) % 2 == 1) == f.epoch) }
    else if seqBefore 65536 f.seq x.rxSeq then s
    else s.nak port

/-- IDLE_FLIT_RECEIVE (R212, R221): a good one is discarded; a bad one draws a NAK, since its KIND
cannot be trusted. -/
def execIdleFlitReceive (port : Nat) (good : Bool) (s : State) : Host.Outcome State Fault Refusal :=
  .next (if good || !(s.port port).hears then s else s.nak port)

/-- A MACK arrives (R222): flits before it are freed, and a NAK replays from it unless it is at or
below the newest acknowledged flit or equals the next new SEQ. -/
def State.mack (s : State) (p : Nat) (nak : Bool) (n : Nat) : State :=
  let x := s.port p
  if nak then
    if n = x.txSeq ∨ !(x.replay.any fun f => f.seq == n) then s
    else (s.freeBefore p n).replayFrom p n
  else if x.replay.any fun f => f.seq == n then s.freeBefore p ((n + 1) % 65536)
  else s

/-- A BACK arrives (R223). -/
def State.back (s : State) (p : Nat) (nak : Bool) (n : Nat) : State :=
  let x := s.port p
  if nak then
    if n = x.txB ∨ !(x.breplay.any fun f => f.seq == n) then s
    else (s.freeBefore8 p n).replayFrom8 p n
  else if x.breplay.any fun f => f.seq == n then s.freeBefore8 p ((n + 1) % 256)
  else s

/-- BYPASS_FLIT_RECEIVE (R213, R221–R223): sequence, then the acknowledgement fields. The messages
its slots carry are commands of their own. -/
def execBypassFlitReceive (port : Nat) (b : BypassHdr) (good : Bool) (s : State) :
    Host.Outcome State Fault Refusal :=
  let x := s.port port
  .next <|
    if x.train == .off || x.train == .down || x.train == .detect then s
    else if !good then s.bnak port
    else
      let s1 :=
        if !b.seqd then s
        else if b.bseq = x.rxB then
          s.setPort port { x with rxB := (x.rxB + 1) % 256, backDue := true, bnakSent := none, bnakDue := false }
        else if seqBefore 256 b.bseq x.rxB then s
        else s.bnak port
      let s2 := if b.rstart.isSome then s1.modPort port fun y => { y with nakSent := none } else s1
      let s3 := match b.back with | some (n, q) => s2.back port n q | none => s2
      match b.mack with
      | some (n, q) => if (s3.port port).train == .active then s3.mack port n q else s3
      | none => s3

/-! ## Credits -/

/-- CREDIT (R214): credits of each channel, held up to 65,535. -/
def execCredit (port : Nat) (counts : List Nat) (s : State) : Host.Outcome State Fault Refusal :=
  .next <| s.modPort port fun x =>
    if x.train == .active || x.train == .keying || x.train == .start then
      { x with txCred := (List.range 6).map fun v => min 65535 (at0 x.txCred v + at0 counts v) }
    else x

/-- The last step of a full training: KEYING when encryption applies (R232), else ACTIVE. -/
def State.trained (s : State) (p : Nat) : State :=
  let x := s.port p
  let capable := (x.partner.map (·.encCapable)).getD false
  let asked := (x.partner.map (·.encRequired)).getD false
  if s.encRequired && !capable then s.portDown p 3
  else if capable && s.sec.ready && (s.encRequired || asked) then
    (s.modPort p fun y => { y with train := .keying }).startKeyx p
  else s.becomeActive p

/-- CREDIT_INIT (R214): the partner's initial credits end START of a full training. -/
def execCreditInit (port : Nat) (counts : List Nat) (s : State) : Host.Outcome State Fault Refusal :=
  let x := s.port port
  .next <|
    if x.train == .start && x.full then
      (s.setPort port { x with txCred := (List.range 6).map fun v => min 65535 (at0 counts v) }).trained port
    else s

/-- CREDIT_RETURN_TIMER (R218): 100 ns with credits owed; in bulk mode shared credits are granted
with them (R217). -/
def execCreditReturnTimer (port : Nat) (s : State) : Host.Outcome State Fault Refusal :=
  let x := s.port port
  .next (if x.owed.all (· == 0) || !x.up then s else (s.grantShared port).returnCredits port)

/-! ## Training (Table 13.8) -/

/-- DETECT_POLL (R227): a port in DETECT that finds its partner's signal begins a full training. -/
def execDetectPoll (port : Nat) (signal : Bool) (s : State) : Host.Outcome State Fault Refusal :=
  let x := s.port port
  .next <|
    if (x.train == .detect || (x.train == .off && !(s.pkg.coldLow || s.pkg.warmLow))) && signal then
      s.setPort port { x with train := .equalise, full := true }
    else if x.train == .off && !(s.pkg.coldLow || s.pkg.warmLow) then s.setPort port { x with train := .detect }
    else s

/-- EQUALISE_DONE (R226): ALIGN begins. -/
def execEqualiseDone (port : Nat) (s : State) : Host.Outcome State Fault Refusal :=
  let x := s.port port
  .next (if x.train == .equalise then s.setPort port { x with train := .align } else s)

/-- ALIGN_DONE (R226): the lanes that passed; an excluded lane is tried again only at the next full
training. PARAM begins and the parameters are sent. -/
def execAlignDone (port passed : Nat) (s : State) : Host.Outcome State Fault Refusal :=
  let x := s.port port
  let lanes := (if x.full then passed else passed &&& x.lanes) % 256
  let a : ParamA := { linkId := s.linkId port, lanes := lanes, maxWidth := 8, encRequired := s.encRequired,
                      encCapable := true, poolDevice := true }
  .next <|
    if x.train == .align then
      if lanes = 0 then s.portDown port 1
      else s.setPort port { x with train := .param, lanes := lanes, partner := if x.full then none else x.partner,
                                   gotB := false, gotA := false
                                   bq := [.paramA a, .paramB 80 4 10] ++ x.bq }
    else s

/-- Both parameters of the partner are known: identities (R225), width and lane group (R226), and
START with CREDIT_INIT or RESUME (Table 13.8). The partner holds what it is advertised. -/
def State.paramsDone (s : State) (p : Nat) : State :=
  let x := s.port p
  match x.partner with
  | none => s
  | some a =>
    if !(x.gotA && x.gotB) then s
    else if a.linkId = s.linkId p then s.portDown p 4
    else
      let limit := min (min 8 a.maxWidth) (if x.reqWidth = 0 then 8 else x.reqWidth)
      match resolveWidth limit (x.lanes &&& a.lanes) with
      | none => s.portDown p 1
      | some (w, g) =>
        let init := (List.range 6).map fun v => initCredits s.part.bulk v
        let y := { x with train := .start, width := w, active := g }
        s.setPort p (if x.full then
            { y with bq := x.bq ++ [.creditInit init], rxHeld := init, rxUsed := [0, 0, 0, 0, 0, 0], owed := [0, 0, 0, 0, 0, 0] }
          else { y with bq := [.resume x.rxSeq x.rxB] ++ x.bq })

/-- PARAM_A (R225, R226). -/
def execParamA (port : Nat) (p : ParamA) (s : State) : Host.Outcome State Fault Refusal :=
  let x := s.port port
  .next <| if x.train == .param then
      (s.setPort port { x with partner := some p, gotA := true }).paramsDone port
    else s

/-- PARAM_B (R224): the larger timers and the smaller replay limit hold. -/
def execParamB (port ackTimer replayLimit downWindow rsvd : Nat) (s : State) : Host.Outcome State Fault Refusal :=
  let _ := rsvd
  let x := s.port port
  .next <| if x.train == .param then
      (s.setPort port { x with gotB := true, ackTimer := max 80 ackTimer, replayLimit := min 4 replayLimit,
                               downWindow := max 10 downWindow }).paramsDone port
    else s

/-- RETRAIN (R227, R228): a fast retrain on the partner's request; when both ask, the lower
identity leads. -/
def execRetrain (port linkId width cause rsvd : Nat) (s : State) : Host.Outcome State Fault Refusal :=
  let _ := (cause, rsvd)
  let x := s.port port
  let c := if width = 0 then 2 else 3
  .next <|
    if x.train == .active then s.startRetrain port c width false
    else if x.train == .align && !x.full && linkId < s.linkId port then
      s.setPort port { x with reqWidth := width, cause := c }
    else s

/-- ALIGN_PATTERN_SEEN (R227): the port follows into a fast retrain. -/
def execAlignPatternSeen (port : Nat) (s : State) : Host.Outcome State Fault Refusal :=
  .next (if (s.port port).train == .active then s.startRetrain port 2 0 false else s)

/-- RESUME (R229): everything before the partner's expected numbers is freed, the rest is replayed,
and the port is active again. -/
def execResume (port nextMain nextBypass rsvd : Nat) (s : State) : Host.Outcome State Fault Refusal :=
  let _ := rsvd
  let x := s.port port
  .next <|
    if x.train == .start && !x.full then
      ((s.freeBefore port nextMain).freeBefore8 port nextBypass).becomeActive port
    else s

/-- TRAINING_FAIL (R225, R227): a training state exceeds its bound, or both sides present one
identity. -/
def execTrainingFail (port : Nat) (s : State) : Host.Outcome State Fault Refusal :=
  let x := s.port port
  let same := (x.partner.map fun a => a.linkId == s.linkId port).getD false
  .next <| match x.train with
    | .equalise | .align | .param | .start => s.portDown port (if same then 4 else 1)
    | _ => s

/-- LANE_SIGNAL_LOSS (R227): some but not all active lanes lose signal for 1 µs. -/
def execLaneSignalLoss (port lanes : Nat) (s : State) : Host.Outcome State Fault Refusal :=
  let x := s.port port
  let lost := lanes &&& x.active
  .next <|
    if x.train == .active && lost != 0 && lost != x.active then s.startRetrain port 1 0 true else s

/-- LANE_ERROR_RATE (R227). -/
def execLaneErrorRate (port lane : Nat) (s : State) : Host.Outcome State Fault Refusal :=
  let x := s.port port
  .next (if x.train == .active && bitOf x.active lane then s.startRetrain port 1 0 true else s)

/-- ALL_LANES_SIGNAL_LOSS (R227, R230). -/
def execAllLanesSignalLoss (port : Nat) (s : State) : Host.Outcome State Fault Refusal :=
  .next <| match (s.port port).train with
    | .off | .detect | .down => s
    | _ => s.portDown port 2

/-- LINK_DOWN_WAIT_EXPIRE (R227): 10 ms after going down the port is in DETECT again. -/
def execLinkDownWaitExpire (port : Nat) (s : State) : Host.Outcome State Fault Refusal :=
  let x := s.port port
  .next <|
    if x.train == .down then (s.reach (x.downAt + 10000000)).modPort port fun y => { y with train := .detect } else s

/-! ## Key exchange -/

/-- KEYX (R233): processed when the hub and the security block can; until then it waits (R231). -/
def execKeyx (port : Nat) (m : KeyxMsg) (s : State) : Host.Outcome State Fault Refusal :=
  let x := s.port port
  .next <|
    if x.train == .active || x.train == .keying then
      if s.canKey then s.takeKeyx port m else s.setPort port { x with keyxGot := some m }
    else s

/-- KEYX_TIMEOUT (R232): in open mode the port goes down with CAUSE 3. -/
def execKeyxTimeout (port : Nat) (s : State) : Host.Outcome State Fault Refusal :=
  .next <| match (s.port port).keyx with
    | some t => if s.part.bulk then s else (s.reach (t + 10000000)).portDown port 3
    | none => s

/-! ## Timers -/

/-- ACK_TIMER_EXPIRE (R220). -/
def execAckTimerExpire (port : Nat) (s : State) : Host.Outcome State Fault Refusal :=
  let x := s.port port
  .next <|
    if x.unacked = 0 then s
    else (s.reach (x.unackedAt + x.ackTimer)).modPort port fun y => { y with ackDue := true }

/-- NAK_TIMER_EXPIRE (R221, R223): the receiver may NAK again. -/
def execNakTimerExpire (port : Nat) (bypass : Bool) (s : State) : Host.Outcome State Fault Refusal :=
  let x := s.port port
  .next <| match (if bypass then x.bnakSent else x.nakSent) with
    | some t => (s.reach (t + 1000)).modPort port fun y =>
        if bypass then { y with bnakSent := none } else { y with nakSent := none }
    | none => s

/-- REPLAY_TIMER_EXPIRE (R222, R223): a replay from the oldest stored flit. -/
def execReplayTimerExpire (port : Nat) (bypass : Bool) (s : State) : Host.Outcome State Fault Refusal :=
  let x := s.port port
  let wait := 2000 + 2 * x.ackTimer
  .next <|
    if x.train != .active then s
    else if bypass then
      match x.breplay with
      | f :: _ => (s.reach (x.bprogressAt + wait)).replayFrom8 port f.seq
      | [] => s
    else match x.replay with
      | f :: _ => (s.reach (x.progressAt + wait)).replayFrom port f.seq
      | [] => s

/-! ## Device endpoints (R242) -/

/-- PEER_CLAIM_TIMEOUT (R242): 1 ms after ACTIVE without the partner's claim. -/
def execPeerClaimTimeout (port : Nat) (s : State) : Host.Outcome State Fault Refusal :=
  .next <| match (s.port port).peerWait with
    | some t => ((s.reach (t + 1000000)).modPort port fun x => { x with peerWait := none }).announce 1 port
    | none => s

/-- DEVICE_ENDPOINT_LEASE_TICK (R242): one LEASE for each deckle named as REMOTE_DECKLE. -/
def execDeviceEndpointLeaseTick (port : Nat) (s : State) : Host.Outcome State Fault Refusal :=
  let x := s.port port
  .next <| match x.ownEp with
    | some e => if x.train == .active then
        x.remoteDeckles.foldl (fun a d => a.bypassSlot port (.lease e d)) s
      else s
    | none => s

end Sys2Proof.Machine
end

