-- ==== Sys2Proof/Machine/Standby.lean ====
section
/-! DEFINITION. The standby's side of the pair (chapter 18): applying the mirror stream (R306, R309,
R310), its health (R313), and what leaves a device that stops serving. -/

namespace Sys2Proof.Machine

/-! ## Packets of the pair -/

/-- Changes the pair state. -/
def State.modPair (s : State) (f : Pair → Pair) : State := { s with pair := f s.pair }

/-- The pair enters a state of Table 18.9. -/
def State.setPair (s : State) (p : PState) : State :=
  s.modPair fun x => { x with state := p, since := if x.state = p then x.since else s.dom }

/-- Ports 62 and 63. -/
def isPairPort (p : Nat) : Bool := p == 62 || p == 63

/-- The pair ports that carry packets. -/
def State.pairPorts (s : State) : List Nat := [62, 63].filter fun p => s.portActive p

/-- The pair is formed (R305). -/
def State.paired (s : State) : Bool := s.pair.role != .none

/-- A mirror packet of `bytes` bytes on a VC arrives: it frees its receive buffer, and one that the
port cannot carry is discarded and counted (R305). -/
def State.takeMir (s : State) (port vc bytes : Nat) (ok : Bool) (go : State → State) : State :=
  let s0 := s.freeBuf port vc (cdiv bytes 64)
  if isPairPort port && s0.portActive port && ok then go s0 else s0.discardPkt port

/-- This device as its partner checks it (R305). -/
def State.pairInfo (s : State) : PartnerInfo :=
  { linkId := s.linkId 62, order := s.orderField, stepping := 0xB1, bulk := s.part.bulk
    farPop := s.board.far.map fun f => if f.populated then (f.modules, f.chGib) else (0, 0)
    laid62 := s.laid.tables.any fun t => t.2.entries.any fun e => 62 ≤ e.port }

/-- Sends a pair control message on the first pair port that carries packets (Table 18.2). -/
def State.sendCtrl (s : State) (k : MirCtrlKind) : State :=
  match s.pairPorts with
  | p :: _ => s.enqueue p 5 61 0 (.mirCtrl k { mseq := s.pair.mseq, promote := k == .promote, term := s.pair.term } s.pairInfo)
  | [] => s

/-- The heartbeat the device sends (R312, Table 18.3). -/
def State.heartbeat (s : State) : MirExt :=
  { mseq := s.pair.mseq, hubOk := s.fwRuns, promote := s.pair.promoteHb
    solo := s.pair.role == .active && s.pair.state == .linkLost, term := s.pair.term }

/-- Sends a heartbeat on each trained pair port. -/
def State.sendHb (s : State) : State := s.pairPorts.foldl (fun a p => a.enqueue p 5 61 0 (.mirHb s.heartbeat)) s

/-! ## Health (R313, Tables 18.4 and 18.5) -/

/-- A bit per number below `n` that passes a test. -/
def maskBelow (n : Nat) (f : Nat → Bool) : Nat :=
  ((List.range n).filter f).foldl (fun a i => a + 2 ^ i) 0

/-- Unit `u` of a group is in service. -/
def State.unitServes (s : State) (g u : Nat) : Bool := (g == 0 || s.populated.contains (g - 1)) && !(s.group g).failed.contains u

/-- STATE of each parity group (Table 17.6); 0 for an unpopulated far die. -/
def State.groupStates (s : State) : List Nat :=
  (List.range 5).map fun g => if g = 0 || s.populated.contains (g - 1) then (s.group g).stateCode else 0

/-- Age of the oldest record that has arrived and is not applied. -/
def State.lagNs (s : State) : Nat := (s.pair.early.map fun r => s.now - r.2.2).foldl max 0

/-- A fresh health report. -/
def State.report18 (s : State) : Health :=
  { hubOk := !s.pair.hubBad, securityOk := !s.pair.secBad
    pairPorts := b2n (s.portActive 62) + 2 * b2n (s.portActive 63)
    patrolLate := s.pair.patrolLate
    ceStorm := (s.mem.stormAt.map fun t => decide (s.now < t + 1000000000)).getD false
    coresOk := maskBelow 32 fun c => !s.pair.badCores.contains c
    stacksOk := maskBelow 18 fun u => s.unitServes 0 u
    channelsOk := maskBelow 40 fun i => s.unitServes (i / 10 + 1) (i % 10)
    groups := s.groupStates
    appliedMseq := s.pair.mseq, lagNs := sat 32 s.lagNs
    lanesFailed := sat 16 s.pair.badLanes.length, tjMax := s.tjMax, reportNs := s.dom }

/-- Bits set in a mask of `n`. -/
def onesBelow (n v : Nat) : Nat := ((List.range n).filter fun i => bitOf v i).length

/-- The grade of R313: 0 GREEN, 1 YELLOW, 2 RED. -/
def gradeOf (h : Health) : Nat :=
  if !h.hubOk || !h.securityOk || h.groups.contains 3 || onesBelow 32 h.coresOk < 16 || 10000000 < h.lagNs then 2
  else if onesBelow 32 h.coresOk < 32 || h.groups.any (· != 0) || h.pairPorts != 3 || h.patrolLate || h.ceStorm || h.lanesFailed != 0
  then 1
  else 0

/-- Table 18.5 with an AGE_NS. -/
def healthBits (h : Health) (age : Nat) : Nat :=
  pack [(2, gradeOf h), (1, b2n h.hubOk), (1, b2n h.securityOk), (2, h.pairPorts), (1, b2n h.patrolLate), (1, b2n h.ceStorm),
    (32, h.coresOk), (18, h.stacksOk), (6, 0), (40, h.channelsOk), (10, pack (h.groups.map fun g => (2, g))), (14, 0),
    (64, h.appliedMseq), (32, h.lagNs), (16, h.lanesFailed), (16, h.tjMax), (64, h.reportNs), (64, age), (640, 0)]

/-! ## Applying records (R306, R309) -/

/-- The key a mirrored line is stored under: its deckle's for the line's epoch (R306, R331). -/
def State.mirKey (s : State) (d epoch : Nat) : Nat := (s.epochKey d epoch).getD 0

/-- Stores one mirrored line as a whole-line write, which costs its write class here too (R309, R310). -/
def State.applyLine (s : State) (t : Tier) (line : Nat) (l : MirLine) : State :=
  let c : Cell := { data := l.data, deckle := l.deckle, epoch := l.epoch, key := s.mirKey l.deckle l.epoch, gen := l.gen,
                    poisoned := l.poisoned, err := 0#640 }
  let s1 := (s.closeAsmOf t line).storeCell t line c false
  let s2 := if l.poisoned then s1 else s1.unpoison t line
  (s2.chargeTier l.deckle 8 t (writePj t false false) 1).modPair fun p => { p with reqLines := p.reqLines ++ [cellKey t line] }

/-- The last record of a request: stripes that its lines cover were written whole, so their parity is
formed afresh (R45, R309). -/
def State.endRequest (s : State) : State :=
  let refs := s.pair.reqLines.map fun k =>
    ({ tier := if k / 2 ^ 40 = 0 then .t1 else if k / 2 ^ 40 = 1 then .t2 else .staging, line := k % 2 ^ 40, extent := 0, gen := 0, deckle := 0 } : LineRef)
  let full := fullStripes refs
  let rows := (refs.filter fun r => full.contains r.stripe).map fun r => rowKey r.tier r.line
  let kept := s.mem.parityErr.keep fun k _ => !rows.contains k
  { s with mem := { s.mem with parityErr := kept }, pair := { s.pair with reqLines := [] } }

/-- A link request of which lines have arrived (Table 18.7). -/
def State.noteReq (s : State) (x : MirExt) (lines : List MirLine) : State :=
  if x.fw then s
  else
    let q : LinkReq := { ep := x.ep, rtag := x.rtag, deckle := (lines.head?.map (·.deckle)).getD 0, mseq := x.mseq }
    s.modPair fun p => { p with linkReqs := p.linkReqs.filter (fun r => !(r.ep == x.ep && r.rtag == x.rtag)) ++ [q] }

/-- A granule's record: one that has been zeroed since holds zero lines only (R64). -/
def State.applyGranule (s : State) (key : Nat) (x : Option Granule) : State :=
  let old := s.part.granules.find key
  let zeroed : Bool := match x with
    | some g => g.zero.isSome && !((old.map fun o => o.gen == g.gen && o.zero.isSome).getD false)
    | none => false
  let mine := fun (k : Nat) => granOf k == key
  let s1 := { s with part := { s.part with granules := s.part.granules.set key x } }
  if zeroed then
    { s1 with mem := { s1.mem with
      cells := s1.mem.cells.keep fun k _ => !mine k, parityErr := s1.mem.parityErr.keep fun k _ => !mine k } }
  else s1.canon

/-- A deckle's record: its keys enter the key store, unwrapped from under the pair key, and those it no
longer has are destroyed (R306, R331). -/
def State.applyDeckle (s : State) (d : Nat) (x : Option Deckle) : State :=
  let keysOf := fun (k : Option Deckle) => match k with
    | some y => y.key :: (y.sweep.map (·.oldKey)).toList
    | none => []
  let new := keysOf x
  let gone := (keysOf (s.part.deckles.find d)).filter fun k => !new.contains k
  let keys := (s.sec.keys.filter fun k => !gone.contains k && !new.contains k) ++ new
  let here := x.map fun y => { y with
    policer := { y.policer with last := s.now }, shaper := { y.shaper with last := s.now }
    energy := { y.energy with last := s.now }, refusedAt := none }
  { s with part := { s.part with deckles := s.part.deckles.set d here }, sec := { s.sec with keys := keys } }

/-- An identity's record (R236): a port of this device that it is bound to stays bound. -/
def State.applyEp (s : State) (ep : Nat) (x : Option (Nat × Nat)) : State :=
  let e := x.map fun y => match s.part.eps.find ep with
    | some o => if o.identity = y.1 ∧ s.portActive o.port then o else { o with identity := y.1, port := y.2 }
    | none => { identity := y.1, port := y.2, outst := [] }
  { s with part := { s.part with eps := s.part.eps.set ep e } }

/-- The last identifiers given on the active. -/
def State.setIds (s : State) (l : List Nat) : State :=
  { s with
    part := { s.part with lastExtent := at0 l 0 }
    rgn := { s.rgn with lastRegion := at0 l 1, lastDraft := at0 l 2, lastHandle := at0 l 3 }
    lode := { s.lode with lastLode := at0 l 4 }
    eng := { s.eng with lastKernel := at0 l 5 }
    attn := { s.attn with lastSeq := at0 l 6 }
    retr := { s.retr with lastIndex := at0 l 7 }
    sec := { s.sec with lastKey := max s.sec.lastKey (at0 l 8) } }

/-- Applies a metadata record. -/
def State.applyMeta (s : State) (r : MetaRec) : State :=
  match r with
  | .deckle i x => s.applyDeckle i x
  | .extent i x => { s with part := { s.part with extents := s.part.extents.set i x } }
  | .granule k x => s.applyGranule k x
  | .lease k x => { s with part := { s.part with leases := s.part.leases.set k x } }
  | .reclaim k x => { s with part := { s.part with reclaims := s.part.reclaims.set k x } }
  | .endpoint i x => s.applyEp i x
  | .migration i x => { s with mem := { s.mem with migr := s.mem.migr.set i x } }
  | .region i x => { s with rgn := { s.rgn with regions := s.rgn.regions.set i x } }
  | .draft i x => { s with rgn := { s.rgn with drafts := s.rgn.drafts.set i x } }
  | .handle i x => { s with rgn := { s.rgn with handles := s.rgn.handles.set i x } }
  | .lode i x => { s with lode := { s.lode with lodes := s.lode.lodes.set i x } }
  | .kernel i x => { s with eng := { s.eng with kernels := s.eng.kernels.set i x } }
  | .seq i x => { s with attn := { s.attn with seqs := s.attn.seqs.set i x } }
  | .map i x => { s with form := { s.form with maps := s.form.maps.set i x } }
  | .index i x => { s with retr := { s.retr with indexes := s.retr.indexes.set i x } }
  | .adapters l => { s with form := { s.form with adapters := l } }
  | .witnesses l => s.modPair fun p => { p with witnesses := l.map fun ep =>
      (p.witnesses.find? fun w => w.ep == ep).getD { ep := ep, lost := false, at_ := 0, lostNs := 0 } }
  | .trust i x => { s with link := { s.link with trust := s.link.trust.set i x } }
  | .laidSlot i x => { s with laid := { s.laid with tables := s.laid.tables.set i x } }
  | .laidRun a b c d => s.modPair fun p => { p with laidRun := (a, b, c, d) }
  | .ids l => s.setIds l
  | .item x ended => s.modPair fun p => { p with items := if ended then p.items.erase x else p.items ++ [x] }
  | .request r x => s.modPair fun p =>
      { p with requests := p.requests.set r (x.map fun o => { o with accepted := s.now, mseq := none }) }

/-- Applies one record. -/
def State.applyRec (s : State) (m : Msg) : State :=
  let s1 := match m with
    | .mirData x lines =>
      let a := (lines.zip (List.range lines.length)).foldl (fun (a : State) (l : MirLine × Nat) => a.applyLine x.tier (x.phys / 64 + l.2) l.1) s
      let b := (if x.resync then a.modPair fun p => { p with copyAt := max p.copyAt (cellKey x.tier (x.phys / 64) + lines.length) } else a).noteReq
        x lines
      if x.lastRec then b.endRequest else b
    | .mirMeta _ r => s.applyMeta r
    | _ => s
  s1.modPair fun p => { p with mseq := p.mseq + 1 }

/-- A record ends its request or commit (LASTREC). -/
def Msg.lastRec : Msg → Bool
  | .mirData x _ => x.lastRec
  | .mirMeta x _ => x.lastRec
  | _ => false

/-- The standby applies records: it stops when it promotes. -/
def State.applies (s : State) : Bool := s.pair.role == .standby && s.pair.promoting.isNone

/-- Applies the records that are next in MSEQ order; metadata waits for the hub. The flag: a record with
LASTREC was applied. -/
def State.applyNext : Nat → State → Bool → State × Bool
  | 0, s, last => (s, last)
  | n + 1, s, last =>
    match s.pair.early.find (s.pair.mseq + 1) with
    | none => (s, last)
    | some (m, _) =>
      let held := match m with | .mirMeta .. => !(s.fwRuns && s.hub.ready) | _ => false
      if held then (s, last)
      else
        let s1 := s.applyRec m
        State.applyNext n (s1.modPair fun p => { p with early := p.early.del s1.pair.mseq }) (last || m.lastRec)

/-- Sends MIR_ACK with the highest applied MSEQ (R310). -/
def State.sendAck (s : State) : State :=
  match s.pairPorts with
  | p :: _ => (s.enqueue p 1 61 0 (.mirAck s.pair.mseq)).modPair fun x => { x with ackOwed := false, ackSent := x.mseq }
  | [] => s

/-- The copy has ended and every record of it is applied: the standby is IN_SYNC (R308). -/
def State.syncReached (s : State) : State :=
  match s.pair.syncEnd with
  | some n => if n ≤ s.pair.mseq then
      (s.setPair .inSync).modPair fun p => { p with syncEnd := none, synced := true, detached := false }
    else s
  | none => s

/-- Applies what can be applied, and acknowledges at once after a record with LASTREC (R310). -/
def State.applyAll (s : State) : State :=
  if !s.applies then s
  else
    let x := State.applyNext s.pair.early.length s false
    let s1 := x.1.syncReached
    if x.2 then s1.sendAck
    else if x.1.pair.mseq = s.pair.mseq || s1.pair.ackOwed then s1
    else s1.modPair fun p => { p with ackOwed := true, owedAt := s.now }

/-! ## Leaving service -/

/-- Nothing that was admitted goes on: what the other device answers, or nobody does (Table 18.7). The
command with reply `keep` and the bedrock commands stay outstanding. -/
def State.abandon (s : State) (keep : Option Nat) : State :=
  let s1 := s.part.eps.foldl (fun a e => e.2.outst.foldl (fun b r => (b.closeReq e.1 r.tag).1) a) s
  let s2 := s1.eng.work.keys.foldl (fun a w => a.freeWork w) s1
  let ls := s2.lode.lodes.each fun _ l => { l with work := [], leaving := [] }
  { s2 with
    part := { s2.part with fences := [] }
    lode := { s2.lode with lodes := ls }
    couch := { s2.couch with chans := [] }
    xlat := { s2.xlat with faults := [] }
    mem := { s2.mem with jobs := [], scrubs := [] }
    mbx := { s2.mbx with
      waiting := [], outst := s2.mbx.outst.filter fun o => 4096 ≤ o.2.box || keep == some o.1 } }

/-- Laid execution stops: the active table ends and none is pending. -/
def State.stopLaid (s : State) : State :=
  let s1 := { s with laid := { s.laid with pendSlot := none } }
  s1.endTable

/-- The device fences itself (R315): it serves nothing until BR_RESET with scope DEVICE. -/
def State.fence (s : State) : State :=
  ((s.abandon none).stopLaid.setPair .fenced).modPair fun p =>
    { p with role := .none, retained := [], reply := none, handover := none, promoting := none, fetches := [] }

/-- Every table of the mirrored metadata is emptied, but for the granules of a device that resyncs. -/
def State.dropMeta (s : State) (granules : Bool) : State :=
  { s with
    part := { s.part with
      deckles := [], extents := [], leases := [], reclaims := [], eps := [], fences := []
      granules := if granules then [] else s.part.granules }
    rgn := { s.rgn with regions := [], drafts := [], handles := [] }
    lode := { s.lode with lodes := [] }
    xlat := { s.xlat with faults := [], tlb := [] }
    eng := { s.eng with kernels := [] }
    attn := { s.attn with seqs := [] }
    form := { maps := [], adapters := [], cache := [] }
    retr := { s.retr with indexes := [] }
    link := { s.link with trust := [] }
    laid := { s.laid with tables := [] }
    mem := { s.mem with migr := [], poison := [] }
    pair := { s.pair with requests := [], items := [], witnesses := [] } }

/-- Memory keys are destroyed: no stored line has a key any more (R323). -/
def State.forgetKeys (s : State) : State :=
  State.canon { s with
    sec := { s.sec with keys := [] }
    mem := { s.mem with cells := s.mem.cells.each fun _ c => { c with key := 0 } } }

/-- Commands that are outstanding when a device becomes a standby end (log 55). -/
def State.abortOwn (s : State) : State :=
  let mine := s.mbx.outst.filter fun o => o.2.box < 4096
  mine.foldl (fun a o => a.answer o.1 (Ans.of .aborted)) s.abortWaiting

/-- An ARMED device becomes the standby of a pair (R306, R308): its own deckles, leases, identities and
tables give way to the active's (log 55), and its replies are numbered apart from the active's. -/
def State.becomeStandby (s : State) (x : MirExt) : State :=
  let s1 := ((s.abortOwn.abandon none).stopLaid.dropMeta true).forgetKeys
  { s1 with
    sec := { s1.sec with pairKey := true }
    hub := { s1.hub with driver := none, unattended := true }
    mbx := { s1.mbx with evEp := [], nextReply := s1.mbx.nextReply + 2 ^ 64 * (s1.board.deviceId + 1) }
    pair := { Pair.reset with
      state := .syncing, role := .standby, partnerId := s.pair.partnerId, term := x.term, mseq := x.mseq
      lastHb := s.now, lastHbDom := s.dom, since := s.dom, badCores := s.pair.badCores, badLanes := s.pair.badLanes
      hubBad := s.pair.hubBad, secBad := s.pair.secBad, patrolLate := s.pair.patrolLate } }

/-- A standby leaves the pair (R305): its only deckle is deckle 0, every granule never-written. The leases
of deckle 0 and their identities stay (log 55). -/
def State.blank (s : State) : State :=
  let ls := s.part.leases.keep fun k _ => k < 4096
  let es := s.part.eps.keep fun i _ => ls.has (leaseKey 0 i)
  let s1 := ((s.abandon none).dropMeta true).forgetKeys
  let k := s1.newKey
  { k.1 with
    part := { k.1.part with deckles := [(0, freshDeckle s.now k.2)], leases := ls, eps := es }
    sec := { k.1.sec with pairKey := false }
    pair := { Pair.reset with since := s.dom } }

end Sys2Proof.Machine
end

