-- ==== Sys2Proof/Machine/Promote.lean ====
section
/-! DEFINITION. Losing the pair link, going solo or fencing (R315, R316), and promotion with the
outcomes of Table 18.7 (R317, R318). -/

namespace Sys2Proof.Machine

/-! ## Fetched lines (R292, R311) -/

/-- Reads that waited for a partner's line try it again. -/
def State.wakeReads (s : State) (t : Tier) (line : Nat) : State :=
  let wake := fun (l : JobLine) => if l.tier == t && l.line == line then { l with recon := none } else l
  { s with mem := { s.mem with jobs := s.mem.jobs.each fun _ j => { j with lines := j.lines.map wake } } }

/-- A line whose fetch brought nothing is poisoned (R292), unless a write has formed it since. -/
def State.fetchFailed (s : State) (t : Tier) (line : Nat) : State :=
  match s.refAt t line with
  | none => s
  | some r => match (s.firstRead r).1 with
    | .recon _ => (s.poisonLine r 0).wakeReads t line
    | _ => s.wakeReads t line

/-- Every fetch in flight ends without a line. -/
def State.failFetches (s : State) : State :=
  let fs := s.pair.fetches
  fs.foldl (fun a f => a.fetchFailed f.tier f.line) (s.modPair fun p => { p with fetches := [] })

/-! ## Answers that waited for the standby -/

/-- What waited for an acknowledgement goes on (R310). -/
def State.pumpMir (s : State) : State := s.answerCommitted.finishJobs.pumpLodes.pumpReady.pumpCouch

/-! ## Going solo (R315, R316) -/

/-- Granules of an extent that the copy has not reached. -/
def State.uncopied (s : State) (x : Nat) (e : Extent) : List Nat :=
  (List.range e.granules).filter fun g =>
    s.pair.copyAt < cellKey e.tier ((e.lineAt x (g * 32768)).line + 32768)

/-- Lines of a record that was not acknowledged: their granules are dirty (R316). -/
def State.dirtyRec (s : State) (r : MirRec) : State :=
  match r.msg with
  | .mirData x lines => (List.range lines.length).foldl (fun a i =>
      match a.refAt x.tier (x.phys / 64 + i) with
      | some q => a.markDirty q
      | none => a) s
  | _ => s

/-- The active goes solo (R315): it acknowledges locally from now on, and its dirty map starts with what
the standby has not acknowledged or been sent. -/
def State.goSolo (s : State) (cause : Nat) : State :=
  let syncing := s.pair.state == .syncing
  let s1 := s.setPair .linkLost
  let s2 := if syncing then
      { s1 with part := { s1.part with extents := s1.part.extents.each fun i e =>
          if e.mir then { e with dirty := (e.dirty ++ s1.uncopied i e).eraseDups } else e } }
    else s1
  let s3 := s.pair.retained.foldl (fun a r => a.dirtyRec r) s2
  let s4 := (s3.modPair fun p => { p with retained := [], promoteHb := false }).failFetches
  let s5 := s4.raise 0x0901 .device 0 (pack [(2, cause), (62, 0), (64, s.pair.acked), (224, 0)])
  let s6 := match s.pair.reply with
    | some r => if s.pair.handover.isSome then
        (s5.modPair fun p => { p with reply := none, handover := none, handed := false }).answer r (Ans.of .notReady 31)
      else s5
    | none => s5
  s6.pumpMir

/-- The port of a witness has been ACTIVE throughout the last 1 ms (R315). -/
def State.witnessUp (s : State) (w : Witness) : Bool :=
  match s.part.eps.find w.ep with
  | some e => s.portActive e.port && decide ((s.port e.port).activeAt + 1000000 ≤ s.now)
  | none => false

/-- More than half of the registered witnesses pass a test (R314). -/
def State.majority (s : State) (f : Witness → Bool) : Bool :=
  decide (s.pair.witnesses.length < 2 * (s.pair.witnesses.filter f).length)

/-- The active decides between going solo and fencing (R315). One that has already sent PROMOTE in a
handover fences (log 57). -/
def State.decideLoss (s : State) (cause : Nat) : State :=
  if s.pair.handed then s.fence
  else if s.pair.witnesses.isEmpty || s.majority s.witnessUp then s.goSolo cause else s.fence

/-! ## Promotion (R317, R318) -/

/-- The conditions of GUARANTEE as a standby can see them (R322). -/
def State.guaranteeSelf (s : State) : Bool :=
  s.pair.synced && !s.pair.detached && gradeOf s.report18 < 2 && !s.groupStates.contains 3

/-- A promotion begins: TERM counts it, and no further record is applied. -/
def State.startPromotion (s : State) (cause : Nat) : State :=
  s.modPair fun p => { p with
    term := (p.term + 1) % 2 ^ 32, promoting := some (cause, cause != 3 && s.guaranteeSelf), promoteAt := s.now
    promoteAfter := none, early := [] }

/-- The standby may promote itself: it was IN_SYNC, is not detached and not RED. -/
def State.promotable (s : State) : Bool :=
  s.applies && s.pair.synced && !s.pair.detached && gradeOf s.report18 < 2 &&
    (s.pair.state == .inSync || s.pair.state == .linkLost)

/-- PROMOTE from the active: obeyed, or counted and ignored (R317). -/
def State.takePromote (s : State) (cause : Nat) : State :=
  if s.promotable then s.startPromotion cause
  else if s.applies then s.modPair fun p => { p with promotesIgnored := sat 32 (p.promotesIgnored + 1), promoteAfter := none }
  else s

/-- A witness's REPORT counts for a promotion (R317). -/
def State.confirms (s : State) (w : Witness) : Bool :=
  w.lost && decide (s.now ≤ w.at_ + 3000000) && decide (w.lostNs ≤ s.pair.lastHbDom + 3000000)

/-- With heartbeats lost, a majority of the witnesses promotes the standby (R317). -/
def State.tryWitnesses (s : State) : State :=
  if s.pair.state == .linkLost && s.promotable && s.majority s.confirms then s.startPromotion 2 else s

/-! ## The outcomes of Table 18.7 -/

/-- Leases at a promotion (R68). -/
def Lease.promoted (l : Lease) (dom : Nat) : Lease :=
  match l.state with
  | .expired => l
  | _ => { l with state := .held, deadline := max (if l.state = .held then l.deadline else 0) (dom + l.duration * 1000000) }

/-- Tokens at a promotion: full or zero, as RESET_FILL gives (R265). -/
def Bucket.promoted (b : Bucket) (now : Nat) : Bucket :=
  { b with ctok := if b.resetFill then b.cbs * 1000 else 0, ptok := if b.resetFill then b.pbs * 1000 else 0, last := now }
def EnergyB.promoted (b : EnergyB) (now : Nat) : EnergyB :=
  { b with
    ctok := if b.resetFill then b.ceb * 1000000 else 0, ptok := if b.resetFill then b.peb * 1000000 else 0
    last := now, effC := b.cer, effP := b.per }

/-- Extents whose content the promotion loses: those without MIR; under FORCE also MIR extents that the
copy had not finished (R320). Deckle 0's control extent is no extent of these (log 56). -/
def State.loses (s : State) (force : Bool) (x : Nat) (e : Extent) : Bool :=
  x != 0 && (!e.mir || (force && !s.pair.synced && (!(s.uncopied x e).isEmpty || (s.pair.resync && !e.dirty.isEmpty))))

/-- Replies that the new active still owes: their commands' commits reached it, and it completes them
(R71, R335, log 56). -/
def State.owedReplies (s : State) : List Nat :=
  (s.part.deckles.filterMap fun k => k.2.dissolving.map (·.reply))
  ++ (s.part.extents.filterMap fun e => e.2.revoke.bind (·.reply))
  ++ (s.part.extents.filterMap fun e => match e.2.state with | .zeroing r => r | _ => none)
  ++ s.part.reclaims.filterMap fun r => r.2.reply

/-- What becomes of a mirrored mailbox request (Table 18.7): none while it stays outstanding, else its
answer. REGION_PUBLISH and TABLE_SYNC answer ST_FAILED_OVER whatever came of them (R78, R102). -/
def State.requestEnd (s : State) (r : Nat) (o : Outst) : Option Ans :=
  if o.code = 0x0303 ∨ o.code = 0x0401 then some (Ans.of .failedOver)
  else match o.progress with
    | .committed a => some a
    | _ => if s.owedReplies.contains r then none else some (Ans.of .failedOver)

/-- Answers the mirrored mailbox requests; the handover's own is answered by the former active. The
number of those answered ST_FAILED_OVER. -/
def State.settleRequests (s : State) : State × Nat :=
  let rs := s.pair.requests.filter fun x => x.2.code != 0x0904 && x.2.req.via == .link && x.2.box < 4096
  rs.foldl (fun a x =>
    match s.requestEnd x.1 x.2 with
    | none => ({ a.1 with mbx := { a.1.mbx with outst := a.1.mbx.outst.put x.1 { x.2 with progress := .running } } }, a.2)
    | some y => (a.1.answerNow x.2.req x.2.code x.2.accepted y, a.2 + b2n (y.status == .failedOver)))
    (s.modPair fun p => { p with requests := [] }, 0)

/-- The completion of an admitted item: ST_FAILED_OVER, and what the failed active had measured of it is
open (log 11). -/
def State.itemCpl (s : State) (i : ItemRec) (f : Nat) : Nat :=
  let fr := fun k => Config.freeNat (f + k)
  if i.kind = 0x0001 then
    pack [(16, 0x0001), (8, statusCode .failedOver), (8, 0), (32, i.ctag), (16, 0), (5, fr 0 % 32), (11, 0), (32, fr 1 % 2 ^ 32), (32, 0),
      (32, fr 2 % 2 ^ 32), (64, fr 3 % 2 ^ 64), (64, fr 4 % 2 ^ 64), (64, fr 5 % 2 ^ 64), (64, fr 6 % 2 ^ 64), (5, i.arg), (59, 0)]
  else if i.kind = 0x0010 then
    couchCpl .failedOver false (fr 0 % 2 == 1) i.ctag (fr 1 % 2 ^ 32) (fr 2 % 2 ^ 16) (fr 3 % 2 ^ 16) (fr 4 % 2 ^ 32) 0 (fr 5 % 2 ^ 64)
      (fr 6 % 2 ^ 64) (fr 7 % 2 ^ 16) 0 (i.arg / 8) (i.arg % 8)
  else if i.kind = 0x0030 then
    topkCpl .failedOver i.ctag 0 (fr 0 % 2 ^ 32) (fr 1 % 2 ^ 32) (fr 2 % 2 ^ 32) (fr 3 % 2 ^ 32) (fr 4 % 2 ^ 32) (fr 5 % 2 ^ 64) (fr 6 % 32)
  else
    attnCpl i.kind .failedOver i.ctag i.arg (s.seqOf i.deckle i.arg) 0 (fr 0 % 2 ^ 32) (fr 1 % 2 ^ 32) (fr 2 % 2 ^ 64) (fr 3 % 2 ^ 21)
      (fr 4 % 32)

/-- Completes the mirrored items. -/
def State.settleItems (s : State) : State :=
  s.pair.items.foldl (fun a i =>
    ({ a with free := a.free + 8 }).sendCpl i.cplEp i.deckle i.cls i.queue (a.itemCpl i a.free)) (s.modPair fun p => { p with items := [] })

/-- Answers the link requests whose lines arrived. -/
def State.settleLink (s : State) : State :=
  s.pair.linkReqs.foldl (fun a q => a.sendEp q.ep 1 (a.queueOf q.deckle 0) q.deckle (.rsp q.ep q.rtag q.deckle .failedOver 0 0 [] true))
    (s.modPair fun p => { p with linkReqs := [] })

/-- Drafts at a promotion: an OPEN or a publish that was not committed leaves no trace (R78). -/
def State.settleDrafts (s : State) : State :=
  let owed := s.mbx.outst.keys
  let open_ := (s.rgn.drafts.filter fun d => (d.2.opening.map fun r => !owed.contains r).getD false).map Prod.fst
  let s1 := { s with rgn := { s.rgn with
    drafts := s.rgn.drafts.each fun _ d => { d with
      opening := none, sealed := d.sealed.filter fun r => owed.contains r }
    regions := s.rgn.regions.each fun _ r => { r with queue := [] } } }
  open_.foldl (fun a i => a.endDraft i 2) s1

/-- Every lode goes down with every line may-be-stale (R88, R89). -/
def State.settleLodes (s : State) : State :=
  let ls := s.lode.lodes.each fun _ l =>
    if l.down.isSome then { l with salvage := none }
    else { l with salvage := none, dir := (List.range l.lines).map fun i => (i, DirState.ownedExcl 0) }
  ({ s with lode := { s.lode with lodes := ls } }).lodesDown (fun _ _ => true) 3 0

/-- Migrations end, and a copy of tables that units still used is gone (R56, R102). -/
def State.settleMoves (s : State) : State :=
  let s1 := s.mem.migr.keys.foldl (fun a x => a.endMigration x .failedOver) s
  s1.part.deckles.keys.foldl (fun a d => (a.modDeckle d fun k => { k with syncReply := none }).finishSync d) s1

/-- The adapter cache starts empty; pinned parts load again, and a PIN that waited has no effect (R173). -/
def State.settleAdapters (s : State) : State :=
  let as := s.form.adapters.map fun a => if a.pinReply.isSome then { a with pinned := false, pinReply := none } else a
  let s1 := { s with form := { s.form with adapters := as, cache := [] } }
  (as.filter (·.pinned)).foldl (fun b a => (b.adapterParts a).foldl (fun c p => c.wantPart p) b) s1

/-- The laid table resumes at the next cycle boundary: the slots of the running cycle are skipped with
reason FAILOVER (R287, R288). -/
def State.settleLaid (s : State) : State :=
  let m := s.pair.laidRun
  let ts := s.laid.tables.each fun _ t =>
    { t with run := t.run.map fun r => { r with left := none, lead := false, done := false, slipped := false } }
  let l := { s.laid with tables := ts, active := m.2.1, pendSlot := m.2.2.1, stopAt := m.2.2.2 }
  let l' := if m.1 = .follower then l
    else { l with role := .internal, state := .locked, hops := 0, holdoverAt := none, ppsNs := none }
  let s1 := State.setReserved { s with laid := l' }
  match s1.activeTable with
  | none => s1
  | some (slot, t) =>
    let k := if t.start ≤ s.dom then (s.dom - t.start) / t.cycleNs else 0
    let s2 := s1.modTable slot fun t => { t with cycles := k }
    (List.range t.entries.length).foldl (fun a i =>
      match t.entries[i]? with
      | some e => if e.inbound || (t.runOf i).removed then a else a.skipSlot slot i 10
      | none => a) s2

/-- The new active's state (Table 18.7), less its answers. -/
def State.takeOver (s : State) (force : Bool) : State :=
  let lost := s.loses force
  let exts := s.part.extents.each fun i e => { e with
    lost := e.lost || lost i e, dirty := []
    revoke := e.revoke.map fun r => { r with drained := 0, discarded := 0, point := s.now } }
  let decks := s.part.deckles.each fun _ k => { k with
    policer := k.policer.promoted s.now, shaper := k.shaper.promoted s.now, energy := k.energy.promoted s.now }
  let s1 := { s with part := { s.part with
    extents := exts, deckles := decks, leases := s.part.leases.each fun _ l => l.promoted s.dom } }
  (s1.settleDrafts.settleLodes.settleMoves.settleAdapters).settleLaid

/-- Role, state and records of a pair whose standby has become the active: IN_SYNC after a handover,
solo otherwise. -/
def State.roleActive (s : State) (cause : Nat) : State :=
  (s.setPair (if cause = 0 then .inSync else .linkLost)).modPair fun p => { p with
    role := .active, promoting := none, detached := false, acked := p.mseq, ackedAt := s.now, retained := [], early := []
    health := none, grade := 0, reportAt := s.now, lastHb := s.now, synced := false, syncEnd := none, ackOwed := false, reqLines := [] }

/-- A promotion completes (R318): EV_PROMOTED carries what was answered and lost. -/
def State.endPromotion (s : State) (cause : Nat) (guarantee : Bool) : State :=
  let lost := s.part.extents.count fun i e => s.loses (cause = 3) i e
  let n := s.pair.items.length + s.pair.linkReqs.length
  let q := s.settleRequests
  let s1 := (q.1.takeOver (cause = 3)).settleItems.settleLink
  let s2 := State.commitFw s (s1.roleActive cause)
  let s3 := s2.raise 0x0903 .device 0 (pack [(2, cause), (1, b2n guarantee), (29, 0), (32, s2.pair.term), (32, n + q.2), (32, lost), (224, 0)])
  let s4 := s3.sendCtrl .promoted
  match s.pair.reply with
  | some r => (s4.modPair fun p => { p with reply := none }).answer r okAns
  | none => s4

end Sys2Proof.Machine
end

