-- ==== Sys2Proof/Machine/Pair.lean ====
section
/-! DEFINITION. The pair's commands, packets and time events (chapter 18). -/

namespace Sys2Proof.Machine

/-! ## Forming and dissolving (R305, R308) -/

/-- The command of PAIR_FORM's operations; `stray` holds fields that must be zero. -/
def pairCmd (p : PairP) (stray : Nat) : Cmd := { code := 0x0901, oper := true, len := 32, rsvd := p.rsvd + stray }

/-- A port has a partner with this link identity's device, on a pair port of it. -/
def State.partnerOn (s : State) (port id : Nat) : Bool :=
  s.portActive port && ((s.port port).partner.map fun x => x.linkId / 64 == id / 64 && 62 ≤ x.linkId % 64).getD false

/-- Order 2: port 62 or 63 is ACTIVE with the partner named by its identity on port 62. -/
def State.partnerUp (s : State) (id : Nat) : Bool := id % 64 == 62 && (s.partnerOn 62 id || s.partnerOn 63 id)

/-- The device is in no pair. -/
def State.unpaired (s : State) : Bool := s.pair.role == .none && s.pair.state == .none && s.pair.reply.isNone

/-- PAIR_FORM with ARM: code, length and what R27 checks of it first. -/
def pairArmCmd (p : PairP) : Cmd :=
  pairCmd p p.resyncShare

/-- PAIR_FORM with ARM: its checks in order (R305). -/
def pairArmChecks (p : PairP) : State → List Check :=
  fun s => [(s.unpaired && s.part.deckles.keys.all (· == 0), .busy, 27), (s.partnerUp p.partnerId, .notReady, 28)]

/-- PAIR_FORM with ARM: its effect (R305). -/
def pairArmAct (p : PairP) : State → Nat → State × Option Ans :=
  fun s _ =>
      ((((s.setPair .armed).modPair fun x => { x with partnerId := p.partnerId, armedAt := s.now }).sendCtrl .armed), some okAns)

/-- PAIR_FORM with ARM (R305). -/
def execPairArm (q : Req) (p : PairP) (s : State) : Host.Outcome State Fault Refusal :=
  .next (s.serve (.pairArm q p) (pairArmCmd p) q (pairArmChecks p) (pairArmAct p))

/-- What the armed partner has said of itself passes a check. -/
def State.partnerIs (s : State) (f : PartnerInfo → Bool) : Bool := (s.pair.partner.map f).getD false

/-- PAIR_FORM with FORM: code, length and what R27 checks of it first. -/
def pairFormCmd (p : PairP) : Cmd :=
  pairCmd p 0

/-- PAIR_FORM with FORM: its checks in order (R305). -/
def pairFormChecks (p : PairP) : State → List Check :=
  fun s =>
      let own := s.pairInfo
      [(p.resyncShare ≤ 50, .invalid, 0), (s.unpaired, .busy, 27),
       (s.partnerUp p.partnerId && s.partnerIs fun i => i.linkId == p.partnerId, .notReady, 28),
       (s.partnerIs fun i => i.order == own.order && i.stepping == own.stepping, .unsupported, 0),
       (s.partnerIs fun i => i.bulk == own.bulk, .invalid, 0),
       (s.partnerIs fun i => i.farPop == own.farPop, .invalid, 29),
       (!own.laid62 && s.partnerIs fun i => !i.laid62, .busy, 30)]

/-- PAIR_FORM with FORM: its effect (R305). -/
def pairFormAct (p : PairP) : State → Nat → State × Option Ans :=
  fun s r =>
      ((s.modPair fun x => { x with
        partnerId := p.partnerId, share := if p.resyncShare = 0 then 25 else p.resyncShare, reply := some r }).sendCtrl .form, none)

/-- PAIR_FORM with FORM (R305): it is answered when the partner has become the standby and the initial
sync begins. -/
def execPairForm (q : Req) (p : PairP) (s : State) : Host.Outcome State Fault Refusal :=
  .next (s.serve (.pairForm q p) (pairFormCmd p) q (pairFormChecks p) (pairFormAct p))

/-- The tables before anything was mirrored. -/
def State.unsent (s : State) : State := s.dropMeta true

/-- Every item admitted and not completed. -/
def State.liveItems (s : State) : List ItemRec :=
  (s.eng.work.filterMap fun w => workItem w.2)
  ++ s.couch.chans.flatMap fun c => (c.2.cur.toList ++ c.2.queue).map fun k => chainItem (c.1 / 8) (c.1 % 8) k

/-- Sends every metadata object in the stream (R308). -/
def State.sendAllMeta (s : State) : State :=
  let rs := (metaDiff s.unsent s).filter (fun r => match r with | .witnesses _ => false | .adapters _ => false | .laidRun .. => false | .ids _ => false | _ => true)
    ++ [.adapters s.form.adapters, .witnesses (s.pair.witnesses.map (·.ep)),
        .laidRun s.laid.role s.laid.active s.laid.pendSlot s.laid.stopAt, .ids s.lastIds]
    ++ (s.liveItems.map fun i => .item i false)
    ++ ((s.mbx.outst.filter fun o => o.2.box < 4096 && s.pair.reply != some o.1).map fun o => .request o.1 (some o.2))
  (rs.zip (List.range rs.length)).foldl (fun a x => a.pushMeta 0 0 true (x.2 + 1 == rs.length) x.1) s

/-- The pair enters SYNCING or RESYNCING: the metadata goes first, and the copy begins (R308). -/
def State.startSync (s : State) (again : Bool) : State :=
  ((s.setPair (if again then .resyncing else .syncing)).modPair fun p => { p with
    role := .active, resync := again, copyAt := 0, copyStart := s.now, acked := p.mseq, ackedAt := s.now, retained := []
    lastHb := s.now, reportAt := s.now }).sendAllMeta

/-- The pair is formed: FORM is answered. -/
def State.formed (s : State) : State :=
  match s.pair.reply with
  | none => s
  | some r =>
    let s1 := { s with sec := { s.sec with pairKey := true } }
    let s2 := (s1.startSync false).modPair fun p => { p with reply := none }
    s2.answer r okAns

/-- The device leaves the pair: what waited for the standby is answered. -/
def State.leavePair (s : State) : State :=
  let s1 := s.failFetches
  let s2 := { s1 with sec := { s1.sec with pairKey := false }, pair := { Pair.reset with since := s.dom } }
  s2.pumpMir

/-- PAIR_FORM with DISSOLVE: code, length and what R27 checks of it first. -/
def pairDissolveCmd (p : PairP) : Cmd :=
  { pairCmd p (p.partnerId + p.resyncShare) with standby := true }

/-- PAIR_FORM with DISSOLVE: its checks in order (R305). -/
def pairDissolveChecks : State → List Check :=
  fun s => [(s.pair.role == .active || (s.pair.role == .standby && s.pair.state == .linkLost && s.pair.promoting.isNone), .notReady, 0)]

/-- PAIR_FORM with DISSOLVE: its effect (R305). -/
def pairDissolveAct : State → Nat → State × Option Ans :=
  fun s r =>
      let s1 := s.sendCtrl .dissolve
      if s.pair.role == .active then (s1.leavePair, some okAns)
      else ((s1.answer r okAns).blank, none)

/-- PAIR_FORM with DISSOLVE (R305). -/
def execPairDissolve (q : Req) (p : PairP) (s : State) : Host.Outcome State Fault Refusal :=
  .next (s.serve (.pairDissolve q p) (pairDissolveCmd p) q pairDissolveChecks pairDissolveAct)

/-- PAIR_ARM_TIMEOUT (R305). -/
def execPairArmTimeout (s : State) : Host.Outcome State Fault Refusal :=
  .next <|
    if s.pair.state ≠ .armed then s
    else
      let s1 := s.reach (s.pair.armedAt + 10000000000)
      { s1.sendCtrl .dissolve with pair := { Pair.reset with since := s1.dom } }

/-! ## Status (R313, R322) -/

/-- Codes of STATE and ROLE (Table 18.9). -/
def pstateCode : PState → Nat
  | .none => 0
  | .armed => 1
  | .syncing => 2
  | .inSync => 3
  | .linkLost => 4
  | .resyncing => 5
  | .fenced => 6

/-- Granules left to copy. -/
def State.toCopy (s : State) : Nat :=
  if s.pair.role != .active then 0
  else if s.pair.state == .syncing then
    ((s.part.extents.filter fun x => x.2.mir).map fun x => (s.uncopied x.1 x.2).length).foldl (· + ·) 0
  else if s.pair.state == .resyncing then
    ((s.part.extents.filter fun x => x.2.mir).map fun x =>
      ((s.uncopied x.1 x.2).filter fun g => x.2.dirty.contains g).length).foldl (· + ·) 0
  else 0

/-- GUARANTEE (R322). -/
def State.guarantee (s : State) : Bool :=
  s.pair.role == .active && s.pair.state == .inSync &&
    (match s.pair.health with
      | some (h, t) => decide (s.now < t + 300000000) && decide (gradeOf h < 2) && !h.groups.contains 3
      | none => false) && !s.groupStates.contains 3

/-- Latest standby grade: the active's last report, or the standby's own. -/
def State.gradeField (s : State) : Nat :=
  if s.pair.role == .standby then gradeOf s.report18 else ((s.pair.health.map fun h => gradeOf h.1)).getD 0

/-- PAIR_STATUS: code, length and what R27 checks of it first. -/
def pairStatusCmd : Cmd :=
  { code := 0x0902, oper := true, standby := true }

/-- PAIR_STATUS: its checks in order (Table 18.9). -/
def pairStatusChecks : State → List Check :=
  fun _ => []

/-- PAIR_STATUS: its effect (Table 18.9). -/
def pairStatusAct : State → Nat → State × Option Ans :=
  fun s _ =>
    let p := s.pair
    let up := fun (w : Witness) => ((s.part.eps.find w.ep).map fun e => s.portActive e.port).getD false
    let reached := ((p.witnesses.zip (List.range p.witnesses.length)).filter fun w => up w.1).foldl (fun a w => a + 2 ^ w.2) 0
    (s, some (okFields 64 [(3, pstateCode p.state), (2, pairRoleCode p.role), (1, b2n s.guarantee),
      (1, b2n (p.role == .standby && p.detached)), (2, b2n (s.portActive 62) + 2 * b2n (s.portActive 63)), (2, s.gradeField),
      (4, p.witnesses.length), (8, reached), (9, 0), (32, if p.role == .none then 0 else p.term), (64, p.partnerId),
      (64, if p.role == .none then 0 else p.mseq), (64, if p.role == .active then p.acked else 0), (64, s.toCopy * 2 ^ 21),
      (32, p.promotesIgnored), (64, p.since), (96, 0)]))

/-- PAIR_STATUS (Table 18.9). -/
def execPairStatus (q : Req) (s : State) : Host.Outcome State Fault Refusal :=
  .next (s.serve (.pairStatus q) pairStatusCmd q pairStatusChecks pairStatusAct)

/-- HEALTH_REPORT: code, length and what R27 checks of it first. -/
def healthReportCmd : Cmd :=
  { code := 0x0903, oper := true, standby := true }

/-- HEALTH_REPORT: its checks in order (R313). -/
def healthReportChecks : State → List Check :=
  fun s => [(s.isStandby || (s.pair.role == .active && s.pair.health.isSome), .notReady, 0)]

/-- HEALTH_REPORT: its effect (R313). -/
def healthReportAct : State → Nat → State × Option Ans :=
  fun s _ => match s.pair.health with
      | some (h, t) => if s.isStandby then (s, some (Ans.okBits 128 (healthBits s.report18 0)))
        else (s, some (Ans.okBits 128 (healthBits h (s.now - t))))
      | none => (s, some (Ans.okBits 128 (healthBits s.report18 0)))

/-- HEALTH_REPORT (R313): the last report received, or a fresh one. -/
def execHealthReport (q : Req) (s : State) : Host.Outcome State Fault Refusal :=
  .next (s.serve (.healthReport q) healthReportCmd q healthReportChecks healthReportAct)

/-- HEALTH_REPORT_TICK (R313): every 100 ms the standby sends its report. -/
def execHealthReportTick (s : State) : Host.Outcome State Fault Refusal :=
  .next <|
    if s.pair.role ≠ .standby then s
    else
      let s1 := (s.reach (s.pair.reportAt + 100000000)).modPair fun p => { p with reportAt := max s.now (p.reportAt + 100000000) }
      match s1.pairPorts with
      | p :: _ => s1.enqueue p 5 61 0 (.mirHealth s1.report18)
      | [] => s1

/-- The grade the active knows changes (R313, Table 18.10). -/
def State.setGrade (s : State) (g : Nat) : State :=
  if g = s.pair.grade then s
  else (s.modPair fun p => { p with grade := g }).raise 0x0904 .device 0 (pack [(2, s.pair.grade), (2, g), (348, 0)])

/-- MIR_HEALTH (R313). -/
def execMirHealth (port : Nat) (r : Health) (s : State) : Host.Outcome State Fault Refusal :=
  .next (s.takeMir port 5 176 (s.pair.role == .active) fun s =>
    (s.modPair fun p => { p with health := some (r, s.now), reportAt := s.now }).setGrade (gradeOf r))

/-- HEALTH_REPORT_TIMEOUT (R313): 300 ms without a report. -/
def execHealthReportTimeout (s : State) : Host.Outcome State Fault Refusal :=
  .next (if s.pair.role ≠ .active then s else (s.reach (s.pair.reportAt + 300000000)).setGrade 3)

/-! ## Self-test (Table 18.4) -/

/-- The patrol scrub of a tier: every listed line, rewriting what it corrects, and its parity lines. -/
def State.patrol (s : State) (t : Tier) : State :=
  let ls := s.mem.cells.filterMap fun c => if c.1 / 2 ^ 40 = tierCode t then some (c.1 % 2 ^ 40) else none
  (ls.foldl (fun (a : State × Tally) l =>
    let b := match a.1.refAt t l with
      | some r => a.1.scrubOwned { r with payer := some 4096 } true (l * 64) a.2
      | none => a.1.scrubFree t l true (l * 64) a.2
    b.1.scrubParity t l true b.2) (s, {})).1

/-- A mark is set or cleared. -/
def setMark (l : List Nat) (x : Nat) (bad : Bool) : List Nat :=
  if bad then (if l.contains x then l else l ++ [x]) else l.filter (· != x)

/-- STANDBY_SELF_TEST: a test of Table 18.4 passes or fails. -/
def execStandbySelfTest (t : SelfTest) (pass : Bool) (s : State) : Host.Outcome State Fault Refusal :=
  .next <|
    if s.pair.role ≠ .standby then s
    else match t with
      | .patrol tier2 late => (s.patrol (if tier2 then .t2 else .t1)).modPair fun p => { p with patrolLate := late }
      | .arrayKat core => s.modPair fun p => { p with badCores := setMark p.badCores (core % 32) (!pass) }
      | .loopback port lane => s.modPair fun p => { p with badLanes := setMark p.badLanes (port * 8 + lane) (!pass) }
      | .hubCheck => s.modPair fun p => { p with hubBad := !pass }
      | .securityKat => s.modPair fun p => { p with secBad := !pass }

/-! ## Witnesses (R314) -/

/-- WITNESS_REGISTER with SET.: code, length and what R27 checks of it first. -/
def witnessSetCmd (p : WitnessP) : Cmd :=
  { code := 0x0905, oper := true, len := 32, rsvd := p.rsvd + b2n p.lost + p.lostNs }

/-- WITNESS_REGISTER with SET.: its checks in order. -/
def witnessSetChecks (p : WitnessP) : State → List Check :=
  fun s => [(s.pair.role == .active, .notReady, 0),
      (decide (p.witnesses.length ≤ 8) && p.witnesses.all (fun e => s.member 0 e) && p.witnesses.eraseDups.length == p.witnesses.length,
        .invalid, 0)]

/-- WITNESS_REGISTER with SET.: its effect. -/
def witnessSetAct (p : WitnessP) : State → Nat → State × Option Ans :=
  fun s _ => (s.modPair fun x => { x with witnesses := p.witnesses.map fun e => ⟨e, false, 0, 0⟩ }, some okAns)

/-- WITNESS_REGISTER with SET. -/
def execWitnessSet (q : Req) (p : WitnessP) (s : State) : Host.Outcome State Fault Refusal :=
  .next (s.serve (.witnessSet q p) (witnessSetCmd p) q (witnessSetChecks p) (witnessSetAct p))

/-- WITNESS_REGISTER with REPORT: code, length and what R27 checks of it first. -/
def witnessReportCmd (p : WitnessP) : Cmd :=
  { code := 0x0905, oper := true, len := 32, rsvd := p.rsvd + p.witnesses.length + (if p.lost then 0 else p.lostNs), standby := true,
    report := true }

/-- WITNESS_REGISTER with REPORT: its checks in order (R314). -/
def witnessReportChecks (q : Req) : State → List Check :=
  fun s => [(s.pair.witnesses.any fun w => w.ep == q.ep, .noAccess, 0)]

/-- WITNESS_REGISTER with REPORT: its effect (R314, R317). -/
def witnessReportAct (q : Req) (p : WitnessP) : State → Nat → State × Option Ans :=
  fun s _ =>
      let s1 := s.modPair fun x => { x with witnesses := x.witnesses.map fun w =>
        if w.ep = q.ep then { w with lost := p.lost, at_ := s.now, lostNs := p.lostNs } else w }
      (s1.tryWitnesses, some okAns)

/-- WITNESS_REGISTER with REPORT (R314). -/
def execWitnessReport (q : Req) (p : WitnessP) (s : State) : Host.Outcome State Fault Refusal :=
  .next (s.serve (.witnessReport q p) (witnessReportCmd p) q (witnessReportChecks q) (witnessReportAct q p))

/-! ## Failover (R317, R320) -/

/-- The pair's last report says GREEN or YELLOW. -/
def State.standbyFit (s : State) : Bool := ((s.pair.health.map fun h => decide (gradeOf h.1 < 2))).getD false && s.pair.grade < 2

/-- FAILOVER with HANDOVER: code, length and what R27 checks of it first. -/
def failoverHandoverCmd (p : FailoverP) : Cmd :=
  { code := 0x0904, oper := true, len := 8, rsvd := p.rsvd, standby := true }

/-- FAILOVER with HANDOVER: its checks in order (R320). -/
def failoverHandoverChecks (p : FailoverP) : State → List Check :=
  fun s => [(p.drainUs == 0 || (10 ≤ p.drainUs && p.drainUs ≤ 100000), .invalid, 0),
      (s.inSync && s.standbyFit && s.pair.reply.isNone, .notReady, 31)]

/-- FAILOVER with HANDOVER: its effect (R320). -/
def failoverHandoverAct (p : FailoverP) : State → Nat → State × Option Ans :=
  fun s r => (s.modPair fun x => { x with
      handover := some (s.now + (if p.drainUs = 0 then 1000 else p.drainUs) * 1000), reply := some r }, none)

/-- FAILOVER with HANDOVER (R320). -/
def execFailoverHandover (q : Req) (p : FailoverP) (s : State) : Host.Outcome State Fault Refusal :=
  .next (s.serve (.failoverHandover q p) (failoverHandoverCmd p) q (failoverHandoverChecks p) (failoverHandoverAct p))

/-- FAILOVER with FORCE: code, length and what R27 checks of it first. -/
def failoverForceCmd (p : FailoverP) : Cmd :=
  { code := 0x0904, oper := true, len := 8, rsvd := p.rsvd + p.drainUs, standby := true }

/-- FAILOVER with FORCE: its checks in order (R320). -/
def failoverForceChecks : State → List Check :=
  fun s => [(s.applies && (s.pair.detached || gradeOf s.report18 == 2), .notReady, 31)]

/-- FAILOVER with FORCE: its effect (R320). -/
def failoverForceAct : State → Nat → State × Option Ans :=
  fun s r => ((s.startPromotion 3).modPair fun x => { x with reply := some r }, none)

/-- FAILOVER with FORCE (R320): answered when the promotion completes. -/
def execFailoverForce (q : Req) (p : FailoverP) (s : State) : Host.Outcome State Fault Refusal :=
  .next (s.serve (.failoverForce q p) (failoverForceCmd p) q failoverForceChecks failoverForceAct)

/-- Nothing admitted is outstanding but the HANDOVER, and the standby has applied everything. -/
def State.handoverDrained (s : State) : Bool :=
  s.pair.retained.isEmpty && s.mem.jobs.isEmpty && s.eng.work.isEmpty && s.allChains.isEmpty && s.mbx.waiting.isEmpty &&
    s.part.eps.all (fun e => e.2.outst.isEmpty) && (s.mbx.outst.all fun o => 4096 ≤ o.2.box || s.pair.reply == some o.1)

/-- HANDOVER_DRAIN_END (R320): all has drained or DRAIN_US has passed; PROMOTE goes out with the final
MSEQ, and the new active answers what is still outstanding. -/
def execHandoverDrainEnd (s : State) : Host.Outcome State Fault Refusal :=
  .next <| match s.pair.handover with
  | none => s
  | some t =>
    if s.pair.handed || s.pair.role != .active then s
    else
      let s1 := (if s.handoverDrained then s else s.reach t).abandon s.pair.reply
      (s1.stopLaid.modPair fun p => { p with handed := true }).sendCtrl .promote

/-- The former active of a handover becomes the standby, IN_SYNC, and answers HANDOVER (R320). -/
def State.handedOver (s : State) (x : MirExt) : State :=
  let r := s.pair.reply
  let s1 := (s.setPair .inSync).modPair fun p => { p with
    role := .standby, term := x.term, handed := false, handover := none, reply := none, synced := true, detached := false
    mseq := p.mseq, retained := [], ackSent := p.mseq, lastHb := s.now, lastHbDom := s.dom, health := none, requests := [], items := []
    linkReqs := [], laidRun := (s.laid.role, none, none, none) }
  let s2 := { s1 with laid := { s1.laid with active := none, pendSlot := none, stopAt := none } }
  (s2.answerOpt r okAns).applyAll

/-- BR_FAILOVER_OUT: code, length and what R27 checks of it first. -/
def brFailoverOutCmd : Cmd :=
  { code := 0xFF04 }

/-- BR_FAILOVER_OUT: its effect (R317). -/
def brFailoverOutAct : State → Nat → State × Option Ans :=
  fun s _ =>
    if s.pair.role ≠ .active then (s, some (Ans.of .invalid))
    else ((s.modPair fun p => { p with promoteHb := true }).sendHb.fence, some okAns)

/-- BR_FAILOVER_OUT (R317): PROMOTE goes out on both pair ports and the active fences. -/
def execBrFailoverOut (q : Req) (s : State) : Host.Outcome State Fault Refusal :=
  .next (s.serveBr brFailoverOutCmd q brFailoverOutAct)

/-- PROMOTION_COMPLETE (R318): within 20 ms of the promoting condition. -/
def execPromotionComplete (s : State) : Host.Outcome State Fault Refusal :=
  .next <| match s.pair.promoting with
  | some (cause, g) => s.endPromotion cause g
  | none => s

/-! ## The mirror stream (R308–R310) -/

/-- The device takes records: a standby, or the former active of a handover. -/
def State.takesRecords (s : State) : Bool := (s.pair.role == .standby && s.pair.state != .fenced) || s.pair.handed

/-- A record arrives: held until its turn; one already applied is discarded and acknowledged again. -/
def State.takeRecord (s : State) (mseq : Nat) (m : Msg) : State :=
  if s.pair.promoting.isSome then s
  else if mseq ≤ s.pair.mseq then s.modPair fun p => { p with ackOwed := true, owedAt := if p.ackOwed then p.owedAt else s.now }
  else
    let s1 := (s.modPair fun p => { p with early := if p.early.has mseq then p.early else p.early.put mseq (m, s.now) }).applyAll
    match s1.pair.promoteAfter with
    | some n => if n ≤ s1.pair.mseq then s1.takePromote 0 else s1
    | none => s1

/-- MIR_DATA (R309): 1 to 57 lines. -/
def execMirData (port : Nat) (x : MirExt) (lines : List MirLine) (s : State) : Host.Outcome State Fault Refusal :=
  .next (s.takeMir port 4 (48 + 80 * lines.length) (s.takesRecords && 1 ≤ lines.length && lines.length ≤ 57) fun s =>
    s.takeRecord x.mseq (.mirData x lines))

/-- MIR_META (R309). -/
def execMirMeta (port : Nat) (x : MirExt) (r : MetaRec) (s : State) : Host.Outcome State Fault Refusal :=
  .next (s.takeMir port 4 176 s.takesRecords fun s => s.takeRecord x.mseq (.mirMeta x r))

/-- MIR_ACK (R310): covered records leave the retention buffer, and what waited for them is answered. -/
def execMirAck (port mseq : Nat) (s : State) : Host.Outcome State Fault Refusal :=
  .next (s.takeMir port 1 48 (s.pair.role == .active) fun s =>
    if s.pair.acked < mseq && mseq ≤ s.pair.mseq then
      (s.modPair fun p => { p with
        acked := mseq, ackedAt := s.now, retained := p.retained.filter fun r => mseq < r.mseq }).pumpMir
    else s)

/-- MIR_ACK_TIMER (R310): 200 ns pass with an acknowledgement owed. Metadata that waited for the hub is
applied. -/
def execMirAckTimer (s : State) : Host.Outcome State Fault Refusal :=
  .next <|
    if s.pair.role ≠ .standby then s
    else
      let s1 := s.applyAll
      if s1.pair.ackOwed then (s1.reach (s1.pair.owedAt + 200)).sendAck else s1

/-- Bytes of the pair-link payload rate that the copy may use per µs: RESYNC_SHARE of the trained ports'
sum (Table 13.1, R308). -/
def State.copyRate (s : State) : Nat :=
  ((s.pairPorts.map fun p => payloadRate (s.port p).width).foldl (· + ·) 0) * 10 * s.pair.share / 100

/-- Stored lines the copy has still to carry, rising by tier and address (R308, R316). -/
def State.copyLines (s : State) : List (Nat × Cell) :=
  s.mem.cells.filter fun c =>
    decide (s.pair.copyAt ≤ c.1) &&
    (match s.refAt (if c.1 / 2 ^ 40 = 0 then .t1 else if c.1 / 2 ^ 40 = 1 then .t2 else .staging) (c.1 % 2 ^ 40) with
      | some r => r.mir && (s.pair.state == .syncing ||
          ((s.part.extents.find r.extent).map fun e => e.dirty.contains (s.lineIndex r.extent e r.tier r.line / 32768)).getD false)
      | none => false)

/-- Lines in runs of consecutive addresses, at most 57 to a record. -/
def copyRuns : List (Nat × Cell) → List (Nat × List MirLine)
  | [] => []
  | (k, c) :: r =>
    match copyRuns r with
    | (b, l) :: rest => if b = k + 1 ∧ l.length < 57 then (k, c.mirLine :: l) :: rest else (k, [c.mirLine]) :: (b, l) :: rest
    | [] => [(k, [c.mirLine])]

/-- Sends one copy record and moves the cursor behind it. -/
def State.sendCopy (s : State) (x : Nat × List MirLine) : State :=
  let s1 := (s.pushRecord fun n => .mirData
    { mseq := n, phys := x.1 % 2 ^ 40 * 64, tier := if x.1 / 2 ^ 40 = 0 then .t1 else if x.1 / 2 ^ 40 = 1 then .t2 else .staging
      resync := true, fw := true, lastRec := true } x.2).1
  s1.modPair fun p => { p with copyAt := x.1 + x.2.length }

/-- The copy's records, as long as the retention buffer holds them (R310). The flag: all were sent. -/
def State.sendCopies (s : State) : List (Nat × List MirLine) → State × Bool
  | [] => (s, true)
  | x :: xs => if s.retentionFull then (s, false) else (s.sendCopy x).sendCopies xs

/-- The copy has ended: the pair is IN_SYNC (R308). -/
def State.endCopy (s : State) (bytes : Nat) : State :=
  let kind := b2n s.pair.resync
  let s1 := { s with part := { s.part with extents := s.part.extents.each fun _ e => { e with dirty := [] } } }
  let s2 := ((s1.setPair .inSync).modPair fun p => { p with copied := bytes }).sendCtrl .resyncEnd
  s2.raise 0x0902 .device 0 (pack [(1, kind), (63, 0), (64, bytes), (64, s.now - s.pair.copyStart), (160, 0)])

/-- SYNC_COPY_DONE (R308): what is left is copied, as far as the retention buffer holds it; when nothing is
left the copy ends. It does not run while the hub is stopped or activates firmware (R272, R274). -/
def execSyncCopyDone (s : State) : Host.Outcome State Fault Refusal :=
  .next <|
    if s.pair.role != .active || !(s.pair.state == .syncing || s.pair.state == .resyncing) || s.hubStopped ||
        s.hub.phase == .activating || s.copyRate == 0 then s
    else
      let granules := ((s.part.extents.filter fun x => x.2.mir).map fun x =>
        if s.pair.state == .syncing then x.2.granules else x.2.dirty.length).foldl (· + ·) 0
      let bytes := granules * 2 ^ 21
      let s1 := s.reach (s.pair.copyStart + bytes * 1000 / s.copyRate)
      let x := s1.sendCopies (copyRuns s1.copyLines)
      if x.2 then x.1.endCopy bytes else x.1

/-! ## Heartbeats (R312, R315, R316, R319) -/

/-- MIR_HB_TICK (R312): every 250 µs, also under a wedge, in an activation and after a fence. -/
def execMirHbTick (s : State) : Host.Outcome State Fault Refusal :=
  .next <|
    if !s.paired && s.pair.state != .fenced then s
    else
      let s1 := s.reach (s.pair.hbAt + 250000)
      (s1.modPair fun p => { p with hbAt := s1.now }).sendHb

/-- A heartbeat at an active (R316, R319). -/
def State.hbAtActive (s : State) (x : MirExt) : State :=
  if s.pair.term < x.term && !s.pair.handed then s.fence
  else if s.pair.state == .linkLost && x.term == s.pair.term then (s.sendCtrl .resyncStart).startSync true
  else s

/-- A heartbeat at a standby (R316, R317). -/
def State.hbAtStandby (s : State) (x : MirExt) : State :=
  let s1 := s.modPair fun p => { p with
    linkReqs := p.linkReqs.filter fun r => p.ackSent < r.mseq, detached := p.detached || x.solo }
  let s2 := if s1.pair.state == .linkLost && !s1.pair.detached && s1.pair.promoting.isNone then s1.setPair .inSync else s1
  if x.promote then s2.takePromote 1 else s2

/-- MIR_HB (R312, R319). -/
def execMirHb (port : Nat) (x : MirExt) (s : State) : Host.Outcome State Fault Refusal :=
  .next (s.takeMir port 5 48 s.paired fun s =>
    let s1 := s.modPair fun p => { p with lastHb := s.now, lastHbDom := s.dom }
    if s.pair.role == .active then s1.hbAtActive x else s1.hbAtStandby x)

/-- HEARTBEAT_LOST (R315–R317): no good heartbeat for 5 ms. -/
def execHeartbeatLost (s : State) : Host.Outcome State Fault Refusal :=
  .next <|
    if !s.paired then s
    else
      let s1 := s.reach (s.pair.lastHb + 5000000)
      if s.pair.role == .active then (if s.pair.state == .linkLost then s1 else s1.decideLoss 0)
      else if s.pair.state == .inSync then (s1.setPair .linkLost).tryWitnesses
      else if s.pair.state == .linkLost then s1.tryWitnesses
      else (s1.setPair .linkLost).modPair fun p => { p with detached := true }

/-- MIRROR_ACK_TIMEOUT (R315): 10 ms without an acknowledgement while records are unacknowledged. -/
def execMirrorAckTimeout (s : State) : Host.Outcome State Fault Refusal :=
  .next (if s.mirrors && !s.pair.retained.isEmpty then (s.reach (s.pair.ackedAt + 10000000)).decideLoss 1 else s)

/-! ## Line fetches (R292, R311) -/

/-- Steps 1 and 2 of R291 on the stored line and the check of DECKLE and GENERATION: the status, whether
a symbol was corrected, and the line. -/
def State.fetchRead (s : State) (t : Tier) (line deckle gen : Nat) : Status × Bool × MirLine :=
  let none_ : MirLine := { data := 0#512, deckle := 0, epoch := 0, gen := 0 }
  let lost := match s.place t line with
    | some p => (s.group p.group).lostAt p.pos p.stripe
    | none => false
  let cell := (s.assembled t line).or (if lost then none else s.cell t line)
  match cell with
  | none => (if lost then .uncorrectable else match s.readUnwritten { tier := t, line := line, extent := 0, gen := gen, deckle := deckle } with
      | .fail st => st
      | _ => .uncorrectable, false, none_)
  | some c =>
    let d := c.diff
    if d = 0#640 then (if c.deckle = deckle ∧ c.gen = gen then .ok else .integrity, false, c.mirLine)
    else if isPoisonDiff d then (.uncorrectable, false, none_)
    else match correction d with
      | none => (.uncorrectable, false, none_)
      | some k => if d ^^^ k = 0#640 ∧ !c.poisoned then (if c.deckle = deckle ∧ c.gen = gen then .ok else .integrity, true, c.mirLine)
        else (.integrity, true, none_)

/-- MIR_FETCH (R311): one line is read and answered, never reconstructed or poisoned. -/
def execMirFetch (port : Nat) (x : MirExt) (deckle gen : Nat) (s : State) : Host.Outcome State Fault Refusal :=
  .next (s.takeMir port 0 48 s.paired fun s =>
    let line := x.phys / 64
    let f := s.fetchRead x.tier line deckle gen
    let s1 := s.chargeTier deckle 8 x.tier (readPj x.tier) 1
    let s2 := if f.2.1 then s1.countCe (s1.unitOf x.tier line).1 else s1
    s2.enqueue port 1 61 0 (.mirLine { phys := x.phys, tier := x.tier } f.1 f.2.2))

/-- A fetched line passes steps 1 to 4 here: the key that reads it (R292). -/
def State.fetchedKey (s : State) (r : LineRef) (status : Status) (l : MirLine) : Option Nat :=
  if status = .ok ∧ !l.poisoned ∧ l.deckle = r.deckle ∧ l.gen = r.gen then
    (s.epochKey r.deckle l.epoch).filter fun k => s.sec.keys.contains k
  else none

/-- A fetched line is written in place, and EV_RECONSTRUCTED has SOURCE 1 (R292). -/
def State.repair (s : State) (r : LineRef) (k : Nat) (l : MirLine) : State :=
  let c : Cell := { data := l.data, deckle := l.deckle, epoch := l.epoch, key := k, gen := l.gen, poisoned := false, err := 0#640 }
  let u := match s.place r.tier r.line with
    | some p => (p.group, (s.group p.group).unitAt p.group p.pos p.stripe)
    | none => (5, 0)
  ((s.storeCell r.tier r.line c false).chargeTier r.pays 8 r.tier (writePj r.tier false false) 1).logRec
    (.reconstructed u.1 u.2 1 r.extent (s.lineIx r) (r.line * 64))

/-- MIR_LINE (R311): repairs the line, or lets it be poisoned. A write that came first stands. -/
def execMirLine (port : Nat) (x : MirExt) (status : Status) (line : MirLine) (s : State) : Host.Outcome State Fault Refusal :=
  .next (s.takeMir port 1 128 (s.pair.fetches.any fun f => f.tier == x.tier && f.line == x.phys / 64) fun s =>
    let n := x.phys / 64
    let s1 := s.modPair fun p => { p with fetches := p.fetches.filter fun f => !(f.tier == x.tier && f.line == n) }
    match s1.refAt x.tier n with
    | none => s1.wakeReads x.tier n
    | some r => match (s1.firstRead r).1, s1.fetchedKey r status line with
      | .recon _, some k => (s1.repair r k line).wakeReads x.tier n
      | .recon _, none => s1.fetchFailed x.tier n
      | _, _ => s1.wakeReads x.tier n)

/-! ## Pair control (Table 18.2) -/

/-- MIR_CTRL: the handshake of ARM and FORM, PROMOTE and its confirmation, and the bounds of a copy. -/
def execMirCtrl (port : Nat) (kind : MirCtrlKind) (x : MirExt) (info : PartnerInfo) (s : State) : Host.Outcome State Fault Refusal :=
  .next (s.takeMir port 5 112 true fun s =>
    match kind with
    | .armed => if s.unpaired && s.partnerOn port info.linkId then s.modPair fun p => { p with partner := some info } else s
    | .form =>
      if s.pair.state == .armed && s.pair.partnerId / 64 == info.linkId / 64 then (s.becomeStandby x).sendCtrl .formAck
      else s.sendCtrl .dissolve
    | .formAck => if s.pair.role == .none then s.formed else s
    | .promote =>
      if !s.applies then s
      else
        let s1 := s.modPair fun p => { p with promoteAfter := some x.mseq }
        if x.mseq ≤ s1.pair.mseq then s1.takePromote 0 else s1
    | .promoted => if s.pair.handed then s.handedOver x else s
    | .resyncStart =>
      if s.applies then
        ((s.dropMeta false).setPair .resyncing).modPair fun p => { p with
          mseq := x.mseq, early := p.early.keep fun k _ => x.mseq < k, synced := false, syncEnd := none, copyAt := 0, resync := true
          linkReqs := [] }
      else s
    | .resyncEnd => if s.applies then (s.modPair fun p => { p with syncEnd := some x.mseq }).syncReached else s
    | .dissolve =>
      match s.pair.role with
      | .standby => if s.pair.promoting.isSome then s else s.blank
      | .active => s.leavePair
      | .none =>
        let s1 := s.modPair fun p => { p with partner := none, reply := none }
        if s.pair.state == .none then s1.answerOpt s.pair.reply (Ans.of .notReady 28) else s)

end Sys2Proof.Machine
end

