-- ==== Sys2Proof/Machine/Regions.lean ====
section
/-! DEFINITION. Shared regions (chapter 5): creation, drafts, publishing, handles, grants and the
retention of versions. -/

namespace Sys2Proof.Machine

/-! ## Regions (R72, R73) -/

/-- A region of the deckle that is not deleted. -/
def State.liveRegion (s : State) (d i : Nat) : Option Region :=
  (s.rgn.regions.find i).bind fun r => if r.deckle = d ∧ !r.deleted then some r else none

/-- REGION_CREATE with OP CREATE: code, length and what R27 checks of it first. -/
def regionCreateCmd (p : RegionP) : Cmd :=
  { code := 0x0301, len := 24, rsvd := p.rsvd, own := some p.deckle, names := [p.deckle] }

/-- REGION_CREATE with OP CREATE: its checks in order (R73). -/
def regionCreateChecks (q : Req) (p : RegionP) : State → List Check :=
  fun s => [
      (s.deckleExists p.deckle && p.region == 0 && 1 ≤ p.segments && p.segments ≤ 1024 && 1 ≤ p.segGranules &&
        p.segGranules ≤ 32768 && p.retainCount ≤ 15 && p.retainMs ≤ 3600000, .invalid, 0),
      (p.policy != .staging || q.deckle == 0, .noAccess, 0),
      (s.rgn.regions.length < 65536, .busy, 0)]

/-- REGION_CREATE with OP CREATE: its effect (R73). -/
def regionCreateAct (p : RegionP) : State → Nat → State × Option Ans :=
  fun s _ =>
      let i := s.rgn.lastRegion + 1
      let r : Region := { deckle := p.deckle, policy := p.policy, mir := p.mir, segments := p.segments,
                          segGranules := p.segGranules, retainCount := p.retainCount, retainMs := p.retainMs,
                          current := 0, versions := [], deleted := false, grantees := [] }
      ({ s with rgn := { s.rgn with regions := s.rgn.regions.put i r, lastRegion := i } },
        some (okFields 8 [(32, i), (32, 0)]))

/-- REGION_CREATE with OP CREATE (R73). -/
def execRegionCreate (q : Req) (p : RegionP) (s : State) : Host.Outcome State Fault Refusal :=
  .next (s.serve (.regionCreate q p) (regionCreateCmd p) q (regionCreateChecks q p) (regionCreateAct p))

/-- The fields that Table 5.1 gives CREATE alone are zero. -/
def RegionP.bare (p : RegionP) : Bool := p.policy == .t1Only && !p.mir && p.segments == 0 && p.segGranules == 0

/-- REGION_CREATE with OP RETAIN: code, length and what R27 checks of it first. -/
def regionRetainCmd (p : RegionP) : Cmd :=
  { code := 0x0301, len := 24, rsvd := p.rsvd, own := some p.deckle, names := [p.deckle] }

/-- REGION_CREATE with OP RETAIN: its checks in order (R73). -/
def regionRetainChecks (p : RegionP) : State → List Check :=
  fun s => [(RegionP.bare p && p.retainCount ≤ 15 && p.retainMs ≤ 3600000 &&
      (s.liveRegion p.deckle p.region).isSome, .invalid, 0)]

/-- REGION_CREATE with OP RETAIN: its effect (R73). -/
def regionRetainAct (p : RegionP) : State → Nat → State × Option Ans :=
  fun s _ =>
      let m := s.rgn.regions.upd p.region fun r => { r with retainCount := p.retainCount, retainMs := p.retainMs }
      ({ s with rgn := { s.rgn with regions := m } }, some okAns)

/-- REGION_CREATE with OP RETAIN (R73). -/
def execRegionRetain (q : Req) (p : RegionP) (s : State) : Host.Outcome State Fault Refusal :=
  .next (s.serve (.regionRetain q p) (regionRetainCmd p) q (regionRetainChecks p) (regionRetainAct p))

/-- REGION_CREATE with OP DELETE: code, length and what R27 checks of it first. -/
def regionDeleteCmd (p : RegionP) : Cmd :=
  { code := 0x0301, len := 24, rsvd := p.rsvd, own := some p.deckle, names := [p.deckle] }

/-- REGION_CREATE with OP DELETE: its checks in order (R73). -/
def regionDeleteChecks (p : RegionP) : State → List Check :=
  fun s => [(RegionP.bare p && p.retainCount == 0 && p.retainMs == 0 &&
      (s.liveRegion p.deckle p.region).isSome, .invalid, 0)]

/-- REGION_CREATE with OP DELETE: its effect (R73). -/
def regionDeleteAct (p : RegionP) : State → Nat → State × Option Ans :=
  fun s _ =>
      let m := s.rgn.regions.upd p.region fun r => { r with deleted := true }
      let s1 := { s with rgn := { s.rgn with regions := m } }
      let ds := (s1.rgn.drafts.filter fun d => d.2.region == p.region).map Prod.fst
      ((ds.foldl (fun a i => a.endDraft i 2) s1).retainOne p.region, some okAns)

/-- REGION_CREATE with OP DELETE (R73): drafts are discarded, and versions are retired as nothing
holds them. -/
def execRegionDelete (q : Req) (p : RegionP) (s : State) : Host.Outcome State Fault Refusal :=
  .next (s.serve (.regionDelete q p) (regionDeleteCmd p) q (regionDeleteChecks p) (regionDeleteAct p))

/-! ## Drafts (R74, R75) -/

/-- Mode of every segment of a draft (Table 5.3). -/
def draftModes (p : DraftP) (n : Nat) : List SegMode :=
  (List.range n).map fun i => if p.vector then p.modes.getD i .inherit else p.defaultMode

/-- Allocates the new extents of a draft's segments in ascending order: their identifiers, and
what each COPY segment is copied from. `base` are the base version's extents. -/
def State.allocSegs (s : State) (r : Region) (holder draft hint : Nat) :
    List SegMode → List Nat → Except (Status × Nat) (State × List (SegMode × Nat) × List Nat)
  | [], _ => .ok (s, [], [])
  | m :: ms, base =>
    if m = .inherit then
      (s.allocSegs r holder draft hint ms (base.drop 1)).map fun y =>
        (y.1, (m, base.headD 0) :: y.2.1, 0 :: y.2.2)
    else
      match s.placeBy r.deckle r.policy r.segGranules hint with
      | .error e => .error e
      | .ok (t, g) =>
        let n := s.newExtent { deckle := r.deckle, tier := t, first := g, granules := r.segGranules, policy := r.policy,
                               mir := r.mir, zero := m != .raw, holder := some holder, draft := some draft } none
        let s1 := if r.policy == .t1Prefer && t == .t2 then n.1.spill r.deckle n.2 r.segGranules else n.1
        (s1.allocSegs r holder draft (hint + r.segGranules) ms (base.drop 1)).map fun y =>
          (y.1, (m, n.2) :: y.2.1, (if m = .copy then base.headD 0 else 0) :: y.2.2)

/-- REGION_DRAFT's inline result (Table 5.4). -/
def draftResult (i base granules extents : Nat) : Ans :=
  okFields 24 [(32, i), (48, base), (16, 0), (32, granules), (32, extents), (32, 0)]

/-- The base version a DRAFT OPEN names, and its extents. -/
def Region.baseOf (r : Region) (named : Nat) : Nat := if named = 0 then r.current else named

/-- REGION_DRAFT with OP OPEN: code, length and what R27 checks of it first. -/
def regionDraftOpenCmd (p : DraftP) (s : State) : Cmd :=
  { code := 0x0302, len := if p.vector then 320 else 64, rsvd := p.rsvd, own := some p.deckle,
                   names := [p.deckle],
                   needs := (s.liveRegion p.deckle p.region).bind fun r =>
                     if (draftModes p r.segments).all (· == .inherit) then none else s.tierNeeds r.policy }

/-- REGION_DRAFT with OP OPEN: its checks in order (R74). -/
def regionDraftOpenChecks (q : Req) (p : DraftP) (hint : Nat) : State → List Check :=
  fun s =>
      match s.liveRegion p.deckle p.region with
      | none => [(false, .invalid, 0)]
      | some r =>
        let ms := draftModes p r.segments
        let b := r.baseOf p.base
        let segs := s.versionSegs p.region b
        [(p.draft == 0 && b ≤ r.current && (p.modes.drop r.segments).all (· == .inherit) &&
            (p.vector || p.modes.isEmpty), .invalid, 0),
         (s.member p.deckle q.ep, .noAccess, 0),
         (b == 0 || r.versions.has b, .staleVersion, 0),
         (b != 0 || ms.all fun m => m == .zero || m == .raw, .invalid, 0),
         ((s.rgn.drafts.filter fun d => d.2.region == p.region).length < 16 && s.rgn.drafts.length < 4096, .busy, 0),
         (r.policy != .staging || q.deckle == 0 || ms.all (· == .inherit), .noAccess, 0),
         placeCheck (s.allocSegs r q.ep (s.rgn.lastDraft + 1) hint ms segs)]

/-- REGION_DRAFT with OP OPEN: its effect (R74). -/
def regionDraftOpenAct (q : Req) (p : DraftP) (hint : Nat) : State → Nat → State × Option Ans :=
  fun s reply =>
      match s.liveRegion p.deckle p.region with
      | none => (s, some { status := .invalid })
      | some r =>
        let i := s.rgn.lastDraft + 1
        let b := r.baseOf p.base
        match s.allocSegs r q.ep i hint (draftModes p r.segments) (s.versionSegs p.region b) with
        | .error e => (s, some { status := e.1, detail := e.2 })
        | .ok (s1, segs, from_) =>
          let n := (segs.filter fun g => g.1 != .inherit).length
          let waits := segs.any fun g => g.1 == .copy || g.1 == .zero
          let d : Draft := { region := p.region, holder := q.ep, base := b, segs := segs,
                             opening := if waits then some reply else none, copyFrom := if waits then from_ else [],
                             sealed := none }
          ({ s1 with rgn := { s1.rgn with drafts := s1.rgn.drafts.put i d, lastDraft := i } },
            if waits then none else some (draftResult i b (n * r.segGranules) n))

/-- REGION_DRAFT with OP OPEN (R74). -/
def execRegionDraftOpen (q : Req) (p : DraftP) (hint : Nat) (s : State) : Host.Outcome State Fault Refusal :=
  .next (s.serve (.regionDraftOpen q p hint) (regionDraftOpenCmd p s) q
    (regionDraftOpenChecks q p hint) (regionDraftOpenAct q p hint))

/-- Fills one new segment of a draft: zero lines, or a copy of the base's segment (R74). -/
def State.fillSeg (s : State) (m : SegMode) (x src : Nat) : State :=
  match s.part.extents.find x with
  | none => s
  | some e =>
    let s1 := match m with
      | .zero => s.zeroRun x e
      | .copy =>
        match s.part.extents.find src with
        | some b => (s.copyAll src b e.tier e.first e.gen fun i => e.lineAt x i).1
        | none => s
      | _ => s
    s1.modExtent x fun e => if e.state = .zeroing none then { e with state := .allocated } else e

/-- DRAFT_COPY_DONE (R74): every COPY and ZERO segment is complete, and OPEN is answered. -/
def execDraftCopyDone (draft : Nat) (s : State) : Host.Outcome State Fault Refusal :=
  .next <| match s.rgn.drafts.find draft with
  | some d =>
    match d.opening with
    | some reply =>
      let s1 := (d.segs.zip d.copyFrom).foldl (fun a g => a.fillSeg g.1.1 g.1.2 g.2) s
      let s2 := s1.modDraft draft fun d => { d with opening := none, copyFrom := [] }
      let n := (d.segs.filter fun g => g.1 != .inherit).length
      let gr := ((s.rgn.regions.find d.region).map (·.segGranules)).getD 0
      State.settle s s2 (some reply) (draftResult draft d.base (n * gr) n)
    | none => s
  | none => s

/-- The checks on a draft that REBASE and DISCARD name: one of the region, not being published
(R75, R25), with the fields of OPEN zero. -/
def State.draftChecks (s : State) (p : DraftP) : List Check :=
  let ok := (s.rgn.drafts.find p.draft).map fun d => d.region == p.region && d.sealed.isNone
  [(p.defaultMode == .inherit && !p.vector && p.base == 0 && p.modes.isEmpty &&
      (s.liveRegion p.deckle p.region).isSome && ok.getD false, .invalid, 0)]

/-- REGION_DRAFT with OP REBASE: code, length and what R27 checks of it first. -/
def regionDraftRebaseCmd (p : DraftP) : Cmd :=
  { code := 0x0302, len := 64, rsvd := p.rsvd, own := some p.deckle, names := [p.deckle] }

/-- REGION_DRAFT with OP REBASE: its checks in order (R75). -/
def regionDraftRebaseChecks (p : DraftP) : State → List Check :=
  fun s => s.draftChecks p

/-- REGION_DRAFT with OP REBASE: its effect (R75). -/
def regionDraftRebaseAct (p : DraftP) : State → Nat → State × Option Ans :=
  fun s _ =>
      match s.rgn.regions.find p.region with
      | none => (s, some { status := .invalid })
      | some r =>
        let new := s.versionSegs p.region r.current
        let s1 := s.modDraft p.draft fun d =>
          { d with base := r.current
                   segs := (d.segs.zip (List.range d.segs.length)).map fun g =>
                     if g.1.1 = .inherit then (.inherit, new.getD g.2 0) else g.1 }
        (s1, some (draftResult p.draft r.current 0 0))

/-- REGION_DRAFT with OP REBASE (R75). -/
def execRegionDraftRebase (q : Req) (p : DraftP) (s : State) : Host.Outcome State Fault Refusal :=
  .next (s.serve (.regionDraftRebase q p) (regionDraftRebaseCmd p) q (regionDraftRebaseChecks p) (regionDraftRebaseAct p))

/-- REGION_DRAFT with OP DISCARD: code, length and what R27 checks of it first. -/
def regionDraftDiscardCmd (p : DraftP) : Cmd :=
  { code := 0x0302, len := 64, rsvd := p.rsvd, own := some p.deckle, names := [p.deckle] }

/-- REGION_DRAFT with OP DISCARD: its checks in order (R75). -/
def regionDraftDiscardChecks (p : DraftP) : State → List Check :=
  fun s => s.draftChecks p

/-- REGION_DRAFT with OP DISCARD: its effect (R75). -/
def regionDraftDiscardAct (p : DraftP) : State → Nat → State × Option Ans :=
  fun s _ =>
      let b := ((s.rgn.drafts.find p.draft).map (·.base)).getD 0
      ((s.endDraft p.draft 2).retainOne p.region, some (draftResult p.draft b 0 0))

/-- REGION_DRAFT with OP DISCARD (R75). -/
def execRegionDraftDiscard (q : Req) (p : DraftP) (s : State) : Host.Outcome State Fault Refusal :=
  .next (s.serve (.regionDraftDiscard q p) (regionDraftDiscardCmd p) q (regionDraftDiscardChecks p) (regionDraftDiscardAct p))

/-! ## Publishing (R76, R77) -/

/-- REGION_PUBLISH: code, length and what R27 checks of it first. -/
def regionPublishCmd (p : PublishP) : Cmd :=
  { code := 0x0303, len := 24, rsvd := p.rsvd, own := some p.deckle, names := [p.deckle] }

/-- REGION_PUBLISH: its checks in order (R76). -/
def regionPublishChecks (p : PublishP) : State → List Check :=
  fun s => [(((s.rgn.regions.find p.region).map fun r => r.deckle == p.deckle).getD false, .invalid, 0)]

/-- REGION_PUBLISH: its effect (R76). -/
def regionPublishAct (q : Req) (p : PublishP) : State → Nat → State × Option Ans :=
  fun s reply =>
      let w : PubWait := { reply := reply, draft := p.draft, base := p.base, ep := q.ep }
      let m := s.rgn.regions.upd p.region fun r => { r with queue := r.queue ++ [w] }
      (({ s with rgn := { s.rgn with regions := m } }).pumpPublishes p.region, none)

/-- REGION_PUBLISH (R76): waits for an earlier publish of the region, then runs its checks and
seals the draft. -/
def execRegionPublish (q : Req) (p : PublishP) (s : State) : Host.Outcome State Fault Refusal :=
  .next (s.serve (.regionPublish q p) (regionPublishCmd p) q (regionPublishChecks p) (regionPublishAct q p))

/-- No admitted write or tile remains on a draft's new extents. -/
def State.draftQuiet (s : State) (d : Draft) : Bool :=
  (d.segs.filter fun g => g.1 != .inherit).all fun g =>
    !s.tilesOn g.2 && s.mem.jobs.all fun j => !j.2.writes || j.2.lines.all fun l => l.done || l.extent != g.2

/-- PUBLISH_COMMIT (R77): the draft becomes version BASE + 1; its new extents lose their holder. -/
def execPublishCommit (draft : Nat) (s : State) : Host.Outcome State Fault Refusal :=
  .next <| match s.rgn.drafts.find draft with
  | some d =>
    match d.sealed, s.rgn.regions.find d.region with
    | some reply, some r =>
      if d.opening.isSome || !s.draftQuiet d then s
      else
        let v : Version := { publisher := d.holder, publishedAt := s.dom, segs := d.segs.map (·.2) }
        let r' : Region := { r with current := d.base + 1, versions := r.versions.put (d.base + 1) v }
        let s1 := { s with rgn := { s.rgn with regions := s.rgn.regions.put d.region r', drafts := s.rgn.drafts.del draft } }
        let s2 := (d.segs.filter fun g => g.1 != .inherit).foldl (fun a g => a.modExtent g.2 fun e =>
          { e with holder := none, draft := none, published := some d.region }) s1
        let res := okFields 16 [(64, watermark (d.base + 1) d.holder), (64, s.dom)]
        ((State.settle s s2 (some reply) res).retainOne d.region).pumpPublishes d.region
    | _, _ => s
  | none => s

/-! ## Handles (R79, R80) -/

/-- The deckle may open the region: its owner or a grantee (R79, R82). -/
def Region.admits (r : Region) (d : Nat) : Bool := r.deckle == d || r.grantees.contains d

/-- REGION_OPEN's inline result (Table 5.9). -/
def openResult (h : Nat) (r : Region) (mark entries : Nat) : Ans :=
  okFields 32 [(32, h), (12, r.deckle), (20, 0), (64, mark), (16, r.segments), (16, r.segGranules), (16, entries), (80, 0)]

/-- The watermark of a version of a region. -/
def Region.markOf (r : Region) (v : Nat) : Nat := watermark v (((r.versions.find v).map (·.publisher)).getD 0)

/-- The version an OPEN or REOPEN names is one that is not retired. -/
def Region.openChecks (r : Region) (v : Nat) : List Check :=
  [(v ≤ r.current, .invalid, 0), (v != 0 && r.versions.has v, .staleVersion, 0)]

/-- REGION_OPEN with OP OPEN: code, length and what R27 checks of it first. -/
def regionOpenCmd (p : OpenP) : Cmd :=
  { code := 0x0304, len := 24, rsvd := p.rsvd, own := some p.deckle, names := [p.deckle] }

/-- REGION_OPEN with OP OPEN: its checks in order (R79). -/
def regionOpenChecks (q : Req) (p : OpenP) : State → List Check :=
  fun s =>
      match s.rgn.regions.find p.region with
      | none => [(false, .invalid, 0)]
      | some r =>
        [(!p.ofDraft && p.id == 0 && s.deckleExists p.deckle, .invalid, 0), (r.admits p.deckle, .noAccess, 0),
         (!r.deleted, .invalid, 0)] ++ r.openChecks (r.baseOf p.version) ++
        [((s.rgn.handles.filter fun h => h.2.ep == q.ep).length < 1024 && s.rgn.handles.length < 262144, .busy, 0)]

/-- REGION_OPEN with OP OPEN: its effect (R79). -/
def regionOpenAct (q : Req) (p : OpenP) : State → Nat → State × Option Ans :=
  fun s _ =>
      match s.rgn.regions.find p.region with
      | none => (s, some { status := .invalid })
      | some r =>
        let h := s.rgn.lastHandle + 1
        let v := r.baseOf p.version
        let x : Handle := { deckle := p.deckle, ep := q.ep, region := p.region, version := v }
        ({ s with rgn := { s.rgn with handles := s.rgn.handles.put h x, lastHandle := h } },
          some (openResult h r (r.markOf v) 0))

/-- REGION_OPEN with OP OPEN (R79). -/
def execRegionOpen (q : Req) (p : OpenP) (s : State) : Host.Outcome State Fault Refusal :=
  .next (s.serve (.regionOpen q p) (regionOpenCmd p) q (regionOpenChecks q p) (regionOpenAct q p))

/-- A handle of the deckle on the region. -/
def State.handleOf (s : State) (d region h : Nat) : Option Handle :=
  (s.rgn.handles.find h).bind fun x => if x.deckle = d ∧ x.region = region then some x else none

/-- REGION_OPEN with OP REOPEN: code, length and what R27 checks of it first. -/
def regionReopenCmd (p : OpenP) : Cmd :=
  { code := 0x0304, len := 24, rsvd := p.rsvd, own := some p.deckle, names := [p.deckle] }

/-- REGION_OPEN with OP REOPEN: its checks in order (R79). -/
def regionReopenChecks (p : OpenP) : State → List Check :=
  fun s =>
      match s.rgn.regions.find p.region with
      | none => [(false, .invalid, 0)]
      | some r =>
        [(!p.ofDraft && (s.handleOf p.deckle p.region p.id).isSome, .invalid, 0), (r.admits p.deckle, .noAccess, 0)]
        ++ r.openChecks (r.baseOf p.version)

/-- REGION_OPEN with OP REOPEN: its effect (R79). -/
def regionReopenAct (p : OpenP) : State → Nat → State × Option Ans :=
  fun s _ =>
      match s.rgn.regions.find p.region with
      | none => (s, some { status := .invalid })
      | some r =>
        let v := r.baseOf p.version
        let m := s.rgn.handles.upd p.id fun h => { h with version := v }
        (({ s with rgn := { s.rgn with handles := m } }).retainOne p.region, some (openResult p.id r (r.markOf v) 0))

/-- REGION_OPEN with OP REOPEN (R79). -/
def execRegionReopen (q : Req) (p : OpenP) (s : State) : Host.Outcome State Fault Refusal :=
  .next (s.serve (.regionReopen q p) (regionReopenCmd p) q (regionReopenChecks p) (regionReopenAct p))

/-- A segment entry (Table 5.10). -/
def State.segEntry (s : State) (x mode : Nat) (writable : Bool) : Nat :=
  let e := s.part.extents.find x
  pack [(32, x), (16, (e.map (·.gen)).getD 0), (2, (e.map fun e => tierCode e.tier).getD 0), (2, mode),
    (1, b2n writable), (3, 0), (24, (e.map (·.first)).getD 0), (48, 0)]

/-- LIST's answer: the segment entries that fit (R23, R79). -/
def listAns (q : Req) (r : Region) (mark : Nat) (entries : List Nat) : Ans :=
  let room := if q.resultPva = 0 then 0 else min entries.length (q.resultLen / 16)
  { openResult 0 r mark room with area := 16 * entries.length, content := concatBytes 16 entries }

/-- REGION_OPEN with OP LIST: code, length and what R27 checks of it first. -/
def regionListCmd (p : OpenP) : Cmd :=
  { code := 0x0304, len := 24, rsvd := p.rsvd, own := some p.deckle, names := [p.deckle] }

/-- REGION_OPEN with OP LIST: its checks in order (R79). -/
def regionListChecks (p : OpenP) : State → List Check :=
  fun s =>
      match s.rgn.regions.find p.region with
      | none => [(false, .invalid, 0)]
      | some r =>
        if p.ofDraft then
          [(p.version == 0, .invalid, 0), (r.deckle == p.deckle, .noAccess, 0),
           (((s.rgn.drafts.find p.id).map fun d => d.region == p.region).getD false, .invalid, 0)]
        else [(p.version == 0 && (s.handleOf p.deckle p.region p.id).isSome, .invalid, 0)]

/-- REGION_OPEN with OP LIST: its effect (R79). -/
def regionListAct (q : Req) (p : OpenP) : State → Nat → State × Option Ans :=
  fun s _ =>
      match s.rgn.regions.find p.region with
      | none => (s, some { status := .invalid })
      | some r =>
        if p.ofDraft then
          match s.rgn.drafts.find p.id with
          | some d => (s, some (listAns q r (watermark d.base 0)
              (d.segs.map fun g => s.segEntry g.2 (modeCode g.1) (g.1 != .inherit && d.sealed.isNone))))
          | none => (s, some { status := .invalid })
        else
          let v := ((s.handleOf p.deckle p.region p.id).map (·.version)).getD 0
          (s, some (listAns q r (r.markOf v) ((s.versionSegs p.region v).map fun x => s.segEntry x 0 false)))

/-- REGION_OPEN with OP LIST (R79). -/
def execRegionList (q : Req) (p : OpenP) (s : State) : Host.Outcome State Fault Refusal :=
  .next (s.serve (.regionList q p) (regionListCmd p) q (regionListChecks p) (regionListAct q p))

/-- REGION_CLOSE: code, length and what R27 checks of it first. -/
def regionCloseCmd (p : OpenP) : Cmd :=
  { code := 0x0305, len := 8, rsvd := p.rsvd, own := some p.deckle, names := [p.deckle] }

/-- REGION_CLOSE: its checks in order (R79). -/
def regionCloseChecks (p : OpenP) : State → List Check :=
  fun s => [(((s.rgn.handles.find p.id).map fun h => h.deckle == p.deckle).getD false, .invalid, 0)]

/-- REGION_CLOSE: its effect (R79). -/
def regionCloseAct (p : OpenP) : State → Nat → State × Option Ans :=
  fun s _ =>
      let r := ((s.rgn.handles.find p.id).map (·.region)).getD 0
      (({ s with rgn := { s.rgn with handles := s.rgn.handles.del p.id } }).retainOne r, some okAns)

/-- REGION_CLOSE (R79): `id` is the handle. -/
def execRegionClose (q : Req) (p : OpenP) (s : State) : Host.Outcome State Fault Refusal :=
  .next (s.serve (.regionClose q p) (regionCloseCmd p) q (regionCloseChecks p) (regionCloseAct p))

/-! ## Grants (R82) -/

/-- REGION_GRANT with OP GRANT: code, length and what R27 checks of it first. -/
def regionGrantCmd (p : GrantP) : Cmd :=
  { code := 0x0306, len := 16, rsvd := p.rsvd, own := some p.deckle, names := [p.deckle, p.grantee] }

/-- REGION_GRANT with OP GRANT: its checks in order (R82). -/
def regionGrantChecks (p : GrantP) : State → List Check :=
  fun s =>
      let r := s.rgn.regions.find p.region
      [((r.map fun r => r.deckle == p.deckle).getD false && p.grantee != p.deckle && !p.closeHandles &&
          s.deckleExists p.grantee, .invalid, 0),
       ((r.map fun r => r.grantees.contains p.grantee || r.grantees.length < 256).getD false, .busy, 0)]

/-- REGION_GRANT with OP GRANT: its effect (R82). -/
def regionGrantAct (p : GrantP) : State → Nat → State × Option Ans :=
  fun s _ =>
      let m := s.rgn.regions.upd p.region fun r =>
        if r.grantees.contains p.grantee then r else { r with grantees := r.grantees ++ [p.grantee] }
      ({ s with rgn := { s.rgn with regions := m } }, some okAns)

/-- REGION_GRANT with OP GRANT (R82). -/
def execRegionGrant (q : Req) (p : GrantP) (s : State) : Host.Outcome State Fault Refusal :=
  .next (s.serve (.regionGrant q p) (regionGrantCmd p) q (regionGrantChecks p) (regionGrantAct p))

/-- REGION_GRANT with OP WITHDRAW: code, length and what R27 checks of it first. -/
def regionWithdrawCmd (p : GrantP) : Cmd :=
  { code := 0x0306, len := 16, rsvd := p.rsvd, own := some p.deckle, names := [p.deckle] }

/-- REGION_GRANT with OP WITHDRAW: its checks in order (R82). -/
def regionWithdrawChecks (p : GrantP) : State → List Check :=
  fun s => [(((s.rgn.regions.find p.region).map fun r => r.deckle == p.deckle).getD false &&
      p.grantee != p.deckle, .invalid, 0)]

/-- REGION_GRANT with OP WITHDRAW: its effect (R82). -/
def regionWithdrawAct (p : GrantP) : State → Nat → State × Option Ans :=
  fun s _ =>
      let has := ((s.rgn.regions.find p.region).map fun r => r.grantees.contains p.grantee).getD false
      if !has then (s, some okAns)
      else
        let m := s.rgn.regions.upd p.region fun r => { r with grantees := r.grantees.filter (· != p.grantee) }
        let hs := if p.closeHandles then
            s.rgn.handles.keep fun _ h => !(h.region == p.region && h.deckle == p.grantee)
          else s.rgn.handles
        (({ s with rgn := { s.rgn with regions := m, handles := hs } }).retainOne p.region, some okAns)

/-- REGION_GRANT with OP WITHDRAW (R82). -/
def execRegionWithdraw (q : Req) (p : GrantP) (s : State) : Host.Outcome State Fault Refusal :=
  .next (s.serve (.regionWithdraw q p) (regionWithdrawCmd p) q (regionWithdrawChecks p) (regionWithdrawAct p))

/-- RETENTION_TICK (R81): the hub's check every 1 ms. -/
def execRetentionTick (s : State) : Host.Outcome State Fault Refusal :=
  .next (if s.fwRuns then State.commitFw s s.checkRetention else s)

end Sys2Proof.Machine
end

