-- ==== Sys2Proof/Machine/Dispatch.lean ====
section
/-! DEFINITION. The dispatcher: one arm per command, each a direct call of its meaning. -/

namespace Sys2Proof.Machine

/-- What a command does to everything but the queue. -/
def exec (i : Instr) (s : State) : Host.Outcome State Fault Refusal :=
  match i with
  | .loadWindowWrite h m data => Sys2Proof.Machine.execLoadWindowWrite h m data s
  | .bootFwActivate q p => Sys2Proof.Machine.execBootFwActivate q p s
  | .deviceQuery q => Sys2Proof.Machine.execDeviceQuery q s
  | .deviceConfigureProfile q p => Sys2Proof.Machine.execDeviceConfigureProfile q p s
  | .deviceConfigureWedge q p => Sys2Proof.Machine.execDeviceConfigureWedge q p s
  | .driverAttachAttestOnly q p => Sys2Proof.Machine.execDriverAttachAttestOnly q p s
  | .driverAttachAdopt q p => Sys2Proof.Machine.execDriverAttachAdopt q p s
  | .driverAttachReset q p => Sys2Proof.Machine.execDriverAttachReset q p s
  | .driverDetach q => Sys2Proof.Machine.execDriverDetach q s
  | .fwStage q p => Sys2Proof.Machine.execFwStage q p s
  | .fwActivate q p => Sys2Proof.Machine.execFwActivate q p s
  | .fwActivateCancel q p => Sys2Proof.Machine.execFwActivateCancel q p s
  | .fwStatus q => Sys2Proof.Machine.execFwStatus q s
  | .brStatus q => Sys2Proof.Machine.execBrStatus q s
  | .brDump q p => Sys2Proof.Machine.execBrDump q p s
  | .brDumpRead q p => Sys2Proof.Machine.execBrDumpRead q p s
  | .brDumpClear q p => Sys2Proof.Machine.execBrDumpClear q p s
  | .brZeroise q p => Sys2Proof.Machine.execBrZeroise q p s
  | .brFailoverOut q => Sys2Proof.Machine.execBrFailoverOut q s
  | .brResetHub q p => Sys2Proof.Machine.execBrResetHub q p s
  | .brResetDevice q p => Sys2Proof.Machine.execBrResetDevice q p s
  | .lineWriteAccepted job => Sys2Proof.Machine.execLineWriteAccepted job s
  | .lineRead job flip => Sys2Proof.Machine.execLineRead job flip s
  | .reconstructionDone job => Sys2Proof.Machine.execReconstructionDone job s
  | .requestStaleDiscard job => Sys2Proof.Machine.execRequestStaleDiscard job s
  | .extentMigrate q p hint => Sys2Proof.Machine.execExtentMigrate q p hint s
  | .extentMigrateCancel q p => Sys2Proof.Machine.execExtentMigrateCancel q p s
  | .migrateCopyDone extent => Sys2Proof.Machine.execMigrateCopyDone extent s
  | .migrateOldFramesFree extent => Sys2Proof.Machine.execMigrateOldFramesFree extent s
  | .deckleCreate q p hint => Sys2Proof.Machine.execDeckleCreate q p hint s
  | .deckleQuery q p => Sys2Proof.Machine.execDeckleQuery q p s
  | .deckleQuota q p => Sys2Proof.Machine.execDeckleQuota q p s
  | .deckleDissolve q p => Sys2Proof.Machine.execDeckleDissolve q p s
  | .dissolveComplete deckle => Sys2Proof.Machine.execDissolveComplete deckle s
  | .extentAlloc q p hint => Sys2Proof.Machine.execExtentAlloc q p hint s
  | .extentZeroDone extent => Sys2Proof.Machine.execExtentZeroDone extent s
  | .extentFree q p => Sys2Proof.Machine.execExtentFree q p s
  | .extentRevoke q p => Sys2Proof.Machine.execExtentRevoke q p s
  | .revokeDrainEnd extent => Sys2Proof.Machine.execRevokeDrainEnd extent s
  | .revokeTimeout extent => Sys2Proof.Machine.execRevokeTimeout extent s
  | .granuleReturn tier granule => Sys2Proof.Machine.execGranuleReturn tier granule s
  | .leaseGrant q p => Sys2Proof.Machine.execLeaseGrant q p s
  | .leaseRelease q p => Sys2Proof.Machine.execLeaseRelease q p s
  | .leaseQuery q p => Sys2Proof.Machine.execLeaseQuery q p s
  | .lease port ep deckle stamp rsvd => Sys2Proof.Machine.execLease port ep deckle stamp rsvd s
  | .leaseDeadline deckle ep => Sys2Proof.Machine.execLeaseDeadline deckle ep s
  | .leaseGraceEnd deckle ep => Sys2Proof.Machine.execLeaseGraceEnd deckle ep s
  | .leaseReclaimDone deckle ep => Sys2Proof.Machine.execLeaseReclaimDone deckle ep s
  | .regionCreate q p => Sys2Proof.Machine.execRegionCreate q p s
  | .regionRetain q p => Sys2Proof.Machine.execRegionRetain q p s
  | .regionDelete q p => Sys2Proof.Machine.execRegionDelete q p s
  | .regionDraftOpen q p hint => Sys2Proof.Machine.execRegionDraftOpen q p hint s
  | .draftCopyDone draft => Sys2Proof.Machine.execDraftCopyDone draft s
  | .regionDraftRebase q p => Sys2Proof.Machine.execRegionDraftRebase q p s
  | .regionDraftDiscard q p => Sys2Proof.Machine.execRegionDraftDiscard q p s
  | .regionPublish q p => Sys2Proof.Machine.execRegionPublish q p s
  | .publishCommit draft => Sys2Proof.Machine.execPublishCommit draft s
  | .regionOpen q p => Sys2Proof.Machine.execRegionOpen q p s
  | .regionReopen q p => Sys2Proof.Machine.execRegionReopen q p s
  | .regionList q p => Sys2Proof.Machine.execRegionList q p s
  | .regionClose q p => Sys2Proof.Machine.execRegionClose q p s
  | .regionGrant q p => Sys2Proof.Machine.execRegionGrant q p s
  | .regionWithdraw q p => Sys2Proof.Machine.execRegionWithdraw q p s
  | .lodeCreate q p => Sys2Proof.Machine.execLodeCreate q p s
  | .lodeDelete q p => Sys2Proof.Machine.execLodeDelete q p s
  | .lodeJoin q p => Sys2Proof.Machine.execLodeJoin q p s
  | .lodeLeave q p => Sys2Proof.Machine.execLodeLeave q p s
  | .lodeRecallDone lode ep => Sys2Proof.Machine.execLodeRecallDone lode ep s
  | .rds h x => Sys2Proof.Machine.execRds h x s
  | .rdx h x => Sys2Proof.Machine.execRdx h x s
  | .wb h x data => Sys2Proof.Machine.execWb h x data s
  | .snpRsp h x data => Sys2Proof.Machine.execSnpRsp h x data s
  | .lodeSnoopTimeout lode ep => Sys2Proof.Machine.execLodeSnoopTimeout lode ep s
  | .lodeSalvageCopy q p => Sys2Proof.Machine.execLodeSalvageCopy q p s
  | .lodeSalvageCopyRearm q p => Sys2Proof.Machine.execLodeSalvageCopyRearm q p s
  | .lodeSalvageRearm q p => Sys2Proof.Machine.execLodeSalvageRearm q p s
  | .lodeSalvageDelete q p => Sys2Proof.Machine.execLodeSalvageDelete q p s
  | .salvageCopyDone lode => Sys2Proof.Machine.execSalvageCopyDone lode s
  | .tableSync q p hint => Sys2Proof.Machine.execTableSync q p hint s
  | .tableSyncSwitched deckle => Sys2Proof.Machine.execTableSyncSwitched deckle s
  | .tableReadback q p => Sys2Proof.Machine.execTableReadback q p s
  | .translationWalkDone core unit slot couch => Sys2Proof.Machine.execTranslationWalkDone core unit slot couch s
  | .faultResume q p => Sys2Proof.Machine.execFaultResume q p s
  | .faultAbort q p => Sys2Proof.Machine.execFaultAbort q p s
  | .faultAutoAbort fault => Sys2Proof.Machine.execFaultAutoAbort fault s
  | .clockDroopStretch island => Sys2Proof.Machine.execClockDroopStretch island s
  | .launchStart work => Sys2Proof.Machine.execLaunchStart work s
  | .bundleIssue core engine => Sys2Proof.Machine.execBundleIssue core engine s
  | .barrierRelease work core gang => Sys2Proof.Machine.execBarrierRelease work core gang s
  | .streamTileLand core engine slot => Sys2Proof.Machine.execStreamTileLand core engine slot s
  | .streamSlotComplete core engine slot => Sys2Proof.Machine.execStreamSlotComplete core engine slot s
  | .kernelLoad q p => Sys2Proof.Machine.execKernelLoad q p s
  | .kernelUnload q p => Sys2Proof.Machine.execKernelUnload q p s
  | .launch h b => Sys2Proof.Machine.execLaunch h b s
  | .workCancel h b => Sys2Proof.Machine.execWorkCancel h b s
  | .workTimeCap work => Sys2Proof.Machine.execWorkTimeCap work s
  | .launchComplete work => Sys2Proof.Machine.execLaunchComplete work s
  | .attnPoolSet q p hint => Sys2Proof.Machine.execAttnPoolSet q p hint s
  | .attnOpen h b => Sys2Proof.Machine.execAttnOpen h b s
  | .attnAppend h b => Sys2Proof.Machine.execAttnAppend h b s
  | .attnAppendDone work => Sys2Proof.Machine.execAttnAppendDone work s
  | .attnStep h b => Sys2Proof.Machine.execAttnStep h b s
  | .attnStepComplete work => Sys2Proof.Machine.execAttnStepComplete work s
  | .attnClose h b => Sys2Proof.Machine.execAttnClose h b s
  | .attnTruncate h b => Sys2Proof.Machine.execAttnTruncate h b s
  | .attnQuery h b => Sys2Proof.Machine.execAttnQuery h b s
  | .mapDefine q p => Sys2Proof.Machine.execMapDefine q p s
  | .mapReplace q p => Sys2Proof.Machine.execMapReplace q p s
  | .mapRetire q p => Sys2Proof.Machine.execMapRetire q p s
  | .adapterRegister q p => Sys2Proof.Machine.execAdapterRegister q p s
  | .adapterUnregister q p => Sys2Proof.Machine.execAdapterUnregister q p s
  | .adapterPin q p => Sys2Proof.Machine.execAdapterPin q p s
  | .adapterUnpin q p => Sys2Proof.Machine.execAdapterUnpin q p s
  | .adapterPartLoadDone mapUid adapter layer tensor => Sys2Proof.Machine.execAdapterPartLoadDone mapUid adapter layer tensor s
  | .rdf h f => Sys2Proof.Machine.execRdf h f s
  | .formTileFormed work => Sys2Proof.Machine.execFormTileFormed work s
  | .indexDefine q p => Sys2Proof.Machine.execIndexDefine q p s
  | .indexReplace q p => Sys2Proof.Machine.execIndexReplace q p s
  | .indexRetire q p => Sys2Proof.Machine.execIndexRetire q p s
  | .topkQuery h b => Sys2Proof.Machine.execTopkQuery h b s
  | .topkComplete work => Sys2Proof.Machine.execTopkComplete work s
  | .couchSubmit h b => Sys2Proof.Machine.execCouchSubmit h b s
  | .couchAbort h b => Sys2Proof.Machine.execCouchAbort h b s
  | .couchChainStart core channel => Sys2Proof.Machine.execCouchChainStart core channel s
  | .couchDescStart core channel => Sys2Proof.Machine.execCouchDescStart core channel s
  | .couchTileDone core channel tile => Sys2Proof.Machine.execCouchTileDone core channel tile s
  | .couchTileTimeout core channel tile => Sys2Proof.Machine.execCouchTileTimeout core channel tile s
  | .couchRetry core channel => Sys2Proof.Machine.execCouchRetry core channel s
  | .flitTransmit port => Sys2Proof.Machine.execFlitTransmit port s
  | .dataFlitReceive port f => Sys2Proof.Machine.execDataFlitReceive port f s
  | .idleFlitReceive port good => Sys2Proof.Machine.execIdleFlitReceive port good s
  | .bypassFlitReceive port b good => Sys2Proof.Machine.execBypassFlitReceive port b good s
  | .credit port counts => Sys2Proof.Machine.execCredit port counts s
  | .creditInit port counts => Sys2Proof.Machine.execCreditInit port counts s
  | .retrain port linkId width cause rsvd => Sys2Proof.Machine.execRetrain port linkId width cause rsvd s
  | .resume port nextMain nextBypass rsvd => Sys2Proof.Machine.execResume port nextMain nextBypass rsvd s
  | .paramA port p => Sys2Proof.Machine.execParamA port p s
  | .paramB port ackTimer replayLimit downWindow rsvd => Sys2Proof.Machine.execParamB port ackTimer replayLimit downWindow rsvd s
  | .keyx port m => Sys2Proof.Machine.execKeyx port m s
  | .keyxTimeout port => Sys2Proof.Machine.execKeyxTimeout port s
  | .ackTimerExpire port => Sys2Proof.Machine.execAckTimerExpire port s
  | .nakTimerExpire port bypass => Sys2Proof.Machine.execNakTimerExpire port bypass s
  | .replayTimerExpire port bypass => Sys2Proof.Machine.execReplayTimerExpire port bypass s
  | .creditReturnTimer port => Sys2Proof.Machine.execCreditReturnTimer port s
  | .laneSignalLoss port lanes => Sys2Proof.Machine.execLaneSignalLoss port lanes s
  | .laneErrorRate port lane => Sys2Proof.Machine.execLaneErrorRate port lane s
  | .allLanesSignalLoss port => Sys2Proof.Machine.execAllLanesSignalLoss port s
  | .linkDownWaitExpire port => Sys2Proof.Machine.execLinkDownWaitExpire port s
  | .detectPoll port signal => Sys2Proof.Machine.execDetectPoll port signal s
  | .equaliseDone port => Sys2Proof.Machine.execEqualiseDone port s
  | .alignDone port passed => Sys2Proof.Machine.execAlignDone port passed s
  | .trainingFail port => Sys2Proof.Machine.execTrainingFail port s
  | .peerClaimTimeout port => Sys2Proof.Machine.execPeerClaimTimeout port s
  | .deviceEndpointLeaseTick port => Sys2Proof.Machine.execDeviceEndpointLeaseTick port s
  | .rd h m => Sys2Proof.Machine.execRd h m s
  | .rdVersion h m => Sys2Proof.Machine.execRdVersion h m s
  | .wr h m data => Sys2Proof.Machine.execWr h m data s
  | .atom h m a b => Sys2Proof.Machine.execAtom h m a b s
  | .fence h => Sys2Proof.Machine.execFence h s
  | .fenceDone ep tag => Sys2Proof.Machine.execFenceDone ep tag s
  | .rsp h status last data => Sys2Proof.Machine.execRsp h status last data s
  | .epClaim port vc identity rsvd => Sys2Proof.Machine.execEpClaim port vc identity rsvd s
  | .epRelease h => Sys2Proof.Machine.execEpRelease h s
  | .epAssign port ep status => Sys2Proof.Machine.execEpAssign port ep status s
  | .laidInboundWr h m data => Sys2Proof.Machine.execLaidInboundWr h m data s
  | .queueMapMap q p => Sys2Proof.Machine.execQueueMapMap q p s
  | .queueMapWeight q p => Sys2Proof.Machine.execQueueMapWeight q p s
  | .shaperSet q p => Sys2Proof.Machine.execShaperSet q p s
  | .policerSet q p => Sys2Proof.Machine.execPolicerSet q p s
  | .energySet q p => Sys2Proof.Machine.execEnergySet q p s
  | .energyRead q p => Sys2Proof.Machine.execEnergyRead q p s
  | .powerCap q p => Sys2Proof.Machine.execPowerCap q p s
  | .energyQueueRelease deckle => Sys2Proof.Machine.execEnergyQueueRelease deckle s
  | .ledgerTick measuredNj staticNj => Sys2Proof.Machine.execLedgerTick measuredNj staticNj s
  | .ledgerRefine coef => Sys2Proof.Machine.execLedgerRefine coef s
  | .powerLoopTick powerW staticW deferW => Sys2Proof.Machine.execPowerLoopTick powerW staticW deferW s
  | .powerComparator powerW => Sys2Proof.Machine.execPowerComparator powerW s
  | .thermalComparator sensor value => Sys2Proof.Machine.execThermalComparator sensor value s
  | .thermalLoopTick sensors => Sys2Proof.Machine.execThermalLoopTick sensors s
  | .timeSync port hops ns frac lateNs => Sys2Proof.Machine.execTimeSync port hops ns frac lateNs s
  | .pdelayReq port => Sys2Proof.Machine.execPdelayReq port s
  | .pdelayResp port turnaround roundTrip => Sys2Proof.Machine.execPdelayResp port turnaround roundTrip s
  | .timeStatus q => Sys2Proof.Machine.execTimeStatus q s
  | .timeMasterSet q p => Sys2Proof.Machine.execTimeMasterSet q p s
  | .laidLoad q p => Sys2Proof.Machine.execLaidLoad q p s
  | .laidActivate q p => Sys2Proof.Machine.execLaidActivate q p s
  | .laidStop q p => Sys2Proof.Machine.execLaidStop q p s
  | .laidCancel q p => Sys2Proof.Machine.execLaidCancel q p s
  | .laidStatus q p => Sys2Proof.Machine.execLaidStatus q p s
  | .laidLead entry => Sys2Proof.Machine.execLaidLead entry s
  | .laidSlot entry => Sys2Proof.Machine.execLaidSlot entry s
  | .laidTileBoundary entry => Sys2Proof.Machine.execLaidTileBoundary entry s
  | .scrub q p => Sys2Proof.Machine.execScrub q p s
  | .scrubDone scrub => Sys2Proof.Machine.execScrubDone scrub s
  | .inject q p => Sys2Proof.Machine.execInject q p s
  | .injectCancel q p => Sys2Proof.Machine.execInjectCancel q p s
  | .ceConfigSet q p => Sys2Proof.Machine.execCeConfigSet q p s
  | .ceConfigFailOut q p => Sys2Proof.Machine.execCeConfigFailOut q p s
  | .rebuildStatus q => Sys2Proof.Machine.execRebuildStatus q s
  | .poisonList q p => Sys2Proof.Machine.execPoisonList q p s
  | .stackTrainingLost group unit => Sys2Proof.Machine.execStackTrainingLost group unit s
  | .rebuildDone group => Sys2Proof.Machine.execRebuildDone group s
  | .sealDone group => Sys2Proof.Machine.execSealDone group s
  | .pairArm q p => Sys2Proof.Machine.execPairArm q p s
  | .pairForm q p => Sys2Proof.Machine.execPairForm q p s
  | .pairDissolve q p => Sys2Proof.Machine.execPairDissolve q p s
  | .pairStatus q => Sys2Proof.Machine.execPairStatus q s
  | .healthReport q => Sys2Proof.Machine.execHealthReport q s
  | .failoverHandover q p => Sys2Proof.Machine.execFailoverHandover q p s
  | .failoverForce q p => Sys2Proof.Machine.execFailoverForce q p s
  | .witnessSet q p => Sys2Proof.Machine.execWitnessSet q p s
  | .witnessReport q p => Sys2Proof.Machine.execWitnessReport q p s
  | .mirData port x lines => Sys2Proof.Machine.execMirData port x lines s
  | .mirMeta port x r => Sys2Proof.Machine.execMirMeta port x r s
  | .mirAck port mseq => Sys2Proof.Machine.execMirAck port mseq s
  | .mirHb port x => Sys2Proof.Machine.execMirHb port x s
  | .mirHealth port r => Sys2Proof.Machine.execMirHealth port r s
  | .mirFetch port x deckle gen => Sys2Proof.Machine.execMirFetch port x deckle gen s
  | .mirLine port x status line => Sys2Proof.Machine.execMirLine port x status line s
  | .mirCtrl port kind x info => Sys2Proof.Machine.execMirCtrl port kind x info s
  | .healthReportTick => Sys2Proof.Machine.execHealthReportTick s
  | .standbySelfTest t pass => Sys2Proof.Machine.execStandbySelfTest t pass s
  | .attest q p => Sys2Proof.Machine.execAttest q p s
  | .keyRotateDeckleKey q p => Sys2Proof.Machine.execKeyRotateDeckleKey q p s
  | .keySweepDone deckle => Sys2Proof.Machine.execKeySweepDone deckle s
  | .linkRekey q p => Sys2Proof.Machine.execLinkRekey q p s
  | .trustAdd q p => Sys2Proof.Machine.execTrustAdd q p s
  | .trustRemove q p => Sys2Proof.Machine.execTrustRemove q p s
  | .trustPolicy q p => Sys2Proof.Machine.execTrustPolicy q p s
  | .operatorKernelKey q p => Sys2Proof.Machine.execOperatorKernelKey q p s
  | .raiseSec q p => Sys2Proof.Machine.execRaiseSec q p s
  | .debugOpen q p => Sys2Proof.Machine.execDebugOpen q p s
  | .debugRead q p => Sys2Proof.Machine.execDebugRead q p s
  | .debugClose q => Sys2Proof.Machine.execDebugClose q s
  | .coldReset pgAonLost => Sys2Proof.Machine.execColdReset pgAonLost s
  | .thermalTrip sensor value => Sys2Proof.Machine.execThermalTrip sensor value s
  | .supplyTrip cause rail value => Sys2Proof.Machine.execSupplyTrip cause rail value s
  | .coreReady core => Sys2Proof.Machine.execCoreReady core s
  | .tier1Ready untrained => Sys2Proof.Machine.execTier1Ready untrained s
  | .farDieReady die untrained => Sys2Proof.Machine.execFarDieReady die untrained s
  | .setdasa addr => Sys2Proof.Machine.execSetdasa addr s
  | .samplePreload shiftIn => Sys2Proof.Machine.execSamplePreload shiftIn s
  | .dbgOpen timeoutMs => Sys2Proof.Machine.execDbgOpen timeoutMs s
  | .dbgMbx c => Sys2Proof.Machine.execDbgMbx c s
  | .vsetAck die => Sys2Proof.Machine.execVsetAck die s
  | .asmWindowExpire stripe => Sys2Proof.Machine.execAsmWindowExpire stripe s
  | .wedgePowerFloor powerW => Sys2Proof.Machine.execWedgePowerFloor powerW s
  | .ceBucketLeak group unit => Sys2Proof.Machine.execCeBucketLeak group unit s
  | .alignPatternSeen port => Sys2Proof.Machine.execAlignPatternSeen port s
  | .bootImageVerified => Sys2Proof.Machine.execBootImageVerified s
  | .driverLeaseLapse => Sys2Proof.Machine.execDriverLeaseLapse s
  | .fwSwitchPoint => Sys2Proof.Machine.execFwSwitchPoint s
  | .fwActivateTimeout => Sys2Proof.Machine.execFwActivateTimeout s
  | .hubWedge => Sys2Proof.Machine.execHubWedge s
  | .wedgeDumpDone => Sys2Proof.Machine.execWedgeDumpDone s
  | .wedgeRestart => Sys2Proof.Machine.execWedgeRestart s
  | .hubRestartDone => Sys2Proof.Machine.execHubRestartDone s
  | .retentionTick => Sys2Proof.Machine.execRetentionTick s
  | .timeTick => Sys2Proof.Machine.execTimeTick s
  | .holdoverEntry => Sys2Proof.Machine.execHoldoverEntry s
  | .timePpsIn => Sys2Proof.Machine.execTimePpsIn s
  | .ppsOutSecond => Sys2Proof.Machine.execPpsOutSecond s
  | .laidTableStart => Sys2Proof.Machine.execLaidTableStart s
  | .laidCycleBoundary => Sys2Proof.Machine.execLaidCycleBoundary s
  | .integrityLogDrain => Sys2Proof.Machine.execIntegrityLogDrain s
  | .pairArmTimeout => Sys2Proof.Machine.execPairArmTimeout s
  | .handoverDrainEnd => Sys2Proof.Machine.execHandoverDrainEnd s
  | .syncCopyDone => Sys2Proof.Machine.execSyncCopyDone s
  | .mirAckTimer => Sys2Proof.Machine.execMirAckTimer s
  | .mirHbTick => Sys2Proof.Machine.execMirHbTick s
  | .heartbeatLost => Sys2Proof.Machine.execHeartbeatLost s
  | .mirrorAckTimeout => Sys2Proof.Machine.execMirrorAckTimeout s
  | .promotionComplete => Sys2Proof.Machine.execPromotionComplete s
  | .healthReportTimeout => Sys2Proof.Machine.execHealthReportTimeout s
  | .debugSessionTimeout => Sys2Proof.Machine.execDebugSessionTimeout s
  | .coldResetRelease => Sys2Proof.Machine.execColdResetRelease s
  | .warmReset => Sys2Proof.Machine.execWarmReset s
  | .warmResetRelease => Sys2Proof.Machine.execWarmResetRelease s
  | .pllLock => Sys2Proof.Machine.execPllLock s
  | .stagingReady => Sys2Proof.Machine.execStagingReady s
  | .bedrockReady => Sys2Proof.Machine.execBedrockReady s
  | .hubReady => Sys2Proof.Machine.execHubReady s
  | .securityReady => Sys2Proof.Machine.execSecurityReady s
  | .i3cPrivateRead => Sys2Proof.Machine.execI3cPrivateRead s
  | .tapReset => Sys2Proof.Machine.execTapReset s
  | .extest => Sys2Proof.Machine.execExtest s
  | .idcode => Sys2Proof.Machine.execIdcode s
  | .clamp => Sys2Proof.Machine.execClamp s
  | .highz => Sys2Proof.Machine.execHighz s
  | .dbgClose => Sys2Proof.Machine.execDbgClose s
  | .bypass => Sys2Proof.Machine.execBypass s

end Sys2Proof.Machine
end

