-- ==== Sys2Proof/Machine/Step.lean ====
section
/-! DEFINITION. One step of the block: the command at the front of the queue, or what the device
does on its own when no command waits. -/

namespace Sys2Proof.Machine

/-- One step (log 18): the front command with the queue's rest; on an empty queue the request the
TAP's Update-DR brought, else a waiting mailbox request, and otherwise one nanosecond passes. -/
def step (s : State) : Host.Outcome State Fault Refusal :=
  match s.pending with
  | c :: rest => exec c { s with pending := rest }
  | [] =>
    match s.pkg.tapReq with
    | some c => exec c { s with pkg := { s.pkg with tapReq := none } }
    | none =>
    if s.drains then
      match s.mbx.waiting with
      | w :: ws =>
        match exec w.cmd { s with mbx := { s.mbx with waiting := ws, draining := some w.at_ } } with
        | .next t => .next { t with mbx := { t.mbx with draining := none } }
        | o => o
      | [] => .next s
    else .next s.idle

/-- The state with the command a word of the opcode table spells put at the front of its queue.
The table gives no row any bits, so no word spells a command. -/
def State.withFetchWord (s : State) (nbits w : Nat) : State :=
  match Sys2Proof.decodeTableWord nbits w with
  | some c => { s with pending := c :: s.pending }
  | none => s

end Sys2Proof.Machine
end

