-- ==== Sys2Proof/Safety.lean ====
section
/-! DEFINITION. The terms the claims about the machine use: the canonical form of memory, when a
mailbox request is served and in which state its command acts, and where the answers and the
packets the device sends are found. -/

namespace Sys2Proof.Machine

/-! ## Memory -/

/-- The canonical form of the stored lines: keys strictly rising, and no listed line equal to what its
line would hold unlisted. -/
def Memory.wf (s : State) : Bool :=
  NMap.wf s.mem.cells && s.mem.cells.all fun c => s.bgAt c.1 ≠ some c.2

/-- The fuse bank's limit of raises (R327). -/
def Board.wf (b : Board) : Bool := b.raises ≤ 32

/-! ## Mailbox requests -/

/-- The state in which a request has reached its mailbox: its packet has left the receive buffer, and a
request of the driver has renewed the driver's lease. -/
def State.atBox (s : State) (q : Req) : State :=
  if s.mbx.draining.isSome || q.via == .tap then s else (s.freeReq q).renewDriver q

/-- A request reaches its mailbox: checks 1 to 4 of R247 on a request that came by a link. -/
def State.arrives (s : State) (c : Cmd) (q : Req) : Bool :=
  s.mbx.draining.isSome ||
  match q.via with
  | .link => (s.freeReq q).carries q.port && (s.freeReq q).bound q.port q.ep && ((s.atBox q).portCheck c q).isNone
  | .i3c => false
  | .tap => true

/-- A request passes checks 1 to 6 of R27 and need not wait (R33, R310). -/
def State.admits (s : State) (c : Cmd) (q : Req) : Bool :=
  s.arrives c q && ((s.atBox q).earlyCheck c q).isNone && (!(s.atBox q).mustWait || (s.atBox q).underBoot)
    && ((s.atBox q).formCheck c q).2.isNone

/-- The state in which the command's own checks are made. -/
def State.entry (s : State) (c : Cmd) (q : Req) : State := ((s.atBox q).formCheck c q).1.takeEvreg q

/-- Every check of R27 passes, the command's own among them, and no trip has latched (R345). -/
def State.passes (s : State) (c : Cmd) (q : Req) (checks : State → List Check) : Bool :=
  s.admits c q && (firstFail (commonChecks (s.entry c q) c q ++ checks (s.entry c q))).isNone && !s.pkg.tripped

/-- Time of acceptance of a request. -/
def State.accAt (s : State) (q : Req) : Nat := (s.atBox q).mbx.draining.getD (s.atBox q).now

/-- The state in which the command acts: it is outstanding. -/
def State.acting (s : State) (c : Cmd) (q : Req) : State := (s.entry c q).opened c q (s.accAt q)

/-- The reply number under which the command acts. -/
def State.replyOf (s : State) (c : Cmd) (q : Req) : Nat := (s.entry c q).mbx.nextReply

/-- A bedrock request reaches its mailbox and passes the checks of R37. -/
def State.passesBr (s : State) (c : Cmd) (q : Req) : Bool :=
  (match q.via with
  | .link => (s.freeReq q).carries q.port && (s.freeReq q).bound q.port q.ep && ((s.freeReq q).portCheck c q).isNone
      && ((s.freeReq q).brCheck c q).isNone
  | .i3c => s.hub.bedrockReady && (s.brCheck c q).isNone
  | .tap => false) && !s.pkg.tripped

/-- The state in which a bedrock request is checked. -/
def State.atBr (s : State) (q : Req) : State := if q.via = .link then s.freeReq q else s

/-- The form by which the gate checks a WORK packet with a body of `len` bytes (R247, Table 15.3). -/
def workForm (h : Hdr) (len : Nat) : PktForm := { ok := h.len == len, bytes := some h.len }

/-- A WORK packet passes the gate, and the queue its work takes. -/
def State.workPasses (s : State) (h : Hdr) (len q : Nat) : Prop :=
  ∃ y o, (s.gate h 4 (workForm h len)).2 = .accept q y o

/-- The state once a WORK packet has passed the gate: its receive buffer is free (R254). -/
def State.workIn (s : State) (h : Hdr) (len : Nat) : State :=
  (s.gate h 4 (workForm h len)).1.freeBuf h.port h.vc (Hdr.credits h)

/-- The checks of an attention message pass (R164): the deckle is active, the fields, the completion
endpoint and the addresses are in order, the counters fit when no earlier message of the sequence is
open, and the cores are ready. -/
def State.attnAdmits (s : State) (h : Hdr) (body : WorkBody) (cplEp : Nat) (fields aligned : Bool) (cores : List Nat) : Bool :=
  s.deckleActive h.deckle && fields && s.member h.deckle cplEp && aligned &&
  (!(s.attnAfter h.deckle body).isEmpty || (s.attnBad h.deckle body).isNone) &&
  !cores.isEmpty && cores.all fun c => (s.core c).ready

/-- The work item of an attention message. -/
def State.attnItem (s : State) (h : Hdr) (queue : Nat) (body : WorkBody) (cplEp ctag : Nat) (cores : List Nat)
    (engines capNs est : Nat) (yellow : Bool) : Work :=
  { mkWork h queue body cplEp ctag cores engines capNs est with
    after := s.attnAfter h.deckle body, yellow := yellow, queue := if yellow then 60 else queue }

/-- The index within its lode of a line. -/
def State.lodeLine (s : State) (r : LineRef) (l : Lode) : Nat :=
  ((s.part.extents.find r.extent).map fun e => s.lineIndex r.extent e r.tier r.line - l.offset * 1024).getD 0

/-- The state in which the home of a lode serves the request of line `n` that finds no other request there
and needs no snoop (R87). -/
def State.atHomeAlone (s : State) (i : Nat) (l : Lode) (n : Nat) (h : Hdr) (addr : Nat) (req : LodeReq) : State :=
  let w : LodeWork :=
    { ep := h.ep, tag := h.tag, line := n, req := req, addr := addr, snoops := [], started := true
      held := ((l.agentOf h.ep).map (dirParts (l.dir.find n)).2.contains).getD false
      ans := none, got := none, at_ := s.now }
  s.setLode i { l with work := [w], pva := addr - 64 * n }

/-- A command answers a next state, of which something holds. -/
def Completes (i : Instr) (s : State) (P : State → Prop) : Prop := ∃ t, exec i s = .next t ∧ P t

/-! ## What the device has sent -/

/-- Messages in packets that wait on a port, or are held for an endpoint that cannot be reached. -/
def State.sent (s : State) : List Msg :=
  s.mbx.held ++ s.link.ports.flatMap fun p => p.2.txq.map (·.msg)

/-- Mailbox responses on their way to the sender of a request. -/
def State.responses (s : State) (q : Req) : List MbxRsp :=
  match q.via with
  | .link => s.sent.filterMap fun m => match m with
    | .mbxRsp ep r => if ep = q.ep then some r else none
    | _ => none
  | .i3c => s.mbx.i3c
  | .tap => s.pkg.tapRsp.toList

/-- A request has its answer `a` (but for TRUNC): the response is on its way, or the command has
committed and its answer waits for the hub's restart or for the mirror (R36, R310). -/
def State.answers (s : State) (q : Req) (code : Nat) (a : Ans) : Prop :=
  (∃ r ∈ s.responses q, r.code = code ∧ r.tag = q.tag ∧ r.cookie = q.cookie ∧ { r.ans with trunc := a.trunc } = a) ∨
  (∃ n o, s.mbx.outst.find n = some o ∧ o.req = q ∧ o.code = code ∧ o.progress = .committed a)

/-- A command is outstanding under a reply number, not yet answered. -/
def State.outstanding (s : State) (q : Req) (code r : Nat) : Prop :=
  ∃ o, s.mbx.outst.find r = some o ∧ o.req = q ∧ o.code = code ∧ o.progress = .running

/-! ## Frames -/

/-- The parts of the state but for the queue and the fuse bank, which `Obligations.QueueAndFusesKept` is about. -/
inductive Zone
  | now | free | hub | mbx | mem | part | rgn | lode | xlat | eng | attn
  | form | retr | couch | link | cal | laid | pair | sec | pkg
  deriving DecidableEq, Repr

/-- A part is the same in two states. -/
def Zone.same (z : Zone) (s t : State) : Prop :=
  match z with
  | .now => t.now = s.now
  | .free => t.free = s.free
  | .hub => t.hub = s.hub
  | .mbx => t.mbx = s.mbx
  | .mem => t.mem = s.mem
  | .part => t.part = s.part
  | .rgn => t.rgn = s.rgn
  | .lode => t.lode = s.lode
  | .xlat => t.xlat = s.xlat
  | .eng => t.eng = s.eng
  | .attn => t.attn = s.attn
  | .form => t.form = s.form
  | .retr => t.retr = s.retr
  | .couch => t.couch = s.couch
  | .link => t.link = s.link
  | .cal => t.cal = s.cal
  | .laid => t.laid = s.laid
  | .pair => t.pair = s.pair
  | .sec => t.sec = s.sec
  | .pkg => t.pkg = s.pkg

/-- Every part. -/
def Zone.all : List Zone :=
  [.now, .free, .hub, .mbx, .mem, .part, .rgn, .lode, .xlat, .eng, .attn, .form, .retr, .couch, .link, .cal, .laid, .pair, .sec, .pkg]

end Sys2Proof.Machine

namespace Sys2Proof

open Machine

/-- The parts a command may change: its own effect, and what its answer, its packets, its events and the
work it lets go on change beside it. -/
def Instr.mayChange (i : Instr) : List Zone :=
  match i with
  | .clockDroopStretch .. | .setdasa .. | .dbgMbx .. | .coldResetRelease | .warmResetRelease | .tapReset |
    .idcode | .clamp | .highz | .bypass =>
    [.pkg]
  | .barrierRelease .. | .streamSlotComplete .. =>
    [.eng]
  | .dataFlitReceive .. | .idleFlitReceive .. | .credit .. | .retrain .. | .laneSignalLoss .. |
    .laneErrorRate .. | .detectPoll .. | .equaliseDone .. | .deviceEndpointLeaseTick .. | .pdelayReq .. |
    .pdelayResp .. | .alignPatternSeen .. =>
    [.link]
  | .ledgerRefine .. =>
    [.cal]
  | .stackTrainingLost .. | .rebuildDone .. | .sealDone .. | .ceBucketLeak .. =>
    [.mem]
  | .migrateOldFramesFree .. =>
    [.mem, .part]
  | .couchChainStart .. =>
    [.free, .couch]
  | .creditReturnTimer .. =>
    [.free, .link]
  | .samplePreload .. | .extest =>
    [.free, .pkg]
  | .vsetAck .. =>
    [.eng, .pkg]
  | .pllLock =>
    [.laid, .pkg]
  | .i3cPrivateRead =>
    [.mbx, .pkg]
  | .dbgClose =>
    [.sec, .pkg]
  | .granuleReturn .. =>
    [.now, .part, .laid]
  | .lease .. =>
    [.part, .link, .pair]
  | .resume .. =>
    [.mbx, .link, .pkg]
  | .ackTimerExpire .. | .nakTimerExpire .. | .linkDownWaitExpire .. | .laidLead .. =>
    [.now, .link, .laid]
  | .wedgePowerFloor .. =>
    [.eng, .cal, .pkg]
  | .ppsOutSecond =>
    [.now, .laid, .pkg]
  | .integrityLogDrain =>
    [.mbx, .mem, .link]
  | .debugSessionTimeout =>
    [.now, .laid, .sec]
  | .ledgerTick .. =>
    [.now, .part, .cal, .laid]
  | .healthReportTick | .mirHbTick =>
    [.now, .link, .laid, .pair]
  | .coreReady .. =>
    [.mbx, .eng, .link, .pkg]
  | .tier1Ready .. | .farDieReady .. =>
    [.mbx, .mem, .link, .pkg]
  | .dbgOpen .. =>
    [.mbx, .link, .sec, .pkg]
  | .wedgeRestart =>
    [.now, .hub, .laid, .pkg]
  | .holdoverEntry =>
    [.now, .mbx, .link, .laid]
  | .stagingReady | .bedrockReady | .hubReady =>
    [.hub, .mbx, .link, .pkg]
  | .leaseDeadline .. =>
    [.now, .part, .link, .laid, .pair]
  | .bundleIssue .. =>
    [.free, .part, .xlat, .eng, .cal]
  | .bypassFlitReceive .. | .paramA .. | .paramB .. | .allLanesSignalLoss .. | .alignDone .. |
    .trainingFail .. | .fenceDone .. | .epRelease .. | .epAssign .. | .mirHealth .. =>
    [.hub, .mbx, .part, .link, .pair]
  | .peerClaimTimeout .. =>
    [.now, .mbx, .link, .laid, .pkg]
  | .thermalLoopTick .. =>
    [.mbx, .eng, .link, .cal, .pkg]
  | .standbySelfTest .. =>
    [.mem, .part, .link, .cal, .pair]
  | .thermalTrip .. | .supplyTrip .. =>
    [.hub, .mbx, .link, .sec, .pkg]
  | .driverLeaseLapse =>
    [.now, .hub, .mbx, .link, .laid]
  | .wedgeDumpDone =>
    [.free, .hub, .mbx, .link, .pkg]
  | .healthReportTimeout =>
    [.now, .mbx, .link, .laid, .pair]
  | .fence .. =>
    [.hub, .mbx, .part, .link, .cal, .pair]
  | .epClaim .. =>
    [.hub, .mbx, .part, .link, .pair, .pkg]
  | .powerComparator .. | .thermalComparator .. =>
    [.mbx, .eng, .link, .cal, .laid, .pkg]
  | .syncCopyDone =>
    [.now, .mbx, .part, .link, .laid, .pair]
  | .lineWriteAccepted .. | .lineRead .. | .reconstructionDone .. | .mirFetch .. | .mirLine .. =>
    [.hub, .mbx, .mem, .part, .link, .cal, .pair]
  | .extentZeroDone .. | .scrubDone .. =>
    [.mbx, .mem, .part, .link, .cal, .pair, .pkg]
  | .launch .. | .topkQuery .. =>
    [.hub, .mbx, .part, .eng, .link, .cal, .pair]
  | .couchSubmit .. =>
    [.hub, .mbx, .part, .couch, .link, .cal, .pair]
  | .creditInit .. | .keyx .. =>
    [.free, .hub, .mbx, .part, .link, .pair, .pkg]
  | .keyxTimeout .. | .replayTimerExpire .. =>
    [.now, .hub, .mbx, .part, .link, .laid, .pair]
  | .asmWindowExpire .. =>
    [.now, .mem, .part, .link, .cal, .laid, .pair]
  | .deviceQuery .. | .driverAttachAttestOnly .. | .driverAttachAdopt .. | .driverDetach .. | .fwStage .. |
    .fwStatus .. | .brStatus .. | .brDumpRead .. | .brDumpClear .. | .brResetHub .. | .extentMigrateCancel .. |
    .deckleQuery .. | .deckleQuota .. | .leaseQuery .. | .leaseReclaimDone .. | .regionList .. |
    .tableReadback .. | .queueMapMap .. | .queueMapWeight .. | .shaperSet .. | .policerSet .. |
    .energyRead .. | .timeStatus .. | .laidStatus .. | .scrub .. | .inject .. | .injectCancel .. |
    .ceConfigSet .. | .ceConfigFailOut .. | .rebuildStatus .. | .poisonList .. | .pairArm .. | .pairForm .. |
    .pairStatus .. | .healthReport .. | .failoverHandover .. | .failoverForce .. | .witnessSet .. |
    .witnessReport .. | .attest .. | .trustAdd .. | .trustRemove .. | .trustPolicy .. | .raiseSec .. |
    .fwSwitchPoint =>
    [.hub, .mbx, .mem, .part, .link, .cal, .pair, .pkg]
  | .requestStaleDiscard .. =>
    [.now, .hub, .mbx, .mem, .part, .link, .laid, .pair]
  | .salvageCopyDone .. =>
    [.mbx, .mem, .part, .lode, .link, .cal, .pair, .pkg]
  | .tableSyncSwitched .. | .timeTick =>
    [.mbx, .mem, .part, .xlat, .link, .cal, .pair, .pkg]
  | .rdf .. =>
    [.hub, .mbx, .part, .eng, .form, .link, .cal, .pair]
  | .rdVersion .. =>
    [.hub, .mbx, .mem, .part, .lode, .link, .cal, .pair]
  | .laidTileBoundary .. =>
    [.free, .mem, .part, .form, .link, .cal, .laid, .pair]
  | .keySweepDone .. =>
    [.free, .mbx, .mem, .part, .link, .cal, .pair, .sec]
  | .securityReady =>
    [.free, .hub, .mbx, .part, .link, .pair, .sec, .pkg]
  | .bootFwActivate .. | .fwActivate .. | .fwActivateCancel .. | .brZeroise .. | .keyRotateDeckleKey .. |
    .operatorKernelKey .. | .debugOpen .. | .debugClose .. | .bootImageVerified | .hubWedge =>
    [.hub, .mbx, .mem, .part, .link, .cal, .pair, .sec, .pkg]
  | .deviceConfigureProfile .. | .deviceConfigureWedge .. | .brDump .. | .linkRekey .. | .debugRead .. =>
    [.free, .hub, .mbx, .mem, .part, .link, .cal, .pair, .pkg]
  | .extentMigrate .. | .extentAlloc .. | .mapDefine .. | .mapReplace .. | .mapRetire .. |
    .adapterRegister .. | .adapterUnregister .. | .adapterPin .. | .adapterUnpin .. =>
    [.hub, .mbx, .mem, .part, .form, .link, .cal, .pair, .pkg]
  | .revokeDrainEnd .. | .tableSync .. | .hubRestartDone =>
    [.hub, .mbx, .mem, .part, .xlat, .link, .cal, .pair, .pkg]
  | .regionCreate .. | .regionRetain .. | .regionDraftRebase .. | .regionPublish .. | .regionOpen .. |
    .regionGrant .. =>
    [.hub, .mbx, .mem, .part, .rgn, .link, .cal, .pair, .pkg]
  | .lodeCreate .. | .lodeDelete .. | .lodeJoin .. | .lodeSalvageCopy .. | .lodeSalvageCopyRearm .. |
    .lodeSalvageRearm .. | .lodeSalvageDelete .. =>
    [.hub, .mbx, .mem, .part, .lode, .link, .cal, .pair, .pkg]
  | .rds .. | .rdx .. | .wb .. | .snpRsp .. =>
    [.hub, .mbx, .mem, .part, .lode, .eng, .link, .cal, .pair]
  | .streamTileLand .. =>
    [.free, .mbx, .mem, .part, .xlat, .eng, .link, .cal, .pair]
  | .kernelLoad .. | .kernelUnload .. | .attnPoolSet .. =>
    [.hub, .mbx, .mem, .part, .eng, .link, .cal, .pair, .pkg]
  | .indexDefine .. | .indexReplace .. | .indexRetire .. =>
    [.hub, .mbx, .mem, .part, .retr, .link, .cal, .pair, .pkg]
  | .flitTransmit .. =>
    [.now, .free, .hub, .mbx, .part, .link, .cal, .laid, .pair]
  | .powerCap .. | .timeMasterSet .. | .laidLoad .. | .laidActivate .. | .laidStop .. | .laidCancel .. =>
    [.hub, .mbx, .mem, .part, .link, .cal, .laid, .pair, .pkg]
  | .powerLoopTick .. =>
    [.hub, .mbx, .part, .eng, .link, .cal, .laid, .sec, .pkg]
  | .laidSlot .. =>
    [.now, .free, .mem, .part, .form, .link, .cal, .laid, .pair]
  | .loadWindowWrite .. | .rd .. | .wr .. | .atom .. =>
    [.hub, .mbx, .mem, .part, .lode, .xlat, .eng, .link, .cal, .pair]
  | .deckleCreate .. =>
    [.hub, .mbx, .mem, .part, .form, .link, .cal, .pair, .sec, .pkg]
  | .extentFree .. | .extentRevoke .. | .leaseGrant .. | .leaseRelease .. | .regionDelete .. |
    .regionDraftDiscard .. | .publishCommit .. | .regionReopen .. | .regionClose .. | .regionWithdraw .. |
    .retentionTick =>
    [.hub, .mbx, .mem, .part, .rgn, .lode, .link, .cal, .pair, .pkg]
  | .regionDraftOpen .. =>
    [.hub, .mbx, .mem, .part, .rgn, .form, .link, .cal, .pair, .pkg]
  | .lodeLeave .. | .lodeRecallDone .. =>
    [.hub, .mbx, .mem, .part, .lode, .eng, .link, .cal, .pair, .pkg]
  | .launchComplete .. =>
    [.free, .mbx, .mem, .part, .xlat, .eng, .link, .cal, .pair, .pkg]
  | .adapterPartLoadDone .. =>
    [.mbx, .mem, .part, .eng, .form, .couch, .link, .cal, .pair, .pkg]
  | .energyQueueRelease .. =>
    [.free, .mbx, .mem, .part, .eng, .attn, .link, .cal, .pair, .pkg]
  | .timeSync .. | .timePpsIn =>
    [.free, .mbx, .mem, .part, .eng, .form, .link, .cal, .laid, .pair]
  | .fwActivateTimeout =>
    [.now, .hub, .mbx, .mem, .part, .link, .cal, .laid, .pair, .pkg]
  | .laidTableStart =>
    [.now, .free, .mem, .part, .eng, .form, .link, .cal, .laid, .pair]
  | .dissolveComplete .. =>
    [.mbx, .mem, .part, .lode, .xlat, .eng, .link, .cal, .pair, .sec, .pkg]
  | .revokeTimeout .. =>
    [.now, .hub, .mbx, .mem, .part, .xlat, .link, .cal, .laid, .pair, .pkg]
  | .lodeSnoopTimeout .. =>
    [.now, .hub, .mbx, .mem, .part, .lode, .link, .cal, .laid, .pair, .pkg]
  | .attnOpen .. | .attnAppend .. | .attnClose .. | .attnTruncate .. | .attnQuery .. | .energySet .. =>
    [.free, .hub, .mbx, .mem, .part, .eng, .attn, .link, .cal, .pair, .pkg]
  | .attnAppendDone .. =>
    [.free, .mbx, .mem, .part, .xlat, .eng, .attn, .link, .cal, .pair, .pkg]
  | .topkComplete .. =>
    [.free, .mbx, .mem, .part, .xlat, .eng, .couch, .link, .cal, .pair, .pkg]
  | .laidInboundWr .. =>
    [.hub, .mbx, .mem, .part, .lode, .xlat, .eng, .link, .cal, .laid, .pair]
  | .laidCycleBoundary =>
    [.now, .free, .mbx, .mem, .part, .eng, .form, .link, .cal, .laid, .pair]
  | .leaseGraceEnd .. =>
    [.now, .hub, .mbx, .mem, .part, .rgn, .lode, .link, .cal, .laid, .pair, .pkg]
  | .translationWalkDone .. | .couchDescStart .. =>
    [.free, .mbx, .mem, .part, .xlat, .eng, .form, .couch, .link, .cal, .pair, .pkg]
  | .couchAbort .. =>
    [.free, .hub, .mbx, .mem, .part, .xlat, .eng, .couch, .link, .cal, .pair, .pkg]
  | .faultResume .. | .faultAbort .. | .rsp .. =>
    [.free, .hub, .mbx, .mem, .part, .xlat, .eng, .form, .couch, .link, .cal, .pair, .pkg]
  | .driverAttachReset .. | .brFailoverOut .. | .brResetDevice .. | .migrateCopyDone .. | .deckleDissolve .. |
    .draftCopyDone .. | .faultAutoAbort .. | .launchStart .. | .workCancel .. | .workTimeCap .. |
    .attnStep .. | .attnStepComplete .. | .formTileFormed .. | .couchTileDone .. | .couchTileTimeout .. |
    .couchRetry .. | .pairDissolve .. | .mirData .. | .mirMeta .. | .mirAck .. | .mirHb .. | .mirCtrl .. |
    .coldReset .. | .pairArmTimeout | .handoverDrainEnd | .mirAckTimer | .heartbeatLost | .mirrorAckTimeout |
    .promotionComplete | .warmReset =>
    Zone.all

/-- The command is a request to a mailbox. -/
def Instr.mailbox (i : Instr) : Option Req :=
  match i with
  | .bootFwActivate q _ => some q
  | .deviceQuery q => some q
  | .deviceConfigureProfile q _ => some q
  | .deviceConfigureWedge q _ => some q
  | .driverAttachAttestOnly q _ => some q
  | .driverAttachAdopt q _ => some q
  | .driverAttachReset q _ => some q
  | .driverDetach q => some q
  | .fwStage q _ => some q
  | .fwActivate q _ => some q
  | .fwActivateCancel q _ => some q
  | .fwStatus q => some q
  | .brStatus q => some q
  | .brDump q _ => some q
  | .brDumpRead q _ => some q
  | .brDumpClear q _ => some q
  | .brZeroise q _ => some q
  | .brFailoverOut q => some q
  | .brResetHub q _ => some q
  | .brResetDevice q _ => some q
  | .extentMigrate q _ _ => some q
  | .extentMigrateCancel q _ => some q
  | .deckleCreate q _ _ => some q
  | .deckleQuery q _ => some q
  | .deckleQuota q _ => some q
  | .deckleDissolve q _ => some q
  | .extentAlloc q _ _ => some q
  | .extentFree q _ => some q
  | .extentRevoke q _ => some q
  | .leaseGrant q _ => some q
  | .leaseRelease q _ => some q
  | .leaseQuery q _ => some q
  | .regionCreate q _ => some q
  | .regionRetain q _ => some q
  | .regionDelete q _ => some q
  | .regionDraftOpen q _ _ => some q
  | .regionDraftRebase q _ => some q
  | .regionDraftDiscard q _ => some q
  | .regionPublish q _ => some q
  | .regionOpen q _ => some q
  | .regionReopen q _ => some q
  | .regionList q _ => some q
  | .regionClose q _ => some q
  | .regionGrant q _ => some q
  | .regionWithdraw q _ => some q
  | .lodeCreate q _ => some q
  | .lodeDelete q _ => some q
  | .lodeJoin q _ => some q
  | .lodeLeave q _ => some q
  | .lodeSalvageCopy q _ => some q
  | .lodeSalvageCopyRearm q _ => some q
  | .lodeSalvageRearm q _ => some q
  | .lodeSalvageDelete q _ => some q
  | .tableSync q _ _ => some q
  | .tableReadback q _ => some q
  | .faultResume q _ => some q
  | .faultAbort q _ => some q
  | .kernelLoad q _ => some q
  | .kernelUnload q _ => some q
  | .attnPoolSet q _ _ => some q
  | .mapDefine q _ => some q
  | .mapReplace q _ => some q
  | .mapRetire q _ => some q
  | .adapterRegister q _ => some q
  | .adapterUnregister q _ => some q
  | .adapterPin q _ => some q
  | .adapterUnpin q _ => some q
  | .indexDefine q _ => some q
  | .indexReplace q _ => some q
  | .indexRetire q _ => some q
  | .queueMapMap q _ => some q
  | .queueMapWeight q _ => some q
  | .shaperSet q _ => some q
  | .policerSet q _ => some q
  | .energySet q _ => some q
  | .energyRead q _ => some q
  | .powerCap q _ => some q
  | .timeStatus q => some q
  | .timeMasterSet q _ => some q
  | .laidLoad q _ => some q
  | .laidActivate q _ => some q
  | .laidStop q _ => some q
  | .laidCancel q _ => some q
  | .laidStatus q _ => some q
  | .scrub q _ => some q
  | .inject q _ => some q
  | .injectCancel q _ => some q
  | .ceConfigSet q _ => some q
  | .ceConfigFailOut q _ => some q
  | .rebuildStatus q => some q
  | .poisonList q _ => some q
  | .pairArm q _ => some q
  | .pairForm q _ => some q
  | .pairDissolve q _ => some q
  | .pairStatus q => some q
  | .healthReport q => some q
  | .failoverHandover q _ => some q
  | .failoverForce q _ => some q
  | .witnessSet q _ => some q
  | .witnessReport q _ => some q
  | .attest q _ => some q
  | .keyRotateDeckleKey q _ => some q
  | .linkRekey q _ => some q
  | .trustAdd q _ => some q
  | .trustRemove q _ => some q
  | .trustPolicy q _ => some q
  | .operatorKernelKey q _ => some q
  | .raiseSec q _ => some q
  | .debugOpen q _ => some q
  | .debugRead q _ => some q
  | .debugClose q => some q
  | .loadWindowWrite .. | .lineWriteAccepted .. | .lineRead .. | .reconstructionDone .. |
    .requestStaleDiscard .. | .migrateCopyDone .. | .migrateOldFramesFree .. | .dissolveComplete .. |
    .extentZeroDone .. | .revokeDrainEnd .. | .revokeTimeout .. | .granuleReturn .. | .lease .. |
    .leaseDeadline .. | .leaseGraceEnd .. | .leaseReclaimDone .. | .draftCopyDone .. | .publishCommit .. |
    .lodeRecallDone .. | .rds .. | .rdx .. | .wb .. | .snpRsp .. | .lodeSnoopTimeout .. | .salvageCopyDone .. |
    .tableSyncSwitched .. | .translationWalkDone .. | .faultAutoAbort .. | .clockDroopStretch .. |
    .launchStart .. | .bundleIssue .. | .barrierRelease .. | .streamTileLand .. | .streamSlotComplete .. |
    .launch .. | .workCancel .. | .workTimeCap .. | .launchComplete .. | .attnOpen .. | .attnAppend .. |
    .attnAppendDone .. | .attnStep .. | .attnStepComplete .. | .attnClose .. | .attnTruncate .. |
    .attnQuery .. | .adapterPartLoadDone .. | .rdf .. | .formTileFormed .. | .topkQuery .. | .topkComplete .. |
    .couchSubmit .. | .couchAbort .. | .couchChainStart .. | .couchDescStart .. | .couchTileDone .. |
    .couchTileTimeout .. | .couchRetry .. | .flitTransmit .. | .dataFlitReceive .. | .idleFlitReceive .. |
    .bypassFlitReceive .. | .credit .. | .creditInit .. | .retrain .. | .resume .. | .paramA .. | .paramB .. |
    .keyx .. | .keyxTimeout .. | .ackTimerExpire .. | .nakTimerExpire .. | .replayTimerExpire .. |
    .creditReturnTimer .. | .laneSignalLoss .. | .laneErrorRate .. | .allLanesSignalLoss .. |
    .linkDownWaitExpire .. | .detectPoll .. | .equaliseDone .. | .alignDone .. | .trainingFail .. |
    .peerClaimTimeout .. | .deviceEndpointLeaseTick .. | .rd .. | .rdVersion .. | .wr .. | .atom .. |
    .fence .. | .fenceDone .. | .rsp .. | .epClaim .. | .epRelease .. | .epAssign .. | .laidInboundWr .. |
    .energyQueueRelease .. | .ledgerTick .. | .ledgerRefine .. | .powerLoopTick .. | .powerComparator .. |
    .thermalComparator .. | .thermalLoopTick .. | .timeSync .. | .pdelayReq .. | .pdelayResp .. |
    .laidLead .. | .laidSlot .. | .laidTileBoundary .. | .scrubDone .. | .stackTrainingLost .. |
    .rebuildDone .. | .sealDone .. | .mirData .. | .mirMeta .. | .mirAck .. | .mirHb .. | .mirHealth .. |
    .mirFetch .. | .mirLine .. | .mirCtrl .. | .healthReportTick | .standbySelfTest .. | .keySweepDone .. |
    .coldReset .. | .thermalTrip .. | .supplyTrip .. | .coreReady .. | .tier1Ready .. | .farDieReady .. |
    .setdasa .. | .samplePreload .. | .dbgOpen .. | .dbgMbx .. | .vsetAck .. | .asmWindowExpire .. |
    .wedgePowerFloor .. | .ceBucketLeak .. | .alignPatternSeen .. | .bootImageVerified | .driverLeaseLapse |
    .fwSwitchPoint | .fwActivateTimeout | .hubWedge | .wedgeDumpDone | .wedgeRestart | .hubRestartDone |
    .retentionTick | .timeTick | .holdoverEntry | .timePpsIn | .ppsOutSecond | .laidTableStart |
    .laidCycleBoundary | .integrityLogDrain | .pairArmTimeout | .handoverDrainEnd | .syncCopyDone |
    .mirAckTimer | .mirHbTick | .heartbeatLost | .mirrorAckTimeout | .promotionComplete |
    .healthReportTimeout | .debugSessionTimeout | .coldResetRelease | .warmReset | .warmResetRelease |
    .pllLock | .stagingReady | .bedrockReady | .hubReady | .securityReady | .i3cPrivateRead | .tapReset |
    .extest | .idcode | .clamp | .highz | .dbgClose | .bypass => none

/-- The command stores no line and destroys none, but for what a mailbox request has written to its result area
and what reading its parameters from memory does there. -/
def Instr.keepsLines (i : Instr) : Bool :=
  match i with
  | .bootFwActivate .. | .deviceQuery .. | .deviceConfigureProfile .. | .deviceConfigureWedge .. |
    .driverAttachAttestOnly .. | .driverAttachAdopt .. | .driverDetach .. | .fwStage .. | .fwActivate .. |
    .fwActivateCancel .. | .fwStatus .. | .brStatus .. | .brDump .. | .brDumpRead .. | .brDumpClear .. |
    .brResetHub .. | .requestStaleDiscard .. | .extentMigrate .. | .extentMigrateCancel .. |
    .migrateOldFramesFree .. | .deckleQuery .. | .deckleQuota .. | .extentAlloc .. | .granuleReturn .. |
    .leaseQuery .. | .lease .. | .leaseDeadline .. | .regionCreate .. | .regionRetain .. |
    .regionDraftOpen .. | .regionDraftRebase .. | .regionPublish .. | .regionOpen .. | .regionList .. |
    .regionGrant .. | .lodeCreate .. | .lodeDelete .. | .lodeJoin .. | .lodeSalvageCopy .. |
    .lodeSalvageCopyRearm .. | .lodeSalvageRearm .. | .lodeSalvageDelete .. | .tableSync .. |
    .tableReadback .. | .clockDroopStretch .. | .launchStart .. | .bundleIssue .. | .barrierRelease .. |
    .streamSlotComplete .. | .kernelLoad .. | .kernelUnload .. | .launch .. | .attnPoolSet .. | .mapDefine .. |
    .mapReplace .. | .mapRetire .. | .adapterRegister .. | .adapterUnregister .. | .adapterPin .. |
    .adapterUnpin .. | .rdf .. | .indexDefine .. | .indexReplace .. | .indexRetire .. | .topkQuery .. |
    .couchSubmit .. | .couchChainStart .. | .flitTransmit .. | .dataFlitReceive .. | .idleFlitReceive .. |
    .bypassFlitReceive .. | .credit .. | .creditInit .. | .retrain .. | .resume .. | .paramA .. | .paramB .. |
    .keyx .. | .keyxTimeout .. | .ackTimerExpire .. | .nakTimerExpire .. | .replayTimerExpire .. |
    .creditReturnTimer .. | .laneSignalLoss .. | .laneErrorRate .. | .allLanesSignalLoss .. |
    .linkDownWaitExpire .. | .detectPoll .. | .equaliseDone .. | .alignDone .. | .trainingFail .. |
    .peerClaimTimeout .. | .deviceEndpointLeaseTick .. | .rdVersion .. | .fence .. | .fenceDone .. |
    .epClaim .. | .epRelease .. | .epAssign .. | .queueMapMap .. | .queueMapWeight .. | .shaperSet .. |
    .policerSet .. | .energySet .. | .energyRead .. | .powerCap .. | .ledgerTick .. | .ledgerRefine .. |
    .powerLoopTick .. | .powerComparator .. | .thermalComparator .. | .thermalLoopTick .. | .pdelayReq .. |
    .pdelayResp .. | .timeStatus .. | .timeMasterSet .. | .laidLoad .. | .laidActivate .. | .laidStop .. |
    .laidCancel .. | .laidStatus .. | .laidLead .. | .scrub .. | .inject .. | .injectCancel .. |
    .ceConfigSet .. | .ceConfigFailOut .. | .rebuildStatus .. | .poisonList .. | .stackTrainingLost .. |
    .sealDone .. | .pairArm .. | .pairForm .. | .pairStatus .. | .healthReport .. | .failoverHandover .. |
    .failoverForce .. | .witnessSet .. | .witnessReport .. | .mirHealth .. | .mirFetch .. | .healthReportTick |
    .attest .. | .keyRotateDeckleKey .. | .linkRekey .. | .trustAdd .. | .trustRemove .. | .trustPolicy .. |
    .operatorKernelKey .. | .raiseSec .. | .debugOpen .. | .debugClose .. | .thermalTrip .. | .supplyTrip .. |
    .coreReady .. | .tier1Ready .. | .farDieReady .. | .setdasa .. | .samplePreload .. | .dbgOpen .. |
    .dbgMbx .. | .vsetAck .. | .wedgePowerFloor .. | .ceBucketLeak .. | .alignPatternSeen .. |
    .driverLeaseLapse | .wedgeDumpDone | .wedgeRestart | .holdoverEntry | .ppsOutSecond | .integrityLogDrain |
    .pairArmTimeout | .syncCopyDone | .mirHbTick | .healthReportTimeout | .debugSessionTimeout |
    .coldResetRelease | .warmResetRelease | .pllLock | .stagingReady | .bedrockReady | .hubReady |
    .securityReady | .i3cPrivateRead | .tapReset | .extest | .idcode | .clamp | .highz | .dbgClose | .bypass => true
  | .loadWindowWrite .. | .driverAttachReset .. | .brZeroise .. | .brFailoverOut .. | .brResetDevice .. |
    .lineWriteAccepted .. | .lineRead .. | .reconstructionDone .. | .migrateCopyDone .. | .deckleCreate .. |
    .deckleDissolve .. | .dissolveComplete .. | .extentZeroDone .. | .extentFree .. | .extentRevoke .. |
    .revokeDrainEnd .. | .revokeTimeout .. | .leaseGrant .. | .leaseRelease .. | .leaseGraceEnd .. |
    .leaseReclaimDone .. | .regionDelete .. | .draftCopyDone .. | .regionDraftDiscard .. | .publishCommit .. |
    .regionReopen .. | .regionClose .. | .regionWithdraw .. | .lodeLeave .. | .lodeRecallDone .. | .rds .. |
    .rdx .. | .wb .. | .snpRsp .. | .lodeSnoopTimeout .. | .salvageCopyDone .. | .tableSyncSwitched .. |
    .translationWalkDone .. | .faultResume .. | .faultAbort .. | .faultAutoAbort .. | .streamTileLand .. |
    .workCancel .. | .workTimeCap .. | .launchComplete .. | .attnOpen .. | .attnAppend .. |
    .attnAppendDone .. | .attnStep .. | .attnStepComplete .. | .attnClose .. | .attnTruncate .. |
    .attnQuery .. | .adapterPartLoadDone .. | .formTileFormed .. | .topkComplete .. | .couchAbort .. |
    .couchDescStart .. | .couchTileDone .. | .couchTileTimeout .. | .couchRetry .. | .rd .. | .wr .. |
    .atom .. | .rsp .. | .laidInboundWr .. | .energyQueueRelease .. | .timeSync .. | .laidSlot .. |
    .laidTileBoundary .. | .scrubDone .. | .rebuildDone .. | .pairDissolve .. | .mirData .. | .mirMeta .. |
    .mirAck .. | .mirHb .. | .mirLine .. | .mirCtrl .. | .standbySelfTest .. | .keySweepDone .. |
    .debugRead .. | .coldReset .. | .asmWindowExpire .. | .bootImageVerified | .fwSwitchPoint |
    .fwActivateTimeout | .hubWedge | .hubRestartDone | .retentionTick | .timeTick | .timePpsIn |
    .laidTableStart | .laidCycleBoundary | .handoverDrainEnd | .mirAckTimer | .heartbeatLost |
    .mirrorAckTimeout | .promotionComplete | .warmReset => false

end Sys2Proof
end

