-- ==== Sys2Proof/Certificates/Slice0/Obligations.lean ====
section
/-! DEFINITION. The statements for the provers. `Completes i s P` says that the command answers a next state of
which P holds; `passes` says, of the state and the operands alone, that a request meets every check of its command. -/

open Sys2Proof Sys2Proof.Machine

/-! ## Deckles -/

/-- For every state and request that meet the checks, DECKLE_CREATE answers a next state with a deckle of the four
quotas and the control extent it names, at epoch 0; DECKLE_QUERY answers ST_OK with the deckle's state and
leaves regions and board; DECKLE_QUOTA answers and replaces the four quotas; DECKLE_DISSOLVE makes the deckle
DISSOLVING. DISSOLVE_COMPLETE, once the deckle's drains have ended and the hub runs, destroys the deckle's
memory key and leaves regions and board. (04_deckles.md: Creating a deckle, 19_security.md: Dissolving a
deckle.) -/
def Obligations.DeckleCommandsComplete : Prop :=
  (∀ (q : Req) (p : DeckleCreateP) (hint : Nat) (s : State), s.passes (deckleCreateCmd p s) q (deckleCreateChecks p hint) →
    Completes (.deckleCreate q p hint) s fun t => ∃ k,
      t.part.deckles.find ((s.acting (deckleCreateCmd p s) q).deckleFor p.deckle) = some k ∧
      (k.qT1, k.qT2, k.qStg, k.qLodeMib) = (p.qT1, p.qT2, p.qStg, p.qLodeMib) ∧
      (k.ctrlPva, k.ctrlGranules, k.epoch) = (p.ctrlPva, p.ctrlGranules, 0)) ∧
  (∀ (q : Req) (p : DeckleP) (s : State) (k : Deckle), s.passes (deckleQueryCmd p) q (deckleQueryChecks p) →
    (s.acting (deckleQueryCmd p) q).part.deckles.find p.deckle = some k →
    Completes (.deckleQuery q p) s fun t => ∃ a, t.answers q 0x0103 a ∧ a.status = .ok ∧
      a.bits = pack ((s.acting (deckleQueryCmd p) q).deckleResult p.deckle k) ∧ t.rgn = s.rgn ∧ t.board = s.board) ∧
  (∀ (q : Req) (p : QuotaP) (s : State), s.passes (deckleQuotaCmd p) q (deckleQuotaChecks p) →
    Completes (.deckleQuota q p) s fun t => t.answers q 0x0104 okAns ∧
      (t.part.deckles.find p.deckle).map (fun k => (k.qT1, k.qT2, k.qStg, k.qLodeMib))
        = some (p.qT1, p.qT2, p.qStg, p.qLodeMib)) ∧
  (∀ (q : Req) (p : DeckleP) (s : State), s.passes (deckleDissolveCmd p) q (deckleDissolveChecks p) →
    Completes (.deckleDissolve q p) s fun t => t.isDissolving p.deckle = true) ∧
  (∀ (d : Nat) (s : State) (k : Deckle) (x : Dissolve), s.part.deckles.find d = some k → k.dissolving = some x →
    s.drained d = true → s.hubStopped = false →
    Completes (.dissolveComplete d) s fun t => k.key ∉ t.sec.keys ∧ t.rgn = s.rgn ∧ t.board = s.board)

/-! ## Extents -/

/-- EXTENT_ALLOC that passes its checks, for frames its policy finds, makes the next extent on exactly those frames,
of the deckle, size, policy and MIR it names, ALLOCATED where nothing is to be zeroed. EXTENT_FREE and
EXTENT_REVOKE that pass their checks make the extent REVOKING. REVOKE_DRAIN_END with no memory request and no
tile left on a revoked extent, and REVOKE_TIMEOUT with no memory request left, remove the extent, the latter at
the revocation's point plus its timeout or at once if that has passed. GRANULE_RETURN on a retired granule makes
it allocatable and leaves the rest of it and every stored line, no earlier than 11 ms after it was last held.
(04_deckles.md: Extents, 04_deckles.md: Revocation.) -/
def Obligations.ExtentCommandsComplete : Prop :=
  (∀ (q : Req) (p : AllocP) (hint : Nat) (s : State) (y : Tier × Nat),
    s.passes (extentAllocCmd p s) q (extentAllocChecks q p hint) →
    (s.acting (extentAllocCmd p s) q).placeBy p.deckle p.policy p.granules hint = .ok y →
    Completes (.extentAlloc q p hint) s fun t => ∃ e,
      t.part.extents.find ((s.acting (extentAllocCmd p s) q).part.lastExtent + 1) = some e ∧
      (e.deckle, e.granules, e.policy, e.mir) = (p.deckle, p.granules, p.policy, p.mir) ∧ (e.tier, e.first) = y ∧
      (p.zero = false → s.hub.fillAtStart = false → e.state = .allocated)) ∧
  (∀ (q : Req) (p : RevokeP) (s : State), s.passes (extentFreeCmd p) q (extentFreeChecks p) →
    Completes (.extentFree q p) s fun t => ∃ e, t.part.extents.find p.extent = some e ∧ e.state = .revoking) ∧
  (∀ (q : Req) (p : RevokeP) (s : State), s.passes (extentRevokeCmd p) q (extentRevokeChecks p) →
    Completes (.extentRevoke q p) s fun t => ∃ e, t.part.extents.find p.extent = some e ∧ e.state = .revoking) ∧
  (∀ (x : Nat) (s : State) (e : Extent) (r : Revoke), NMap.wf s.part.extents → s.part.extents.find x = some e →
    e.revoke = some r → (s.jobsOn x).isEmpty → s.tilesOn x = false →
    Completes (.revokeDrainEnd x) s fun t => t.part.extents.find x = none) ∧
  (∀ (x : Nat) (s : State) (e : Extent) (r : Revoke), NMap.wf s.part.extents → s.part.extents.find x = some e →
    e.revoke = some r → (s.jobsOn x).isEmpty →
    Completes (.revokeTimeout x) s fun t => t.part.extents.find x = none ∧ t.now = max s.now (r.point + r.timeout)) ∧
  (∀ (t : Tier) (g : Nat) (s : State) (x : Granule), s.part.granules.find (granKey t g) = some x → x.retired = true →
    Completes (.granuleReturn t g) s fun u => u.part.granules.find (granKey t g) = some { x with retired := false } ∧
      x.lastHeld + 11000000 ≤ u.now ∧ s.now ≤ u.now ∧ u.mem.cells = s.mem.cells)

/-- For an extent being zeroed whose granules are listed, EXTENT_ZERO_DONE answers a next state in which the extent
is ALLOCATED and nothing else of it differs, and every line of its frames holds the zero line formed under its
deckle's key and epoch and the extent's generation. (04_deckles.md: Extents, 17_integrity.md: The line.) -/
def Obligations.ZeroingWritesZeroLines : Prop :=
  ∀ (x : Nat) (s : State) (e : Extent) (r : Option Nat), s.part.extents.find x = some e → e.state = .zeroing r →
    (∀ g ∈ runGranules e.tier e.first e.granules, g < 2 ^ 25 ∧ s.part.granules.has (granKey e.tier g)) →
    Completes (.extentZeroDone x) s fun t => t.part.extents.find x = some { e with state := .allocated } ∧
      ∀ g ∈ runGranules e.tier e.first e.granules, ∀ j < 32768,
        t.cell e.tier (g * 32768 + j) = some (Stamp.zeroCell ⟨e.deckle, (s.keyOf e.deckle).1, (s.keyOf e.deckle).2, e.gen⟩)

/-! ## Leases -/

/-- LEASE_GRANT that passes its checks with DURATION_MS not 0 leaves the lease HELD with that duration, the grace
named (50 ms for 0) and its deadline that duration from the domain time of its effect. LEASE_GRANT with
DURATION_MS 0 on a member leaves the lease EXPIRED. LEASE_QUERY answers the lease and leaves regions and
engines. A LEASE message of a bound endpoint stamped no later than the deadline of a held lease moves the
deadline to the stamp plus the duration and changes nothing else of the lease, while the hub runs.
(04_deckles.md: Leases, 14_transactions.md: Bypass-channel LEASE.) -/
def Obligations.LeaseCommandsComplete : Prop :=
  (∀ (q : Req) (p : LeaseP) (s : State), s.passes (leaseCmd p) q (leaseChecks q p) → p.durationMs ≠ 0 →
    Completes (.leaseGrant q p) s fun t => ∃ l, t.lease p.deckle p.endpoint = some l ∧ l.state = .held ∧
      l.duration = p.durationMs ∧ l.grace = (if p.graceMs = 0 then 50 else p.graceMs) ∧
      l.deadline = (s.acting (leaseCmd p) q).dom + p.durationMs * 1000000) ∧
  (∀ (q : Req) (p : LeaseP) (s : State) (l : Lease),
    s.passes (leaseCmd { p with durationMs := 0 }) q (leaseChecks q { p with durationMs := 0 }) →
    (s.acting (leaseCmd { p with durationMs := 0 }) q).lease p.deckle p.endpoint = some l → l.isMember = true →
    Completes (.leaseRelease q p) s fun t => ∃ m, t.lease p.deckle p.endpoint = some m ∧ m.state = .expired) ∧
  (∀ (q : Req) (p : LeaseP) (s : State), s.passes (leaseQueryCmd p) q (leaseQueryChecks p) →
    Completes (.leaseQuery q p) s fun t =>
      t.answers q 0x0206 ((s.acting (leaseQueryCmd p) q).leaseAns p.deckle p.endpoint) ∧ t.rgn = s.rgn ∧ t.eng = s.eng) ∧
  (∀ (port ep deckle stamp rsvd : Nat) (s : State) (l : Lease), s.bound port ep = true → s.lease deckle ep = some l →
    l.state = .held → stamp ≤ l.deadline → s.hubStopped = false →
    Completes (.lease port ep deckle stamp rsvd) s fun t =>
      t.lease deckle ep = some { l with deadline := stamp + l.duration * 1000000 })

/-- While the hub runs, LEASE_DEADLINE on a held lease makes it GRACE with a deadline later by its grace;
LEASE_GRACE_END on a lease in GRACE leaves it EXPIRED or gone; LEASE_RECLAIM_DONE, for a drained reclaim that a
release started and an expired lease, leaves no lease. (04_deckles.md: Leases.) -/
def Obligations.LeaseTimersComplete : Prop :=
  (∀ (d ep : Nat) (s : State) (l : Lease), s.lease d ep = some l → l.state = .held → s.hubStopped = false →
    Completes (.leaseDeadline d ep) s fun t =>
      t.lease d ep = some { l with state := .grace, deadline := l.deadline + l.grace * 1000000 }) ∧
  (∀ (d ep : Nat) (s : State) (l : Lease), s.lease d ep = some l → l.state = .grace → s.hubStopped = false →
    Completes (.leaseGraceEnd d ep) s fun t => ∀ m, t.lease d ep = some m → m.state = .expired) ∧
  (∀ (d ep : Nat) (s : State) (rc : Reclaim) (r : Nat) (l : Lease), NMap.wf s.part.leases →
    s.part.reclaims.find (leaseKey d ep) = some rc → rc.reply = some r → s.reclaimDrained d ep = true →
    s.lease d ep = some l → l.state = .expired →
    Completes (.leaseReclaimDone d ep) s fun t => t.lease d ep = none)

/-! ## Regions -/

/-- REGION_CREATE that passes its checks makes the next region with the fields named and answers its identifier;
RETAIN replaces the retain pair; DELETE ends a live region; REGION_OPEN makes the next handle on the version it
names and answers it; REOPEN moves a handle; LIST answers 16 bytes for each segment of the handle's version and
leaves the regions; CLOSE removes the handle; REGION_GRANT adds the grantee and WITHDRAW removes it.
(05_regions.md: Regions, 05_regions.md: Opening and reading.) -/
def Obligations.RegionCommandsComplete : Prop :=
  (∀ (q : Req) (p : RegionP) (s : State), s.passes (regionCreateCmd p) q (regionCreateChecks q p) →
    Completes (.regionCreate q p) s fun t =>
      t.rgn.regions.find (s.rgn.lastRegion + 1) = some
        { deckle := p.deckle, policy := p.policy, mir := p.mir, segments := p.segments, segGranules := p.segGranules,
          retainCount := p.retainCount, retainMs := p.retainMs, current := 0, versions := [], deleted := false,
          grantees := [] } ∧
      t.answers q 0x0301 (okFields 8 [(32, s.rgn.lastRegion + 1), (32, 0)])) ∧
  (∀ (q : Req) (p : RegionP) (s : State) (r : Region), s.passes (regionRetainCmd p) q (regionRetainChecks p) →
    s.rgn.regions.find p.region = some r →
    Completes (.regionRetain q p) s fun t =>
      t.rgn.regions.find p.region = some { r with retainCount := p.retainCount, retainMs := p.retainMs } ∧
      t.answers q 0x0301 okAns) ∧
  (∀ (q : Req) (p : RegionP) (s : State), s.passes (regionDeleteCmd p) q (regionDeleteChecks p) →
    Completes (.regionDelete q p) s fun t => s.liveRegion p.deckle p.region ≠ none ∧ t.liveRegion p.deckle p.region = none) ∧
  (∀ (q : Req) (p : OpenP) (s : State) (r : Region), s.passes (regionOpenCmd p) q (regionOpenChecks q p) →
    s.rgn.regions.find p.region = some r →
    Completes (.regionOpen q p) s fun t =>
      t.rgn.handles.find (s.rgn.lastHandle + 1) =
        some { deckle := p.deckle, ep := q.ep, region := p.region, version := r.baseOf p.version } ∧
      t.answers q 0x0304 (openResult (s.rgn.lastHandle + 1) r (r.markOf (r.baseOf p.version)) 0)) ∧
  (∀ (q : Req) (p : OpenP) (s : State) (r : Region), s.passes (regionReopenCmd p) q (regionReopenChecks p) →
    s.rgn.regions.find p.region = some r →
    Completes (.regionReopen q p) s fun t => (t.rgn.handles.find p.id).map (·.version) = some (r.baseOf p.version)) ∧
  (∀ (q : Req) (p : OpenP) (s : State) (r : Region) (h : Handle), s.passes (regionListCmd p) q (regionListChecks p) →
    s.rgn.regions.find p.region = some r → p.ofDraft = false → s.handleOf p.deckle p.region p.id = some h →
    Completes (.regionList q p) s fun t => ∃ a, t.answers q 0x0304 a ∧ a.status = .ok ∧
      a.area = 16 * (s.versionSegs p.region h.version).length ∧ t.rgn = s.rgn) ∧
  (∀ (q : Req) (p : OpenP) (s : State), NMap.wf s.rgn.handles → s.passes (regionCloseCmd p) q (regionCloseChecks p) →
    Completes (.regionClose q p) s fun t => t.rgn.handles.find p.id = none) ∧
  (∀ (q : Req) (p : GrantP) (s : State), s.passes (regionGrantCmd p) q (regionGrantChecks p) →
    Completes (.regionGrant q p) s fun t => t.answers q 0x0306 okAns ∧
      ((t.rgn.regions.find p.region).map fun r => r.grantees.contains p.grantee) = some true) ∧
  (∀ (q : Req) (p : GrantP) (s : State), s.passes (regionWithdrawCmd p) q (regionWithdrawChecks p) →
    Completes (.regionWithdraw q p) s fun t =>
      ((t.rgn.regions.find p.region).map fun r => r.grantees.contains p.grantee) ≠ some true)

/-! ## Drafts and publishing -/

/-- REGION_DRAFT OPEN that passes its checks, with room for its segments, makes the next draft of its region, held
by the sender and unsealed; DRAFT_COPY_DONE ends the opening; REBASE moves the base to the current version and
answers it; DISCARD removes the draft; REGION_PUBLISH of a draft based on the current version, with no publish
waiting, seals it for its answer; PUBLISH_COMMIT of a quiet sealed draft makes its segments the version base + 1
and that version current, published by its holder at domain time; RETENTION_TICK applies the retention rules.
(05_regions.md: Drafts, 05_regions.md: Publishing and watermarks.) -/
def Obligations.DraftCommandsComplete : Prop :=
  (∀ (q : Req) (p : DraftP) (hint : Nat) (s : State) (r : Region) (y : State × List (SegMode × Nat) × List Nat),
    s.passes (regionDraftOpenCmd p s) q (regionDraftOpenChecks q p hint) → s.liveRegion p.deckle p.region = some r →
    (s.acting (regionDraftOpenCmd p s) q).allocSegs r q.ep (s.rgn.lastDraft + 1) hint (draftModes p r.segments)
      (s.versionSegs p.region (r.baseOf p.base)) = .ok y →
    Completes (.regionDraftOpen q p hint) s fun t => ∃ d, t.rgn.drafts.find (s.rgn.lastDraft + 1) = some d ∧
      d.region = p.region ∧ d.holder = q.ep ∧ d.sealed = none ∧ t.rgn.lastDraft = s.rgn.lastDraft + 1) ∧
  (∀ (i r : Nat) (s : State) (d : Draft), s.rgn.drafts.find i = some d → d.opening = some r →
    Completes (.draftCopyDone i) s fun t => t.rgn.drafts.find i = some { d with opening := none, copyFrom := [] }) ∧
  (∀ (q : Req) (p : DraftP) (s : State) (r : Region) (d : Draft), s.passes (regionDraftRebaseCmd p) q (regionDraftRebaseChecks p) →
    s.rgn.regions.find p.region = some r → s.rgn.drafts.find p.draft = some d →
    Completes (.regionDraftRebase q p) s fun t => (t.rgn.drafts.find p.draft).map (·.base) = some r.current ∧
      t.answers q 0x0302 (draftResult p.draft r.current 0 0)) ∧
  (∀ (q : Req) (p : DraftP) (s : State), NMap.wf s.rgn.drafts → s.passes (regionDraftDiscardCmd p) q (regionDraftDiscardChecks p) →
    Completes (.regionDraftDiscard q p) s fun t => t.rgn.drafts.find p.draft = none) ∧
  (∀ (q : Req) (p : PublishP) (s : State) (r : Region) (d : Draft), s.passes (regionPublishCmd p) q (regionPublishChecks p) →
    s.rgn.regions.find p.region = some r → r.queue = [] → s.publishing p.region = false →
    s.rgn.drafts.find p.draft = some d → d.region = p.region → d.base = p.base → d.holder = q.ep → d.base = r.current →
    Completes (.regionPublish q p) s fun t =>
      t.rgn.drafts.find p.draft = some { d with sealed := some (s.replyOf (regionPublishCmd p) q) }) ∧
  (∀ (i r : Nat) (s : State) (d : Draft) (g : Region), s.rgn.drafts.find i = some d → d.sealed = some r →
    s.rgn.regions.find d.region = some g → g.deleted = false → d.opening = none → s.draftQuiet d = true →
    Completes (.publishCommit i) s fun t => ∃ g', t.rgn.regions.find d.region = some g' ∧
      g'.current = d.base + 1 ∧ g'.versions.find (d.base + 1) =
        some { publisher := d.holder, publishedAt := s.dom, segs := d.segs.map (·.2) }) ∧
  (∀ s : State, s.fwRuns = true → Completes .retentionTick s fun t => t.rgn = s.checkRetention.rgn ∧
    t.part = s.checkRetention.part)

/-! ## Lodes -/

/-- LODE_CREATE that passes its checks makes the next lode with its extent, offset, size and snoop time (50 µs for
0), no agent and an empty directory, and answers its identifier; DELETE removes it; LODE_JOIN makes the endpoint
a member; LODE_LEAVE of an uncached member removes it and leaves the rest; LODE_RECALL_DONE of a leaving agent
that holds no line removes the agent; LODE_SALVAGE COPY with or without REARM records the copy for its answer;
REARM rearms and answers; DELETE removes; SALVAGE_COPY_DONE with REARM rearms the lode. (05_regions.md: Lodes,
05_regions.md: Domain down and salvage.) -/
def Obligations.LodeCommandsComplete : Prop :=
  (∀ (q : Req) (p : LodeP) (s : State), s.passes (lodeCreateCmd p) q (lodeCreateChecks p) →
    Completes (.lodeCreate q p) s fun t => (∃ l, t.lode.lodes.find (s.lode.lastLode + 1) = some l ∧
      (l.deckle, l.extent, l.offset, l.size) = (p.deckle, p.extent, p.offset64k, p.size64k) ∧
      l.snoopUs = (if p.snoopUs = 0 then 50 else p.snoopUs) ∧ l.agents = [] ∧ l.dir = []) ∧
      t.answers q 0x0307 (okFields 8 [(32, s.lode.lastLode + 1), (32, 0)])) ∧
  (∀ (q : Req) (p : LodeP) (s : State), NMap.wf s.lode.lodes → s.passes (lodeDeleteCmd p) q (lodeDeleteChecks p) →
    Completes (.lodeDelete q p) s fun t => t.lode.lodes.find p.lode = none ∧ t.answers q 0x0307 okAns) ∧
  (∀ (q : Req) (p : LodeMemP) (s : State), s.passes (lodeJoinCmd p) q (lodeJoinChecks p) →
    Completes (.lodeJoin q p) s fun t => ∃ l, t.lode.lodes.find p.lode = some l ∧ l.joined p.endpoint = true) ∧
  (∀ (q : Req) (p : LodeMemP) (s : State) (l : Lode), s.passes (lodeLeaveCmd p) q (lodeLeaveChecks p) →
    s.lode.lodes.find p.lode = some l → l.uncached.contains p.endpoint = true →
    Completes (.lodeLeave q p) s fun t => t.answers q 0x0309 okAns ∧
      t.lode.lodes.find p.lode = some { l with uncached := l.uncached.filter (· != p.endpoint) }) ∧
  (∀ (i ep a r : Nat) (s : State) (l : Lode), s.lode.lodes.find i = some l →
    l.leaving.find? (fun x => x.1 == ep) = some (ep, r) → (l.work.any fun w => w.ep == ep && w.req == .recall) = false →
    l.agentOf ep = some a → l.linesOf a = [] →
    Completes (.lodeRecallDone i ep) s fun t => ∃ m, t.lode.lodes.find i = some m ∧ m.agents = l.agents.del a ∧
      m.leaving = l.leaving.filter fun x => x.1 != ep) ∧
  (∀ (q : Req) (p : SalvageP) (s : State), s.passes (salvageCopyCmd p) q (salvageCopyChecks p) →
    Completes (.lodeSalvageCopy q p) s fun t =>
      ((t.lode.lodes.find p.lode).bind (·.salvage)) =
        some (s.replyOf (salvageCopyCmd p) q, false, p.destExtent, p.destOffset)) ∧
  (∀ (q : Req) (p : SalvageP) (s : State), s.passes (salvageCopyCmd p) q (salvageCopyChecks p) →
    Completes (.lodeSalvageCopyRearm q p) s fun t =>
      ((t.lode.lodes.find p.lode).bind (·.salvage)) =
        some (s.replyOf (salvageCopyCmd p) q, true, p.destExtent, p.destOffset)) ∧
  (∀ (q : Req) (p : SalvageP) (s : State) (l : Lode), s.passes (lodeSalvageRearmCmd p) q (lodeSalvageRearmChecks p) →
    s.lode.lodes.find p.lode = some l →
    Completes (.lodeSalvageRearm q p) s fun t => t.lode.lodes.find p.lode = some l.rearmed ∧
      t.answers q 0x030A (salvageResult l)) ∧
  (∀ (q : Req) (p : SalvageP) (s : State), NMap.wf s.lode.lodes → s.passes (lodeSalvageDeleteCmd p) q (lodeSalvageDeleteChecks p) →
    Completes (.lodeSalvageDelete q p) s fun t => t.lode.lodes.find p.lode = none) ∧
  (∀ (i r x off : Nat) (s : State) (l : Lode) (e f : Extent), s.lode.lodes.find i = some l →
    l.salvage = some (r, true, x, off) → s.part.extents.find x = some e → e.state ≠ .revoking →
    s.part.extents.find l.extent = some f → f.state ≠ .revoking →
    Completes (.salvageCopyDone i) s fun t => t.lode.lodes.find i = some l.rearmed)

/-- At a lode that is up with no request at work: an RDS and an RDX of an agent for a line in no cache are answered
by an LGRANT in E with the line's data, and the directory holds the agent as its exclusive owner; a WB of the
exclusive owner writes the line, ends the ownership and is answered. At a lode with one started request that has
two snoops out, a SNP_RSP takes the first snoop out and keeps its data; LODE_SNOOP_TIMEOUT takes the domain down
with no agent left, no earlier than the snoop time after the request began. (05_regions.md: The directory
protocol, 05_regions.md: Domain down and salvage.) -/
def Obligations.LodeRequestsComplete : Prop :=
  (∀ (h : Hdr) (x : LodeExt) (s : State) (qu : Nat) (y o : Bool) (r r' : LineRef) (i a : Nat) (l : Lode) (v : Line),
    let f : PktForm := { ok := x.rsvd == 0 && !x.data && !x.dirty && h.len == 16, aligned := x.addr % 64 == 0 }
    (s.gate h 3 f).2 = .accept qu y o → let s1 := (s.gate h 3 f).1.openReq h qu false
    s1.translate h.deckle .rd [x.addr / 64] = .ok [r] → s1.lodeOf r = some (i, l) → s1.lode.lodes.find i = some l →
    l.down = none → l.work = [] → l.agentOf h.ep = some a → l.dir.find (s1.lodeLine r l) = none →
    let u := s1.atHomeAlone i l (s1.lodeLine r l) h x.addr .rds
    u.lodeRef l (s1.lodeLine r l) = some r' → (u.readLine r' 8).2 = .data v → ((u.readLine r' 8).1.route h.ep).isSome →
    Completes (.rds h x) s fun t => .lgrant h.ep h.tag l.deckle x.addr 1 .ok (some v) ∈ t.sent ∧
      ∃ m, t.lode.lodes.find i = some m ∧ m.dir.find (s1.lodeLine r l) = some (.ownedExcl a) ∧ m.work = []) ∧
  (∀ (h : Hdr) (x : LodeExt) (s : State) (qu : Nat) (y o : Bool) (r r' : LineRef) (i a : Nat) (l : Lode) (v : Line),
    let f : PktForm := { ok := x.rsvd == 0 && !x.data && !x.dirty && h.len == 16, aligned := x.addr % 64 == 0 }
    (s.gate h 3 f).2 = .accept qu y o → let s1 := (s.gate h 3 f).1.openReq h qu false
    s1.translate h.deckle .atom [x.addr / 64] = .ok [r] → s1.lodeOf r = some (i, l) → s1.lode.lodes.find i = some l →
    l.down = none → l.work = [] → l.agentOf h.ep = some a → l.dir.find (s1.lodeLine r l) = none →
    let u := s1.atHomeAlone i l (s1.lodeLine r l) h x.addr .rdx
    u.lodeRef l (s1.lodeLine r l) = some r' → (u.readLine r' 8).2 = .data v → ((u.readLine r' 8).1.route h.ep).isSome →
    Completes (.rdx h x) s fun t => .lgrant h.ep h.tag l.deckle x.addr 1 .ok (some v) ∈ t.sent ∧
      ∃ m, t.lode.lodes.find i = some m ∧ m.dir.find (s1.lodeLine r l) = some (.ownedExcl a) ∧ m.work = []) ∧
  (∀ (h : Hdr) (x : LodeExt) (data : Line) (s : State) (qu : Nat) (y o : Bool) (r r' : LineRef) (i a : Nat) (l : Lode),
    let f : PktForm := { ok := x.rsvd == 0 && !x.data && !x.dirty && h.len == 80, aligned := x.addr % 64 == 0 }
    (s.gate h 3 f).2 = .accept qu y o → let s1 := (s.gate h 3 f).1.openReq h qu false
    s1.translate h.deckle .wr [x.addr / 64] = .ok [r] → s1.lodeOf r = some (i, l) → s1.lode.lodes.find i = some l →
    l.down = none → l.work = [] → NMap.wf l.dir → l.agentOf h.ep = some a →
    l.dir.find (s1.lodeLine r l) = some (.ownedExcl a) →
    let u := s1.atHomeAlone i l (s1.lodeLine r l) h x.addr (.wb data)
    u.lodeRef l (s1.lodeLine r l) = some r' →
    let z := u.writeWhole r' data false { ep := h.ep, rtag := h.tag, cls := 8 }
    z.2 = none → (z.1.route h.ep).isSome →
    Completes (.wb h x data) s fun t => .lgrant h.ep h.tag l.deckle x.addr 3 .ok none ∈ t.sent ∧
      t.mem.cells = z.1.mem.cells ∧
      ∃ m, t.lode.lodes.find i = some m ∧ m.dir.find (s1.lodeLine r l) = none ∧ m.work = []) ∧
  (∀ (h : Hdr) (x : LodeExt) (data : Line) (s : State) (i ep tag : Nat) (k : Nat) (b : Option Nat) (l : Lode) (w : LodeWork),
    s.carries h.port = true → s.bound h.port h.ep = true → h.vc = 3 → s.lode.lodes = [(i, l)] → l.down = none →
    l.work = [w] → w.started = true → w.ans = none → w.snoops = [(h.ep, h.tag, some k), (ep, tag, b)] →
    (ep, tag) ≠ (h.ep, h.tag) →
    Completes (.snpRsp h x data) s fun t => t.lode.lodes = [(i, { l with work :=
      [{ w with snoops := [(ep, tag, b)], got := if x.data then some (data, x.dirty) else w.got }] })]) ∧
  (∀ (i ep : Nat) (s : State) (l : Lode) (w : LodeWork), s.lode.lodes.find i = some l → l.down = none →
    l.work.find? (fun w => w.snoops.any fun t => t.1 == ep) = some w →
    Completes (.lodeSnoopTimeout i ep) s fun t => ∃ m, t.lode.lodes.find i = some m ∧ m.down.isSome = true ∧
      m.agents = [] ∧ w.at_ + l.snoopUs * 1000 ≤ t.now)

/-! ## Memory requests -/

/-- LINE_WRITE_ACCEPTED on a write accepts its lines and ends it where all are done; LINE_READ of a line whose
extent has gone fails that line with ST_REVOKED and ends the request if it was the last, storing nothing;
RECONSTRUCTION_DONE ends the line being reconstructed with what the reconstruction gives; REQUEST_STALE_DISCARD
removes a request with a line undone no earlier than 10 ms after its admission, storing nothing;
ASM_WINDOW_EXPIRE closes an assembly buffer no earlier than 4 µs after it opened. For devices in no pair where
the clause says so. (03_memory_tiers.md: Costs of reads and writes, 17_integrity.md: Reading a line,
04_deckles.md: Revocation.) -/
def Obligations.MemoryJobsComplete : Prop :=
  (∀ (j : Nat) (s : State) (x : Job), s.mem.jobs.find j = some x → x.writes = true → s.mirrors = false →
    Completes (.lineWriteAccepted j) s fun t => t = (s.acceptLines j (List.range x.lines.length)).finishJob j) ∧
  (∀ (j : Nat) (flip : Stored) (s : State) (x : Job) (l : JobLine) (i : Nat), s.mem.jobs.find j = some x →
    x.writes = false →
    ((x.lines.zip (List.range x.lines.length)).find? fun y => !y.1.done && !y.1.lode && y.1.recon.isNone) = some (l, i) →
    s.blocked j x l = false → s.liveLine l = false → s.mirrors = false → NMap.wf s.mem.jobs →
    Completes (.lineRead j flip) s fun t => t.mem.jobs.find j =
      (if (x.failLine i .revoked).lines.all (·.done) then none else some (x.failLine i .revoked)) ∧
      t.mem.cells = s.mem.cells) ∧
  (∀ (j : Nat) (s : State) (x : Job) (l : JobLine) (i : Nat), s.mem.jobs.find j = some x →
    ((x.lines.zip (List.range x.lines.length)).find? fun y => !y.1.done && y.1.recon.isSome) = some (l, i) →
    s.liveLine l = true →
    Completes (.reconstructionDone j) s fun t => ∃ y,
      y = s.reconstruct (l.ref (s.isMir l.extent) x.deckle) (l.recon.getD false) (x.cls + 8) ∧
      t = (y.1.takeRead j i x y.2.1).finishJob j) ∧
  (∀ (j : Nat) (s : State) (x : Job), NMap.wf s.mem.jobs → s.mem.jobs.find j = some x → x.lines.all (·.done) = false →
    s.mirrors = false →
    Completes (.requestStaleDiscard j) s fun t => t.mem.jobs.find j = none ∧ x.admitted + 10000000 ≤ t.now ∧
      t.mem.cells = s.mem.cells) ∧
  (∀ (st : Nat) (s : State) (b : AsmBuf), NMap.wf s.mem.asm → s.mem.asm.find st = some b →
    Completes (.asmWindowExpire st) s fun t => t.mem.asm.find st = none ∧ b.openedAt + 4000 ≤ t.now)

/-- For a read whose next unserved line is live and reads cleanly at its first read, and which has another line to
come, LINE_READ with no flipped bit records the data at that line, marks it done, and changes no stored line.
(17_integrity.md: Reading a line.) -/
def Obligations.LineReadReturnsData : Prop :=
  ∀ (j : Nat) (s : State) (x : Job) (l : JobLine) (i : Nat) (d : Line), s.mem.jobs.find j = some x →
    x.writes = false →
    ((x.lines.zip (List.range x.lines.length)).find? fun y => !y.1.done && !y.1.lode && y.1.recon.isNone) = some (l, i) →
    s.blocked j x l = false → s.liveLine l = true → (x.lines.drop (i + 1)).any (fun k => !k.done) = true →
    ((s.flipLine l 0#640).chargeTier x.deckle (x.cls + 8) l.tier (readPj l.tier) 1).firstRead
      (l.ref (s.isMir l.extent) x.deckle) = (.data d, false) →
    Completes (.lineRead j 0#640) s fun t =>
      t.mem.jobs.find j = some (x.doneLine i fun k => { k with data := d }) ∧ t.mem.cells = s.mem.cells

/-- Storing a cell at a line makes that line read as the cell, and every other line reads as before. Writing a whole
line to an extent that is not migrating leaves there the line formed from the data under its deckle's key and
its extent's generation (up to injected errors), and every other line reads as before. (17_integrity.md: The
line, 03_memory_tiers.md: Costs of reads and writes.) -/
def Obligations.StoredLineReadsBack : Prop :=
  (∀ (s : State) (t : Tier) (line : Nat) (c : Cell), NMap.wf s.mem.cells →
    (s.putCell t line c).cell t line = some c ∧
    ∀ (t' : Tier) (line' : Nat), cellKey t' line' ≠ cellKey t line → (s.putCell t line c).cell t' line' = s.cell t' line') ∧
  (∀ (s : State) (r : LineRef) (data : Line) (full : Bool) (o : Origin), NMap.wf s.mem.cells →
    s.mem.migr.find r.extent = none →
    (∃ e, (s.writeWhole r data full o).1.cell r.tier r.line = some { s.formCell r data with err := e }) ∧
    ∀ (t' : Tier) (line' : Nat), cellKey t' line' ≠ cellKey r.tier r.line →
      (s.writeWhole r data full o).1.cell t' line' = s.cell t' line')

/-! ## Migrations -/

/-- EXTENT_MIGRATE that passes its checks starts a migration to the tier it names, with the extent unchanged; CANCEL
of a copy that is not done removes it and answers ST_OK; MIGRATE_COPY_DONE marks the copy done with its cursor
at the extent's size; MIGRATE_OLD_FRAMES_FREE, after the switch and with nothing on the old frames, removes the
migration. (03_memory_tiers.md: Migration.) -/
def Obligations.MigrationCommandsComplete : Prop :=
  (∀ (q : Req) (p : MigrateP) (hint : Nat) (s : State) (e : Extent),
    s.passes (extentMigrateCmd p s) q (extentMigrateChecks q p hint) →
    (s.acting (extentMigrateCmd p s) q).part.extents.find p.extent = some e →
    Completes (.extentMigrate q p hint) s fun t => (∃ m, t.mem.migr.find p.extent = some m ∧ m.tier = tierOf p.target ∧
      m.done = false ∧ m.switched = false) ∧ t.part.extents.find p.extent = some e) ∧
  (∀ (q : Req) (p : MigrateP) (s : State) (m : Migration), NMap.wf (s.acting (extentMigrateCancelCmd p) q).mem.migr →
    s.passes (extentMigrateCancelCmd p) q (extentMigrateCancelChecks p) →
    (s.acting (extentMigrateCancelCmd p) q).mem.migr.find p.extent = some m → m.done = false →
    Completes (.extentMigrateCancel q p) s fun t => t.mem.migr.find p.extent = none ∧ t.answers q 0x0204 okAns) ∧
  (∀ (x : Nat) (s : State) (m : Migration) (e : Extent), s.mem.migr.find x = some m → s.part.extents.find x = some e →
    m.done = false → s.deferStopped = false →
    Completes (.migrateCopyDone x) s fun t => ∃ m', t.mem.migr.find x = some m' ∧ m'.done = true ∧
      m'.cursor = e.granules * 2 ^ 21 ∧ (m'.tier, m'.first) = (m.tier, m.first)) ∧
  (∀ (x : Nat) (s : State) (m : Migration) (e : Extent), NMap.wf s.mem.migr → s.mem.migr.find x = some m →
    s.part.extents.find x = some e → m.switched = true → s.onOldFrames m e.granules = false →
    ((s.part.deckles.find e.deckle).map fun k => k.oldCopy.isNone).getD true = true →
    Completes (.migrateOldFramesFree x) s fun t => t.mem.migr.find x = none)

/-! ## Translation tables and fault records -/

/-- TABLE_SYNC that passes its checks, where its copy is good, leaves the deckle with the new copy and leaves
regions and lodes; TABLE_SYNC_SWITCHED ends the old copy and its answer, keeps the new tables and root, and
leaves no cached translation of the deckle; TABLE_READBACK answers ST_OK with the digest of the copy in force.
(06_translation.md: The device copy and TABLE_SYNC.) -/
def Obligations.TableCommandsComplete : Prop :=
  (∀ (q : Req) (p : SyncP) (hint : Nat) (s s' : State), s.passes (tableSyncCmd p) q (tableSyncChecks p) →
    (s.acting (tableSyncCmd p) q).sync q p hint (s.replyOf (tableSyncCmd p) q) = (s', none) →
    Completes (.tableSync q p hint) s fun t => t.part.deckles.find p.deckle = s'.part.deckles.find p.deckle ∧
      t.rgn = s.rgn ∧ t.lode = s.lode) ∧
  (∀ (d : Nat) (s : State) (k : Deckle), s.part.deckles.find d = some k → k.oldCopy.isSome = true →
    Completes (.tableSyncSwitched d) s fun t => ∃ k', t.part.deckles.find d = some k' ∧ k'.oldCopy = none ∧
      k'.syncReply = none ∧ (k'.tables, k'.root) = (k.tables, k.root) ∧ ∀ e ∈ t.xlat.tlb, e.2.1 ≠ d) ∧
  (∀ (q : Req) (p : ReadbackP) (s : State) (k : Deckle), s.passes (tableReadbackCmd p) q (tableReadbackChecks p) →
    (s.acting (tableReadbackCmd p) q).part.deckles.find p.deckle = some k →
    Completes (.tableReadback q p) s fun t => ∃ a, t.answers q 0x0402 a ∧ a.status = .ok ∧
      a.bits % 2 ^ 256 = copyDigest (k.tables, k.root) % 2 ^ 256)

/-- TRANSLATION_WALK_DONE moves its stream slot or its couch tile on, if no trip stopped the units; FAULT_RESUME and
FAULT_ABORT of a record with no waiter answer the count 0 and remove the record; FAULT_AUTO_ABORT ends the
record with its waiters aborted once 1 s of unwedged time has passed. (06_translation.md: Tiles and faults.) -/
def Obligations.FaultCommandsComplete : Prop :=
  (∀ (core unit slot : Nat) (s : State), s.pkg.tripped = false →
    Completes (.translationWalkDone core unit slot false) s fun t => t = s.walkStream core unit slot) ∧
  (∀ (core unit slot : Nat) (s : State), s.pkg.tripped = false →
    Completes (.translationWalkDone core unit slot true) s fun t => t = s.walkTile core unit slot) ∧
  (∀ (q : Req) (p : FaultP) (s : State) (r : FaultRec), s.passes (faultResumeCmd p) q (faultResumeChecks p) →
    (s.acting (faultResumeCmd p) q).faultNamed p = some r → r.waiters = [] →
    NMap.wf (s.acting (faultResumeCmd p) q).xlat.faults →
    Completes (.faultResume q p) s fun t => t.answers q 0x0403 (okFields 8 [(16, 0), (48, 0)]) ∧
      t.xlat.faults.find p.fault = none) ∧
  (∀ (q : Req) (p : FaultP) (s : State) (r : FaultRec), s.passes (faultAbortCmd p) q (faultAbortChecks p) →
    (s.acting (faultAbortCmd p) q).faultNamed p = some r → r.waiters = [] →
    NMap.wf (s.acting (faultAbortCmd p) q).xlat.faults →
    Completes (.faultAbort q p) s fun t => t.answers q 0x0404 (okFields 8 [(16, 0), (48, 0)]) ∧
      t.xlat.faults.find p.fault = none) ∧
  (∀ (f : Nat) (s : State) (r : FaultRec), s.xlat.faults.find f = some r → s.hubStopped = false →
    Completes (.faultAutoAbort f) s fun t =>
      t = (s.reach (r.frozen + 1000000000)).closeWith f r fun a w => a.abortWaiter f w)

/-! ## Link transactions -/

/-- An RD, a version RD, a WR and an ATOM that the ingress accepts, whose lines translate, and of which no line is
in a lode, each become one memory request of its kind on exactly the translated lines in their order, for a WR
with exactly its data, and no stored line changes; a WR into the boot loader's window makes its endpoint the
loader. (14_transactions.md: Admission at ingress, 06_translation.md: TLBs and the walk, 02_hub_firmware.md:
Loading the firmware at every start.) -/
def Obligations.MemoryPacketsComplete : Prop :=
  (∀ (h : Hdr) (m : MemExt) (s : State) (qu : Nat) (y o : Bool) (refs : List LineRef),
    (s.gate h 0 (rdForm h m) (bootRead h m.addr)).2 = .accept qu y o → m.ver = false →
    let s1 := (s.gate h 0 (rdForm h m) (bootRead h m.addr)).1.openReq h qu o
    s1.translate h.deckle .rd (lineRun m.addr m.lines) = .ok refs → s1.lodeCheck h.ep refs = none → s1.lodesOf refs = [] →
    Completes (.rd h m) s fun t => ∃ x, t.mem.jobs.find s1.mem.nextJob = some x ∧ x.kind = .rd ∧
      (x.ep, x.tag, x.deckle, x.cls) = (h.ep, h.tag, h.deckle, h.cls) ∧
      x.lines.map (fun l => (l.tier, l.line)) = refs.map (fun r => (r.tier, r.line)) ∧ t.mem.cells = s.mem.cells) ∧
  (∀ (h : Hdr) (m : MemExt) (s : State) (qu : Nat) (y o : Bool) (hd : Handle) (refs : List LineRef),
    (s.gate h 0 (rdForm h { m with ver := true }) (some .notReady)).2 = .accept qu y o →
    let s1 := (s.gate h 0 (rdForm h { m with ver := true }) (some .notReady)).1.openReq h qu o
    s1.rgn.handles.find m.handle = some hd → hd.deckle = h.deckle → s1.versionLines hd m.addr m.lines = some refs →
    refs.length = m.lines → s1.versionStatus refs = .ok → s1.lodesOf refs = [] →
    Completes (.rdVersion h m) s fun t => ∃ x, t.mem.jobs.find s1.mem.nextJob = some x ∧ x.kind = .rdVersion ∧
      x.lines.map (fun l => (l.tier, l.line)) = refs.map (fun r => (r.tier, r.line)) ∧ t.mem.cells = s.mem.cells) ∧
  (∀ (h : Hdr) (m : MemExt) (data : List Line) (s : State) (qu : Nat) (y o : Bool) (refs : List LineRef),
    (s.gate h 0 (wrForm h m data) (bootWrite h m.addr)).2 = .accept qu y o →
    let s1 := (s.gate h 0 (wrForm h m data) (bootWrite h m.addr)).1.openReq h qu o
    s1.translate h.deckle .wr (lineRun m.addr m.lines) = .ok refs → s1.lodeCheck h.ep refs = none → s1.lodesOf refs = [] →
    refs.length = data.length →
    Completes (.wr h m data) s fun t => ∃ x, t.mem.jobs.find s1.mem.nextJob = some x ∧ x.kind = .wr m.masked ∧
      x.lines.map (fun l => (l.tier, l.line)) = refs.map (fun r => (r.tier, r.line)) ∧
      x.lines.map (·.data) = data ∧ t.mem.cells = s.mem.cells) ∧
  (∀ (h : Hdr) (m : MemExt) (a b : BitVec 128) (s : State) (qu : Nat) (y o : Bool) (refs : List LineRef),
    (s.gate h 0 (atomForm h m) (bootRead h m.addr)).2 = .accept qu y o →
    let s1 := (s.gate h 0 (atomForm h m) (bootRead h m.addr)).1.openReq h qu o
    s1.translate h.deckle .atom [m.addr / 64] = .ok refs → s1.lodeCheck h.ep refs = none → s1.lodesOf refs = [] →
    Completes (.atom h m a b) s fun t => ∃ x, t.mem.jobs.find s1.mem.nextJob = some x ∧
      x.kind = .atom m.aop m.asize16 a b (m.addr % 64) ∧ t.mem.cells = s.mem.cells) ∧
  (∀ (h : Hdr) (m : MemExt) (data : List Line) (s : State) (qu off : Nat) (y o : Bool),
    (s.gate h 0 (wrForm h m data) (bootWrite h m.addr)).2 = .accept qu y o →
    let s1 := (s.gate h 0 (wrForm h m data) (bootWrite h m.addr)).1.openReq h qu o
    s1.translate h.deckle .wr (lineRun m.addr m.lines) = .window off → s.hub.stagingReady = true →
    s.hub.verifying = none → (s.hub.loader = none ∨ s.hub.loader = some h.ep) →
    Completes (.loadWindowWrite h m data) s fun t => t.hub.loader = some h.ep)

/-- A FENCE that the ingress accepts is kept with its endpoint, tag and deckle; FENCE_DONE of a fence that waits for
nothing removes it; an EP_CLAIM of an identity bound to the same port is answered with the same identifier and
ST_OK; EP_RELEASE of an endpoint that holds no lease frees the identifier; EP_ASSIGN ends the device's own claim
with the identifier, or without one where it is refused. (14_transactions.md: Endpoints, 14_transactions.md:
Ordering.) -/
def Obligations.EndpointPacketsComplete : Prop :=
  (∀ (h : Hdr) (s : State) (qu : Nat) (y o : Bool),
    (s.gate h 0 { ok := h.len == 0, bytes := some 0 } (some .notReady)).2 = .accept qu y o →
    Completes (.fence h) s fun t => ∃ f, f ∈ t.part.fences ∧ f.ep = h.ep ∧ f.tag = h.tag ∧ f.deckle = h.deckle) ∧
  (∀ (ep tag : Nat) (s : State) (f : Fence), s.part.fences.find? (fun f => f.ep == ep && f.tag == tag) = some f →
    f.waits = [] →
    Completes (.fenceDone ep tag) s fun t => ∀ g ∈ t.part.fences, ¬ (g.ep = ep ∧ g.tag = tag)) ∧
  (∀ (port identity ep : Nat) (s : State) (e : Endpoint), s.carries port = true →
    s.part.eps.find? (fun e => e.2.identity == identity) = some (ep, e) → e.port = port →
    Completes (.epClaim port 5 identity 0) s fun t => t = (s.freeBuf port 5 1).answerClaim port identity ep .ok) ∧
  (∀ (h : Hdr) (s : State), NMap.wf s.part.eps → s.carries h.port = true → s.bound h.port h.ep = true → h.vc = 5 →
    h.rsvd = 0 → h.len = 0 → s.holdsLease h.ep = false →
    Completes (.epRelease h) s fun t => t.part.eps.find h.ep = none) ∧
  (∀ (port ep : Nat) (st : Status) (s : State), s.carries port = true → (s.port port).claiming = true →
    Completes (.epAssign port ep st) s fun t => (t.port port).claiming = false ∧
      (t.port port).ownEp = (if st = .ok then some ep else none))

/-! ## Tensor engines and launches -/

/-- For an engine that runs a launch, is not stalled, and whose bundle ends nothing, BUNDLE_ISSUE answers a next
state whose engine is the issue of that bundle over the engine with its arrived results; work, memory, regions,
links and every other engine are unchanged. (08_engine_programs.md: Bundles.) -/
def Obligations.BundleIssueExecutes : Prop :=
  ∀ (core engine w : Nat) (s : State) (k : Work) (b : BitVec 128), s.pkg.tripped = false →
    (s.engine core engine).work = some w → s.eng.work.find w = some k → k.state = .running → k.cause = none →
    (s.core core).clockTarget = none → (s.engine core engine).ended = false → (s.engine core engine).halting = false →
    (s.engine core engine).barrier = 0 →
    let x := (s.engine core engine).arrive (Config.freeNat (s.free + 50))
    let r := issue x b (s.codeOf k).length (2 ^ 21 * (s.windowsOf core w).length) (s.launchStat w k core engine x)
      (fun i => Config.freeNat (s.free + i))
    (s.codeOf k)[x.pc]? = some b → stalls x (slotX b) = false → r.2 = none →
    Completes (.bundleIssue core engine) s fun t => t.engine core engine = r.1 ∧ t.eng.work = s.eng.work ∧
      t.mem = s.mem ∧ t.rgn = s.rgn ∧ t.link = s.link ∧
      ∀ c e, engKey c e ≠ engKey core engine → t.engine c e = s.engine c e

/-- BARRIER_RELEASE where every engine of the launch that counts has ended or stands at the barrier releases each of
them and leaves work and memory; STREAM_TILE_LAND moves a core-store tile, and a translated memory tile, of its
slot; STREAM_SLOT_COMPLETE of a slot with no tile left ends that slot alone and leaves memory.
(08_engine_programs.md: Scalar and control slot, 08_engine_programs.md: Move slot and streams.) -/
def Obligations.EngineEventsComplete : Prop :=
  (∀ (work core k : Nat) (gang : Bool) (s : State) (w : Work), s.pkg.tripped = false → s.eng.work.find work = some w →
    w.cause = none →
    (∀ e ∈ s.enginesOf work, (gang = true ∨ e / 16 = core) → (s.engine (e / 16) (e % 16)).ended = true ∨
      (s.engine (e / 16) (e % 16)).barrier = if gang then 2 else 1) →
    k ∈ s.enginesOf work → (gang = true ∨ k / 16 = core) → (s.engine (k / 16) (k % 16)).barrier = (if gang then 2 else 1) →
    Completes (.barrierRelease work core gang) s fun t => (t.engine (k / 16) (k % 16)).barrier = 0 ∧
      t.eng.work = s.eng.work ∧ t.mem = s.mem) ∧
  (∀ (core engine slot w : Nat) (s : State) (k : Work) (st : Stream), s.pkg.tripped = false →
    (s.walkStream core engine slot).streamAt core engine slot = some (w, k, st) → st.core = true →
    Completes (.streamTileLand core engine slot) s fun t =>
      t = (s.walkStream core engine slot).landCore core engine slot w st (st.tiles.headD [])) ∧
  (∀ (core engine slot w : Nat) (s : State) (k : Work) (st : Stream) (refs : List LineRef), s.pkg.tripped = false →
    (s.walkStream core engine slot).streamAt core engine slot = some (w, k, st) → st.core = false → st.refs = some refs →
    Completes (.streamTileLand core engine slot) s fun t =>
      t = (s.walkStream core engine slot).landTile core engine slot w k st (st.tiles.headD []) refs) ∧
  (∀ (core engine slot : Nat) (s : State) (st : Stream), s.pkg.tripped = false → NMap.wf (s.engine core engine).slots →
    (s.engine core engine).slots.find slot = some st → st.tiles = [] → s.mirrors = false →
    Completes (.streamSlotComplete core engine slot) s fun t => (t.engine core engine).slots.find slot = none ∧
      (∀ i, i ≠ slot → (t.engine core engine).slots.find i = (s.engine core engine).slots.find i) ∧ t.mem = s.mem)

/-- KERNEL_LOAD that passes its checks answers and adds the kernel; KERNEL_UNLOAD answers ST_OK and leaves the
kernel gone or unloading; a LAUNCH that passes its checks becomes a queued work item with the cores, engines,
windows, queue, time cap and estimate it gives; LAUNCH_START of one that may start and is not outranked makes it
running; LAUNCH_COMPLETE of one that was stopped, or whose engines ended, removes it and frees its engines;
WORK_TIME_CAP gives it the cause ST_KILLED no earlier than its cap; WORK_CANCEL stops what it names and
completes with ST_OK, or ST_LATE for none. (08_engine_programs.md: Kernel images, 08_engine_programs.md:
Launching, 08_engine_programs.md: Completion, 08_engine_programs.md: Cancellation.) -/
def Obligations.LaunchCommandsComplete : Prop :=
  (∀ (q : Req) (p : KernelP) (s s' : State) (a : Ans), s.passes (kernelLoadCmd p) q (kernelLoadChecks p) →
    (s.acting (kernelLoadCmd p) q).loadKernel p = (s', some a) → a.status = .ok →
    Completes (.kernelLoad q p) s fun t => t.answers q 0x0501 a ∧ t.eng.kernels = s'.eng.kernels ∧
      t.eng.lastKernel = s.eng.lastKernel + 1) ∧
  (∀ (q : Req) (p : KernelP) (s : State), NMap.wf s.eng.kernels → s.passes (kernelUnloadCmd p) q (kernelUnloadChecks p) →
    Completes (.kernelUnload q p) s fun t => t.answers q 0x0502 okAns ∧
      (∀ k, t.eng.kernels.find p.handle = some k → k.unloading = true)) ∧
  (∀ (h : Hdr) (b : LaunchB) (q : Nat) (s s2 : State) (k : KernelNeeds) (cores : List Nat) (y : Bool), s.workPasses h 320 q →
    let s1 := s.workIn h 320
    let win := if b.windows = 0 then k.windows else b.windows
    let est := (if b.estUj = 0 then k.estUj else b.estUj) * 1000000
    s1.deckleActive h.deckle = true → s1.launchFields h.deckle b = true → s1.kernelFor h.deckle b.kernel = .ok k →
    k.lo ≤ b.engines → b.engines ≤ k.hi → (b.gang = true → k.gang = true) →
    ((b.kernel = 6 ∨ b.kernel = 7) → b.windows = 0) → 
    (∀ w ∈ s1.workNamed h.deckle b.cplEp b.ctag, ∀ x b', s1.eng.work.find w = some x → x.body ≠ .launch b') →
    cores = (if b.gang then maskCores b.coreMask else if b.anyCore then (s1.chooseCore b.engines win).toList else [b.core]) →
    cores ≠ [] → (∀ c ∈ cores, (s1.core c).ready = true ∧ win ≤ s1.launchWindows c ∧ s1.queuedOn c < 4096) →
    s1.admitEnergy h.deckle est = (s2, .go y) →
    Completes (.launch h b) s fun t => ∃ w, t.eng.work.find s1.eng.nextWork = some w ∧
      w.body = .launch { b with windows := win } ∧ w.state = .queued ∧ (w.deckle, w.cplEp, w.ctag) = (h.deckle, b.cplEp, b.ctag) ∧
      w.cores = cores ∧ w.engines = b.engines ∧ w.queue = (if y then 60 else q) ∧ w.cause = none ∧
      w.capNs = (if b.capUs = 0 then 10000 else b.capUs) * 1000 ∧ w.est = est) ∧
  (∀ (work : Nat) (s : State) (x : Work), s.pkg.tripped = false → s.eng.work.find work = some x → s.startable work x = true →
    s.outranked work x = false →
    Completes (.launchStart work) s fun t =>
      t.eng.work.find work = some { x with state := .running, started := s.now } ∧ t.mem = s.mem) ∧
  (∀ (work : Nat) (s : State) (x : Work) (b : LaunchB), s.pkg.tripped = false → NMap.wf s.eng.work →
    s.eng.work.find work = some x → x.body = .launch b → x.state = .running → LaunchB.builtin b = false →
    (x.cause.isSome = true ∨ ∀ k ∈ s.enginesOf work, (s.engine (k / 16) (k % 16)).ended = true) →
    Completes (.launchComplete work) s fun t => t.eng.work.find work = none ∧ t.enginesOf work = []) ∧
  (∀ (work : Nat) (s : State) (x : Work) (b : LaunchB), s.eng.work.find work = some x → x.body = .launch b →
    x.state = .running → x.cause = none → x.ready = none →
    Completes (.workTimeCap work) s fun t => (t.eng.work.find work).map (·.cause) = some (some (.killed, 0)) ∧
      x.started + x.capNs ≤ t.now) ∧
  (∀ (h : Hdr) (b : CancelB) (q : Nat) (s : State), s.workPasses h 64 q → b.rsvd = 0 →
    let x := (s.workIn h 64).stopItems (fun w => w.deckle == h.deckle && w.cplEp == b.cplEp && w.ctag == b.ctag && cancels w.body) .aborted
    let y := x.1.stopChains (fun k => k.deckle == h.deckle && k.cplEp == b.cplEp && k.ctag == b.ctag) none .aborted
    Completes (.workCancel h b) s fun t =>
      t = y.1.sendCpl h.ep h.deckle h.cls q (cplPlain 0x0002 (if x.2 + y.2 = 0 then .late else .ok) b.ctag 0))

/-! ## Attention -/

/-- ATTN_POOL_SET that passes its checks answers ST_OK, and with windows and no limit gives every core's context
spill its target, and with a limit for which the store has room gives the deckle that limit. (09_attention.md:
Sequence contexts and where they live.) -/
def Obligations.AttnPoolSetSets : Prop :=
  (∀ (q : Req) (p : PoolSetP) (hint c : Nat) (s : State), s.passes (attnPoolSetCmd p) q (attnPoolSetChecks p) →
    p.setMax = false → p.setWindows = true → c < 32 →
    Completes (.attnPoolSet q p hint) s fun t => (t.core c).spillTarget = p.windows ∧ t.answers q 0x0507 okAns) ∧
  (∀ (q : Req) (p : PoolSetP) (hint : Nat) (s s1 : State), s.passes (attnPoolSetCmd p) q (attnPoolSetChecks p) →
    p.setMax = true → (s.acting (attnPoolSetCmd p) q).setMaxSeq p.deckle p.maxSeq hint = .ok s1 →
    Completes (.attnPoolSet q p hint) s fun t => (t.part.deckles.find p.deckle).map (·.maxSeq) = some p.maxSeq ∧
      t.answers q 0x0507 okAns)

/-- An ATTN_OPEN, ATTN_APPEND, ATTN_STEP, and an ATTN_CLOSE with any of its three operations, that pass the ingress,
their checks and energy admission become one work item with their cores, engines, time cap and estimate, and
then the attention messages whose turn has come take effect. (09_attention.md: Opening, appending and closing,
09_attention.md: Stepping, 09_attention.md: Completion and endings.) -/
def Obligations.AttnMessagesComplete : Prop :=
  (∀ (h : Hdr) (b : AttnOpenB) (q : Nat) (s s2 : State) (y : Bool), s.workPasses h 128 q →
    let s1 := s.workIn h 128
    s1.attnAdmits h (.open_ b) b.cplEp (openFields b) (b.ptPva % 64 == 0) (s1.homeFor b).toList = true →
    s1.admitEnergy h.deckle 0 = (s2, .go y) →
    Completes (.attnOpen h b) s fun t =>
      t = (s2.addWork (s1.attnItem h q (.open_ b) b.cplEp b.ctag (s1.homeFor b).toList 0 0 0 y)).1.pumpAttn) ∧
  (∀ (h : Hdr) (b : AttnAppendB) (q : Nat) (s s2 : State) (y : Bool), s.workPasses h 128 q →
    let s1 := s.workIn h 128
    s1.attnAdmits h (.append b) b.cplEp
      (b.rsvd == 0 && b.layer ≤ 255 && 1 ≤ b.nTokens && b.nTokens ≤ 4096 && (b.copy || b.srcPva == 0)) (b.srcPva % 64 == 0)
      [s1.homeOf h.deckle b.seq] = true →
    s1.admitEnergy h.deckle (s1.appendEstimate h.deckle b) = (s2, .go y) →
    Completes (.attnAppend h b) s fun t =>
      t = (s2.addWork (s1.attnItem h q (.append b) b.cplEp b.ctag [s1.homeOf h.deckle b.seq] 1 0
        (s1.appendEstimate h.deckle b) y)).1.pumpAttn) ∧
  (∀ (h : Hdr) (b : AttnStepB) (q : Nat) (s s2 : State) (y : Bool), s.workPasses h (128 + if b.inl then b.inlineLen else 0) q →
    let s1 := s.workIn h (128 + if b.inl then b.inlineLen else 0)
    let cores := stepCores (s1.homeOf h.deckle b.seq) (coreCount b.cores)
    s1.attnAdmits h (.step b) b.cplEp
      (b.rsvd == 0 && b.cores ≤ 5 && 1 ≤ b.nQ && b.nQ ≤ 8 && b.engines ≤ 16 && (b.capUs == 0 || (10 ≤ b.capUs && b.capUs ≤ 1000000)) &&
        (!b.inl || b.queryPva == 0) && (!b.outPva || b.outAddr < 2 ^ 56) && b.inlineLen ≤ 3968)
      (b.queryPva % 64 == 0 && b.outAddr % 64 == 0) cores = true →
    s1.admitEnergy h.deckle (s1.stepEstimate h.deckle b) = (s2, .go y) →
    Completes (.attnStep h b) s fun t =>
      t = (s2.addWork (s1.attnItem h q (.step b) b.cplEp b.ctag cores (if b.engines = 0 then 16 else b.engines)
        ((if b.capUs = 0 then 10000 else b.capUs) * 1000) (s1.stepEstimate h.deckle b) y)).1.pumpAttn) ∧
  (∀ (op : Fin 3) (h : Hdr) (b : AttnCloseB) (q : Nat) (s s2 : State) (y : Bool), s.workPasses h 64 q →
    let s1 := s.workIn h 64
    s1.attnAdmits h (.close b op) b.cplEp (b.rsvd == 0 && ((op : Nat) == 1 || b.newLength == 0)) true
      [s1.homeOf h.deckle b.seq] = true →
    s1.admitEnergy h.deckle 0 = (s2, .go y) →
    Completes (match op with | 0 => .attnClose h b | 1 => .attnTruncate h b | 2 => .attnQuery h b) s fun t =>
      t = (s2.addWork (s1.attnItem h q (.close b op) b.cplEp b.ctag [s1.homeOf h.deckle b.seq] 0 0 0 y)).1.pumpAttn)

/-- When its turn comes and nothing refuses it, in a device in no pair: an open makes the next sequence's context,
of its deckle, home core and configuration, with length 0, nothing pending and layer 0 next; a truncation sets
the length to the one named; a close removes the context. (09_attention.md: Opening, appending and closing.) -/
def Obligations.AttnTurnsChangeContexts : Prop :=
  (∀ (w core : Nat) (s : State) (x : Work) (b : AttnOpenB), x.body = .open_ b → s.attnBad x.deckle x.body = none →
    s.homeFor b = some core → s.mirrors = false →
    (s.runAttn w x).attn.seqs.find (s.attn.lastSeq + 1) =
      some { deckle := x.deckle, home := core, cfg := b, length := 0, pending := 0, nextLayer := 0 }) ∧
  (∀ (w : Nat) (s : State) (x : Work) (b : AttnCloseB) (c : SeqCtx), x.body = .close b 1 → s.attnBad x.deckle x.body = none →
    s.attn.seqs.find b.seq = some c → s.mirrors = false →
    (s.runAttn w x).attn.seqs.find b.seq = some { c with length := b.newLength }) ∧
  (∀ (w : Nat) (s : State) (x : Work) (b : AttnCloseB), x.body = .close b 0 → s.attnBad x.deckle x.body = none →
    NMap.wf s.attn.seqs → s.mirrors = false →
    (s.runAttn w x).attn.seqs.find b.seq = none)

/-- ATTN_APPEND_DONE of a running append that nothing refuses and whose lines are read and written ends it with
ST_OK, advances the sequence's counters by its tokens, and lets the next messages take effect;
ATTN_STEP_COMPLETE of a running step whose pages are read and whose output is written ends it with ST_OK and
leaves the counters. (09_attention.md: Stepping, 09_attention.md: Completion and endings.) -/
def Obligations.AttnRunsComplete : Prop :=
  (∀ (work m : Nat) (s s1 : State) (x : Work) (b : AttnAppendB) (c : SeqCtx), s.pkg.tripped = false → s.eng.work.find work = some x →
    x.body = .append b → x.cause = none → x.ready = none → x.state = .running → s.waiting (s.firstEngine work x) = false →
    s.attnBad x.deckle x.body = none → s.seqOf x.deckle b.seq = some c → (s.touchCtx b.seq).runAppend x c b = (s1, .ok m) →
    Completes (.attnAppendDone work) s fun t =>
      let s2 := { s1 with free := s1.free + 1 }
      t = (State.endAttn s2 (s2.modSeq b.seq fun c => c.appended b.nTokens) work { x with mseq := m } .ok 0 b.seq
        (s.draw (2 ^ 32)).1 0 0).pumpAttn) ∧
  (∀ (work : Nat) (m : Option Nat) (s s1 s2 : State) (x : Work) (b : AttnStepB) (c : SeqCtx) (area : List Line), s.pkg.tripped = false →
    s.eng.work.find work = some x → x.body = .step b → x.cause = none → x.ready = none → x.state = .running →
    s.waiting (s.firstEngine work x) = false → s.attnBad x.deckle x.body = none → s.seqOf x.deckle b.seq = some c →
    (s.touchCtx b.seq).runStep x c b = (s1, .ok area) → s1.putOut work x b.outPva b.outAddr area = (s2, some m) →
    Completes (.attnStepComplete work) s fun t =>
      let s3 := { s2 with free := s2.free + 2 }
      t = (State.endAttn s3 s3 work { x with mseq := m.getD 0 } .ok 0 b.seq (s.draw (2 ^ 32)).1
        ((List.range (c.visible b.layer)).filter fun j => attends c.cfg b (c.visible b.layer) (b.nQ - 1) j).length
        ((s.draw (2 ^ 32)).2.draw 32).1).pumpAttn)

/-! ## Weight forming -/

/-- MAP_DEFINE that passes its checks makes the map with its slices, layers, tensors and pinned versions;
MAP_REPLACE replaces tensors and pins and leaves the adapters; MAP_RETIRE leaves neither the map nor an adapter
of it; ADAPTER_REGISTER whose entries are good makes the adapter, unpinned, with the fields named;
ADAPTER_UNREGISTER removes it; ADAPTER_PIN and UNPIN set and clear its pin. (10_forming.md: Model maps,
10_forming.md: Adapters.) -/
def Obligations.FormCommandsComplete : Prop :=
  (∀ (q : Req) (p : MapP) (s : State), s.passes (mapDefineCmd p) q (mapDefineChecks p) →
    Completes (.mapDefine q p) s fun t => ∃ m, t.form.maps.find p.mapUid = some m ∧ m.deckle = p.deckle ∧
      (m.slices, m.slice, m.layers) = (p.slices, p.slice, p.layers) ∧ m.tensors = p.tensors ∧
      m.pins = p.pins.map fun x => (x.region, s.pinVersion x.region x.version, x.basePva)) ∧
  (∀ (q : Req) (p : MapP) (s : State), s.passes (mapReplaceCmd p) q (mapReplaceChecks p) →
    Completes (.mapReplace q p) s fun t => ∃ m, t.form.maps.find p.mapUid = some m ∧ m.tensors = p.tensors ∧
      (m.pins = p.pins.map fun x => (x.region, s.pinVersion x.region x.version, x.basePva)) ∧
      t.form.adapters = s.form.adapters) ∧
  (∀ (q : Req) (p : MapRetireP) (s : State), NMap.wf s.form.maps → s.passes (mapRetireCmd p) q (mapRetireChecks p) →
    Completes (.mapRetire q p) s fun t => t.form.maps.find p.mapUid = none ∧
      ∀ a ∈ t.form.adapters, a.mapUid ≠ p.mapUid) ∧
  (∀ (q : Req) (p : AdapterP) (s s' : State), s.passes (adapterRegisterCmd p) q adapterRegisterChecks →
    (s.acting (adapterRegisterCmd p) q).registerAdapter p = (s', some okAns) →
    Completes (.adapterRegister q p) s fun t => ∃ a, t.adapter p.mapUid p.adapter = some a ∧ a.pinned = false ∧
      (a.fp8, a.rank, a.region, a.alpha, a.basePva) = (p.fp8, p.rank, p.region, p.alpha, p.basePva)) ∧
  (∀ (q : Req) (p : AdapterP) (s : State), s.passes (adapterUnregisterCmd p) q (adapterUnregisterChecks p) →
    Completes (.adapterUnregister q p) s fun t => t.adapter p.mapUid p.adapter = none) ∧
  (∀ (q : Req) (p : AdapterP) (s : State), s.passes (adapterPinCmd p) q (adapterPinChecks p) →
    Completes (.adapterPin q p) s fun t => (t.adapter p.mapUid p.adapter).map (·.pinned) = some true) ∧
  (∀ (q : Req) (p : AdapterP) (s : State), s.passes (adapterUnpinCmd p) q (adapterUnpinChecks p) →
    Completes (.adapterUnpin q p) s fun t => (t.adapter p.mapUid p.adapter).map (·.pinned) = some false)

/-- ADAPTER_PART_LOAD_DONE of a wanted part that has room and reads well loads its data into that part alone; an RDF
that the ingress, its binding, policing and energy admit becomes a queued work item on its endpoint's home core
with its engines; FORM_TILE_FORMED of a running formed read, before its last tile, sends the tile's bytes and
moves to the next. (10_forming.md: FORM programs, 10_forming.md: Formed reads, 10_forming.md: Adapters.) -/
def Obligations.FormedReadsComplete : Prop :=
  (∀ (mapUid adapter layer tensor : Nat) (s s1 : State) (p : CachePart) (ls : List Line), s.pkg.tripped = false →
    s.form.cache.find? (fun p => !p.loaded && p.mapUid == mapUid && p.adapter == adapter && p.layer == layer &&
      p.tensor == tensor) = some p →
    let s0 := s.trimCache p.bytes
    s0.loadedBytes (fun _ => true) + p.bytes ≤ s0.cacheBytes →
    s0.formRead p.owner p.payer 0 (lineRun p.bPva (p.bBytes / 64) ++ lineRun p.aPva (p.aBytes / 64)) = (s1, some (.ok ls)) →
    Completes (.adapterPartLoadDone mapUid adapter layer tensor) s fun t =>
      t.form.cache = s1.form.cache.map fun q => if q = p then { q with loaded := true, data := ls } else q) ∧
  (∀ (h : Hdr) (f : FormProg) (b : FormBind) (qu qq : Nat) (o y yl : Bool) (s s2 s4 : State),
    (s.gate h 0 { ok := h.len == 64 }).2 = .accept qu y o →
    let s1 := (s.gate h 0 { ok := h.len == 64 }).1.openReq h qu o
    s1.bindForm h.deckle f = .ok b → s1.police h.port h.deckle h.cls ((formShape f).1 * f.outPitch) = (s2, .accept qq y) →
    let outs := s2.part.eps.upd h.ep fun e =>
      { e with outst := e.outst.map fun (r : OutReq) => if r.tag = h.tag then { r with queue := qq } else r }
    let s3 := { s2 with part := { s2.part with eps := outs } }
    s3.admitEnergy h.deckle (formEstimate b f true) = (s4, .go yl) →
    Completes (.rdf h f) s fun t => ∃ w, t.eng.work.find s4.eng.nextWork = some w ∧ w.body = .rdf h.tag f b ∧
      w.state = .queued ∧ w.ep = h.ep ∧ w.cores = [homeCore h.ep] ∧ w.engines = formEngines f) ∧
  (∀ (work tag bytes : Nat) (s s1 : State) (x : Work) (f : FormProg) (b : FormBind), s.pkg.tripped = false →
    s.eng.work.find work = some x → x.body = .rdf tag f b → x.cause = none → x.state = .running →
    x.pos + 1 < formTiles f → s.formNext x.deckle x.cls b f x.pos = (s1, some (.ok bytes)) →
    Completes (.formTileFormed work) s fun t =>
      t = (s1.sendFormed x tag ((formTileSpan f x.pos).1 * f.outPitch) ((formTileSpan f x.pos).2 * f.outPitch) bytes).modWork work
        fun y => { y with pos := x.pos + 1, tiles := x.tiles + 1 })

/-! ## Retrieval -/

/-- INDEX_DEFINE that passes its checks makes the next index with the fields named; INDEX_REPLACE replaces it;
INDEX_RETIRE removes it and no other; a TOPK_QUERY that passes the ingress, its checks and energy admission
becomes a queued work item bound to its indexes; TOPK_COMPLETE of a running query whose rows are read and whose
result is written ends it with its result. (11_retrieval.md: Indexes, 11_retrieval.md: Queries, 11_retrieval.md:
Results and completion.) -/
def Obligations.RetrievalCommandsComplete : Prop :=
  (∀ (q : Req) (p : IndexP) (s : State), s.passes (indexDefineCmd p) q (indexDefineChecks p) →
    Completes (.indexDefine q p) s fun t => t.retr.indexes.find (s.retr.lastIndex + 1) = some (s.indexOf p) ∧
      t.retr.lastIndex = s.retr.lastIndex + 1) ∧
  (∀ (q : Req) (p : IndexP) (s : State), s.passes (indexReplaceCmd p) q (indexReplaceChecks p) →
    Completes (.indexReplace q p) s fun t => t.retr.indexes.find p.index = some (s.indexOf p)) ∧
  (∀ (q : Req) (p : IndexP) (s : State), NMap.wf s.retr.indexes → s.passes (indexRetireCmd p) q (indexRetireChecks p) →
    Completes (.indexRetire q p) s fun t => t.retr.indexes = s.retr.indexes.del p.index ∧ t.retr.indexes.find p.index = none) ∧
  (∀ (h : Hdr) (t : TopkB) (b : IndexB) (r : Option IndexB) (q : Nat) (y : Bool) (s s2 : State), s.workPasses h 128 q →
    let s1 := s.workIn h 128
    s1.deckleActive h.deckle = true → s1.topkFields h.deckle t = true → topkAligned t = true →
    s1.retr.indexes.find t.index = some b → (if t.rescore then s1.retr.indexes.find t.rindex else none) = r →
    (t.rescore = true → r.isSome = true) → s1.mayQuery h.deckle b = true → (∀ i ∈ r, s1.mayQuery h.deckle i = true) →
    (t.metric = 2 ↔ b.format = 3) → (∀ i ∈ r, i.format = 1 ∧ i.rows = b.rows ∧ i.idBase = b.idBase) →
    s1.admitEnergy h.deckle (topkEstimate t b r) = (s2, .go y) →
    Completes (.topkQuery h t) s fun u => ∃ w, u.eng.work.find s1.eng.nextWork = some w ∧ w.body = .topk t b r ∧
      w.state = .queued ∧ (w.deckle, w.cplEp, w.ctag) = (h.deckle, t.cplEp, t.ctag)) ∧
  (∀ (work n : Nat) (m : Option Nat) (s s1 s2 : State) (x : Work) (t : TopkB) (b : IndexB) (r : Option IndexB) (sc : Scan),
    s.pkg.tripped = false → s.eng.work.find work = some x → x.body = .topk t b r → x.cause = none → x.ready = none →
    x.state = .running → s.waiting (s.firstEngine work x) = false → s.runTopk x t b r = (s1, .ok sc, n) →
    ((s1.chargeScores x b (b.rows * t.q)).chargeScores x (r.getD b) (n * t.q)).putOut work x t.outPva t.outAddr (topkOut t b sc)
      = (s2, some m) →
    Completes (.topkComplete work) s fun u => u = s2.endTopk work { x with mseq := m.getD 0 } sc n)

/-! ## Couches -/

/-- A COUCH_SUBMIT that passes its checks joins its channel's queue last; COUCH_ABORT stops the deckle's chains
there and completes with ST_OK, or ST_LATE for none; COUCH_CHAIN_START takes a chain that may run next;
COUCH_DESC_START starts an inline descriptor that is good and admitted, or reads the next one from memory;
COUCH_TILE_DONE moves a translated tile; COUCH_TILE_TIMEOUT fails a tile unanswered for 1 ms and spends a retry;
COUCH_RETRY issues the due tile again; an RSP with ST_OK to a pushed tile lands it. (12_couch_engines.md:
Submitting and aborting, 12_couch_engines.md: Patterns and tiles, 12_couch_engines.md: Errors, retries and BAD.) -/
def Obligations.CouchCommandsComplete : Prop :=
  (∀ (h : Hdr) (b : CouchB) (q : Nat) (s : State), s.workPasses h (64 + if b.inl.isSome then 128 else 0) q →
    let s1 := s.workIn h (64 + if b.inl.isSome then 128 else 0)
    let c := s1.pickChannel h.ep b
    s1.couchBad h b ((!b.anyChannel || (b.core == 0 && b.channel == 0)) && (b.inl.isNone || b.chainPva == 0)) = none →
    (s1.chan c.1 c.2).queue.length < 256 → (s1.core c.1).ready = true →
    Completes (.couchSubmit h b) s fun t => (t.chan c.1 c.2).cur = (s1.chan c.1 c.2).cur ∧
      ∃ k, (t.chan c.1 c.2).queue = (s1.chan c.1 c.2).queue ++ [k] ∧ (k.deckle, k.ep, k.cplEp, k.ctag) = (h.deckle, h.ep, b.cplEp, b.ctag) ∧
        (k.queue, k.inl, k.next, k.run) = (q, b.inl, b.chainPva, none)) ∧
  (∀ (h : Hdr) (b : CouchB) (q : Nat) (s : State), s.workPasses h 64 q →
    (s.workIn h 64).couchBad h b (b.inl.isNone && !b.anyChannel && b.chainPva == 0) = none →
    let x := (s.workIn h 64).stopChains (fun k => k.deckle == h.deckle) (some (chanKey b.core b.channel)) .aborted
    Completes (.couchAbort h b) s fun t => t = x.1.sendCpl b.cplEp h.deckle h.cls q
      (couchCpl (if x.2 = 0 then .late else .ok) false false b.ctag 0 x.2 0 0 0 0 0 0 0 b.core b.channel)) ∧
  (∀ (core channel : Nat) (s : State), (s.chan core channel).cur = none → nextChains (s.chan core channel).queue ≠ [] →
    Completes (.couchChainStart core channel) s fun t => ∃ k ∈ nextChains (s.chan core channel).queue,
      t.chan core channel = { cur := some k, queue := (s.chan core channel).queue.erase k }) ∧
  (∀ (core channel : Nat) (s s1 s2 : State) (k : Chain) (d : Desc) (f : Option (FormProg × FormBind)) (y : Bool),
    (s.chan core channel).cur = some k → k.run = none → k.ended < 65535 → k.inl = some d →
    s.descCheck k.deckle d true = (s1, .ok f) → s1.admitEnergy k.deckle (descEstimate d f) = (s2, .go y) →
    (s2.chan core channel).cur = some k →
    Completes (.couchDescStart core channel) s fun t => ∃ k' r, t.runAt core channel = some (k', r) ∧ r.d = d ∧
      r.landed = 0 ∧ r.tiles = [] ∧ r.next = 0 ∧ k'.lastTag = d.tag) ∧
  (∀ (core channel b : Nat) (s s1 : State) (k : Chain), (s.chan core channel).cur = some k → k.run = none → k.ended < 65535 →
    k.inl = none → s.readBytes k.deckle k.next 128 = (s1, .ok, b) →
    Completes (.couchDescStart core channel) s fun t => t = s1.startDesc core channel k (descOf b) (some k.next)) ∧
  (∀ (core channel tile : Nat) (s : State) (k0 k : Chain) (r0 r : DescRun) (a b : List LineRef), s.pkg.tripped = false →
    s.runAt core channel = some (k0, r0) → r0.broken = none → (r0.d.mirRequired = true → s.inSync = true) →
    let s1 := (s.issueTo core channel tile 4).walkTile core channel tile
    s1.runAt core channel = some (k, r) → r.tiles.find tile = some (.translated a b) →
    Completes (.couchTileDone core channel tile) s fun t => t = s1.moveCouch core channel tile k r a b) ∧
  (∀ (core channel tile tag sent : Nat) (s : State) (k : Chain) (r : DescRun), s.pkg.tripped = false →
    s.runAt core channel = some (k, r) → r.tiles.find tile = some (.pushed tag sent) → 0 < r.retriesLeft →
    Completes (.couchTileTimeout core channel tile) s fun t => sent + 1000000 ≤ t.now ∧
      ∃ k' r' st, t.runAt core channel = some (k', r') ∧ r'.retriesLeft + 1 = r.retriesLeft ∧
        r'.tiles.find tile = some (.failed st (t.now + 10000 * 2 ^ r.retriesUsed))) ∧
  (∀ (core channel t at_ : Nat) (s : State) (k : Chain) (r : DescRun), s.runAt core channel = some (k, r) →
    r.dueRetry = some (t, at_) →
    Completes (.couchRetry core channel) s fun u => u = ((s.reach at_).setTile core channel t (some .waiting)).walkTile core channel t) ∧
  (∀ (h : Hdr) (data : List Line) (key tile tag sent : Nat) (s : State),
    let s0 := s.freeBuf h.port h.vc (Hdr.credits h)
    s0.carries h.port = true → s0.bound h.port h.ep = true → h.vc = 1 →
    s0.tileOfTag h.ep h.tag = some (key, tile, .pushed tag sent) →
    Completes (.rsp h .ok true data) s fun t => t = s0.landCouch (key / 8) (key % 8) tile none [])

/-! ## The link layer -/

/-- FLIT_TRANSMIT on an active port with no restart pending sends: a bypass flit where one is wanted and neither
replay nor data goes; the next stored flit of a replay in progress; else the chosen packet's next flit under the
next sequence number, which it stores; else idle. DATA_FLIT_RECEIVE of a good flit in sequence moves the
sequence on, counts its credits and owes an acknowledgement when asked or at 32; a bad idle flit owes a NAK and
a good one changes nothing; BYPASS_FLIT_RECEIVE of a good sequenced flit moves the bypass sequence on, and of an
unsequenced one acts on its acknowledgement. (13_link.md: Slots and flits, 13_link.md: Sequence, acknowledgement
and replay.) -/
def Obligations.LinkFlitsComplete : Prop :=
  (∀ (p : Nat) (s : State), (s.port p).train = .active → (s.port p).rstart = none → (s.port p).replayLeft = [] →
    (if (s.port p).mayNew then s.choose p else none) = none → (s.port p).wantsBypass = true →
    Completes (.flitTransmit p) s fun t => t = s.sendBypass p) ∧
  (∀ (p : Nat) (s : State), (s.port p).train = .active → (s.port p).rstart = none → (s.port p).replayLeft ≠ [] →
    (s.port p).sinceBypass < 16 →
    Completes (.flitTransmit p) s fun t => t = s.sendReplay p) ∧
  (∀ (p i : Nat) (e : Egress) (s : State), (s.port p).train = .active → (s.port p).rstart = none →
    (s.port p).replayLeft = [] → (s.port p).sinceBypass < 16 → (s.port p).mayNew = true → s.choose p = some (i, e) →
    Completes (.flitTransmit p) s fun t => (t.port p).txSeq = ((s.port p).txSeq + 1) % 65536 ∧
      ∃ f, (t.port p).sent = .data f false ∧ f.seq = (s.port p).txSeq ∧ f.vc = e.vc ∧ f.fill = e.fill ∧
        (t.port p).replay = (s.port p).replay ++ [f]) ∧
  (∀ (p : Nat) (s : State), (s.port p).train = .active → (s.port p).rstart = none → (s.port p).replayLeft = [] →
    (if (s.port p).mayNew then s.choose p else none) = none → (s.port p).wantsBypass = false →
    Completes (.flitTransmit p) s fun t => t.port p = { s.port p with sent := .idle, sinceBypass := (s.port p).sinceBypass + 1 }) ∧
  (∀ (p : Nat) (f : DataFlit) (s : State), (s.port p).hears = true → f.good = true → (s.port p).keyFor f = true →
    f.seq = (s.port p).rxSeq →
    Completes (.dataFlitReceive p f) s fun t => (t.port p).rxSeq = ((s.port p).rxSeq + 1) % 65536 ∧
      (t.port p).nakSent = none ∧ (t.port p).rxUsed = modAt (s.port p).rxUsed f.vc (· + f.credits) ∧
      ((t.port p).ackDue = true ↔ ((s.port p).ackDue = true ∨ f.ackReq = true ∨ 32 ≤ (s.port p).unacked + 1))) ∧
  (∀ (p : Nat) (s : State), (s.port p).hears = true → (s.port p).nakSent = none →
    Completes (.idleFlitReceive p false) s fun t => t.port p = { s.port p with nakDue := true }) ∧
  (∀ (p : Nat) (s : State), Completes (.idleFlitReceive p true) s fun t => t = s) ∧
  (∀ (p : Nat) (b : BypassHdr) (s : State), (s.port p).train = .active → b.seqd = true → b.bseq = (s.port p).rxB →
    b.rstart = none → b.back = none → b.mack = none →
    Completes (.bypassFlitReceive p b true) s fun t => t.port p =
      { s.port p with rxB := ((s.port p).rxB + 1) % 256, backDue := true, bnakSent := none, bnakDue := false }) ∧
  (∀ (p n : Nat) (nak : Bool) (b : BypassHdr) (s : State), (s.port p).train = .active → b.seqd = false →
    b.rstart = none → b.back = none → b.mack = some (nak, n) →
    Completes (.bypassFlitReceive p b true) s fun t => t = s.mack p nak n)

/-- CREDIT on an active port adds each count, up to 65,535; CREDIT_INIT in the START of a full training without
encryption makes the port active with each initial credit up to 65,535; CREDIT_RETURN_TIMER on a port that is up
in open mode with credits owed sends them and owes none. (13_link.md: Virtual channels and credits.) -/
def Obligations.LinkCreditsComplete : Prop :=
  (∀ (p : Nat) (counts : List Nat) (s : State), (s.port p).train = .active →
    Completes (.credit p counts) s fun t => ∀ v < 6,
      at0 (t.port p).txCred v = min 65535 (at0 (s.port p).txCred v + at0 counts v)) ∧
  (∀ (p : Nat) (counts : List Nat) (s : State), (s.port p).train = .start → (s.port p).full = true →
    ((s.port p).partner.map (·.encCapable)).getD false = false → s.encRequired = false →
    Completes (.creditInit p counts) s fun t => (t.port p).train = .active ∧
      ∀ v < 6, at0 (t.port p).txCred v = min 65535 (at0 counts v)) ∧
  (∀ (p : Nat) (s : State), (s.port p).up = true → s.part.bulk = false → (s.port p).owed.any (· != 0) = true →
    Completes (.creditReturnTimer p) s fun t => (t.port p).owed = [0, 0, 0, 0, 0, 0] ∧
      (t.port p).bq = (s.port p).bq ++ [.credit (s.port p).owed])

/-- DETECT_POLL, EQUALISE_DONE, ALIGN_DONE, PARAM_A and PARAM_B move a port from DETECT through EQUALISE, ALIGN and
PARAM to START with the lanes, width and values negotiated, or down where no lane aligns; RETRAIN,
ALIGN_PATTERN_SEEN, LANE_SIGNAL_LOSS of some active lanes and LANE_ERROR_RATE of an active lane begin a fast
retrain with its cause; RESUME ends one; TRAINING_FAIL and ALL_LANES_SIGNAL_LOSS take the port down;
LINK_DOWN_WAIT_EXPIRE returns it to DETECT no earlier than 10 ms later. (13_link.md: Training and retraining.) -/
def Obligations.LinkTrainingComplete : Prop :=
  (∀ (p : Nat) (s : State), (s.port p).train = .detect →
    Completes (.detectPoll p true) s fun t => t.port p = { s.port p with train := .equalise, full := true }) ∧
  (∀ (p : Nat) (s : State), (s.port p).train = .equalise →
    Completes (.equaliseDone p) s fun t => t.port p = { s.port p with train := .align }) ∧
  (∀ (p passed : Nat) (s : State), (s.port p).train = .align →
    Completes (.alignDone p passed) s fun t =>
      let lanes := (if (s.port p).full then passed else passed &&& (s.port p).lanes) % 256
      if lanes = 0 then (t.port p).train = .down else (t.port p).train = .param ∧ (t.port p).lanes = lanes) ∧
  (∀ (p : Nat) (a : ParamA) (s : State), (s.port p).train = .param → (s.port p).gotB = false →
    Completes (.paramA p a) s fun t => t.port p = { s.port p with partner := some a, gotA := true }) ∧
  (∀ (p ack replay down rsvd w g : Nat) (a : ParamA) (s : State), (s.port p).train = .param → (s.port p).gotA = true →
    (s.port p).partner = some a → a.linkId ≠ s.linkId p →
    resolveWidth (min (min 8 a.maxWidth) (if (s.port p).reqWidth = 0 then 8 else (s.port p).reqWidth))
      ((s.port p).lanes &&& a.lanes) = some (w, g) →
    Completes (.paramB p ack replay down rsvd) s fun t => (t.port p).train = .start ∧ (t.port p).width = w ∧
      (t.port p).active = g ∧ ((t.port p).ackTimer, (t.port p).replayLimit, (t.port p).downWindow) =
        (max 80 ack, min 4 replay, max 10 down)) ∧
  (∀ (p linkId width cause rsvd : Nat) (s : State), (s.port p).train = .active →
    Completes (.retrain p linkId width cause rsvd) s fun t => (t.port p).train = .align ∧ (t.port p).full = false ∧
      (t.port p).reqWidth = width ∧ (t.port p).replay = (s.port p).replay) ∧
  (∀ (p : Nat) (s : State), (s.port p).train = .active →
    Completes (.alignPatternSeen p) s fun t => (t.port p).train = .align ∧ (t.port p).cause = 2) ∧
  (∀ (p m b rsvd : Nat) (s : State), (s.port p).train = .start → (s.port p).full = false →
    Completes (.resume p m b rsvd) s fun t => (t.port p).train = .active) ∧
  (∀ (p : Nat) (s : State), (s.port p).train = .equalise ∨ (s.port p).train = .align ∨ (s.port p).train = .param ∨
    (s.port p).train = .start →
    Completes (.trainingFail p) s fun t => (t.port p).train = .down ∧ (t.port p).txq = []) ∧
  (∀ (p lanes : Nat) (s : State), (s.port p).train = .active → lanes &&& (s.port p).active ≠ 0 →
    lanes &&& (s.port p).active ≠ (s.port p).active →
    Completes (.laneSignalLoss p lanes) s fun t => (t.port p).train = .align ∧ (t.port p).cause = 1) ∧
  (∀ (p lane : Nat) (s : State), (s.port p).train = .active → (s.port p).active.testBit lane = true →
    Completes (.laneErrorRate p lane) s fun t => (t.port p).train = .align ∧ (t.port p).cause = 1) ∧
  (∀ (p : Nat) (s : State), (s.port p).train = .active →
    Completes (.allLanesSignalLoss p) s fun t => (t.port p).train = .down) ∧
  (∀ (p : Nat) (s : State), (s.port p).train = .down →
    Completes (.linkDownWaitExpire p) s fun t => (t.port p).train = .detect ∧ (s.port p).downAt + 10000000 ≤ t.now)

/-- KEYX on a port that keys takes the message; KEYX_TIMEOUT in open mode takes the port down no earlier than 10 ms
after the exchange began; ACK_TIMER_EXPIRE owes an acknowledgement no earlier than the acknowledgement time;
NAK_TIMER_EXPIRE forgets a sent NAK no earlier than 1 µs; REPLAY_TIMER_EXPIRE replays from the oldest stored
flit after the replay time; PEER_CLAIM_TIMEOUT ends a wait no earlier than 1 ms; DEVICE_ENDPOINT_LEASE_TICK
sends one LEASE for each remote deckle. (13_link.md: Sequence, acknowledgement and replay, 13_link.md: Link
encryption, 14_transactions.md: Endpoints.) -/
def Obligations.LinkTimersComplete : Prop :=
  (∀ (p : Nat) (m : KeyxMsg) (s : State), (s.port p).train = .active ∨ (s.port p).train = .keying → s.canKey = true →
    Completes (.keyx p m) s fun t => t = s.takeKeyx p m) ∧
  (∀ (p since : Nat) (s : State), (s.port p).keyx = some since → s.part.bulk = false →
    Completes (.keyxTimeout p) s fun t => (t.port p).train = .down ∧ since + 10000000 ≤ t.now) ∧
  (∀ (p : Nat) (s : State), (s.port p).unacked ≠ 0 →
    Completes (.ackTimerExpire p) s fun t => (t.port p).ackDue = true ∧ (s.port p).unackedAt + (s.port p).ackTimer ≤ t.now) ∧
  (∀ (p at_ : Nat) (bypass : Bool) (s : State), (if bypass then (s.port p).bnakSent else (s.port p).nakSent) = some at_ →
    Completes (.nakTimerExpire p bypass) s fun t => (if bypass then (t.port p).bnakSent else (t.port p).nakSent) = none ∧
      at_ + 1000 ≤ t.now) ∧
  (∀ (p : Nat) (f : Flit) (fs : List Flit) (s : State), (s.port p).train = .active → (s.port p).replay = f :: fs →
    Completes (.replayTimerExpire p false) s fun t =>
      t = (s.reach ((s.port p).progressAt + (2000 + 2 * (s.port p).ackTimer))).replayFrom p f.seq) ∧
  (∀ (p at_ : Nat) (s : State), (s.port p).peerWait = some at_ →
    Completes (.peerClaimTimeout p) s fun t => (t.port p).peerWait = none ∧ at_ + 1000000 ≤ t.now) ∧
  (∀ (p e : Nat) (s : State), (s.port p).ownEp = some e → (s.port p).train = .active →
    Completes (.deviceEndpointLeaseTick p) s fun t =>
      (t.port p).bq = (s.port p).bq ++ (s.port p).remoteDeckles.map (Slot.lease e))

/-- Where no stored flit has used up its replays, a replay from n announces n as its restart, queues exactly the
stored flits that are not before n, in their stored order, and keeps all of them stored. (13_link.md: Sequence,
acknowledgement and replay.) -/
def Obligations.ReplayStartsAtTheNak : Prop :=
  ∀ (p n : Nat) (s : State),
    (∀ f ∈ (s.port p).replay, f.replays + 1 ≤ (s.port p).replayLimit ∧ f.since + 1 ≤ (s.port p).replayLimit) →
    ((s.replayFrom p n).port p).rstart = some n ∧
    ((s.replayFrom p n).port p).replayLeft = (((s.port p).replay.filter fun f => !seqBefore 65536 f.seq n).map (·.seq)) ∧
    ((s.replayFrom p n).port p).replay = (s.port p).replay

/-! ## Queues, energy and power -/

/-- QUEUE_MAP that passes its checks maps the classes named to the queue and leaves the others, or sets a queue's
weight; SHAPER_SET and POLICER_SET set the buckets they name; ENERGY_SET sets the deckle's bucket with full or
empty fill; ENERGY_QUEUE_RELEASE takes the estimate of the first waiting item that is not red and admits it;
ENERGY_READ answers ST_OK with 160 bytes. (15_calender.md: QUEUE_MAP, 15_calender.md: Token buckets,
15_calender.md: Energy buckets, 15_calender.md: The energy ledger.) -/
def Obligations.QosCommandsComplete : Prop :=
  (∀ (q : Req) (p : QueueMapP) (s : State), s.passes (queueMapMapCmd p) q (queueMapMapChecks p) →
    Completes (.queueMapMap q p) s fun t => t.answers q 0x0601 okAns ∧ ∀ k, s.part.deckles.find p.deckle = some k →
      (t.part.deckles.find p.deckle).map (·.classMap) =
        some ((List.range 8).map fun i => if p.classMask.testBit i then p.queue else k.classMap.getD i (4 + i))) ∧
  (∀ (q : Req) (p : QueueMapP) (s : State), NMap.wf s.cal.weights → s.passes (queueMapWeightCmd p) q (queueMapWeightChecks p) →
    Completes (.queueMapWeight q p) s fun t => (t.cal.weights.find p.queue).getD 64 = p.weight) ∧
  (∀ (q : Req) (p : BucketP) (s : State), s.passes (shaperSetCmd p) q (shaperSetChecks p) →
    Completes (.shaperSet q p) s fun t => t.answers q 0x0602 okAns ∧
      if p.targetDeckle then (t.part.deckles.find p.deckle).map (·.shaper) = (s.part.deckles.find p.deckle).map
        fun _ => bucketOf p (s.acting (shaperSetCmd p) q).now
      else ∀ k ∈ bucketKeys p, t.cal.shapers.find k = some (bucketOf p (s.acting (shaperSetCmd p) q).now)) ∧
  (∀ (q : Req) (p : BucketP) (s : State), s.passes (policerSetCmd p) q (policerSetChecks p) → p.targetDeckle = false →
    Completes (.policerSet q p) s fun t => t.answers q 0x0603 okAns ∧
      ∀ k ∈ bucketKeys p, t.cal.policers.find k = some (bucketOf p (s.acting (policerSetCmd p) q).now)) ∧
  (∀ (q : Req) (p : EnergyP) (s : State), s.passes (energySetCmd p) q (energySetChecks p) → p.enable = true →
    Completes (.energySet q p) s fun t => t.answers q 0x0604 okAns ∧ ∀ b, (t.part.deckles.find p.deckle).map (·.energy) = some b →
      (b.enable, b.cer, b.per, b.ceb, b.peb, b.queueLimit) = (true, p.cerMw, p.perMw, p.cebUj, p.pebUj, p.queueLimit) ∧
      (p.resetFill = true → b.ctok = p.cebUj * 1000000 ∧ b.ptok = p.pebUj * 1000000) ∧
      (p.resetFill = false → b.ctok = 0 ∧ b.ptok = 0)) ∧
  (∀ (deckle w : Nat) (ws : List Nat) (x : Work) (s : State), s.energyWaiting deckle = w :: ws → s.eng.work.find w = some x →
    let b := (s.energy deckle).accrue s.now
    b.colour x.est ≠ .red →
    Completes (.energyQueueRelease deckle) s fun t =>
      t = (s.modDeckle deckle fun k => { k with energy := b.take (b.colour x.est) x.est }).admitWaiting w (b.colour x.est == .yellow)) ∧
  (∀ (q : Req) (p : EnergyReadP) (s : State), s.passes (energyReadCmd p) q (energyReadChecks p) →
    Completes (.energyRead q p) s fun t => ∃ a, t.answers q 0x0605 a ∧ a.status = .ok ∧ a.rlen = 160)

/-- With firmware running, LEDGER_TICK spends the activity counted and moves the ledger 100 µs or more on, leaving
memory, engines and links; LEDGER_REFINE sets the coefficients; POWER_CAP that passes its checks sets the next
cap; POWER_LOOP_TICK takes the cap and the power read; THERMAL_LOOP_TICK takes the sensors; comparators above
1,650 W and at 105 °C begin an emergency; WEDGE_POWER_FLOOR holds a stopped hub's clocks at their floor; a droop
is counted. An emergency that begins is in force and leaves memory, the partition and the regions.
(15_calender.md: The energy ledger, 15_calender.md: The power loop, 15_calender.md: Emergencies, 15_calender.md:
The thermal loop.) -/
def Obligations.PowerCommandsComplete : Prop :=
  (∀ (m n : Nat) (s : State), s.fwRuns = true →
    Completes (.ledgerTick m n) s fun t => t.cal.activity = [] ∧ s.cal.ledgerAt + 100000 ≤ t.now ∧ t.cal.ledgerAt = t.now ∧
      t.mem = s.mem ∧ t.eng = s.eng ∧ t.link = s.link) ∧
  (∀ (coef : List Nat) (s : State), s.fwRuns = true →
    Completes (.ledgerRefine coef) s fun t => ∀ k < 8, at0 t.cal.coef k = at0 coef k) ∧
  (∀ (q : Req) (p : PowerCapP) (s : State), s.passes (powerCapCmd p) q (powerCapChecks p) →
    Completes (.powerCap q p) s fun t => t.cal.capNext = some p.capW ∧ ∃ a, t.answers q 0x0606 a ∧ a.status = .ok ∧ a.rlen = 16) ∧
  (∀ (w : Nat) (s : State), s.inReset = false → 1650 < w →
    Completes (.powerComparator w) s fun t => t = s.beginEmergency 1) ∧
  (∀ (i v : Nat) (s : State), s.inReset = false → i < 96 → 840 ≤ v →
    Completes (.thermalComparator i v) s fun t =>
      t = (State.beginEmergency { s with pkg := { s.pkg with sensors := setAt s.pkg.sensors i v } } 2).noteCool) ∧
  (∀ (w : Nat) (s : State), s.hubStopped = true → s.cal.capW < w →
    Completes (.wedgePowerFloor w) s fun t => t.cal.wedgeFloor = true ∧ t.mem = s.mem ∧ t.part = s.part) ∧
  (∀ (p st d : Nat) (s : State), s.fwRuns = true →
    Completes (.powerLoopTick p st d) s fun t => t.cal.capW = s.capSet ∧ t.cal.capNext = none ∧ t.cal.powerW = p ∧
      (s.capSet < p → t.cal.above = min 3 (s.cal.above + 1))) ∧
  (∀ (l : List Nat) (s : State), s.fwRuns = true →
    Completes (.thermalLoopTick l) s fun t => ∀ i < 96, at0 t.pkg.sensors i = at0 l i % 65536) ∧
  (∀ (island : Nat) (s : State), Completes (.clockDroopStretch island) s fun t =>
    t = { s with pkg := { s.pkg with stretches := s.pkg.stretches + 1 } }) ∧
  (∀ (c : Nat) (s : State), s.cal.emergency = none → (s.beginEmergency c).cal.emergency.isSome = true ∧
    (s.beginEmergency c).mem = s.mem ∧ (s.beginEmergency c).part = s.part ∧ (s.beginEmergency c).rgn = s.rgn)

/-! ## Domain time and laid tables -/

/-- TIME_TICK of a master sends SYNC and a delay request on an active port; PDELAY_REQ is answered with the time;
PDELAY_RESP keeps the trip among the last sixteen and, where it is not out of line, measures the delay; a
TIME_SYNC at a master marks a conflict, and at a follower from its best upstream port locks it one hop further;
HOLDOVER_ENTRY with no upstream left holds over no earlier than 3 ms; TIME_PPS_IN counts a second on;
PPS_OUT_SECOND pulses; TIME_STATUS answers 32 bytes; TIME_MASTER_SET that passes its checks sets the role.
(16_laid_schedule.md: Domain time.) -/
def Obligations.TimeCommandsComplete : Prop :=
  (∀ (p : Nat) (s : State), (s.port p).train = .active → s.link.ports.has p = true → NMap.wf s.link.ports → s.isMaster = true →
    Completes .timeTick s fun t => (t.port p).bq = (s.port p).bq ++ [.sync s.laid.hops 0 0, .pdelayReq]) ∧
  (∀ (p : Nat) (s : State), s.portActive p = true →
    Completes (.pdelayReq p) s fun t => (t.port p).bq = (s.port p).bq ++ [.pdelayResp s.now]) ∧
  (∀ (p ta rt : Nat) (s : State), s.portActive p = true →
    Completes (.pdelayResp p ta rt) s fun t => (t.port p).trips = (rt :: (s.port p).trips).take 16 ∧
      ((∀ x ∈ (s.port p).trips, rt ≤ x + 10) → (t.port p).delay = some ((rt - ta) * 32768))) ∧
  (∀ (p hops ns frac late : Nat) (s : State), s.portActive p = true → s.laid.counting = true → s.isMaster = true →
    Completes (.timeSync p hops ns frac late) s fun t => t = { s with laid := { s.laid with conflictAt := some s.now } }) ∧
  (∀ (p hops ns frac late d : Nat) (s : State), s.portActive p = true → s.laid.counting = true → s.isMaster = false →
    hops < 15 → late ≤ 20 → (s.modPort p fun x => { x with hops := some hops }).bestUpstream = some p →
    (s.port p).delay = some d →
    Completes (.timeSync p hops ns frac late) s fun t => t.laid.state = .locked ∧ t.laid.upstream = p ∧ t.laid.hops = hops + 1) ∧
  (∀ (s : State), s.isMaster = false → s.laid.state = .locked →
    ((s.reach (s.laid.syncAt + 3000000)).modPort s.laid.upstream fun x => { x with hops := none }).bestUpstream = none →
    Completes .holdoverEntry s fun t => t.laid.state = .holdover ∧ s.laid.syncAt + 3000000 ≤ t.now) ∧
  (∀ (n : Nat) (s : State), s.laid.role = .pps → s.laid.ppsNs = some n →
    Completes .timePpsIn s fun t => t.laid.ppsNs = some (n + 1000000000)) ∧
  (∀ (s : State), s.laid.counting = true →
    Completes .ppsOutSecond s fun t => t.pkg.ppsOut = s.pkg.ppsOut + 1) ∧
  (∀ (q : Req) (s : State), s.passes timeStatusCmd q timeStatusChecks →
    Completes (.timeStatus q) s fun t => ∃ a, t.answers q 0x0701 a ∧ a.status = .ok ∧ a.rlen = 32 ∧ t.laid = s.laid) ∧
  (∀ (q : Req) (p : TimeMasterP) (s : State), s.passes (timeMasterSetCmd p) q (timeMasterSetChecks p) →
    Completes (.timeMasterSet q p) s fun t => t.answers q 0x0702 okAns ∧
      t.laid.role = (if p.role = 0 then .follower else if p.role = 1 then .internal else .pps) ∧
      (p.role ≠ 0 → t.laid.state = .locked ∧ t.laid.hops = 0))

/-- LAID_LOAD of a good image answers and stores the table; LAID_ACTIVATE that passes its checks makes its slot
pending from its start; STOP and CANCEL set the stop and clear the pending slot; LAID_STATUS answers 64 bytes;
LAID_TABLE_START makes the pending slot active; LAID_CYCLE_BOUNDARY ends the cycle; LAID_LEAD that is on time
marks the lead; LAID_SLOT sends the first tile; LAID_TILE_BOUNDARY sends the next tile, or ends the transfer
after the last; an inbound laid WR that is admitted becomes a write of its data on exactly its translated lines.
(16_laid_schedule.md: Laid tables, 16_laid_schedule.md: Loading and activating, 16_laid_schedule.md: Slips,
16_laid_schedule.md: Status.) -/
def Obligations.LaidCommandsComplete : Prop :=
  (∀ (q : Req) (p : LaidLoadP) (s s' : State) (a : Ans), s.passes (laidLoadCmd p) q (laidLoadChecks p) →
    (s.acting (laidLoadCmd p) q).loadLaid p = (s', some a) → a.status = .ok →
    Completes (.laidLoad q p) s fun t => t.answers q 0x0703 a ∧ t.laid.tables = s'.laid.tables) ∧
  (∀ (q : Req) (p : LaidActP) (s : State) (x : LaidTable), s.passes (laidActivateCmd p) q (laidActivateChecks p) →
    s.laid.tables.find p.slot = some x →
    Completes (.laidActivate q p) s fun t => t.answers q 0x0704 okAns ∧ t.laid.pendSlot = some p.slot ∧
      t.laid.active = s.laid.active ∧ (t.laid.tables.find p.slot).map (·.start) = some p.startNs) ∧
  (∀ (q : Req) (p : LaidActP) (s : State), s.passes (laidStopCmd p) q laidStopChecks →
    Completes (.laidStop q p) s fun t => t.answers q 0x0704 okAns ∧ t.laid.stopAt = some p.startNs ∧ t.laid.tables = s.laid.tables) ∧
  (∀ (q : Req) (p : LaidActP) (s : State), s.passes (laidCancelCmd p) q laidCancelChecks →
    Completes (.laidCancel q p) s fun t => t.answers q 0x0704 okAns ∧ t.laid.pendSlot = none ∧ t.laid.active = s.laid.active) ∧
  (∀ (q : Req) (p : LaidStatusP) (s : State), s.passes (laidStatusCmd p) q (laidStatusChecks p) →
    Completes (.laidStatus q p) s fun t => ∃ a, t.answers q 0x0705 a ∧ a.status = .ok ∧ a.rlen = 64 ∧ t.laid = s.laid) ∧
  (∀ (s : State) (i : Nat) (x : LaidTable), s.laid.pendSlot = some i → s.laid.tables.find i = some x →
    Completes .laidTableStart s fun t => t.laid.active = some i ∧ t.laid.pendSlot = none) ∧
  (∀ (s : State) (i : Nat) (x : LaidTable), s.activeTable = some (i, x) → x.slotsDone = true →
    Completes .laidCycleBoundary s fun t => t = (s.reachDom (x.cycleStart (x.cycles + 1))).cycleEnd) ∧
  (∀ (entry slot : Nat) (s : State) (x : LaidTable) (e : LaidEntry), s.pushEntry entry = some (slot, x, e) →
    (x.runOf entry).done = false → (x.runOf entry).lead = false → s.pkg.tripped = false →
    let s1 := (s.reachDom (x.slotNs e - x.leadNs)).modEntry slot entry fun r => { r with lead := true }
    s1.lateness x e (nsTime (x.slotNs e)) e.length = 0 →
    Completes (.laidLead entry) s fun t => t = s1) ∧
  (∀ (entry slot n bytes : Nat) (s s2 : State) (x : LaidTable) (e : LaidEntry), s.pushEntry entry = some (slot, x, e) →
    (x.runOf entry).done = false → s.pkg.tripped = false → (s.reachDom (x.slotNs e)).skipReason e (x.runOf entry) = none →
    (s.reachDom (x.slotNs e)).laidTile x entry e 0 = (s2, some (.ok (n, bytes))) →
    Completes (.laidSlot entry) s fun t => t = (s2.sendLaid e 0 n bytes).modEntry slot entry fun r =>
      { r with done := true, lead := true, left := some (e.length - n) }) ∧
  (∀ (entry slot left : Nat) (s : State) (x : LaidTable) (e : LaidEntry), s.pushEntry entry = some (slot, x, e) →
    (x.runOf entry).left = some left → 0 < left → (s.port e.port).train = .active →
    (s.port e.port).txq.any (fun y => y.queue == 62) = false → s.pkg.tripped = false → s.deckleActive e.deckle = true →
    s.lateness x e s.laid.time left = 0 →
    Completes (.laidTileBoundary entry) s fun t => t = s.nextTile slot entry x e left) ∧
  (∀ (entry slot : Nat) (s : State) (x : LaidTable) (e : LaidEntry), s.pushEntry entry = some (slot, x, e) →
    (x.runOf entry).left = some 0 → (s.port e.port).train = .active →
    (s.port e.port).txq.any (fun y => y.queue == 62) = false → s.pkg.tripped = false →
    Completes (.laidTileBoundary entry) s fun t => t = s.finishTransfer slot entry x e) ∧
  (∀ (h : Hdr) (m : MemExt) (data : List Line) (refs : List LineRef) (s : State), s.carries h.port = true → h.vc = 2 →
    let s0 := s.freeBuf h.port 2 (Hdr.credits h)
    s0.laidAdmits h (wrForm h m data) = true → s0.translate h.deckle .wr (lineRun m.addr m.lines) = .ok refs →
    s0.lodeCheck h.ep refs = none → s0.lodesOf refs = [] → refs.length = data.length →
    Completes (.laidInboundWr h m data) s fun t => ∃ x, t.mem.jobs.find s0.mem.nextJob = some x ∧ x.kind = .laidIn ∧
      x.lines.map (·.data) = data ∧ x.lines.map (fun l => (l.tier, l.line)) = refs.map fun r => (r.tier, r.line))

/-! ## Integrity -/

/-- SCRUB that passes its checks starts a run that SCRUB_DONE ends; INJECT and its cancel set and clear a unit's
injection; CE_CONFIG replaces each field that is not 0, or fails a unit out; CE_BUCKET_LEAK lowers a bucket by
one; STACK_TRAINING_LOST fails a unit out; REBUILD_STATUS answers 80 bytes; REBUILD_DONE ends a rebuild with the
spare used; SEAL_DONE seals a group without changing a line; POISON_LIST answers 32 bytes for each poisoned line
it names; INTEGRITY_LOG_DRAIN empties the log without changing a line. (17_integrity.md: Scrubbing,
17_integrity.md: Injection, 17_integrity.md: Correctable errors, 17_integrity.md: Failed stacks and channels,
17_integrity.md: Poison, 17_integrity.md: Initialisation.) -/
def Obligations.IntegrityCommandsComplete : Prop :=
  (∀ (q : Req) (p : ScrubP) (s : State), s.passes (scrubCmd p) q (scrubChecks p) →
    Completes (.scrub q p) s fun t =>
      t.mem.scrubs.find (s.acting (scrubCmd p) q).mem.nextScrub = some ⟨s.replyOf (scrubCmd p) q, p⟩) ∧
  (∀ (n : Nat) (s : State) (w : ScrubRun), NMap.wf s.mem.scrubs → s.mem.scrubs.find n = some w → s.deferStopped = false →
    Completes (.scrubDone n) s fun t => t.mem.scrubs.find n = none ∧ t.rgn = s.rgn ∧ t.lode = s.lode) ∧
  (∀ (q : Req) (p : InjectP) (s : State), s.passes (injectCmd p) q (injectChecks p) →
    Completes (.inject q p) s fun t => t.answers q 0x0802 okAns ∧ t.mem.inject.find (unitKey p.group p.unit) =
      some { kind := p.kind, row := if p.isMatch then some p.row else none, mask := p.mask }) ∧
  (∀ (q : Req) (p : InjectP) (s : State), s.passes (injectCancelCmd p) q (injectCancelChecks p) →
    NMap.wf (s.acting (injectCancelCmd p) q).mem.inject →
    Completes (.injectCancel q p) s fun t => t.answers q 0x0802 okAns ∧ t.mem.inject.find (unitKey p.group p.unit) = none) ∧
  (∀ (q : Req) (p : CeP) (s : State), s.passes (ceConfigSetCmd p) q (ceConfigSetChecks p) →
    Completes (.ceConfigSet q p) s fun t => t.answers q 0x0803 okAns ∧
      t.mem.bucketSize = (if p.bucketSize = 0 then s.mem.bucketSize else p.bucketSize) ∧
      t.mem.leakMs = (if p.leakMs = 0 then s.mem.leakMs else p.leakMs) ∧
      t.mem.failUe = (if p.failUe = 0 then s.mem.failUe else p.failUe) ∧
      t.mem.rebuildShare = (if p.rebuildShare = 0 then s.mem.rebuildShare else p.rebuildShare) ∧
      t.mem.sealShare = (if p.sealShare = 0 then s.mem.sealShare else p.sealShare)) ∧
  (∀ (q : Req) (p : CeP) (s : State), s.passes (ceConfigFailOutCmd p) q (ceConfigFailOutChecks p) →
    Completes (.ceConfigFailOut q p) s fun t => t.answers q 0x0803 okAns ∧
      t.mem.groups = ((s.acting (ceConfigFailOutCmd p) q).failOut p.group p.unit 2).mem.groups) ∧
  (∀ (g u : Nat) (s : State) (x : CeUnit), s.mem.ce.find (unitKey g u) = some x →
    Completes (.ceBucketLeak g u) s fun t =>
      t.mem.ce.find (unitKey g u) = some (x.lower (x.level - 1) s.mem.bucketSize) ∧ t.mem.cells = s.mem.cells) ∧
  (∀ (g u : Nat) (s : State), g < 5 → (s.group g).ready = true → u ≤ spareUnit g →
    Completes (.stackTrainingLost g u) s fun t => t = s.failOut g u 0) ∧
  (∀ (q : Req) (s : State), s.passes rebuildStatusCmd q rebuildStatusChecks →
    Completes (.rebuildStatus q) s fun t => ∃ a, t.answers q 0x0804 a ∧ a.status = .ok ∧ a.rlen = 80) ∧
  (∀ (g : Nat) (s : State), (s.group g).rebuilding = true → s.hubStopped = false → s.hub.phase ≠ .activating →
    Completes (.rebuildDone g) s fun t => (t.group g).rebuilding = false ∧ (t.group g).spareFree = false ∧
      t.rgn = s.rgn ∧ t.part = s.part) ∧
  (∀ (g : Nat) (s : State), (s.group g).ready = true → (s.group g).sealed = false → s.hubStopped = false →
    Completes (.sealDone g) s fun t => (t.group g).sealed = true ∧ t.mem.cells = s.mem.cells) ∧
  (∀ (q : Req) (p : PoisonP) (s : State), s.passes (poisonListCmd p) q (poisonListChecks p) →
    Completes (.poisonList q p) s fun t => ∃ a, t.answers q 0x0805 a ∧ a.status = .ok ∧ a.rlen = 16 ∧
      a.area = 32 * ((s.acting (poisonListCmd p) q).mem.poison.filter fun x =>
        x.deckle == p.deckle && (p.extent == 0 || x.extent == p.extent)).length) ∧
  (∀ s : State, s.fwRuns = true → s.hub.ready = true →
    Completes .integrityLogDrain s fun t => t.mem.log = [] ∧ t.mem.cells = s.mem.cells ∧ t.part = s.part)

/-! ## Security -/

/-- ATTEST answers a report; DECKLE_KEY rotation moves the epoch on by one, takes a new key and sweeps from the old
one, which KEY_SWEEP_DONE destroys; LINK_REKEY answers; TRUST_ADD, TRUST_REMOVE and TRUST_POLICY change the
trust table; OPERATOR_KERNEL_KEY sets the key; DEBUG_OPEN opens a session, DEBUG_READ answers its bytes,
DEBUG_CLOSE and DEBUG_SESSION_TIMEOUT end it; RAISE_SEC that passes its checks raises the fused minimum to the
running image's security version, which was greater, and counts one raise. Each where its checks pass.
(19_security.md: KEY_ROTATE, 19_security.md: Signed code, 19_security.md: Operator debug, 19_security.md:
Attestation.) -/
def Obligations.SecurityCommandsComplete : Prop :=
  (∀ (q : Req) (p : AttestP) (s : State), s.passes (attestCmd p s) q (attestChecks q p) →
    Completes (.attest q p) s fun t => ∃ a, t.answers q 0x0A01 a ∧ a.status = .ok ∧ a.rlen = 8 ∧ 0 < a.area) ∧
  (∀ (q : Req) (p : KeyP) (s : State), s.passes (keyRotateDeckleKeyCmd p s) q (keyRotateDeckleKeyChecks p) →
    Completes (.keyRotateDeckleKey q p) s fun t =>
      (t.part.deckles.find p.deckle).map (fun k => (k.epoch, k.key, k.sweep.map (·.oldKey))) =
        (s.part.deckles.find p.deckle).map fun k => ((k.epoch + 1) % 16, s.sec.lastKey + 1, some k.key)) ∧
  (∀ (d : Nat) (s : State) (k : Deckle) (w : Sweep), s.part.deckles.find d = some k → k.sweep = some w → s.deferStopped = false →
    Completes (.keySweepDone d) s fun t => (t.part.deckles.find d).map (·.sweep) = some none ∧ w.oldKey ∉ t.sec.keys) ∧
  (∀ (q : Req) (p : KeyP) (s : State), s.passes (linkRekeyCmd p) q linkRekeyChecks →
    Completes (.linkRekey q p) s fun t => ∃ a, t.answers q 0x0A02 a ∧ a.status = .ok ∧ t.sec = s.sec) ∧
  (∀ (q : Req) (p : KeyP) (s : State), s.passes (trustAddCmd p) q (trustAddChecks p) →
    Completes (.trustAdd q p) s fun t => t.link.trust.find p.target = some p.pubkey) ∧
  (∀ (q : Req) (p : KeyP) (s : State), NMap.wf s.link.trust → s.passes (trustRemoveCmd p) q trustRemoveChecks →
    Completes (.trustRemove q p) s fun t => t.link.trust.find p.target = none) ∧
  (∀ (q : Req) (p : KeyP) (s : State), s.passes (trustPolicyCmd p) q trustPolicyChecks →
    Completes (.trustPolicy q p) s fun t => t.link.strict = p.strict ∧ t.link.trust = s.link.trust) ∧
  (∀ (q : Req) (p : KeyP) (s : State), s.passes (operatorKernelKeyCmd p) q operatorKernelKeyChecks →
    Completes (.operatorKernelKey q p) s fun t => t.sec = { s.sec with operatorKey := some p.pubkey }) ∧
  (∀ (q : Req) (p : DebugP) (s : State), s.passes (debugOpenCmd p) q (debugOpenChecks p) →
    Completes (.debugOpen q p) s fun t => t.answers q 0x0A03 okAns ∧ t.sec.debugEver = true ∧ t.sec.jtagEver = s.sec.jtagEver ∧
      t.sec.session.map (·.jtag) = some false) ∧
  (∀ (q : Req) (p : DebugP) (v : Nat) (s s1 : State), s.passes (debugReadCmd p) q (debugReadChecks p) →
    (s.acting (debugReadCmd p) q).debugBytes p = (s1, .ok, v) →
    Completes (.debugRead q p) s fun t => t.answers q 0x0A03 { status := .ok, area := p.len, entry := 64, content := v } ∧
      t.sec = s.sec) ∧
  (∀ (q : Req) (s : State), s.passes debugCloseCmd q debugCloseChecks →
    Completes (.debugClose q) s fun t => t.answers q 0x0A04 okAns ∧ t.sec = { s.sec with session := none }) ∧
  (∀ (s : State) (x : DebugS), s.sec.session = some x →
    Completes .debugSessionTimeout s fun t => t.sec = { s.sec with session := none } ∧ x.deadline ≤ t.now) ∧
  (∀ (q : Req) (p : KeyP) (s : State), s.passes (raiseSecCmd p) q (raiseSecChecks p) →
    Completes (.raiseSec q p) s fun t => s.board.fusedMinSec < s.runningSec ∧
      t.board = { s.board with fusedMinSec := s.runningSec, raises := s.board.raises + 1 } ∧ t.sec = s.sec ∧ t.rgn = s.rgn)

/-! ## The hub, its driver and its images -/

/-- BOOT_IMAGE_VERIFIED of a good image starts the firmware; FW_ACTIVATE begins a boot verification or an
activation, and its cancel clears AUTO; FW_STAGE stages a good image; FW_STATUS and DEVICE_QUERY answer;
FW_SWITCH_POINT runs the new image and FW_ACTIVATE_TIMEOUT keeps the old one, no earlier than 100 ms;
DEVICE_CONFIGURE sets the profile or the wedge time; DRIVER_ATTACH attests, adopts or resets the device;
DRIVER_DETACH and a lapse end the driver lease. Each where its checks pass. (02_hub_firmware.md: Loading the
firmware at every start, 02_hub_firmware.md: Driver lease and unattended operation, 02_hub_firmware.md: Live
firmware update, 01_architecture.md: Profiles.) -/
def Obligations.HubCommandsComplete : Prop :=
  (∀ (s : State) (v : Verify), s.hub.verifying = some v → s.underBoot = true →
    s.imageBad (s.windowBytes 0 4096) (s.windowBytes 4096 (v.len - 4096)) = none →
    Completes .bootImageVerified s fun t => t.hub.running = some (imageOf (s.windowBytes 0 4096)) ∧ t.hub.phase = .running ∧
      t.hub.verifying = none ∧ t.part.deckles.has 0 = true ∧ t.board = s.board) ∧
  (∀ (q : Req) (p : FwP) (s : State), s.passes (fwActivateCmd p s) q (fun _ => []) → (s.acting (fwActivateCmd p s) q).underBoot = true →
    s.hub.verifying = none → (s.hub.loader = none ∨ s.hub.loader = some q.ep) → p.cancel = false → p.imagePva = 0 →
    imageFormOk ((s.acting (fwActivateCmd p s) q).windowBytes 0 4096) p.imageLen = true →
    Completes (.bootFwActivate q p) s fun t => t.hub.verifying = some ⟨s.replyOf (fwActivateCmd p s) q, p.imageLen, p.fillAtStart⟩) ∧
  (∀ (q : Req) (p : FwP) (s : State) (i : Image), s.passes (fwActivateCmd p s) q (fun _ => []) →
    (s.acting (fwActivateCmd p s) q).underBoot = false → p.imagePva = 0 → p.imageLen = 0 → p.fillAtStart = false → p.cancel = false →
    s.hub.staged = some i → s.cal.emergency = none →
    Completes (.fwActivate q p) s fun t => t.hub.phase = .activating ∧ t.sec.session = none ∧
      t.hub.activation.map (·.image) = some i) ∧
  (∀ (q : Req) (p : FwP) (s : State), s.passes (fwActivateCmd { p with cancel := true } s) q (fun _ => []) →
    (s.acting (fwActivateCmd { p with cancel := true } s) q).underBoot = false → p.imagePva = 0 → p.imageLen = 0 → p.fillAtStart = false →
    Completes (.fwActivateCancel q p) s fun t => t.answers q 0x0B02 okAns ∧ t.hub.autoPending = false ∧ t.hub.staged = s.hub.staged) ∧
  (∀ (q : Req) (p : FwP) (s s1 s2 : State) (h body : Nat), s.passes (fwStageCmd p) q (fwStageChecks p) →
    (s.acting (fwStageCmd p) q).readBytes 0 p.imagePva 4096 = (s1, .ok, h) → imageFormOk h p.imageLen = true →
    s1.readBytes 0 (p.imagePva + 4096) (p.imageLen - 4096) = (s2, .ok, body) → s2.imageBad h body = none →
    Completes (.fwStage q p) s fun t => t.hub.staged = some (imageOf h) ∧ t.hub.lastStatus = .ok ∧ t.hub.running = s.hub.running) ∧
  (∀ (q : Req) (s : State), s.passes fwStatusCmd q fwStatusChecks →
    Completes (.fwStatus q) s fun t => t.answers q 0x0B03 (s.acting fwStatusCmd q).fwStatusAns) ∧
  (∀ (s : State) (a : Activation), s.hub.activation = some a → s.hub.phase = .activating →
    Completes .fwSwitchPoint s fun t => t.hub.running = some a.image ∧ t.hub.staged = none ∧ t.hub.slotB = !s.hub.slotB ∧
      t.hub.phase = .running ∧ t.part = s.part) ∧
  (∀ (s : State) (a : Activation), s.hub.activation = some a → s.hub.phase = .activating →
    Completes .fwActivateTimeout s fun t => t.hub.running = s.hub.running ∧ t.hub.staged = none ∧ t.hub.phase = .running ∧
      t.hub.lastStatus = .aborted ∧ a.start + 100000000 ≤ t.now) ∧
  (∀ (q : Req) (s : State), s.passes deviceQueryCmd q deviceQueryChecks →
    Completes (.deviceQuery q) s fun t => t.answers q 0x0001 ((s.acting deviceQueryCmd q).deviceResult (q.deckle == 0))) ∧
  (∀ (q : Req) (p : DevCfgP) (s : State), s.passes (configureCmd { p with setProfile := true }) q (configureChecks { p with setProfile := true }) →
    Completes (.deviceConfigureProfile q p) s fun t => t.answers q 0x0002 okAns ∧ t.part.bulk = p.bulk) ∧
  (∀ (q : Req) (p : DevCfgP) (s : State), s.passes (configureCmd { p with setWedge := true }) q (configureChecks { p with setWedge := true }) →
    Completes (.deviceConfigureWedge q p) s fun t => t.answers q 0x0002 okAns ∧ t.hub.wedgeMs = p.wedgeMs) ∧
  (∀ (q : Req) (p : AttachP) (s : State), s.passes (driverAttachAttestOnlyCmd p s) q (driverAttachAttestOnlyChecks q) →
    Completes (.driverAttachAttestOnly q p) s fun t =>
      t.answers q 0x0003 ((s.acting (driverAttachAttestOnlyCmd p s) q).attachAns q p) ∧ t.hub.driver = s.hub.driver) ∧
  (∀ (q : Req) (p : AttachP) (s : State), s.passes (driverAttachAdoptCmd p s) q (driverAttachAdoptChecks q) →
    Completes (.driverAttachAdopt q p) s fun t => t.hub.driver = some q.ep ∧ t.hub.unattended = false ∧ t.member 0 q.ep = true) ∧
  (∀ (q : Req) (p : AttachP) (s : State), s.passes (s.attachCmd p) q (driverAttachAttestOnlyChecks q) →
    Completes (.driverAttachReset q p) s fun t => t.hub.phase = .bootRom ∧ t.hub.resetCause = 2 ∧ t.pkg.resetAnswer.isSome = true ∧
      t.board = s.board ∧ t.mem.cells = []) ∧
  (∀ (q : Req) (s : State), s.passes driverDetachCmd q (driverDetachChecks q) →
    Completes (.driverDetach q) s fun t => t.answers q 0x0004 okAns ∧ t.hub.driver = none ∧ t.hub.unattended = true) ∧
  (∀ s : State, s.hub.driver.isSome = true → s.hubStopped = false →
    Completes .driverLeaseLapse s fun t => t.hub.driver = none ∧ t.hub.unattended = true ∧ s.hub.driverDeadline ≤ t.now)

/-- HUB_WEDGE stops a running hub, counts it and ends a debug session, with the partition and the stored lines
unchanged; WEDGE_DUMP_DONE makes the dump valid; WEDGE_RESTART restarts the hub no earlier than its wedge time
after the dump; HUB_RESTART_DONE runs it again. BR_STATUS answers; BR_DUMP dumps, reads and clears; BR_ZEROISE
with its word destroys every key; BR_RESET restarts the hub or resets the device, which keeps its board.
(02_hub_firmware.md: Watchdog and the wedged hub, 02_hub_firmware.md: The bedrock controller.) -/
def Obligations.WedgeAndBedrockComplete : Prop :=
  (∀ s : State, s.fwRuns = true →
    Completes .hubWedge s fun t => t.hub.phase = .wedged ∧ t.hub.ready = false ∧ t.hub.wedges = sat 16 (s.hub.wedges + 1) ∧
      t.sec.session = none ∧ t.part = s.part ∧ t.mem.cells = s.mem.cells) ∧
  (∀ s : State, s.hub.phase = .wedged → s.hub.dumping.isSome = true → s.hub.resetAfterDump = false →
    Completes .wedgeDumpDone s fun t => t.hub.dumpValid = true ∧ t.hub.dumping = none ∧ t.hub.phase = .wedged) ∧
  (∀ (s : State) (d : Nat), s.hub.dumpDone = some d → s.hub.phase = .wedged → s.hub.wedgeMs ≠ 0 →
    Completes .wedgeRestart s fun t => t.hub.phase = .restarting ∧ d + s.hub.wedgeMs * 1000000 ≤ t.now) ∧
  (∀ s : State, s.hub.phase = .restarting →
    Completes .hubRestartDone s fun t => t.hub.phase = .running ∧ t.hub.ready = true ∧ t.mbx.waiting = []) ∧
  (∀ (q : Req) (s : State), s.passesBr brStatusCmd q →
    Completes (.brStatus q) s fun t => ∃ a, t.answers q 0xFF01 a ∧ a.status = .ok) ∧
  (∀ (q : Req) (p : BrP) (s : State), s.passesBr (brDumpCmd p) q → p.word % 128 = 0 → p.word < 67108864 →
    Completes (.brDump q p) s fun t => t.answers q 0xFF02 okAns ∧ t.hub.dumpValid = true) ∧
  (∀ (q : Req) (p : BrP) (s : State), s.passesBr (brDumpReadCmd p) q → p.word % 128 = 0 → p.word < 67108864 →
    Completes (.brDumpRead q p) s fun t => (s.hub.dumpValid = false → t.answers q 0xFF02 (Ans.okBits 128 0)) ∧
      (s.hub.dumpValid = true → t.answers q 0xFF02 (Ans.okBits 128 (Config.dumpBytes s.hub.dumpSerial p.word % 2 ^ 1024)))) ∧
  (∀ (q : Req) (p : BrP) (s : State), s.passesBr (brDumpClearCmd p) q → p.word % 128 = 0 → p.word < 67108864 →
    Completes (.brDumpClear q p) s fun t => t.answers q 0xFF02 okAns ∧ t.hub.dumpValid = false) ∧
  (∀ (q : Req) (p : BrP) (s : State), s.passesBr (brZeroiseCmd p) q → p.word = 0x5A45524F →
    Completes (.brZeroise q p) s fun t => t.hub.phase = .zeroised ∧ t.sec.keys = [] ∧ t.sec.ready = false ∧ t.board = s.board) ∧
  (∀ (q : Req) (p : BrP) (s : State), s.passesBr (brResetHubCmd p) q → p.word = 0 →
    s.hub.phase = .running ∨ s.hub.phase = .activating →
    Completes (.brResetHub q p) s fun t => t.hub.phase = .restarting ∧ t.hub.ready = false) ∧
  (∀ (q : Req) (p : BrP) (s : State), s.passesBr (brResetDeviceCmd p) q → p.word = 0 →
    Completes (.brResetDevice q p) s fun t => t.hub.phase = .bootRom ∧ t.hub.resetCause = 2 ∧ t.pkg.resetAnswer.isSome = true ∧
      t.board = s.board ∧ t.mem.cells = [])

/-! ## Resets, trips and the package -/

/-- COLD_RESET leaves the reset partition, no stored line, the boot ROM phase, the queue and the board, and its
release lets the device start; WARM_RESET leaves the boot ROM phase with its cause, no stored line, the board,
the PLL and the sensors, and its release lets the device start; THERMAL_TRIP at 115 °C and SUPPLY_TRIP power the
device down with no key left, recorded, and with memory as it was. (20_package_bringup.md: Reset, clock and
sideband signals, 20_package_bringup.md: Trips and the orderly power-down.) -/
def Obligations.ResetAndTripComplete : Prop :=
  (∀ (lost : Bool) (s : State), Completes (.coldReset lost) s fun t => t.pkg.coldLow = true ∧ t.hub.phase = .bootRom ∧
    t.mem.cells = [] ∧ t.part = State.reset.part ∧ t.board = s.board ∧ t.pending = s.pending ∧ t.pkg.tripped = false) ∧
  (∀ s : State, s.pkg.coldLow = true →
    Completes .coldResetRelease s fun t => t = { s with pkg := { s.pkg with coldLow := false, releasedAt := s.now } }) ∧
  (∀ s : State, s.pkg.coldLow = false → s.pkg.tripped = false →
    Completes .warmReset s fun t => t.pkg.warmLow = true ∧ t.hub.phase = .bootRom ∧ t.hub.resetCause = 1 ∧
      t.mem.cells = [] ∧ t.board = s.board ∧ t.pkg.pll = s.pkg.pll ∧ t.pkg.sensors = s.pkg.sensors) ∧
  (∀ s : State, s.pkg.warmLow = true →
    Completes .warmResetRelease s fun t => t = { s with pkg := { s.pkg with warmLow := false, releasedAt := s.now } }) ∧
  (∀ (i v : Nat) (s : State), i < 96 → 920 ≤ v → s.pkg.tripped = false → s.pkg.coldLow = false →
    Completes (.thermalTrip i v) s fun t => t.pkg.tripped = true ∧ t.pkg.thermTrip = true ∧ t.hub.phase = .poweringDown ∧
      t.sec.keys = [] ∧ t.pkg.recThermal = true ∧ t.mem = s.mem) ∧
  (∀ (c r v : Nat) (s : State), 1 ≤ c → c ≤ 3 → s.pkg.tripped = false → s.pkg.coldLow = false →
    Completes (.supplyTrip c r v) s fun t => t.pkg.tripped = true ∧ t.pkg.thermTrip = true ∧ t.hub.phase = .poweringDown ∧
      t.sec.keys = [] ∧ t.pkg.recSupply = true ∧ t.mem = s.mem)

/-- Out of reset, PLL_LOCK starts domain time counting, and STAGING_READY and BEDROCK_READY make staging and the
bedrock controller ready; with firmware started, HUB_READY, SECURITY_READY, CORE_READY, TIER1_READY and
FAR_DIE_READY make the hub, the security block, the core, tier 1 and the far die ready, a tier sealed where the
boot chose filling. (20_package_bringup.md: Readiness.) -/
def Obligations.ReadinessCompletes : Prop :=
  (∀ s : State, s.inReset = false → s.laid.counting = false →
    Completes .pllLock s fun t => t.pkg.pll = true ∧ t.laid.counting = true ∧ t.laid.time = s.laid.time) ∧
  (∀ s : State, s.inReset = false → s.hub.stagingReady = false → Completes .stagingReady s fun t => t.hub.stagingReady = true) ∧
  (∀ s : State, s.inReset = false → s.hub.bedrockReady = false → Completes .bedrockReady s fun t => t.hub.bedrockReady = true) ∧
  (∀ s : State, s.fwRuns = true → s.hub.ready = false → Completes .hubReady s fun t => t.hub.ready = true ∧ t.pkg.readyWait = []) ∧
  (∀ s : State, s.hub.running.isSome = true → s.sec.ready = false → s.hub.phase ≠ .zeroised → s.pkg.tripped = false →
    Completes .securityReady s fun t => t.sec.ready = true) ∧
  (∀ (c : Nat) (s : State), s.hub.running.isSome = true → c < 32 → (s.core c).ready = false → s.pkg.tripped = false →
    Completes (.coreReady c) s fun t => t.core c = { s.core c with ready := true }) ∧
  (∀ (u : List Nat) (s : State), s.hub.running.isSome = true → (s.group 0).ready = false → s.mem.groups.has 0 = true →
    lostUnits 0 u < 2 → s.pkg.tripped = false →
    Completes (.tier1Ready u) s fun t => (t.group 0).ready = true ∧ (t.group 0).sealed = s.hub.fillAtStart) ∧
  (∀ (d : Nat) (u : List Nat) (s : State), s.hub.running.isSome = true → s.populated.contains d = true →
    (s.group (d + 1)).ready = false → s.mem.groups.has (d + 1) = true → s.mem.farFailed.contains d = false → s.farLegal d = true →
    lostUnits (d + 1) u < 2 → s.pkg.tripped = false →
    Completes (.farDieReady d u) s fun t => (t.group (d + 1)).ready = true ∧ (t.group (d + 1)).sealed = s.hub.fillAtStart)

/-- I3C_PRIVATE_READ takes the oldest response; SETDASA assigns the address; TAP_RESET and IDCODE select IDCODE;
BYPASS, EXTEST, SAMPLE_PRELOAD, CLAMP and HIGHZ select their registers, and EXTEST and CLAMP drive the pins only
while HEALTH_OK is low; DBG_OPEN opens a session where none is open, and DBG_CLOSE closes; DBG_MBX hands in a
request and takes the last response; VSET_ACK sets the rail it acknowledges. (20_package_bringup.md: I3C
sideband, 20_package_bringup.md: IEEE 1149.1 port, 20_package_bringup.md: Supplies, 19_security.md: Operator
debug.) -/
def Obligations.SidebandCommandsComplete : Prop :=
  (∀ (s : State) (r : MbxRsp) (l : List MbxRsp), s.mbx.i3c = r :: l →
    Completes .i3cPrivateRead s fun t => t.pkg.i3cRead = some r ∧ t.mbx.i3c = l) ∧
  (∀ (a : Nat) (s : State), s.hub.bedrockReady = true →
    Completes (.setdasa a) s fun t => t = { s with pkg := { s.pkg with i3cAddr := some (a % 128) } }) ∧
  (∀ s : State, Completes .tapReset s fun t => t.pkg.ir = .idcode ∧ t.pkg.capture = (32, 0x29640A63) ∧ t.pkg.driving = false) ∧
  (∀ s : State, Completes .idcode s fun t => t.pkg.ir = .idcode ∧ t.pkg.capture = (32, 0x29640A63)) ∧
  (∀ s : State, Completes .bypass s fun t => t.pkg.ir = .bypass ∧ t.pkg.driving = false ∧ t.pkg.hiZ = false) ∧
  (∀ s : State, Completes .extest s fun t => t.pkg.ir = (if s.pkg.healthOk then .bypass else .extest) ∧
    t.pkg.driving = !s.pkg.healthOk) ∧
  (∀ (x : Nat) (s : State), Completes (.samplePreload x) s fun t => t.pkg.ir = .samplePreload ∧ t.pkg.boundary = x ∧
    t.pkg.driving = false) ∧
  (∀ s : State, Completes .clamp s fun t => t.pkg.ir = (if s.pkg.healthOk then .bypass else .clamp) ∧
    t.pkg.driving = !s.pkg.healthOk) ∧
  (∀ s : State, Completes .highz s fun t => t.pkg.ir = .highz ∧ t.pkg.hiZ = true ∧ t.pkg.driving = false) ∧
  (∀ (ms n : Nat) (s : State), s.fwRuns = true → s.hub.ready = true → debugMs ms = some n → s.sec.session = none →
    Completes (.dbgOpen ms) s fun t => t.sec.session = some ⟨s.now + n * 1000000, true⟩ ∧ t.sec.jtagEver = true ∧
      t.pkg.capture = (32, statusCode .ok)) ∧
  (∀ s : State, Completes .dbgClose s fun t => t.sec = { s.sec with session := none } ∧ t.pkg.ir = .dbgClose) ∧
  (∀ (c : Instr) (s : State), Completes (.dbgMbx c) s fun t => t.pkg.tapReq = some c ∧ t.pkg.tapOut = s.pkg.tapRsp ∧
    t.pkg.tapRsp = none ∧ t.pkg.ir = .dbgMbx) ∧
  (∀ (die mv : Nat) (s : State), NMap.wf s.pkg.vsetWait → s.pkg.vsetWait.find die = some mv →
    Completes (.vsetAck die) s fun t => t.pkg.vddEng = setAt s.pkg.vddEng die mv ∧ t.pkg.vsetWait.find die = none ∧
      t.mem = s.mem ∧ t.part = s.part)

/-! ## The pair -/

/-- PAIR_FORM that passes its checks arms a device, forms with its partner and share (25 for 0), or dissolves;
PAIR_ARM_TIMEOUT ends the arming no earlier than 10 s; PAIR_STATUS and HEALTH_REPORT answer 64 and 128 bytes;
WITNESS SET and REPORT record the witnesses and what one saw; FAILOVER HANDOVER starts the handover and FORCE
starts a promotion with the next TERM; BR_FAILOVER_OUT fences an active. (18_pair.md: Forming a pair,
18_pair.md: Health of the standby, 18_pair.md: Witnesses, 18_pair.md: Promotion.) -/
def Obligations.PairCommandsComplete : Prop :=
  (∀ (q : Req) (p : PairP) (s : State), s.passes (pairArmCmd p) q (pairArmChecks p) →
    Completes (.pairArm q p) s fun t => t.answers q 0x0901 okAns ∧ t.pair.state = .armed ∧ t.pair.partnerId = p.partnerId) ∧
  (∀ (q : Req) (p : PairP) (s : State), s.passes (pairFormCmd p) q (pairFormChecks p) →
    Completes (.pairForm q p) s fun t => t.pair.partnerId = p.partnerId ∧ t.pair.reply = some (s.replyOf (pairFormCmd p) q) ∧
      t.pair.share = if p.resyncShare = 0 then 25 else p.resyncShare) ∧
  (∀ (q : Req) (p : PairP) (s : State), s.passes (pairDissolveCmd p) q pairDissolveChecks →
    Completes (.pairDissolve q p) s fun t => t.pair.role = .none) ∧
  (∀ s : State, s.pair.state = .armed →
    Completes .pairArmTimeout s fun t => t.pair.state = .none ∧ t.pair.role = .none ∧ s.pair.armedAt + 10000000000 ≤ t.now) ∧
  (∀ (q : Req) (s : State), s.passes pairStatusCmd q pairStatusChecks →
    Completes (.pairStatus q) s fun t => ∃ a, t.answers q 0x0902 a ∧ a.status = .ok ∧ a.rlen = 64) ∧
  (∀ (q : Req) (s : State), s.passes healthReportCmd q healthReportChecks →
    Completes (.healthReport q) s fun t => ∃ a, t.answers q 0x0903 a ∧ a.status = .ok ∧ a.rlen = 128) ∧
  (∀ (q : Req) (p : WitnessP) (s : State), s.passes (witnessSetCmd p) q (witnessSetChecks p) →
    Completes (.witnessSet q p) s fun t => t.answers q 0x0905 okAns ∧ t.pair.witnesses.map (·.ep) = p.witnesses) ∧
  (∀ (q : Req) (p : WitnessP) (s : State), s.passes (witnessReportCmd p) q (witnessReportChecks q) →
    Completes (.witnessReport q p) s fun t => t.answers q 0x0905 okAns ∧
      ∀ w ∈ t.pair.witnesses, w.ep = q.ep → w.lost = p.lost ∧ w.lostNs = p.lostNs) ∧
  (∀ (q : Req) (p : FailoverP) (s : State), s.passes (failoverHandoverCmd p) q (failoverHandoverChecks p) →
    Completes (.failoverHandover q p) s fun t => t.pair.handover.isSome = true ∧
      t.pair.reply = some (s.replyOf (failoverHandoverCmd p) q) ∧ t.pair.role = s.pair.role) ∧
  (∀ (q : Req) (p : FailoverP) (s : State), s.passes (failoverForceCmd p) q failoverForceChecks →
    Completes (.failoverForce q p) s fun t => t.pair.promoting.map (·.1) = some 3 ∧ t.pair.term = (s.pair.term + 1) % 2 ^ 32) ∧
  (∀ (q : Req) (s : State), s.passesBr brFailoverOutCmd q → s.pair.role = .active →
    Completes (.brFailoverOut q) s fun t => t.pair.state = .fenced ∧ t.pair.role = .none)

/-- HEALTH_REPORT_TICK and its timeout report and grade RED no earlier than their times; STANDBY_SELF_TEST records
its result; HANDOVER_DRAIN_END hands over with no memory request left and no active laid table;
PROMOTION_COMPLETE ends the promotion; MIR_ACK_TIMER applies and acknowledges; SYNC_COPY_DONE sends the copies
that fit and ends the copy with the last; MIR_HB_TICK sends every 250 µs; lost heartbeats and unacknowledged
records make the active decide, and an in-sync standby lose its link. (18_pair.md: Initial sync and resync,
18_pair.md: The mirror stream, 18_pair.md: Health of the standby, 18_pair.md: Losing the pair link, 18_pair.md:
Promotion.) -/
def Obligations.PairTimersComplete : Prop :=
  (∀ s : State, s.pair.role = .standby →
    Completes .healthReportTick s fun t => s.pair.reportAt + 100000000 ≤ t.now ∧ s.pair.reportAt + 100000000 ≤ t.pair.reportAt) ∧
  (∀ s : State, s.pair.role = .active →
    Completes .healthReportTimeout s fun t => t.pair.grade = 3 ∧ s.pair.reportAt + 300000000 ≤ t.now) ∧
  (∀ (pass : Bool) (s : State), s.pair.role = .standby →
    Completes (.standbySelfTest .hubCheck pass) s fun t => t.pair.hubBad = !pass ∧ t.mem = s.mem) ∧
  (∀ (core : Nat) (pass : Bool) (s : State), s.pair.role = .standby →
    Completes (.standbySelfTest (.arrayKat core) pass) s fun t => t.pair.badCores = setMark s.pair.badCores (core % 32) (!pass)) ∧
  (∀ (s : State) (at_ : Nat), s.pair.handover = some at_ → s.pair.handed = false → s.pair.role = .active →
    Completes .handoverDrainEnd s fun t => t.pair.handed = true ∧ t.laid.active = none ∧ t.mem.jobs = []) ∧
  (∀ (s : State) (c : Nat) (g : Bool), s.pair.promoting = some (c, g) →
    Completes .promotionComplete s fun t => t = s.endPromotion c g) ∧
  (∀ s : State, s.pair.role = .standby → s.applyAll.pair.ackOwed = true →
    Completes .mirAckTimer s fun t => t = (s.applyAll.reach (s.applyAll.pair.owedAt + 200)).sendAck) ∧
  (∀ s : State, s.pair.role = .active → s.pair.state = .syncing → s.hubStopped = false → s.hub.phase ≠ .activating →
    s.copyRate ≠ 0 →
    let bytes := ((s.part.extents.filter fun x => x.2.mir).map fun x => x.2.granules).foldl (· + ·) 0 * 2 ^ 21
    let s1 := s.reach (s.pair.copyStart + bytes * 1000 / s.copyRate)
    Completes .syncCopyDone s fun t => t = (if (s1.sendCopies (copyRuns s1.copyLines)).2
      then (s1.sendCopies (copyRuns s1.copyLines)).1.endCopy bytes else (s1.sendCopies (copyRuns s1.copyLines)).1)) ∧
  (∀ s : State, s.paired = true →
    Completes .mirHbTick s fun t => s.pair.hbAt + 250000 ≤ t.now ∧ t.pair.hbAt = t.now) ∧
  (∀ s : State, s.paired = true → s.pair.role = .active → s.pair.state ≠ .linkLost →
    Completes .heartbeatLost s fun t => t = (s.reach (s.pair.lastHb + 5000000)).decideLoss 0) ∧
  (∀ s : State, s.pair.role = .standby → s.pair.state = .inSync →
    Completes .heartbeatLost s fun t => t.pair.state = .linkLost ∧ s.pair.lastHb + 5000000 ≤ t.now) ∧
  (∀ s : State, s.mirrors = true → s.pair.retained ≠ [] →
    Completes .mirrorAckTimeout s fun t => t = (s.reach (s.pair.ackedAt + 10000000)).decideLoss 1)

/-- On an active pair port: MIR_HEALTH sets report and grade; MIR_DATA and MIR_META are taken in their order at a
standby; MIR_ACK moves what is acknowledged and frees the records up to it; MIR_HB of a greater TERM fences an
active, and any other refreshes a standby; MIR_FETCH is answered by the line; MIR_LINE ends its fetch; the
control messages armed, form, form-ack, promote, promoted, resync-start, resync-end and dissolve change the
pair's state as each says. (18_pair.md: Forming a pair, 18_pair.md: The mirror stream, 18_pair.md: Promotion,
18_pair.md: Initial sync and resync.) -/
def Obligations.PairMessagesComplete : Prop :=
  ∀ (p : Nat) (s : State), isPairPort p = true → (s.port p).train = .active →
  (∀ (r : Health), s.pair.role = .active →
    Completes (.mirHealth p r) s fun t => t.pair.health.map (·.1) = some r ∧ t.pair.grade = gradeOf r) ∧
  (∀ (x : MirExt) (l : List MirLine), s.takesRecords = true → 1 ≤ l.length → l.length ≤ 57 →
    Completes (.mirData p x l) s fun t =>
      t = (s.freeBuf p 4 (cdiv (48 + 80 * l.length) 64)).takeRecord x.mseq (.mirData x l)) ∧
  (∀ (x : MirExt) (r : MetaRec), s.takesRecords = true →
    Completes (.mirMeta p x r) s fun t => t = (s.freeBuf p 4 (cdiv 176 64)).takeRecord x.mseq (.mirMeta x r)) ∧
  (∀ n : Nat, s.pair.role = .active → s.pair.acked < n → n ≤ s.pair.mseq →
    Completes (.mirAck p n) s fun t => t.pair.acked = n ∧ ∀ r ∈ t.pair.retained, n < r.mseq) ∧
  (∀ x : MirExt, s.pair.role = .active → s.pair.term < x.term → s.pair.handed = false →
    Completes (.mirHb p x) s fun t => t.pair.state = .fenced ∧ t.pair.role = .none) ∧
  (∀ x : MirExt, s.pair.role = .standby → x.promote = false →
    Completes (.mirHb p x) s fun t => t.pair.lastHb = s.now ∧ (x.solo = true → t.pair.detached = true)) ∧
  (∀ (d g : Nat) (x : MirExt), s.paired = true →
    let s0 := s.freeBuf p 0 (cdiv 48 64)
    Completes (.mirFetch p x d g) s fun t => t = (if (s0.fetchRead x.tier (x.phys / 64) d g).2.1
      then (s0.chargeTier d 8 x.tier (readPj x.tier) 1).countCe ((s0.chargeTier d 8 x.tier (readPj x.tier) 1).unitOf x.tier (x.phys / 64)).1
      else s0.chargeTier d 8 x.tier (readPj x.tier) 1).enqueue p 1 61 0
        (.mirLine { phys := x.phys, tier := x.tier } (s0.fetchRead x.tier (x.phys / 64) d g).1 (s0.fetchRead x.tier (x.phys / 64) d g).2.2)) ∧
  (∀ (x : MirExt) (st : Status) (l : MirLine), (s.pair.fetches.any fun f => f.tier == x.tier && f.line == x.phys / 64) = true →
    (s.freeBuf p 1 (cdiv 128 64)).refAt x.tier (x.phys / 64) = none →
    Completes (.mirLine p x st l) s fun t => ∀ f ∈ t.pair.fetches, ¬ (f.tier = x.tier ∧ f.line = x.phys / 64)) ∧
  (∀ (x : MirExt) (i : PartnerInfo), s.unpaired = true → s.partnerOn p i.linkId = true →
    Completes (.mirCtrl p .armed x i) s fun t => t.pair.partner = some i) ∧
  (∀ (x : MirExt) (i : PartnerInfo), s.pair.state = .armed → s.pair.partnerId / 64 = i.linkId / 64 →
    Completes (.mirCtrl p .form x i) s fun t => t.pair.role = .standby ∧ t.pair.state = .syncing ∧ t.pair.term = x.term ∧
      t.part.deckles = []) ∧
  (∀ (x : MirExt) (i : PartnerInfo) (r : Nat), s.pair.role = .none → s.pair.reply = some r →
    Completes (.mirCtrl p .formAck x i) s fun t => t = (s.freeBuf p 5 (cdiv 112 64)).formed) ∧
  (∀ (x : MirExt) (i : PartnerInfo), s.applies = true → s.pair.mseq < x.mseq →
    Completes (.mirCtrl p .promote x i) s fun t => t.pair.promoteAfter = some x.mseq) ∧
  (∀ (x : MirExt) (i : PartnerInfo), s.pair.handed = true →
    Completes (.mirCtrl p .promoted x i) s fun t => t = (s.freeBuf p 5 (cdiv 112 64)).handedOver x) ∧
  (∀ (x : MirExt) (i : PartnerInfo), s.applies = true →
    Completes (.mirCtrl p .resyncStart x i) s fun t => t.pair.state = .resyncing ∧ t.pair.mseq = x.mseq ∧ t.pair.synced = false) ∧
  (∀ (x : MirExt) (i : PartnerInfo), s.applies = true → x.mseq ≤ s.pair.mseq →
    Completes (.mirCtrl p .resyncEnd x i) s fun t => t.pair.state = .inSync ∧ t.pair.synced = true) ∧
  (∀ (x : MirExt) (i : PartnerInfo), s.pair.role = .active →
    Completes (.mirCtrl p .dissolve x i) s fun t => t.pair.role = .none ∧ t.pair.state = .none)

/-! ## The machine as a whole -/

/-- For every command and state with that command at the front of the queue, the step is exec of the command on the
state with the queue's rest. (95_what_each_step_holds.md: What each step holds.) -/
def Obligations.StepRunsTheFrontCommand : Prop :=
  ∀ (c : Instr) (rest : List Instr) (s : State), s.pending = c :: rest → step s = exec c { s with pending := rest }

/-- The model's choice, log entry 18, and no rule of the spec: on an empty queue a request of the test port is run
first; otherwise the first waiting mailbox request, when one can be served, is run as one that arrived when it
began to wait; otherwise one nanosecond passes and nothing else changes but domain time. (02_hub_firmware.md:
Live firmware update, 20_package_bringup.md: IEEE 1149.1 port.) -/
def Obligations.EmptyQueueStep : Prop :=
  (∀ (c : Instr) (s : State), s.pending = [] → s.pkg.tapReq = some c →
    step s = exec c { s with pkg := { s.pkg with tapReq := none } }) ∧
  (∀ (w : WaitReq) (ws : List WaitReq) (s t : State), s.pending = [] → s.pkg.tapReq = none → s.drains = true →
    s.mbx.waiting = w :: ws → exec w.cmd { s with mbx := { s.mbx with waiting := ws, draining := some w.at_ } } = .next t →
    step s = .next { t with mbx := { t.mbx with draining := none } }) ∧
  (∀ s : State, s.pending = [] → s.pkg.tapReq = none → s.drains = false →
    ∃ t, step s = .next t ∧ t.now = s.now + 1 ∧ { t with now := s.now, laid := s.laid } = s ∧
      t.laid = { s.laid with time := t.laid.time })

/-- For every command and every state, exec answers a next state. (14_transactions.md: Status codes,
95_what_each_step_holds.md: What each step holds.) -/
def Obligations.EveryCommandGoesOn : Prop := ∀ (c : Instr) (s : State), ∃ t, exec c s = .next t

/-- At reset no command waits; the boot ROM runs with no firmware and no loader, the profile is open, STRICT is 0,
and no deckle, extent, lease, region, lode, kernel, fault record, laid table, listed port or stored line exists;
the stored lines have their canonical form. That the fuse bank is well formed is the model's choice of its
values (log entry 1). (02_hub_firmware.md: Loading the firmware at every start, 01_architecture.md: Profiles,
19_security.md: Link partner trust, 17_integrity.md: Initialisation.) -/
def Obligations.ResetLeaves : Prop :=
  State.reset.pending = [] ∧ State.reset.hub.phase = .bootRom ∧ State.reset.hub.running = none ∧
  State.reset.hub.loader = none ∧ State.reset.part.bulk = false ∧ State.reset.link.strict = false ∧
  State.reset.part.deckles = [] ∧ State.reset.part.extents = [] ∧ State.reset.part.leases = [] ∧
  State.reset.rgn.regions = [] ∧ State.reset.lode.lodes = [] ∧ State.reset.eng.kernels = [] ∧
  State.reset.xlat.faults = [] ∧ State.reset.laid.tables = [] ∧ State.reset.link.ports = [] ∧
  State.reset.mem.cells = [] ∧ Memory.wf State.reset = true ∧ State.reset.board.wf = true

/-- Every command leaves the queue as exec found it; every command but RAISE_SEC leaves the whole fuse bank as it
was; and from every state with a well-formed fuse bank, a step leaves it well formed, with the fused minimum
security version and the count of raises no lower. (19_security.md: Signed code.) -/
def Obligations.QueueAndFusesKept : Prop :=
  (∀ (c : Instr) (s t : State), exec c s = .next t → t.pending = s.pending) ∧
  (∀ (c : Instr) (s t : State), exec c s = .next t → (∀ q p, c ≠ .raiseSec q p) → t.board = s.board) ∧
  (∀ s t : State, s.board.wf = true → step s = .next t → t.board.wf = true ∧ s.board.fusedMinSec ≤ t.board.fusedMinSec ∧
    s.board.raises ≤ t.board.raises)

/-- From every state whose stored lines and granules have the canonical form (addresses rising, nothing listed that
reads as an unlisted one), every command and every step leaves a state whose stored lines and granules have it.
The form is the model's own. (17_integrity.md: The line, 03_memory_tiers.md: Placement.) -/
def Obligations.EveryStepKeepsTheMemoryForm : Prop :=
  (∀ (c : Instr) (s t : State), Memory.wf s = true → exec c s = .next t → Memory.wf t = true) ∧
  (∀ s t : State, Memory.wf s = true → step s = .next t → Memory.wf t = true)

/-! ## Mailboxes -/

/-- A request that reaches its mailbox with sixteen commands held is answered ST_BUSY; one with fewer held and the
tag of a held command is answered ST_INVALID with DUP_TAG = 1. Such an answer is sent at once and leaves the
outstanding commands, the partition, memory, engines, regions and hub. An accepted command is outstanding from
then on, and when its response is sent it is outstanding no more. The bedrock mailbox of the link counts its own
sixteen and its own tags. (R24.) -/
def Obligations.MailboxHoldsSixteen : Prop :=
  (∀ (self : Instr) (c : Cmd) (q : Req) (checks : State → List Check) (act : State → Nat → State × Option Ans) (s : State),
    c.code < 0xFF01 → s.arrives c q = true → (s.atBox q).servedCheck c q = none → (c.oper = true → q.deckle = 0) →
    ((s.atBox q).isDissolving q.deckle = true → c.query = true) → 16 ≤ ((s.atBox q).heldTags q.deckle).length →
    s.serve self c q checks act = (s.atBox q).answerNow q c.code (s.atBox q).now { status := .busy } false) ∧
  (∀ (self : Instr) (c : Cmd) (q : Req) (checks : State → List Check) (act : State → Nat → State × Option Ans) (s : State),
    c.code < 0xFF01 → s.arrives c q = true → (s.atBox q).servedCheck c q = none → (c.oper = true → q.deckle = 0) →
    ((s.atBox q).isDissolving q.deckle = true → c.query = true) → ((s.atBox q).heldTags q.deckle).length < 16 →
    q.tag ∈ (s.atBox q).heldTags q.deckle →
    s.serve self c q checks act = (s.atBox q).answerNow q c.code (s.atBox q).now { status := .invalid } true) ∧
  (∀ (code acc : Nat) (q : Req) (st : Status) (dup : Bool) (s : State),
    s.pkg.tripped = false → let t := s.answerNow q code acc { status := st } dup
    (∃ r ∈ t.responses q, r.ans.status = st ∧ r.dupTag = dup ∧ r.tag = q.tag ∧ r.cookie = q.cookie) ∧
      t.mbx.outst = s.mbx.outst ∧ t.mbx.nextReply = s.mbx.nextReply ∧ t.part = s.part ∧ t.mem = s.mem ∧ t.eng = s.eng ∧
      t.rgn = s.rgn ∧ t.hub = s.hub) ∧
  (∀ (c : Cmd) (q : Req) (s : State), s.admits c q = true →
    (s.acting c q).outstanding q c.code (s.replyOf c q)) ∧
  (∀ (r : Nat) (a : Ans) (o : Outst) (s : State), NMap.wf s.mbx.outst → s.mbx.outst.find r = some o → o.mseq = none →
    s.hubStopped = false → s.pkg.tripped = false → a.area = 0 →
    (s.answer r a).mbx.outst.find r = none ∧ ∃ x ∈ (s.answer r a).responses o.req, x.tag = o.req.tag ∧ x.ans = a) ∧
  (∀ (c : Cmd) (q : Req) (act : State → Nat → State × Option Ans) (s : State), s.hub.bedrockReady = true →
    boxOf c.code q ≠ 4097 →
    (16 ≤ (s.boxTags (boxOf c.code q)).length → s.reachBr c q act = s.answerNow q c.code s.now { status := .busy } false) ∧
    ((s.boxTags (boxOf c.code q)).length < 16 → q.tag ∈ s.boxTags (boxOf c.code q) →
      s.reachBr c q act = s.answerNow q c.code s.now { status := .invalid } true))

/-- PAIR_FORM between two devices whose pool profiles differ is answered ST_INVALID, and with a partner of another
ordering code or stepping ST_UNSUPPORTED, each where the checks before it pass, and the pair is unchanged.
(R17.) -/
def Obligations.PairFormRefusesOtherPartners : Prop :=
  (∀ (q : Req) (p : PairP) (s : State),
    let u := s.entry (pairFormCmd p) q
    s.admits (pairFormCmd p) q = true → s.pkg.tripped = false →
    firstFail (commonChecks u (pairFormCmd p) q ++ (pairFormChecks p u).take 3) = none →
    (u.partnerIs fun i => i.order == u.pairInfo.order && i.stepping == u.pairInfo.stepping) = false →
    Completes (.pairForm q p) s fun t => t.answers q 0x0901 { status := .unsupported } ∧ t.pair = u.pair) ∧
  (∀ (q : Req) (p : PairP) (s : State),
    let u := s.entry (pairFormCmd p) q
    s.admits (pairFormCmd p) q = true → s.pkg.tripped = false →
    firstFail (commonChecks u (pairFormCmd p) q ++ (pairFormChecks p u).take 4) = none →
    (u.partnerIs fun i => i.bulk == u.pairInfo.bulk) = false →
    Completes (.pairForm q p) s fun t => t.answers q 0x0901 { status := .invalid } ∧ t.pair = u.pair)

/-- A request on the link that its endpoint may send, whose packet's DECKLE is not that of its mailbox header, is
answered ST_INVALID, whatever its command; a bedrock request whose packet's DECKLE is not 0 is answered
ST_INVALID; and neither changes the partition or the outstanding commands. (R246.) -/
def Obligations.MailboxHeaderMustMatch : Prop :=
  (∀ (self : Instr) (c : Cmd) (q : Req) (checks : State → List Check) (act : State → Nat → State × Option Ans) (s : State),
    let u := (s.freeReq q).renewDriver q
    s.pkg.tripped = false → s.mbx.draining = none → q.via = .link →
    (s.freeReq q).carries q.port = true → (s.freeReq q).bound q.port q.ep = true →
    s.hub.running.isSome = true → u.isDissolving q.pktDeckle = false → u.accessCheck q.pktDeckle q.ep = none →
    c.code < 0xFF01 → q.pktDeckle ≠ q.deckle →
    (s.serve self c q checks act).answers q c.code { status := .invalid } ∧ (s.serve self c q checks act).part = u.part ∧
      (s.serve self c q checks act).mbx.outst = s.mbx.outst) ∧
  (∀ (c : Cmd) (q : Req) (act : State → Nat → State × Option Ans) (s : State),
    let u := s.freeReq q
    s.pkg.tripped = false → q.via = .link → u.carries q.port = true → u.bound q.port q.ep = true → s.hub.running.isSome = true →
    u.isDissolving q.pktDeckle = false → u.accessCheck q.pktDeckle q.ep = none →
    0xFF01 ≤ c.code → q.pktDeckle ≠ 0 →
    (s.serveBr c q act).answers q c.code { status := .invalid } ∧ (s.serveBr c q act).part = u.part ∧
      (s.serveBr c q act).mbx.outst = s.mbx.outst)

/-! ## Frames -/

/-- For every command that is no mailbox command and may not change the partition: every part of the state that its
row of mayChange does not name is unchanged when it goes on. (95_what_each_step_holds.md: What each step holds,
13_link.md: Training and retraining, 20_package_bringup.md: Reset, clock and sideband signals.) -/
def Obligations.DeviceCommandsFrame : Prop :=
  ∀ (i : Instr) (s t : State), i.mailbox = none → Zone.part ∉ i.mayChange → exec i s = .next t →
    ∀ z, z ∉ i.mayChange → Zone.same z s t

/-- For every mailbox command, whatever it answers: every part of the state that its row of mayChange does not name
is unchanged when it goes on. (95_what_each_step_holds.md: What each step holds, 02_hub_firmware.md: Command
catalogue.) -/
def Obligations.MailboxCommandsFrame : Prop :=
  ∀ (i : Instr) (q : Req) (s t : State), i.mailbox = some q → exec i s = .next t →
    ∀ z, z ∉ i.mayChange → Zone.same z s t

/-- For every command that is no mailbox command and may change the partition: every part of the state that its row
of mayChange does not name is unchanged when it goes on. (95_what_each_step_holds.md: What each step holds,
14_transactions.md: Packet formats.) -/
def Obligations.WorkCommandsFrame : Prop :=
  ∀ (i : Instr) (s t : State), i.mailbox = none → Zone.part ∈ i.mayChange → exec i s = .next t →
    ∀ z, z ∉ i.mayChange → Zone.same z s t

/-- For every command of the list keepsLines, a mailbox command among them only with inline parameters and no result
area: every stored line is unchanged when it goes on. (17_integrity.md: The line, 95_what_each_step_holds.md:
What each step holds.) -/
def Obligations.CommandsThatKeepEveryLine : Prop :=
  ∀ (i : Instr) (s t : State), i.keepsLines = true →
    (∀ q, i.mailbox = some q → q.ext = false ∧ q.resultPva = 0) → exec i s = .next t → t.mem.cells = s.mem.cells
end

