-- ==== Sys2Proof/Laws/Cells.lean ====
section
/-! SUPPORT. Which shared operations leave every stored line and every granule as they are. -/

namespace Sys2Proof.Machine
/-- The stored lines and the granules are the same in both states. -/
@[reducible, simp] def CellsKept (s t : State) : Prop := t.mem.cells = s.mem.cells ∧ t.part.granules = s.part.granules
theorem CellsKept.rfl' (s : State) : CellsKept s s := by simp
theorem CellsKept.trans {s t u : State} (h : CellsKept s t) (k : CellsKept t u) : CellsKept s u := by simp_all
@[simp] theorem ite_cells (p : Prop) [Decidable p] (a b : State) : (if p then a else b).mem.cells = if p then a.mem.cells else b.mem.cells := by split <;> rfl
@[simp] theorem ite_fst_cells {β : Type} (p : Prop) [Decidable p] (a b : State × β) : (if p then a else b).1.mem.cells = if p then a.1.mem.cells else b.1.mem.cells := by split <;> rfl
@[simp] theorem foldl_cells {α : Type} (l : List α) (f : State → α → State) (s : State) (h : ∀ a x, (f a x).mem.cells = a.mem.cells) :
    (l.foldl f s).mem.cells = s.mem.cells := by
  induction l generalizing s with
  | nil => rfl
  | cons x l ih => rw [List.foldl_cons, ih, h]
@[simp] theorem ite_granules (p : Prop) [Decidable p] (a b : State) : (if p then a else b).part.granules = if p then a.part.granules else b.part.granules := by split <;> rfl
@[simp] theorem ite_fst_granules {β : Type} (p : Prop) [Decidable p] (a b : State × β) : (if p then a else b).1.part.granules = if p then a.1.part.granules else b.1.part.granules := by split <;> rfl
@[simp] theorem foldl_granules {α : Type} (l : List α) (f : State → α → State) (s : State) (h : ∀ a x, (f a x).part.granules = a.part.granules) :
    (l.foldl f s).part.granules = s.part.granules := by
  induction l generalizing s with
  | nil => rfl
  | cons x l ih => rw [List.foldl_cons, ih, h]

@[simp] theorem State.advance_cells (s : State) (d : Nat) : CellsKept s (s.advance d) := by simp [State.advance]
@[simp] theorem State.reach_cells (s : State) (t : Nat) : CellsKept s (s.reach t) := by simp [State.reach]
@[simp] theorem State.draw_cells (s : State) (n : Nat) : CellsKept s (s.draw n).2 := by simp [State.draw]
@[simp] theorem State.setPort_cells (s : State) (p : Nat) (x : Port) : CellsKept s (s.setPort p x) := by simp [State.setPort]
@[simp] theorem State.modPort_cells (s : State) (p : Nat) (f : Port → Port) : CellsKept s (s.modPort p f) := by simp [State.modPort]
@[simp] theorem State.enqueue_cells (s : State) (p vc queue deckle : Nat) (m : Msg) (cls : Nat) : CellsKept s (s.enqueue p vc queue deckle m cls) := by simp [State.enqueue]
@[simp] theorem State.bypassSlot_cells (s : State) (p : Nat) (m : Slot) : CellsKept s (s.bypassSlot p m) := by simp [State.bypassSlot]
@[simp] theorem State.sendEp_cells (s : State) (ep vc queue deckle : Nat) (m : Msg) (cls : Nat) : CellsKept s (s.sendEp ep vc queue deckle m cls) := by unfold State.sendEp; (repeat' split) <;> simp
@[simp] theorem State.sendHeld_cells (s : State) (ep vc queue deckle : Nat) (m : Msg) (cls : Nat) : CellsKept s (s.sendHeld ep vc queue deckle m cls) := by unfold State.sendHeld; split <;> simp
@[simp] theorem State.pumpRingIf_cells (s : State) (may : Bool) (recv : Nat) : CellsKept s (s.pumpRingIf may recv) := by unfold State.pumpRingIf; (repeat' split) <;> simp
@[simp] theorem State.pumpRing_cells (s : State) (recv : Nat) : CellsKept s (s.pumpRing recv) := by simp [State.pumpRing]
@[simp] theorem State.pushRing_cells (s : State) (recv : Nat) (dev : Bool) (code deckle source params : Nat) : CellsKept s (s.pushRing recv dev code deckle source params) := by simp [State.pushRing]
@[simp] theorem State.raise_cells (s : State) (code : Nat) (who : Recv) (source : Nat) (params : Nat) (about : Nat) : CellsKept s (s.raise code who source params about) := by unfold State.raise; (repeat' split) <;> simp
@[simp] theorem State.discardHeld_cells (s : State) (test : Nat → Nat → Bool) : CellsKept s (s.discardHeld test) := by simp [State.discardHeld]
@[simp] theorem State.setEvEp_cells (s : State) (deckle ep : Nat) : CellsKept s (s.setEvEp deckle ep) := by simp [State.setEvEp]
@[simp] theorem State.modDeckle_cells (s : State) (d : Nat) (f : Deckle → Deckle) : CellsKept s (s.modDeckle d f) := by simp [State.modDeckle]
@[simp] theorem State.modExtent_cells (s : State) (x : Nat) (f : Extent → Extent) : CellsKept s (s.modExtent x f) := by simp [State.modExtent]
@[simp] theorem State.mismatch_cells (s : State) (d : Nat) : CellsKept s (s.mismatch d) := by simp [State.mismatch]
@[simp] theorem State.fillTlb_cells (s : State) (core d : Nat) (lines : List Nat) (refs : List LineRef) : CellsKept s (s.fillTlb core d lines refs) := by simp [State.fillTlb]
@[simp] theorem State.dropTlb_cells (s : State) (d : Nat) : CellsKept s (s.dropTlb d) := by simp [State.dropTlb]
@[simp] theorem State.pushRecord_cells (s : State) (mk : Nat → Msg) : CellsKept s (s.pushRecord mk).1 := by simp [State.pushRecord]
@[simp] theorem State.pushMeta_cells (s : State) (ep rtag : Nat) (fw : Bool) (last : Bool) (r : MetaRec) : CellsKept s (s.pushMeta ep rtag fw last r) := by simp [State.pushMeta]
@[simp] theorem State.markDirty_cells (s : State) (r : LineRef) : CellsKept s (s.markDirty r) := by simp [State.markDirty]
@[simp] theorem State.mirrorWrite_cells (s : State) (r : LineRef) (c : Cell) (ep rtag : Nat) (fw last : Bool) : CellsKept s (s.mirrorWrite r c ep rtag fw last).1 := by simp [State.mirrorWrite]
@[simp] theorem State.fetchLine_cells (s : State) (r : LineRef) : CellsKept s (s.fetchLine r) := by simp [State.fetchLine]
@[simp] theorem State.modGroup_cells (s : State) (g : Nat) (f : Group → Group) : CellsKept s (s.modGroup g f) := by simp [State.modGroup]
@[simp] theorem State.logRec_cells (s : State) (r : LogRec) : CellsKept s (s.logRec r) := by simp [State.logRec]
@[simp] theorem State.countCe_cells (s : State) (k : Nat) : CellsKept s (s.countCe k) := by simp [State.countCe]
@[simp] theorem State.failOut_cells (s : State) (g u cause : Nat) : CellsKept s (s.failOut g u cause) := by simp [State.failOut]
@[simp] theorem State.countUe_cells (s : State) (g u : Nat) : CellsKept s (s.countUe g u) := by simp [State.countUe]
@[simp] theorem State.charge_cells (s : State) (d cls kind pj : Nat) : CellsKept s (s.charge d cls kind pj) := by simp [State.charge]
@[simp] theorem State.chargeTier_cells (s : State) (d cls : Nat) (t : Tier) (pj n : Nat) : CellsKept s (s.chargeTier d cls t pj n) := by unfold State.chargeTier; split <;> simp
@[simp] theorem State.takeInject_cells (s : State) (k row : Nat) (parity : Bool) : CellsKept s (s.takeInject k row parity).2 := by
  unfold State.takeInject; (repeat' split) <;> (first | (simp; done) | (simp; (repeat' (first | (with_reducible rfl) | (simp; done) | split)); done))
@[simp] theorem State.unpoison_cells (s : State) (t : Tier) (line : Nat) : CellsKept s (s.unpoison t line) := by simp [State.unpoison]
@[simp] theorem State.freeBuf_cells (s : State) (p vc n : Nat) : CellsKept s (s.freeBuf p vc n) := by simp [State.freeBuf]
@[simp] theorem State.freeEp_cells (s : State) (ep : Nat) : CellsKept s (s.freeEp ep) := by simp [State.freeEp]
@[simp] theorem State.freeIfIdle_cells (s : State) (ep : Nat) : CellsKept s (s.freeIfIdle ep) := by unfold State.freeIfIdle; split <;> simp
@[simp] theorem State.freeBefore8_cells (s : State) (p n : Nat) : CellsKept s (s.freeBefore8 p n) := by simp [State.freeBefore8]
@[simp] theorem State.resendRecords_cells (s : State) (p : Nat) : CellsKept s (s.resendRecords p) := by simp [State.resendRecords]
@[simp] theorem State.portDown_cells (s : State) (p cause : Nat) : CellsKept s (s.portDown p cause) := by simp [State.portDown]
@[simp] theorem State.startRetrain_cells (s : State) (p cause width : Nat) (own : Bool) : CellsKept s (s.startRetrain p cause width own) := by simp [State.startRetrain]
@[simp] theorem State.replayFrom8_cells (s : State) (p n : Nat) : CellsKept s (s.replayFrom8 p n) := by simp [State.replayFrom8]
@[simp] theorem State.respond_cells (s : State) (q : Req) (r : MbxRsp) : CellsKept s (s.respond q r) := by unfold State.respond; split <;> simp
@[simp] theorem State.mirrorCommit_cells (old new : State) (ep rtag : Nat) (fw : Bool) (done : List MetaRec) : CellsKept new (State.mirrorCommit old new ep rtag fw done).1 := by unfold State.mirrorCommit; (repeat' split) <;> simp
@[simp] theorem State.commitFw_cells (old new : State) : CellsKept new (State.commitFw old new) := by simp [State.commitFw]
@[simp] theorem State.renewDriver_cells (s : State) (q : Req) : CellsKept s (s.renewDriver q) := by simp [State.renewDriver]
@[simp] theorem State.discardPkt_cells (s : State) (p : Nat) : CellsKept s (s.discardPkt p) := by simp [State.discardPkt]
@[simp] theorem State.takeEvreg_cells (s : State) (q : Req) : CellsKept s (s.takeEvreg q) := by simp [State.takeEvreg]
@[simp] theorem State.opened_cells (s : State) (c : Cmd) (q : Req) (acc : Nat) : CellsKept s (s.opened c q acc) := by simp [State.opened]
@[simp] theorem State.freeReq_cells (s : State) (q : Req) : CellsKept s (s.freeReq q) := by simp [State.freeReq]
@[simp] theorem State.setJob_cells (s : State) (j : Nat) (x : Job) : CellsKept s (s.setJob j x) := by simp [State.setJob]
@[simp] theorem State.nak_cells (s : State) (p : Nat) : CellsKept s (s.nak p) := by simp [State.nak]
@[simp] theorem State.back_cells (s : State) (p : Nat) (nak : Bool) (n : Nat) : CellsKept s (s.back p nak n) := by simp [State.back]
@[simp] theorem State.modPair_cells (s : State) (f : Pair → Pair) : CellsKept s (s.modPair f) := by simp [State.modPair]
end Sys2Proof.Machine
end

