-- ==== Sys2Proof/Laws/Kept.lean ====
section
/-! SUPPORT. What the shared operations on the path of a mailbox request leave alone. -/

namespace Sys2Proof.Machine

/-- What the serving of a mailbox request leaves alone, whatever the command: everything but the mailbox, the
memory that holds parameters and results, the tables that count energy, the ports, the pair's stream and the pins. -/
@[reducible, simp] def Kept (s t : State) : Prop :=
  t.pending = s.pending ∧ t.now = s.now ∧ t.free = s.free ∧ t.board = s.board ∧ t.rgn = s.rgn ∧
  t.lode = s.lode ∧ t.xlat = s.xlat ∧ t.eng = s.eng ∧ t.attn = s.attn ∧ t.form = s.form ∧
  t.retr = s.retr ∧ t.couch = s.couch ∧ t.laid = s.laid ∧ t.sec = s.sec

theorem Kept.rfl' (s : State) : Kept s s := by simp [Kept]
theorem Kept.trans {s t u : State} (h : Kept s t) (k : Kept t u) : Kept s u := by simp_all [Kept]
theorem kept_ite (p : Prop) [Decidable p] {s a b : State} (ha : Kept s a) (hb : Kept s b) : Kept s (if p then a else b) := by
  split <;> assumption
theorem kept_foldl {α : Type} (l : List α) (f : State → α → State) (h : ∀ a x, Kept a (f a x)) (s : State) :
    Kept s (l.foldl f s) := by
  induction l generalizing s with
  | nil => exact .rfl' s
  | cons x l ih => exact (h s x).trans (ih _)
theorem kept_foldl_fst {α β : Type} (l : List α) (f : State × β → α → State × β) (h : ∀ a x, Kept a.1 (f a x).1) (s : State × β) :
    Kept s.1 (l.foldl f s).1 := by
  induction l generalizing s with
  | nil => exact .rfl' s.1
  | cons x l ih => exact (h s x).trans (ih _)
@[simp] theorem ite_pending (p : Prop) [Decidable p] (a b : State) : (if p then a else b).pending = if p then a.pending else b.pending := by split <;> rfl
@[simp] theorem ite_fst_pending {β : Type} (p : Prop) [Decidable p] (a b : State × β) : (if p then a else b).1.pending = if p then a.1.pending else b.1.pending := by split <;> rfl
@[simp] theorem foldl_pending {α : Type} (l : List α) (f : State → α → State) (s : State) (h : ∀ a x, (f a x).pending = a.pending) :
    (l.foldl f s).pending = s.pending := by
  induction l generalizing s with
  | nil => rfl
  | cons x l ih => rw [List.foldl_cons, ih, h]
@[simp] theorem ite_now (p : Prop) [Decidable p] (a b : State) : (if p then a else b).now = if p then a.now else b.now := by split <;> rfl
@[simp] theorem ite_fst_now {β : Type} (p : Prop) [Decidable p] (a b : State × β) : (if p then a else b).1.now = if p then a.1.now else b.1.now := by split <;> rfl
@[simp] theorem foldl_now {α : Type} (l : List α) (f : State → α → State) (s : State) (h : ∀ a x, (f a x).now = a.now) :
    (l.foldl f s).now = s.now := by
  induction l generalizing s with
  | nil => rfl
  | cons x l ih => rw [List.foldl_cons, ih, h]
@[simp] theorem ite_free (p : Prop) [Decidable p] (a b : State) : (if p then a else b).free = if p then a.free else b.free := by split <;> rfl
@[simp] theorem ite_fst_free {β : Type} (p : Prop) [Decidable p] (a b : State × β) : (if p then a else b).1.free = if p then a.1.free else b.1.free := by split <;> rfl
@[simp] theorem foldl_free {α : Type} (l : List α) (f : State → α → State) (s : State) (h : ∀ a x, (f a x).free = a.free) :
    (l.foldl f s).free = s.free := by
  induction l generalizing s with
  | nil => rfl
  | cons x l ih => rw [List.foldl_cons, ih, h]
@[simp] theorem ite_board (p : Prop) [Decidable p] (a b : State) : (if p then a else b).board = if p then a.board else b.board := by split <;> rfl
@[simp] theorem ite_fst_board {β : Type} (p : Prop) [Decidable p] (a b : State × β) : (if p then a else b).1.board = if p then a.1.board else b.1.board := by split <;> rfl
@[simp] theorem foldl_board {α : Type} (l : List α) (f : State → α → State) (s : State) (h : ∀ a x, (f a x).board = a.board) :
    (l.foldl f s).board = s.board := by
  induction l generalizing s with
  | nil => rfl
  | cons x l ih => rw [List.foldl_cons, ih, h]
@[simp] theorem ite_rgn (p : Prop) [Decidable p] (a b : State) : (if p then a else b).rgn = if p then a.rgn else b.rgn := by split <;> rfl
@[simp] theorem ite_fst_rgn {β : Type} (p : Prop) [Decidable p] (a b : State × β) : (if p then a else b).1.rgn = if p then a.1.rgn else b.1.rgn := by split <;> rfl
@[simp] theorem foldl_rgn {α : Type} (l : List α) (f : State → α → State) (s : State) (h : ∀ a x, (f a x).rgn = a.rgn) :
    (l.foldl f s).rgn = s.rgn := by
  induction l generalizing s with
  | nil => rfl
  | cons x l ih => rw [List.foldl_cons, ih, h]
@[simp] theorem ite_lode (p : Prop) [Decidable p] (a b : State) : (if p then a else b).lode = if p then a.lode else b.lode := by split <;> rfl
@[simp] theorem ite_fst_lode {β : Type} (p : Prop) [Decidable p] (a b : State × β) : (if p then a else b).1.lode = if p then a.1.lode else b.1.lode := by split <;> rfl
@[simp] theorem foldl_lode {α : Type} (l : List α) (f : State → α → State) (s : State) (h : ∀ a x, (f a x).lode = a.lode) :
    (l.foldl f s).lode = s.lode := by
  induction l generalizing s with
  | nil => rfl
  | cons x l ih => rw [List.foldl_cons, ih, h]
@[simp] theorem ite_xlat (p : Prop) [Decidable p] (a b : State) : (if p then a else b).xlat = if p then a.xlat else b.xlat := by split <;> rfl
@[simp] theorem ite_fst_xlat {β : Type} (p : Prop) [Decidable p] (a b : State × β) : (if p then a else b).1.xlat = if p then a.1.xlat else b.1.xlat := by split <;> rfl
@[simp] theorem foldl_xlat {α : Type} (l : List α) (f : State → α → State) (s : State) (h : ∀ a x, (f a x).xlat = a.xlat) :
    (l.foldl f s).xlat = s.xlat := by
  induction l generalizing s with
  | nil => rfl
  | cons x l ih => rw [List.foldl_cons, ih, h]
@[simp] theorem ite_eng (p : Prop) [Decidable p] (a b : State) : (if p then a else b).eng = if p then a.eng else b.eng := by split <;> rfl
@[simp] theorem ite_fst_eng {β : Type} (p : Prop) [Decidable p] (a b : State × β) : (if p then a else b).1.eng = if p then a.1.eng else b.1.eng := by split <;> rfl
@[simp] theorem foldl_eng {α : Type} (l : List α) (f : State → α → State) (s : State) (h : ∀ a x, (f a x).eng = a.eng) :
    (l.foldl f s).eng = s.eng := by
  induction l generalizing s with
  | nil => rfl
  | cons x l ih => rw [List.foldl_cons, ih, h]
@[simp] theorem ite_attn (p : Prop) [Decidable p] (a b : State) : (if p then a else b).attn = if p then a.attn else b.attn := by split <;> rfl
@[simp] theorem ite_fst_attn {β : Type} (p : Prop) [Decidable p] (a b : State × β) : (if p then a else b).1.attn = if p then a.1.attn else b.1.attn := by split <;> rfl
@[simp] theorem foldl_attn {α : Type} (l : List α) (f : State → α → State) (s : State) (h : ∀ a x, (f a x).attn = a.attn) :
    (l.foldl f s).attn = s.attn := by
  induction l generalizing s with
  | nil => rfl
  | cons x l ih => rw [List.foldl_cons, ih, h]
@[simp] theorem ite_form (p : Prop) [Decidable p] (a b : State) : (if p then a else b).form = if p then a.form else b.form := by split <;> rfl
@[simp] theorem ite_fst_form {β : Type} (p : Prop) [Decidable p] (a b : State × β) : (if p then a else b).1.form = if p then a.1.form else b.1.form := by split <;> rfl
@[simp] theorem foldl_form {α : Type} (l : List α) (f : State → α → State) (s : State) (h : ∀ a x, (f a x).form = a.form) :
    (l.foldl f s).form = s.form := by
  induction l generalizing s with
  | nil => rfl
  | cons x l ih => rw [List.foldl_cons, ih, h]
@[simp] theorem ite_retr (p : Prop) [Decidable p] (a b : State) : (if p then a else b).retr = if p then a.retr else b.retr := by split <;> rfl
@[simp] theorem ite_fst_retr {β : Type} (p : Prop) [Decidable p] (a b : State × β) : (if p then a else b).1.retr = if p then a.1.retr else b.1.retr := by split <;> rfl
@[simp] theorem foldl_retr {α : Type} (l : List α) (f : State → α → State) (s : State) (h : ∀ a x, (f a x).retr = a.retr) :
    (l.foldl f s).retr = s.retr := by
  induction l generalizing s with
  | nil => rfl
  | cons x l ih => rw [List.foldl_cons, ih, h]
@[simp] theorem ite_couch (p : Prop) [Decidable p] (a b : State) : (if p then a else b).couch = if p then a.couch else b.couch := by split <;> rfl
@[simp] theorem ite_fst_couch {β : Type} (p : Prop) [Decidable p] (a b : State × β) : (if p then a else b).1.couch = if p then a.1.couch else b.1.couch := by split <;> rfl
@[simp] theorem foldl_couch {α : Type} (l : List α) (f : State → α → State) (s : State) (h : ∀ a x, (f a x).couch = a.couch) :
    (l.foldl f s).couch = s.couch := by
  induction l generalizing s with
  | nil => rfl
  | cons x l ih => rw [List.foldl_cons, ih, h]
@[simp] theorem ite_laid (p : Prop) [Decidable p] (a b : State) : (if p then a else b).laid = if p then a.laid else b.laid := by split <;> rfl
@[simp] theorem ite_fst_laid {β : Type} (p : Prop) [Decidable p] (a b : State × β) : (if p then a else b).1.laid = if p then a.1.laid else b.1.laid := by split <;> rfl
@[simp] theorem foldl_laid {α : Type} (l : List α) (f : State → α → State) (s : State) (h : ∀ a x, (f a x).laid = a.laid) :
    (l.foldl f s).laid = s.laid := by
  induction l generalizing s with
  | nil => rfl
  | cons x l ih => rw [List.foldl_cons, ih, h]
@[simp] theorem ite_sec (p : Prop) [Decidable p] (a b : State) : (if p then a else b).sec = if p then a.sec else b.sec := by split <;> rfl
@[simp] theorem ite_fst_sec {β : Type} (p : Prop) [Decidable p] (a b : State × β) : (if p then a else b).1.sec = if p then a.1.sec else b.1.sec := by split <;> rfl
@[simp] theorem foldl_sec {α : Type} (l : List α) (f : State → α → State) (s : State) (h : ∀ a x, (f a x).sec = a.sec) :
    (l.foldl f s).sec = s.sec := by
  induction l generalizing s with
  | nil => rfl
  | cons x l ih => rw [List.foldl_cons, ih, h]
@[simp] theorem State.setPort_kept (s : State) (p : Nat) (x : Port) : Kept s (s.setPort p x) := by simp [State.setPort]
@[simp] theorem State.modPort_kept (s : State) (p : Nat) (f : Port → Port) : Kept s (s.modPort p f) := by simp [State.modPort]
@[simp] theorem State.enqueue_kept (s : State) (p vc queue deckle : Nat) (m : Msg) (cls : Nat) : Kept s (s.enqueue p vc queue deckle m cls) := by simp [State.enqueue]
@[simp] theorem State.sendHeld_kept (s : State) (ep vc queue deckle : Nat) (m : Msg) (cls : Nat) : Kept s (s.sendHeld ep vc queue deckle m cls) := by unfold State.sendHeld; split <;> simp
@[simp] theorem State.pumpRingIf_kept (s : State) (may : Bool) (recv : Nat) : Kept s (s.pumpRingIf may recv) := by unfold State.pumpRingIf; (repeat' split) <;> simp
@[simp] theorem State.pumpRing_kept (s : State) (recv : Nat) : Kept s (s.pumpRing recv) := by simp [State.pumpRing]
@[simp] theorem State.pushRing_kept (s : State) (recv : Nat) (dev : Bool) (code deckle source params : Nat) : Kept s (s.pushRing recv dev code deckle source params) := by simp [State.pushRing]
@[simp] theorem State.raise_kept (s : State) (code : Nat) (who : Recv) (source : Nat) (params : Nat) (about : Nat) : Kept s (s.raise code who source params about) := by unfold State.raise; (repeat' split) <;> simp
@[simp] theorem State.discardHeld_kept (s : State) (test : Nat → Nat → Bool) : Kept s (s.discardHeld test) := by simp [State.discardHeld]
@[simp] theorem State.setEvEp_kept (s : State) (deckle ep : Nat) : Kept s (s.setEvEp deckle ep) := by simp [State.setEvEp]
@[simp] theorem State.modDeckle_kept (s : State) (d : Nat) (f : Deckle → Deckle) : Kept s (s.modDeckle d f) := by simp [State.modDeckle]
@[simp] theorem State.modExtent_kept (s : State) (x : Nat) (f : Extent → Extent) : Kept s (s.modExtent x f) := by simp [State.modExtent]
@[simp] theorem State.putCell_kept (s : State) (t : Tier) (line : Nat) (c : Cell) : Kept s (s.putCell t line c) := by simp [State.putCell]
@[simp] theorem State.mismatch_kept (s : State) (d : Nat) : Kept s (s.mismatch d) := by simp [State.mismatch]
@[simp] theorem State.pushRecord_kept (s : State) (mk : Nat → Msg) : Kept s (s.pushRecord mk).1 := by simp [State.pushRecord]
@[simp] theorem State.pushMeta_kept (s : State) (ep rtag : Nat) (fw : Bool) (last : Bool) (r : MetaRec) : Kept s (s.pushMeta ep rtag fw last r) := by simp [State.pushMeta]
@[simp] theorem State.markDirty_kept (s : State) (r : LineRef) : Kept s (s.markDirty r) := by simp [State.markDirty]
@[simp] theorem State.mirrorWrite_kept (s : State) (r : LineRef) (c : Cell) (ep rtag : Nat) (fw last : Bool) : Kept s (s.mirrorWrite r c ep rtag fw last).1 := by simp [State.mirrorWrite]
@[simp] theorem State.fetchLine_kept (s : State) (r : LineRef) : Kept s (s.fetchLine r) := by simp [State.fetchLine]
@[simp] theorem State.modGroup_kept (s : State) (g : Nat) (f : Group → Group) : Kept s (s.modGroup g f) := by simp [State.modGroup]
@[simp] theorem State.logRec_kept (s : State) (r : LogRec) : Kept s (s.logRec r) := by simp [State.logRec]
@[simp] theorem State.countCe_kept (s : State) (k : Nat) : Kept s (s.countCe k) := by simp [State.countCe]
@[simp] theorem State.failOut_kept (s : State) (g u cause : Nat) : Kept s (s.failOut g u cause) := by simp [State.failOut]
@[simp] theorem State.countUe_kept (s : State) (g u : Nat) : Kept s (s.countUe g u) := by simp [State.countUe]
@[simp] theorem State.charge_kept (s : State) (d cls kind pj : Nat) : Kept s (s.charge d cls kind pj) := by simp [State.charge]
@[simp] theorem State.chargeTier_kept (s : State) (d cls : Nat) (t : Tier) (pj n : Nat) : Kept s (s.chargeTier d cls t pj n) := by unfold State.chargeTier; split <;> simp
@[simp] theorem State.takeInject_kept (s : State) (k row : Nat) (parity : Bool) : Kept s (s.takeInject k row parity).2 := by
  unfold State.takeInject; (repeat' split) <;> (first | (simp; done) | (simp; (repeat' (first | (with_reducible rfl) | (simp; done) | split)); done))
@[simp] theorem State.unpoison_kept (s : State) (t : Tier) (line : Nat) : Kept s (s.unpoison t line) := by simp [State.unpoison]
@[simp] theorem State.storeCell_kept (s : State) (t : Tier) (line : Nat) (c : Cell) (full : Bool) : Kept s (s.storeCell t line c full) := by
  unfold State.storeCell; (repeat' split) <;> (first | (simp; done) | (simp; (repeat' (first | (with_reducible rfl) | (simp; done) | split)); done))
@[simp] theorem State.dualWrite_kept (s : State) (r : LineRef) (c : Cell) (full : Bool) : Kept s (s.dualWrite r c full) := by unfold State.dualWrite; split <;> simp
@[simp] theorem State.storeLine_kept (s : State) (r : LineRef) (c : Cell) (full : Bool) : Kept s (s.storeLine r c full) := by simp [State.storeLine]
@[simp] theorem State.poisonAt_kept (s : State) (r : LineRef) (cause idx : Nat) : Kept s (s.poisonAt r cause idx) := by
  unfold State.poisonAt; (repeat' split) <;> (first | (simp; done) | (simp; (repeat' (first | (with_reducible rfl) | (simp; done) | split)); done))
@[simp] theorem State.poisonLine_kept (s : State) (r : LineRef) (cause : Nat) : Kept s (s.poisonLine r cause) := by simp [State.poisonLine]
@[simp] theorem State.endPoison_kept (s : State) (r : LineRef) (cause : Nat) : Kept s (s.endPoison r cause).1 := by simp [State.endPoison]
@[simp] theorem State.reconstruct_kept (s : State) (r : LineRef) (step4 : Bool) (cls : Nat) : Kept s (s.reconstruct r step4 cls).1 := by
  unfold State.reconstruct; (repeat' split) <;> (first | (simp; done) | (simp; (repeat' (first | (with_reducible rfl) | (simp; done) | split)); done))
@[simp] theorem State.readLineN_kept (s : State) (r : LineRef) (cls : Nat) : Kept s (s.readLineN r cls).1 := by
  unfold State.readLineN; (repeat' split) <;> (first | (simp; done) | (simp; (repeat' (first | (with_reducible rfl) | (simp; done) | split)); done))
@[simp] theorem State.readLine_kept (s : State) (r : LineRef) (cls : Nat) : Kept s (s.readLine r cls).1 := by simp [State.readLine]
@[simp] theorem State.writeWhole_kept (s : State) (r : LineRef) (data : Line) (full : Bool) (o : Origin) : Kept s (s.writeWhole r data full o).1 := by simp [State.writeWhole]
@[simp] theorem State.writeLine_kept (s : State) (r : LineRef) (data : Line) (mask : BitVec 64) (full : Bool) (o : Origin) :
    Kept s (s.writeLine r data mask full o).1 := by
  have h := State.readLine_kept s r o.cls
  unfold State.writeLine
  generalize s.readLine r o.cls = y at h ⊢
  obtain ⟨s1, out⟩ := y
  split
  · exact .rfl' s
  · split
    · exact State.writeWhole_kept ..
    · cases out <;> first | exact h | exact Kept.trans h (State.writeWhole_kept ..)
@[simp] theorem State.readLines_kept (s : State) (rs : List LineRef) (cls : Nat) : Kept s (s.readLines rs cls).1 := by
  induction rs generalizing s with
  | nil => exact .rfl' s
  | cons r rs ih =>
    have h := State.readLine_kept s r cls
    unfold State.readLines
    generalize s.readLine r cls = y at h ⊢
    obtain ⟨s1, out⟩ := y
    cases out with
    | data l =>
      have k := ih s1
      dsimp only at h ⊢
      generalize s1.readLines rs cls = z at k ⊢
      obtain ⟨s2, o2, l2⟩ := z
      cases o2 <;> exact Kept.trans h k
    | _ => exact h
@[simp] theorem State.readBytes_kept (s : State) (d pva n : Nat) : Kept s (s.readBytes d pva n).1 := by
  unfold State.readBytes
  dsimp only
  split
  · next refs _ =>
    have h := State.readLines_kept s refs 0
    generalize s.readLines refs 0 = y at h ⊢
    obtain ⟨s1, out, l⟩ := y
    cases out <;> exact h
  · exact State.mismatch_kept ..
  · exact .rfl' s
@[simp] theorem State.writeBytes_kept (s : State) (d pva n v : Nat) : Kept s (s.writeBytes d pva n v) := by
  unfold State.writeBytes
  split
  · exact kept_foldl_fst _ _ (fun a x => by dsimp only; exact State.writeLine_kept ..) (s, (0 : Nat))
  · exact .rfl' s
@[simp] theorem State.freeBuf_kept (s : State) (p vc n : Nat) : Kept s (s.freeBuf p vc n) := by simp [State.freeBuf]
@[simp] theorem State.freeEp_kept (s : State) (ep : Nat) : Kept s (s.freeEp ep) := by simp [State.freeEp]
@[simp] theorem State.freeIfIdle_kept (s : State) (ep : Nat) : Kept s (s.freeIfIdle ep) := by unfold State.freeIfIdle; split <;> simp
@[simp] theorem State.freeBefore8_kept (s : State) (p n : Nat) : Kept s (s.freeBefore8 p n) := by simp [State.freeBefore8]
@[simp] theorem State.resendRecords_kept (s : State) (p : Nat) : Kept s (s.resendRecords p) := by simp [State.resendRecords]
@[simp] theorem State.portDown_kept (s : State) (p cause : Nat) : Kept s (s.portDown p cause) := by simp [State.portDown]
@[simp] theorem State.startRetrain_kept (s : State) (p cause width : Nat) (own : Bool) : Kept s (s.startRetrain p cause width own) := by simp [State.startRetrain]
@[simp] theorem State.replayFrom8_kept (s : State) (p n : Nat) : Kept s (s.replayFrom8 p n) := by simp [State.replayFrom8]
@[simp] theorem State.respond_kept (s : State) (q : Req) (r : MbxRsp) : Kept s (s.respond q r) := by unfold State.respond; split <;> simp
@[simp] theorem State.fillArea_kept (s : State) (q : Req) (a : Ans) : Kept s (s.fillArea q a).1 := by simp [State.fillArea]
@[simp] theorem State.answerNow_kept (s : State) (q : Req) (code accepted : Nat) (a : Ans) (dup : Bool) : Kept s (s.answerNow q code accepted a dup) := by simp [State.answerNow]
@[simp] theorem State.answer_kept (s : State) (r : Nat) (a : Ans) : Kept s (s.answer r a) := by unfold State.answer; split <;> simp
@[simp] theorem State.mirrorCommit_kept (old new : State) (ep rtag : Nat) (fw : Bool) (done : List MetaRec) : Kept new (State.mirrorCommit old new ep rtag fw done).1 := by unfold State.mirrorCommit; (repeat' split) <;> simp
@[simp] theorem State.commitFw_kept (old new : State) : Kept new (State.commitFw old new) := by simp [State.commitFw]
@[simp] theorem State.settle_kept (old new : State) (r : Option Nat) (a : Ans) : Kept new (State.settle old new r a) := by unfold State.settle; split <;> simp
@[simp] theorem State.renewDriver_kept (s : State) (q : Req) : Kept s (s.renewDriver q) := by simp [State.renewDriver]
@[simp] theorem State.discardPkt_kept (s : State) (p : Nat) : Kept s (s.discardPkt p) := by simp [State.discardPkt]
@[simp] theorem State.formCheck_kept (s : State) (c : Cmd) (q : Req) : Kept s (s.formCheck c q).1 := by simp [State.formCheck]
@[simp] theorem State.takeEvreg_kept (s : State) (q : Req) : Kept s (s.takeEvreg q) := by simp [State.takeEvreg]
@[simp] theorem State.opened_kept (s : State) (c : Cmd) (q : Req) (acc : Nat) : Kept s (s.opened c q acc) := by simp [State.opened]
@[simp] theorem State.closed_kept (s : State) (c : Cmd) (q : Req) (acc r : Nat) (y : State × Option Ans) : Kept y.1 (s.closed c q acc r y) := by unfold State.closed; split <;> simp
@[simp] theorem State.conclude_kept (s : State) (c : Cmd) (q : Req) (acc : Nat) (act : State → Nat → State × Option Ans) : Kept (act (s.opened c q acc) s.mbx.nextReply).1 (s.conclude c q acc act) := by simp [State.conclude]
@[simp] theorem State.freeReq_kept (s : State) (q : Req) : Kept s (s.freeReq q) := by simp [State.freeReq]
@[simp] theorem State.nak_kept (s : State) (p : Nat) : Kept s (s.nak p) := by simp [State.nak]
@[simp] theorem State.back_kept (s : State) (p : Nat) (nak : Bool) (n : Nat) : Kept s (s.back p nak n) := by simp [State.back]
end Sys2Proof.Machine
end

