-- ==== Sys2Proof/Laws/NMap.lean ====
section
/-! SUPPORT. Laws of the sparse tables: every operation keeps the canonical form, and what a look-up
gives after each operation. -/

namespace Sys2Proof

variable {α : Type}

@[simp] theorem NMap.find_nil (k : Nat) : NMap.find ([] : NMap α) k = none := rfl
@[simp] theorem NMap.wf_nil : NMap.wf ([] : NMap α) = true := rfl

theorem NMap.find_cons (x : Nat × α) (m : NMap α) (k : Nat) :
    NMap.find (x :: m) k = if k = x.1 then some x.2 else NMap.find m k := rfl

/-! ## Look-up after an operation -/

@[simp] theorem NMap.find_put (m : NMap α) (k : Nat) (a : α) : (NMap.put m k a).find k = some a := by
  induction m with
  | nil => simp [NMap.put, NMap.find]
  | cons x m ih =>
    obtain ⟨i, b⟩ := x
    unfold NMap.put
    split
    · simp [NMap.find]
    · split
      · simp [NMap.find]
      · next h => simp [NMap.find, h, ih]

theorem NMap.find_put_ne (m : NMap α) {k j : Nat} (a : α) (h : j ≠ k) : (NMap.put m k a).find j = NMap.find m j := by
  induction m with
  | nil => simp [NMap.put, NMap.find, h]
  | cons x m ih =>
    obtain ⟨i, b⟩ := x
    unfold NMap.put
    split
    · simp [NMap.find, h]
    · split
      · next hk => subst hk; simp [NMap.find, h]
      · simp [NMap.find, ih]

theorem NMap.find_del_ne (m : NMap α) {k j : Nat} (h : j ≠ k) : (NMap.del m k).find j = NMap.find m j := by
  induction m with
  | nil => rfl
  | cons x m ih =>
    obtain ⟨i, b⟩ := x
    unfold NMap.del
    split
    · next hk => subst hk; simp [NMap.find, h]
    · simp [NMap.find, ih]

theorem NMap.find_upd (m : NMap α) (k j : Nat) (f : α → α) :
    (NMap.upd m k f).find j = if j = k then (NMap.find m j).map f else NMap.find m j := by
  induction m with
  | nil => simp [NMap.upd, NMap.find]
  | cons x m ih =>
    obtain ⟨i, b⟩ := x
    simp only [NMap.upd, List.map_cons] at ih ⊢
    simp only [NMap.find_cons]
    by_cases hi : i = k
    · subst hi
      by_cases hj : j = i
      · simp [hj]
      · simp only [if_true, if_neg hj]; rw [ih, if_neg hj]
    · simp only [if_neg hi]
      by_cases hj : j = i
      · subst hj; simp [hi]
      · simp only [if_neg hj]; exact ih

@[simp] theorem NMap.find_upd_same (m : NMap α) (k : Nat) (f : α → α) : (NMap.upd m k f).find k = (NMap.find m k).map f := by
  simp [NMap.find_upd]

theorem NMap.find_upd_ne (m : NMap α) {k j : Nat} (f : α → α) (h : j ≠ k) : (NMap.upd m k f).find j = NMap.find m j := by
  simp [NMap.find_upd, h]

@[simp] theorem NMap.find_each (m : NMap α) (f : Nat → α → α) (j : Nat) :
    (NMap.each m f).find j = (NMap.find m j).map (f j) := by
  induction m with
  | nil => rfl
  | cons x m ih =>
    simp only [NMap.each, List.map_cons, NMap.find_cons] at ih ⊢
    by_cases hj : j = x.1
    · simp [hj]
    · simp only [if_neg hj]; exact ih

theorem NMap.find_some_mem {m : NMap α} {k : Nat} {a : α} (h : NMap.find m k = some a) : (k, a) ∈ m := by
  induction m with
  | nil => simp at h
  | cons x m ih =>
    simp only [NMap.find_cons] at h
    by_cases hk : k = x.1
    · simp only [if_pos hk, Option.some.injEq] at h; subst hk h; simp
    · exact List.mem_cons_of_mem _ (ih (by simpa [hk] using h))

/-! ## The canonical form -/

/-- The canonical form, as an order on the keys. -/
theorem NMap.wf_iff (m : NMap α) : NMap.wf m = true ↔ m.Pairwise fun x y => x.1 < y.1 := by
  induction m with
  | nil => simp
  | cons x m ih =>
    cases m with
    | nil => simp [NMap.wf]
    | cons y m =>
      simp only [NMap.wf, Bool.and_eq_true, decide_eq_true_eq, ih, List.pairwise_cons]
      constructor
      · rintro ⟨h, hy, hm⟩
        refine ⟨fun z hz => ?_, hy, hm⟩
        rcases List.mem_cons.mp hz with rfl | hz
        · exact h
        · exact h.trans (hy z hz)
      · rintro ⟨hx, hy, hm⟩
        exact ⟨hx y (by simp), hy, hm⟩

theorem NMap.wf_filter {m : NMap α} (h : NMap.wf m = true) (p : Nat × α → Bool) : NMap.wf (m.filter p) = true := by
  rw [NMap.wf_iff] at h ⊢; exact h.filter p

theorem NMap.wf_keep {m : NMap α} (h : NMap.wf m = true) (f : Nat → α → Bool) : NMap.wf (NMap.keep m f) = true :=
  NMap.wf_filter h _

theorem NMap.wf_map {β : Type} {m : NMap α} (h : NMap.wf m = true) (f : Nat × α → Nat × β) (hf : ∀ x, (f x).1 = x.1) :
    NMap.wf (m.map f) = true := by
  rw [NMap.wf_iff] at h ⊢
  rw [List.pairwise_map]
  simpa [hf] using h

theorem NMap.wf_upd {m : NMap α} (h : NMap.wf m = true) (k : Nat) (f : α → α) : NMap.wf (NMap.upd m k f) = true :=
  NMap.wf_map h _ fun x => by split <;> rfl

theorem NMap.wf_each {m : NMap α} (h : NMap.wf m = true) (f : Nat → α → α) : NMap.wf (NMap.each m f) = true :=
  NMap.wf_map h _ fun _ => rfl

/-- The entries after a write are the entry written and entries that were there. -/
theorem NMap.mem_put {m : NMap α} {k : Nat} {a : α} {x : Nat × α} (h : x ∈ NMap.put m k a) : x = (k, a) ∨ x ∈ m := by
  induction m with
  | nil => simpa [NMap.put] using h
  | cons y m ih =>
    unfold NMap.put at h
    split at h
    · simpa using h
    · split at h
      · simp only [List.mem_cons] at h ⊢; tauto
      · simp only [List.mem_cons] at h ⊢
        rcases h with h | h
        · exact .inr (.inl h)
        · exact (ih h).imp_right .inr

theorem NMap.mem_del {m : NMap α} {k : Nat} {x : Nat × α} (h : x ∈ NMap.del m k) : x ∈ m := by
  induction m with
  | nil => simp [NMap.del] at h
  | cons y m ih =>
    unfold NMap.del at h
    split at h
    · exact List.mem_cons_of_mem _ h
    · simp only [List.mem_cons] at h ⊢; exact h.imp_right ih

theorem NMap.wf_put {m : NMap α} (h : NMap.wf m = true) (k : Nat) (a : α) : NMap.wf (NMap.put m k a) = true := by
  rw [NMap.wf_iff] at h ⊢
  induction m with
  | nil => simp [NMap.put]
  | cons y m ih =>
    obtain ⟨i, b⟩ := y
    rw [List.pairwise_cons] at h
    unfold NMap.put
    split
    · next hk =>
      refine List.pairwise_cons.mpr ⟨fun z hz => ?_, List.pairwise_cons.mpr h⟩
      rcases List.mem_cons.mp hz with rfl | hz
      · exact hk
      · exact hk.trans (h.1 z hz)
    · next hk =>
      split
      · next he => subst he; exact List.pairwise_cons.mpr h
      · next he =>
        refine List.pairwise_cons.mpr ⟨fun z hz => ?_, ih h.2⟩
        rcases NMap.mem_put hz with rfl | hz
        · show i < k; omega
        · exact h.1 z hz

theorem NMap.wf_del {m : NMap α} (h : NMap.wf m = true) (k : Nat) : NMap.wf (NMap.del m k) = true := by
  rw [NMap.wf_iff] at h ⊢
  induction m with
  | nil => simp [NMap.del]
  | cons y m ih =>
    rw [List.pairwise_cons] at h
    unfold NMap.del
    split
    · exact h.2
    · exact List.pairwise_cons.mpr ⟨fun z hz => h.1 z (NMap.mem_del hz), ih h.2⟩

theorem NMap.wf_set {m : NMap α} (h : NMap.wf m = true) (k : Nat) (o : Option α) : NMap.wf (NMap.set m k o) = true := by
  cases o with
  | none => exact NMap.wf_del h k
  | some a => exact NMap.wf_put h k a

@[simp] theorem NMap.find_del {m : NMap α} (h : NMap.wf m = true) (k : Nat) : (NMap.del m k).find k = none := by
  rw [NMap.wf_iff] at h
  induction m with
  | nil => rfl
  | cons y m ih =>
    obtain ⟨i, b⟩ := y
    rw [List.pairwise_cons] at h
    unfold NMap.del
    split
    · next hk =>
      subst hk
      cases hf : NMap.find m k with
      | none => rfl
      | some a => exact absurd (h.1 _ (NMap.find_some_mem hf)) (lt_irrefl _)
    · next hk => simp [NMap.find, hk, ih h.2]

theorem NMap.find_set {m : NMap α} (h : NMap.wf m = true) (k : Nat) (o : Option α) : (NMap.set m k o).find k = o := by
  cases o with
  | none => exact NMap.find_del h k
  | some a => exact NMap.find_put m k a

/-- An entry of a table in canonical form is what a look-up of its key gives. -/
theorem NMap.find_of_mem {m : NMap α} (h : NMap.wf m = true) {k : Nat} {a : α} (hm : (k, a) ∈ m) : NMap.find m k = some a := by
  rw [NMap.wf_iff] at h
  induction m with
  | nil => simp at hm
  | cons y m ih =>
    rw [List.pairwise_cons] at h
    rw [NMap.find_cons]
    rcases List.mem_cons.mp hm with rfl | hm
    · simp
    · have : y.1 < k := h.1 _ hm
      rw [if_neg (by omega)]; exact ih h.2 hm

/-- A look-up after some entries were dropped. -/
theorem NMap.find_keep {m : NMap α} (h : NMap.wf m = true) (f : Nat → α → Bool) (k : Nat) :
    (NMap.keep m f).find k = (NMap.find m k).filter (f k) := by
  cases hk : NMap.find m k with
  | none =>
    cases hf : (NMap.keep m f).find k with
    | none => rfl
    | some a =>
      have := NMap.find_some_mem hf
      rw [NMap.keep, List.mem_filter] at this
      rw [NMap.find_of_mem h this.1] at hk; cases hk
  | some a =>
    have hm := NMap.find_some_mem hk
    by_cases ha : f k a = true
    · rw [NMap.find_of_mem (NMap.wf_keep h f) (List.mem_filter.mpr ⟨hm, ha⟩)]; simp [Option.filter, ha]
    · cases hf : (NMap.keep m f).find k with
      | none => simp [Option.filter, ha]
      | some b =>
        have := NMap.find_some_mem hf
        rw [NMap.keep, List.mem_filter] at this
        rw [NMap.find_of_mem h this.1] at hk; cases hk
        exact absurd this.2 ha

end Sys2Proof
end

