-- ==== Sys2Proof/Laws/Memory.lean ====
section
/-! SUPPORT. Laws of the stored lines: the canonical form, that every memory operation keeps it, and
what a line reads as after a write. -/

namespace Sys2Proof.Machine

/-! ## The canonical form -/

theorem Memory.wf_iff (s : State) :
    Memory.wf s = true ↔ NMap.wf s.mem.cells = true ∧ ∀ c ∈ s.mem.cells, s.bgAt c.1 ≠ some c.2 := by
  simp [Memory.wf]

/-- What unlisted lines hold depends on the granules alone. -/
theorem bgAt_congr {s t : State} (h : t.part.granules = s.part.granules) (k : Nat) : t.bgAt k = s.bgAt k := by
  simp [State.bgAt, h]

/-- A state with the same stored lines and granules has the same form. -/
theorem wf_congr {s t : State} (h : CellsKept s t) : Memory.wf t = Memory.wf s := by
  simp only [Memory.wf, h.1]; congr 2; funext c; rw [bgAt_congr h.2]

/-- `t` follows from `s` by memory operations: the granules are the same, and the form is kept. -/
def MemOp (s t : State) : Prop := t.part.granules = s.part.granules ∧ (Memory.wf s = true → Memory.wf t = true)

theorem MemOp.refl (s : State) : MemOp s s := ⟨rfl, id⟩
theorem MemOp.trans {s t u : State} (h : MemOp s t) (k : MemOp t u) : MemOp s u := ⟨k.1.trans h.1, k.2 ∘ h.2⟩
theorem MemOp.of_kept {s t : State} (h : CellsKept s t) : MemOp s t := ⟨h.2, fun w => (wf_congr h).trans w⟩
theorem MemOp.then {s t u : State} (h : MemOp s t) (k : CellsKept t u) : MemOp s u := h.trans (.of_kept k)
theorem MemOp.after {s t u : State} (k : CellsKept s t) (h : MemOp t u) : MemOp s u := (MemOp.of_kept k).trans h

theorem MemOp.ite (p : Prop) [Decidable p] {s t u : State} (h : MemOp s t) (k : MemOp s u) : MemOp s (if p then t else u) := by
  split <;> assumption

theorem MemOp.foldl {α : Type} (l : List α) (f : State → α → State) (h : ∀ a x, MemOp a (f a x)) (s : State) :
    MemOp s (l.foldl f s) := by
  induction l generalizing s with
  | nil => exact .refl s
  | cons x l ih => exact (h s x).trans (ih _)

theorem MemOp.foldl_fst {α β : Type} (l : List α) (f : State × β → α → State × β) (h : ∀ a x, MemOp a.1 (f a x).1) (s : State × β) :
    MemOp s.1 (l.foldl f s).1 := by
  induction l generalizing s with
  | nil => exact .refl s.1
  | cons x l ih => exact (h s x).trans (ih _)

/-! ## Single operations -/

theorem State.putCell_memOp (s : State) (t : Tier) (line : Nat) (c : Cell) : MemOp s (s.putCell t line c) := by
  refine ⟨rfl, fun h => ?_⟩
  rw [Memory.wf_iff] at h ⊢
  unfold State.putCell
  dsimp only
  split
  · exact ⟨NMap.wf_del h.1 _, fun x hx => h.2 x (NMap.mem_del hx)⟩
  · next hb =>
    refine ⟨NMap.wf_put h.1 _ _, fun x hx => ?_⟩
    rcases NMap.mem_put hx with rfl | hx
    · exact hb
    · exact h.2 x hx

/-- Dropping lines that are not canonical restores the form, whatever the granules have become. -/
theorem State.canon_wf (s : State) (h : NMap.wf s.mem.cells = true) : Memory.wf s.canon = true := by
  rw [Memory.wf_iff]
  refine ⟨by simp only [State.canon]; exact NMap.wf_keep h _, fun c hc => ?_⟩
  simp only [State.canon, NMap.keep, List.mem_filter, decide_eq_true_eq] at hc
  exact hc.2

/-- The stored line at an address reads as what was written there. -/
theorem State.cell_putCell (s : State) (t : Tier) (line : Nat) (c : Cell) (h : NMap.wf s.mem.cells = true) :
    (s.putCell t line c).cell t line = some c := by
  unfold State.cell State.putCell State.background
  dsimp only
  split
  · next x hx =>
    split at hx
    · rw [NMap.find_del h] at hx; cases hx
    · rw [NMap.find_put] at hx; cases hx; rfl
  · next hx =>
    split at hx
    · next hb => exact hb
    · rw [NMap.find_put] at hx; cases hx

theorem cellKey_inj {t u : Tier} {a b : Nat} (ha : a < 2 ^ 40) (hb : b < 2 ^ 40) (h : cellKey t a = cellKey u b) : t = u ∧ a = b := by
  unfold cellKey at h
  cases t <;> cases u <;> simp [tierCode] at h ⊢ <;> omega

/-- A write leaves every other line alone. -/
theorem State.cell_putCell_ne (s : State) (t u : Tier) (line other : Nat) (c : Cell)
    (h : cellKey u other ≠ cellKey t line) : (s.putCell t line c).cell u other = s.cell u other := by
  have hf : (s.putCell t line c).mem.cells.find (cellKey u other) = s.mem.cells.find (cellKey u other) := by
    unfold State.putCell
    dsimp only
    split
    · exact NMap.find_del_ne _ h
    · exact NMap.find_put_ne _ _ h
  unfold State.cell
  rw [hf]; rfl

/-! ## Composed operations -/

theorem MemOp.parity {s j : State} (h : MemOp s j) (rows : NMap Stored) :
    MemOp s { j with mem := { j.mem with parityErr := rows } } := h.then ⟨rfl, rfl⟩

theorem State.storeCell_memOp (s : State) (t : Tier) (line : Nat) (c : Cell) (full : Bool) : MemOp s (s.storeCell t line c full) := by
  unfold State.storeCell
  dsimp only
  split
  · exact .after (State.takeInject_cells ..) (State.putCell_memOp ..)
  · refine MemOp.parity ?_ _
    have hi : ∀ b : Bool, ∀ k row : Nat, MemOp s (if b then ((0#640 : Stored), s) else s.takeInject k row false).2 := by
      intro b k row; cases b
      · exact .of_kept (State.takeInject_cells ..)
      · exact .refl s
    have hp := fun b k row c => (hi b k row).trans (State.putCell_memOp _ t line c)
    split
    · exact hp _ _ _ _
    · exact (hp _ _ _ _).then (State.takeInject_cells ..)

theorem State.dualWrite_memOp (s : State) (r : LineRef) (c : Cell) (full : Bool) : MemOp s (s.dualWrite r c full) := by
  unfold State.dualWrite
  dsimp only
  (repeat' split) <;> first | exact .refl s | exact (State.storeCell_memOp ..).then (State.mirrorWrite_cells ..)

theorem State.storeLine_memOp (s : State) (r : LineRef) (c : Cell) (full : Bool) : MemOp s (s.storeLine r c full) :=
  ((State.storeCell_memOp ..).then (State.unpoison_cells ..)).trans (State.dualWrite_memOp ..)

theorem State.poisonAt_memOp (s : State) (r : LineRef) (cause idx : Nat) : MemOp s (s.poisonAt r cause idx) := by
  unfold State.poisonAt
  dsimp only
  refine MemOp.then ?_ (State.logRec_cells ..)
  (repeat' split) <;> first | exact (State.storeCell_memOp ..).then (State.modGroup_cells ..) | exact State.storeCell_memOp ..

theorem State.poisonLine_memOp (s : State) (r : LineRef) (cause : Nat) : MemOp s (s.poisonLine r cause) := State.poisonAt_memOp ..

theorem State.endPoison_memOp (s : State) (r : LineRef) (cause : Nat) : MemOp s (s.endPoison r cause).1 := by
  unfold State.endPoison
  split
  · exact .of_kept (State.fetchLine_cells ..)
  · exact State.poisonLine_memOp ..

theorem State.reconstruct_memOp (s : State) (r : LineRef) (step4 : Bool) (cls : Nat) : MemOp s (s.reconstruct r step4 cls).1 := by
  have h0 : ∀ (b : Bool) (g u : Nat), MemOp s (if b = true then s else s.countUe g u) := fun b g u =>
    MemOp.ite _ (.refl s) (.of_kept (State.countUe_cells ..))
  have hp := fun b g u r c => (h0 b g u).trans (State.endPoison_memOp _ r c)
  have hd : ∀ (b : Bool) (g u : Nat) (d cls : Nat) (t : Tier) (pj n : Nat) (l : LogRec),
      MemOp s (((if b = true then s else s.countUe g u).chargeTier d cls t pj n).logRec l) := fun b g u _ _ _ _ _ _ =>
    ((h0 b g u).then (State.chargeTier_cells ..)).then (State.logRec_cells ..)
  have hw : ∀ (b : Bool) (g u : Nat) (v : Tier) (line : Nat) (c : Cell) (d cls : Nat) (t : Tier) (pj n : Nat) (l : LogRec),
      MemOp s ((((if b = true then s else s.countUe g u).putCell v line c).chargeTier d cls t pj n).logRec l) :=
    fun b g u v line c _ _ _ _ _ _ =>
      (((h0 b g u).trans (State.putCell_memOp _ v line c)).then (State.chargeTier_cells ..)).then (State.logRec_cells ..)
  unfold State.reconstruct
  dsimp only
  split
  · exact State.poisonLine_memOp ..
  · split
    · split
      · exact State.endPoison_memOp ..
      · exact .refl s
    · split
      · exact hp _ _ _ _ _
      · cases s.cell r.tier r.line <;> dsimp only <;> split
        · exact .refl s
        · exact hp _ _ _ _ _
        · exact .refl s
        · split
          · split
            · exact hd ..
            · exact hw ..
          · exact hp _ _ _ _ _

theorem State.readLineN_memOp (s : State) (r : LineRef) (cls : Nat) : MemOp s (s.readLineN r cls).1 := by
  have h0 : MemOp s (if (s.firstRead r).2 then (s.chargeTier r.pays cls r.tier (readPj r.tier) 1).countCe (s.unitOf r.tier r.line).1
      else s.chargeTier r.pays cls r.tier (readPj r.tier) 1) :=
    MemOp.ite _ ((MemOp.of_kept (State.chargeTier_cells ..)).then (State.countCe_cells ..)) (.of_kept (State.chargeTier_cells ..))
  unfold State.readLineN
  dsimp only
  split
  · exact h0.trans (State.reconstruct_memOp ..)
  · exact h0
  · exact h0

theorem State.readLine_memOp (s : State) (r : LineRef) (cls : Nat) : MemOp s (s.readLine r cls).1 := State.readLineN_memOp ..

theorem State.readLines_memOp (s : State) (rs : List LineRef) (cls : Nat) : MemOp s (s.readLines rs cls).1 := by
  induction rs generalizing s with
  | nil => exact .refl s
  | cons r rs ih =>
    have h := State.readLine_memOp s r cls
    unfold State.readLines
    split
    · next s1 l e =>
      rw [e] at h
      have k := ih s1
      split
      · next e2 => rw [e2] at k; exact h.trans k
      · next e2 => rw [e2] at k; exact h.trans k
    · next e => rw [e] at h; exact h

theorem State.writeWhole_memOp (s : State) (r : LineRef) (data : Line) (full : Bool) (o : Origin) :
    MemOp s (s.writeWhole r data full o).1 :=
  ((State.storeLine_memOp ..).then (State.chargeTier_cells ..)).then (State.mirrorWrite_cells ..)

theorem State.writeLine_memOp (s : State) (r : LineRef) (data : Line) (mask : BitVec 64) (full : Bool) (o : Origin) :
    MemOp s (s.writeLine r data mask full o).1 := by
  have h := State.readLine_memOp s r o.cls
  unfold State.writeLine
  split
  · exact .refl s
  · split
    · exact State.writeWhole_memOp ..
    · split <;> next e => rw [e] at h; first | exact h | exact h.trans (State.writeWhole_memOp ..)

theorem State.writeLines_memOp (s : State) (ls : List (LineRef × Line)) (full : Bool) (o : Origin) : MemOp s (s.writeLines ls full o).1 := by
  unfold State.writeLines
  exact MemOp.foldl_fst ls _ (fun a x => by dsimp only; exact State.writeWhole_memOp ..) (s, none)

theorem State.closeAsm_memOp (s : State) (stripe : Nat) : MemOp s (s.closeAsm stripe) := by
  unfold State.closeAsm
  split
  · exact .refl s
  · refine MemOp.after (t := { s with mem := { s.mem with asm := s.mem.asm.del stripe } }) ⟨rfl, rfl⟩ (MemOp.foldl _ _ (fun a x => ?_) _)
    split
    · exact (State.storeLine_memOp ..).then (State.chargeTier_cells ..)
    · exact .refl a

theorem State.readBytes_memOp (s : State) (d pva n : Nat) : MemOp s (s.readBytes d pva n).1 := by
  unfold State.readBytes
  dsimp only
  split
  · next refs _ =>
    have h := State.readLines_memOp s refs 0
    split <;> next e => rw [e] at h; exact h
  · exact .of_kept (State.mismatch_cells ..)
  · exact .refl s

theorem State.writeBytes_memOp (s : State) (d pva n v : Nat) : MemOp s (s.writeBytes d pva n v) := by
  unfold State.writeBytes
  split
  · exact MemOp.foldl_fst _ _ (fun a x => by dsimp only; exact State.writeLine_memOp ..) (s, (0 : Nat))
  · exact .refl s

theorem State.flipLine_memOp (s : State) (l : JobLine) (flip : Stored) : MemOp s (s.flipLine l flip) := by
  unfold State.flipLine
  (repeat' split) <;> first | exact .refl s | exact State.putCell_memOp ..

theorem State.rewriteLine_memOp (s : State) (t : Tier) (line : Nat) : MemOp s (s.rewriteLine t line) := by
  unfold State.rewriteLine
  split
  · exact State.storeCell_memOp ..
  · exact .refl s

theorem State.putWindow_memOp (s : State) (i : Nat) (data : Line) (mask : BitVec 64) : MemOp s (s.putWindow i data mask) := by
  unfold State.putWindow
  split
  · exact .refl s
  · exact State.putCell_memOp ..

theorem State.sweepLine_memOp (s : State) (r : LineRef) : MemOp s (s.sweepLine r).1 := by
  have h := State.readLineN_memOp s r 0
  unfold State.sweepLine
  generalize s.readLineN r 0 = y at h ⊢
  obtain ⟨s1, o, n⟩ := y
  cases o with
  | data l => exact h.trans (State.writeWhole_memOp ..)
  | fail st =>
    cases st with
    | uncorrectable =>
      dsimp only at h ⊢
      split
      · exact h.trans (State.storeCell_memOp ..)
      · exact h
    | _ => exact h
  | recon _ => exact h
  | wait => exact h

theorem State.rebuildLine_memOp (s : State) (g line : Nat) : MemOp s (s.rebuildLine g line) := by
  unfold State.rebuildLine
  dsimp only
  (repeat' split) <;> with_reducible first
    | exact .refl s
    | exact State.poisonLine_memOp ..
    | exact .after (State.takeInject_cells ..) (State.putCell_memOp ..)

theorem State.copyLine_memOp (s : State) (src dst : LineRef) : MemOp s (s.copyLine src dst).1 := by
  have h := State.readLineN_memOp s src 8
  unfold State.copyLine
  generalize s.readLineN src 8 = y at h ⊢
  obtain ⟨s1, o, n⟩ := y
  cases o with
  | data l => exact (h.trans (State.storeCell_memOp ..)).then (State.mirrorWrite_cells ..)
  | fail st =>
    cases st with
    | uncorrectable =>
      dsimp only at h ⊢
      split
      · exact (h.trans (State.poisonAt_memOp ..)).then (State.mirrorWrite_cells ..)
      · exact h
    | _ => exact h
  | recon _ => exact h
  | wait => exact h

/-! ## Operations that change the granules -/

/-- Zero stamps of granules change; the lines of every granule that gets one are dropped. -/
theorem wf_restamp (s : State) (m : NMap Granule) (drop : Nat → Bool) (h : Memory.wf s = true)
    (hm : ∀ k, drop k = false → ((m.find (granOf k)).bind (·.zero)).map Stamp.zeroCell = s.bgAt k ∨ (m.find (granOf k)).bind (·.zero) = none)
    (t : State) (hc : t.mem.cells = s.mem.cells.keep fun k _ => !drop k) (hg : t.part.granules = m) : Memory.wf t = true := by
  rw [Memory.wf_iff] at h ⊢
  rw [hc]
  refine ⟨NMap.wf_keep h.1 _, fun c hx => ?_⟩
  simp only [NMap.keep, List.mem_filter, Bool.not_eq_true'] at hx
  have hb : t.bgAt c.1 = ((m.find (granOf c.1)).bind (·.zero)).map Stamp.zeroCell := by simp [State.bgAt, hg]
  rcases hm c.1 hx.2 with e | e
  · rw [hb, e]; exact h.2 c hx.1
  · rw [hb, e]; simp

/-- The stamp of a granule after the granules of some keys were changed. -/
theorem find_foldl_upd (ks : List Nat) (key : Nat → Nat) (f : Nat → Granule → Granule) (m : NMap Granule) (j : Nat)
    (h : ∀ k ∈ ks, j ≠ key k) : (ks.foldl (fun a k => a.upd (key k) (f k)) m).find j = m.find j := by
  induction ks generalizing m with
  | nil => rfl
  | cons k ks ih =>
    rw [List.foldl_cons, ih _ (fun x hx => h x (List.mem_cons_of_mem _ hx)), NMap.find_upd_ne _ _ (h k List.mem_cons_self)]

theorem State.zeroRun_wf (s : State) (x : Nat) (e : Extent) (h : Memory.wf s = true) : Memory.wf (s.zeroRun x e) = true := by
  unfold State.zeroRun
  dsimp only
  rw [wf_congr (State.chargeTier_cells ..)]
  refine wf_restamp s _ (fun k => (runGranules e.tier e.first e.granules).any fun g => granOf k == granKey e.tier g) h ?_ _ rfl rfl
  intro k hk
  left
  rw [find_foldl_upd]
  · rfl
  · intro g hg
    have := List.any_eq_false.mp hk g hg
    simpa using this

theorem State.retireRun_wf (s : State) (t : Tier) (first n : Nat) (ver : Bool) (h : Memory.wf s = true) :
    Memory.wf (s.retireRun t first n ver) = true := by
  have key : ∀ (l : List Nat) (m : NMap Granule) (j : Nat),
      ((l.foldl (fun a g => a.upd (granKey t g) fun x => { x with retired := true, lastHeld := s.now, ofRetired := ver }) m).find j).bind (·.zero)
        = (m.find j).bind (·.zero) := by
    intro l
    induction l with
    | nil => intro m j; rfl
    | cons g l ih =>
      intro m j
      rw [List.foldl_cons, ih, NMap.find_upd]
      split <;> cases NMap.find m j <;> rfl
  refine wf_restamp s _ (fun _ => false) h ?_ _ ?_ rfl
  · intro k _; left; simp only [State.retireRun]; rw [key]; rfl
  · simp [State.retireRun, NMap.keep]

theorem State.holdRun_wf (s : State) (t : Tier) (first n gen owner : Nat) (h : Memory.wf s = true) :
    Memory.wf (s.holdRun t first n gen owner) = true := by
  have key : ∀ (l : List Nat) (m : NMap Granule) (j : Nat),
      ((l.foldl (fun a g => a.put (granKey t g) ⟨gen, (a.find (granKey t g)).bind (·.zero), false, s.now, owner, false⟩) m).find j).bind (·.zero)
        = (m.find j).bind (·.zero) := by
    intro l
    induction l with
    | nil => intro m j; rfl
    | cons g l ih =>
      intro m j
      rw [List.foldl_cons, ih]
      by_cases hj : j = granKey t g
      · subst hj; rw [NMap.find_put]; rfl
      · rw [NMap.find_put_ne _ _ hj]
  refine wf_restamp s _ (fun _ => false) h ?_ _ ?_ rfl
  · intro k _; left; simp only [State.holdRun]; rw [key]; rfl
  · simp [State.holdRun, NMap.keep]

theorem State.sweepZero_wf (s : State) (d oldKey : Nat) (h : Memory.wf s = true) : Memory.wf (s.sweepZero d oldKey).1 = true :=
  State.canon_wf _ ((Memory.wf_iff s).mp h).1

theorem State.forgetKeys_wf (s : State) (h : Memory.wf s = true) : Memory.wf s.forgetKeys = true :=
  State.canon_wf _ (by dsimp only; exact NMap.wf_each ((Memory.wf_iff s).mp h).1 _)

/-- The stamp of a granule after stamps were set by position. -/
theorem find_foldl_stamp (ks : List Nat) (key : Nat → Nat) (z : Nat → Option Stamp) (m : NMap Granule) (j : Nat) :
    ((ks.foldl (fun a k => a.upd (key k) fun g => { g with zero := z k }) m).find j).bind (·.zero) = (m.find j).bind (·.zero) ∨
      ∃ k ∈ ks, j = key k ∧ (((ks.foldl (fun a k => a.upd (key k) fun g => { g with zero := z k }) m).find j).bind (·.zero) = z k ∨
        ((ks.foldl (fun a k => a.upd (key k) fun g => { g with zero := z k }) m).find j).bind (·.zero) = none) := by
  induction ks generalizing m with
  | nil => exact .inl rfl
  | cons k ks ih =>
    rw [List.foldl_cons]
    rcases ih (m.upd (key k) fun g => { g with zero := z k }) with e | ⟨i, hi, hj, e⟩
    · rw [e, NMap.find_upd]
      by_cases hj : j = key k
      · right
        refine ⟨k, List.mem_cons_self, hj, ?_⟩
        rw [if_pos hj]
        cases m.find j
        · exact .inr rfl
        · exact .inl rfl
      · rw [if_neg hj]; exact .inl rfl
    · exact .inr ⟨i, List.mem_cons_of_mem _ hi, hj, e⟩

theorem State.copyAll_wf (s : State) (x : Nat) (e : Extent) (t : Tier) (first gen : Nat) (mk : Nat → LineRef) (h : Memory.wf s = true) :
    Memory.wf (s.copyAll x e t first gen mk).1 = true := by
  unfold State.copyAll
  generalize hz : (fun k : Nat => ((s.part.granules.find (granKey e.tier (frameGranule e.tier e.first k))).bind (·.zero)).bind
    fun z => if z.deckle == e.deckle && z.gen == e.gen then some { z with gen := gen } else none) = zeroOf
  dsimp only
  refine MemOp.foldl_fst _ _ (fun a i => by dsimp only; exact State.copyLine_memOp a.1 _ _) _ |>.2 ?_
  dsimp only
  rw [wf_congr (State.chargeTier_cells ..), wf_congr (State.chargeTier_cells ..)]
  refine wf_restamp s _ (fun k => ((List.range e.granules).filter fun k => (zeroOf k).isSome).any fun j =>
    granOf k == granKey t (frameGranule t first j)) h ?_ _ rfl rfl
  intro k hk
  rcases find_foldl_stamp (List.range e.granules) (fun k => granKey t (frameGranule t first k)) zeroOf s.part.granules (granOf k)
    with e1 | ⟨i, hi, hj, e1 | e1⟩
  · left; rw [e1]; rfl
  · right
    rw [e1]
    have := List.any_eq_false.mp hk i
    cases hzi : zeroOf i with
    | none => rfl
    | some v => exact absurd (by simpa using hj) (this (List.mem_filter.mpr ⟨hi, by simp [hzi]⟩))
  · right; exact e1

theorem State.applyGranule_wf (s : State) (key : Nat) (x : Option Granule) (h : Memory.wf s = true) :
    Memory.wf (s.applyGranule key x) = true := by
  cases x with
  | none => exact State.canon_wf _ ((Memory.wf_iff s).mp h).1
  | some g =>
    unfold State.applyGranule
    dsimp only
    split
    · refine wf_restamp s (s.part.granules.put key g) (fun k => granOf k == key) h ?_ _ rfl rfl
      intro k hk
      left
      rw [NMap.find_put_ne _ _ (by simpa using hk)]; rfl
    · exact State.canon_wf _ ((Memory.wf_iff s).mp h).1

/-- The memory after reset has the canonical form. -/
theorem reset_memory_wf : Memory.wf State.reset = true := rfl

end Sys2Proof.Machine
end

