-- ==== Sys2Proof/Laws/Serve.lean ====
section
/-! SUPPORT. Laws of the mailbox service: a request that passes its checks acts and is answered; what
sending an answer and mirroring a commit leave alone. -/

namespace Sys2Proof.Machine

/-! ## From the checks to the effect -/

/-- A request that passes every check becomes outstanding, acts, commits and is answered. -/
theorem serve_of_passes {self : Instr} {c : Cmd} {q : Req} {checks : State → List Check} {act : State → Nat → State × Option Ans}
    {s : State} (h : s.passes c q checks = true) :
    s.serve self c q checks act =
      (s.acting c q).closed c q (s.accAt q) (s.replyOf c q) (act (s.acting c q) (s.replyOf c q)) := by
  simp only [State.passes, State.admits, Bool.and_eq_true, Option.isNone_iff_eq_none] at h
  obtain ⟨⟨⟨⟨⟨harr, hearly⟩, hwait⟩, hform⟩, hchecks⟩, -⟩ := h
  have box : (s.atBox q).reachBox self c q checks act = (s.acting c q).closed c q (s.accAt q) (s.replyOf c q)
      (act (s.acting c q) (s.replyOf c q)) := by
    have hw : ((s.atBox q).mustWait && !(s.atBox q).underBoot) = false := by
      cases h1 : (s.atBox q).mustWait <;> cases h2 : (s.atBox q).underBoot <;> simp_all
    unfold State.reachBox
    rw [hearly]
    dsimp only
    rw [hw, if_neg Bool.false_ne_true]
    unfold State.commitReq
    dsimp only
    rw [hform]
    dsimp only
    rw [show firstFail (commonChecks (((s.atBox q).formCheck c q).1.takeEvreg q) c q ++ checks (((s.atBox q).formCheck c q).1.takeEvreg q))
      = none from hchecks]
    rfl
  unfold State.serve
  unfold State.arrives at harr
  by_cases hd : s.mbx.draining.isSome = true
  · rw [if_pos hd]
    have : s.atBox q = s := by simp [State.atBox, hd]
    rw [this] at box; exact box
  · rw [if_neg hd]
    simp only [hd, Bool.false_or] at harr
    cases hv : q.via with
    | tap =>
      have : s.atBox q = s := by simp [State.atBox, hv]
      rw [this] at box; exact box
    | i3c => simp [hv] at harr
    | link =>
      have ha : s.atBox q = (s.freeReq q).renewDriver q := by simp [State.atBox, hd, hv]
      simp only [hv, Bool.and_eq_true, Option.isNone_iff_eq_none] at harr
      obtain ⟨⟨h1, h2⟩, h3⟩ := harr
      dsimp only
      rw [ha] at h3 box
      simp only [h1, h2, Bool.not_true, Bool.or_self, if_neg Bool.false_ne_true, h3]
      exact box

/-- A bedrock request that passes its checks becomes outstanding, acts and is answered. -/
theorem serveBr_of_passes {c : Cmd} {q : Req} {act : State → Nat → State × Option Ans} {s : State} (h : s.passesBr c q = true) :
    s.serveBr c q act = (s.atBr q).concludeBr c q act := by
  simp only [State.passesBr, Bool.and_eq_true] at h
  obtain ⟨h, -⟩ := h
  unfold State.serveBr
  cases hv : q.via with
  | tap => simp [hv] at h
  | i3c =>
    simp only [hv, Bool.and_eq_true, Option.isNone_iff_eq_none] at h
    have : s.atBr q = s := by simp [State.atBr, hv]
    rw [this]
    simp only [h.1, if_true]
    unfold State.reachBr; rw [h.2]
  | link =>
    simp only [hv, Bool.and_eq_true, Option.isNone_iff_eq_none] at h
    have : s.atBr q = s.freeReq q := by simp [State.atBr, hv]
    rw [this]
    simp only [h.1.1.1, h.1.1.2, Bool.not_true, Bool.or_self, if_neg Bool.false_ne_true, h.1.2]
    unfold State.reachBr; rw [h.2]

/-! ## Sending and mirroring -/

/-- Only the ports and the pair's stream differ. -/
@[reducible, simp] def OnSent (s t : State) : Prop :=
  Kept s t ∧ t.hub = s.hub ∧ t.mbx = s.mbx ∧ t.mem = s.mem ∧ t.part = s.part ∧ t.cal = s.cal ∧ t.pkg = s.pkg

theorem OnSent.rfl' (s : State) : OnSent s s := by simp
theorem OnSent.trans {s t u : State} (h : OnSent s t) (k : OnSent t u) : OnSent s u := by simp_all

@[simp] theorem State.modPort_sent (s : State) (p : Nat) (f : Port → Port) : OnSent s (s.modPort p f) := by simp [State.modPort, State.setPort]
@[simp] theorem State.enqueue_sent (s : State) (p vc queue deckle : Nat) (m : Msg) (cls : Nat) :
    OnSent s (s.enqueue p vc queue deckle m cls) := by
  unfold State.enqueue; split
  · exact .rfl' s
  · exact State.modPort_sent ..
@[simp] theorem State.pushRecord_sent (s : State) (mk : Nat → Msg) : OnSent s (s.pushRecord mk).1 := by
  have hs : ∀ (u v : State) (b : Bool) (p vc qu d : Nat) (m : Msg) (k : Nat), OnSent s v → v = u →
      OnSent s (if b = true then v.enqueue p vc qu d m k else u) := by
    intro u v b p vc qu d m k h e
    subst e
    split
    · exact h.trans (State.enqueue_sent ..)
    · exact h
  unfold State.pushRecord
  exact hs _ _ _ _ _ _ _ _ _ (by simp) rfl
@[simp] theorem State.pushMeta_sent (s : State) (ep rtag : Nat) (fw last : Bool) (r : MetaRec) : OnSent s (s.pushMeta ep rtag fw last r) := by
  unfold State.pushMeta; exact State.pushRecord_sent ..

theorem sent_foldl {α : Type} (l : List α) (f : State → α → State) (h : ∀ a x, OnSent a (f a x)) (s : State) : OnSent s (l.foldl f s) := by
  induction l generalizing s with
  | nil => exact .rfl' s
  | cons x l ih => exact (h s x).trans (ih _)

/-- A commit's metadata changes nothing but the pair's stream and the ports that carry it. -/
@[simp] theorem State.mirrorCommit_sent (old new : State) (ep rtag : Nat) (fw : Bool) (done : List MetaRec) :
    OnSent new (State.mirrorCommit old new ep rtag fw done).1 := by
  unfold State.mirrorCommit
  generalize new.mirrors = b
  generalize metaDiff old new = l
  cases b
  · exact .rfl' new
  · cases l with
    | nil => exact .rfl' new
    | cons m ms =>
      rw [if_pos rfl]
      dsimp only
      exact sent_foldl _ _ (fun a x => State.pushMeta_sent ..) new

@[simp] theorem State.commitFw_sent (old new : State) : OnSent new (State.commitFw old new) := State.mirrorCommit_sent ..

/-- A device in no pair commits without a record. -/
theorem State.mirrorCommit_alone (old new : State) (ep rtag : Nat) (fw : Bool) (done : List MetaRec) (h : new.mirrors = false) :
    State.mirrorCommit old new ep rtag fw done = (new, none) := by
  unfold State.mirrorCommit; simp [h]

/-! ## Answers -/

/-- A command that begins to act is outstanding under its reply number. -/
theorem State.opened_outst (s : State) (c : Cmd) (q : Req) (acc : Nat) : (s.opened c q acc).mbx.outst.find s.mbx.nextReply =
    some { box := q.deckle, req := q, code := c.code, accepted := acc, progress := .running } := by
  unfold State.opened
  dsimp only
  split <;> simp

/-- An answer without a result area changes the mailbox, the pins, the ports and the pair's stream alone. -/
theorem State.answerNow_inline (s : State) (q : Req) (code acc : Nat) (a : Ans) (dup : Bool) (h : a.area = 0) :
    let t := s.answerNow q code acc a dup
    Kept s t ∧ t.hub = s.hub ∧ t.mem = s.mem ∧ t.part = s.part ∧ t.cal = s.cal ∧ t.pair = s.pair ∧ t.mbx.outst = s.mbx.outst ∧
      t.mbx.nextReply = s.mbx.nextReply := by
  have hs : ∀ (ep vc qu d : Nat) (m : Msg), let t := s.sendHeld ep vc qu d m
      Kept s t ∧ t.hub = s.hub ∧ t.mem = s.mem ∧ t.part = s.part ∧ t.cal = s.cal ∧ t.pair = s.pair ∧ t.mbx.outst = s.mbx.outst ∧
      t.mbx.nextReply = s.mbx.nextReply := by
    intro ep vc qu d m
    unfold State.sendHeld
    split
    · unfold State.enqueue
      split <;> simp [State.modPort, State.setPort]
    · simp
  unfold State.answerNow State.fillArea State.respond
  simp only [h, if_true]
  split
  · exact hs ..
  · simp
  · simp

end Sys2Proof.Machine
end

