-- ==== Sys2Proof/Laws/State.lean ====
section
/-! SUPPORT. The parts of the state: which part each update may change, and what a part reads as after it. -/

namespace Sys2Proof.Machine

/-! ## Each update changes one part -/

/-- At most the part `attn` of the state differs. -/
@[reducible, simp] def OnlyAttn (s t : State) : Prop :=
  t.pending = s.pending ∧ t.now = s.now ∧ t.free = s.free ∧ t.board = s.board ∧ t.hub = s.hub ∧ t.mbx = s.mbx ∧ t.mem = s.mem ∧
  t.part = s.part ∧ t.rgn = s.rgn ∧ t.lode = s.lode ∧ t.xlat = s.xlat ∧ t.eng = s.eng ∧ t.form = s.form ∧ t.retr = s.retr ∧
  t.couch = s.couch ∧ t.link = s.link ∧ t.cal = s.cal ∧ t.laid = s.laid ∧ t.pair = s.pair ∧ t.sec = s.sec ∧ t.pkg = s.pkg
theorem OnlyAttn.rfl' (s : State) : OnlyAttn s s := by simp
theorem OnlyAttn.trans' {s t u : State} (h : OnlyAttn s t) (k : OnlyAttn t u) : OnlyAttn s u := by simp_all
theorem foldl_onlyAttn {α : Type} (l : List α) (f : State → α → State) (h : ∀ a x, OnlyAttn a (f a x)) (s : State) : OnlyAttn s (l.foldl f s) := by
  induction l generalizing s with
  | nil => exact .rfl' s
  | cons x l ih => exact (h s x).trans' (ih _)
/-- At most the part `cal` of the state differs. -/
@[reducible, simp] def OnlyCal (s t : State) : Prop :=
  t.pending = s.pending ∧ t.now = s.now ∧ t.free = s.free ∧ t.board = s.board ∧ t.hub = s.hub ∧ t.mbx = s.mbx ∧ t.mem = s.mem ∧
  t.part = s.part ∧ t.rgn = s.rgn ∧ t.lode = s.lode ∧ t.xlat = s.xlat ∧ t.eng = s.eng ∧ t.attn = s.attn ∧ t.form = s.form ∧
  t.retr = s.retr ∧ t.couch = s.couch ∧ t.link = s.link ∧ t.laid = s.laid ∧ t.pair = s.pair ∧ t.sec = s.sec ∧ t.pkg = s.pkg
theorem OnlyCal.rfl' (s : State) : OnlyCal s s := by simp
theorem OnlyCal.trans' {s t u : State} (h : OnlyCal s t) (k : OnlyCal t u) : OnlyCal s u := by simp_all
theorem foldl_onlyCal {α : Type} (l : List α) (f : State → α → State) (h : ∀ a x, OnlyCal a (f a x)) (s : State) : OnlyCal s (l.foldl f s) := by
  induction l generalizing s with
  | nil => exact .rfl' s
  | cons x l ih => exact (h s x).trans' (ih _)
/-- At most the part `couch` of the state differs. -/
@[reducible, simp] def OnlyCouch (s t : State) : Prop :=
  t.pending = s.pending ∧ t.now = s.now ∧ t.free = s.free ∧ t.board = s.board ∧ t.hub = s.hub ∧ t.mbx = s.mbx ∧ t.mem = s.mem ∧
  t.part = s.part ∧ t.rgn = s.rgn ∧ t.lode = s.lode ∧ t.xlat = s.xlat ∧ t.eng = s.eng ∧ t.attn = s.attn ∧ t.form = s.form ∧
  t.retr = s.retr ∧ t.link = s.link ∧ t.cal = s.cal ∧ t.laid = s.laid ∧ t.pair = s.pair ∧ t.sec = s.sec ∧ t.pkg = s.pkg
theorem OnlyCouch.rfl' (s : State) : OnlyCouch s s := by simp
theorem OnlyCouch.trans' {s t u : State} (h : OnlyCouch s t) (k : OnlyCouch t u) : OnlyCouch s u := by simp_all
theorem foldl_onlyCouch {α : Type} (l : List α) (f : State → α → State) (h : ∀ a x, OnlyCouch a (f a x)) (s : State) : OnlyCouch s (l.foldl f s) := by
  induction l generalizing s with
  | nil => exact .rfl' s
  | cons x l ih => exact (h s x).trans' (ih _)
/-- At most the part `eng` of the state differs. -/
@[reducible, simp] def OnlyEng (s t : State) : Prop :=
  t.pending = s.pending ∧ t.now = s.now ∧ t.free = s.free ∧ t.board = s.board ∧ t.hub = s.hub ∧ t.mbx = s.mbx ∧ t.mem = s.mem ∧
  t.part = s.part ∧ t.rgn = s.rgn ∧ t.lode = s.lode ∧ t.xlat = s.xlat ∧ t.attn = s.attn ∧ t.form = s.form ∧ t.retr = s.retr ∧
  t.couch = s.couch ∧ t.link = s.link ∧ t.cal = s.cal ∧ t.laid = s.laid ∧ t.pair = s.pair ∧ t.sec = s.sec ∧ t.pkg = s.pkg
theorem OnlyEng.rfl' (s : State) : OnlyEng s s := by simp
theorem OnlyEng.trans' {s t u : State} (h : OnlyEng s t) (k : OnlyEng t u) : OnlyEng s u := by simp_all
theorem foldl_onlyEng {α : Type} (l : List α) (f : State → α → State) (h : ∀ a x, OnlyEng a (f a x)) (s : State) : OnlyEng s (l.foldl f s) := by
  induction l generalizing s with
  | nil => exact .rfl' s
  | cons x l ih => exact (h s x).trans' (ih _)
/-- At most the part `form` of the state differs. -/
@[reducible, simp] def OnlyForm (s t : State) : Prop :=
  t.pending = s.pending ∧ t.now = s.now ∧ t.free = s.free ∧ t.board = s.board ∧ t.hub = s.hub ∧ t.mbx = s.mbx ∧ t.mem = s.mem ∧
  t.part = s.part ∧ t.rgn = s.rgn ∧ t.lode = s.lode ∧ t.xlat = s.xlat ∧ t.eng = s.eng ∧ t.attn = s.attn ∧ t.retr = s.retr ∧
  t.couch = s.couch ∧ t.link = s.link ∧ t.cal = s.cal ∧ t.laid = s.laid ∧ t.pair = s.pair ∧ t.sec = s.sec ∧ t.pkg = s.pkg
theorem OnlyForm.rfl' (s : State) : OnlyForm s s := by simp
theorem OnlyForm.trans' {s t u : State} (h : OnlyForm s t) (k : OnlyForm t u) : OnlyForm s u := by simp_all
theorem foldl_onlyForm {α : Type} (l : List α) (f : State → α → State) (h : ∀ a x, OnlyForm a (f a x)) (s : State) : OnlyForm s (l.foldl f s) := by
  induction l generalizing s with
  | nil => exact .rfl' s
  | cons x l ih => exact (h s x).trans' (ih _)
/-- At most the part `free` of the state differs. -/
@[reducible, simp] def OnlyFree (s t : State) : Prop :=
  t.pending = s.pending ∧ t.now = s.now ∧ t.board = s.board ∧ t.hub = s.hub ∧ t.mbx = s.mbx ∧ t.mem = s.mem ∧ t.part = s.part ∧
  t.rgn = s.rgn ∧ t.lode = s.lode ∧ t.xlat = s.xlat ∧ t.eng = s.eng ∧ t.attn = s.attn ∧ t.form = s.form ∧ t.retr = s.retr ∧
  t.couch = s.couch ∧ t.link = s.link ∧ t.cal = s.cal ∧ t.laid = s.laid ∧ t.pair = s.pair ∧ t.sec = s.sec ∧ t.pkg = s.pkg
theorem OnlyFree.rfl' (s : State) : OnlyFree s s := by simp
theorem OnlyFree.trans' {s t u : State} (h : OnlyFree s t) (k : OnlyFree t u) : OnlyFree s u := by simp_all
theorem foldl_onlyFree {α : Type} (l : List α) (f : State → α → State) (h : ∀ a x, OnlyFree a (f a x)) (s : State) : OnlyFree s (l.foldl f s) := by
  induction l generalizing s with
  | nil => exact .rfl' s
  | cons x l ih => exact (h s x).trans' (ih _)
/-- At most the part `hub` of the state differs. -/
@[reducible, simp] def OnlyHub (s t : State) : Prop :=
  t.pending = s.pending ∧ t.now = s.now ∧ t.free = s.free ∧ t.board = s.board ∧ t.mbx = s.mbx ∧ t.mem = s.mem ∧ t.part = s.part ∧
  t.rgn = s.rgn ∧ t.lode = s.lode ∧ t.xlat = s.xlat ∧ t.eng = s.eng ∧ t.attn = s.attn ∧ t.form = s.form ∧ t.retr = s.retr ∧
  t.couch = s.couch ∧ t.link = s.link ∧ t.cal = s.cal ∧ t.laid = s.laid ∧ t.pair = s.pair ∧ t.sec = s.sec ∧ t.pkg = s.pkg
theorem OnlyHub.rfl' (s : State) : OnlyHub s s := by simp
theorem OnlyHub.trans' {s t u : State} (h : OnlyHub s t) (k : OnlyHub t u) : OnlyHub s u := by simp_all
theorem foldl_onlyHub {α : Type} (l : List α) (f : State → α → State) (h : ∀ a x, OnlyHub a (f a x)) (s : State) : OnlyHub s (l.foldl f s) := by
  induction l generalizing s with
  | nil => exact .rfl' s
  | cons x l ih => exact (h s x).trans' (ih _)
/-- At most the part `laid` of the state differs. -/
@[reducible, simp] def OnlyLaid (s t : State) : Prop :=
  t.pending = s.pending ∧ t.now = s.now ∧ t.free = s.free ∧ t.board = s.board ∧ t.hub = s.hub ∧ t.mbx = s.mbx ∧ t.mem = s.mem ∧
  t.part = s.part ∧ t.rgn = s.rgn ∧ t.lode = s.lode ∧ t.xlat = s.xlat ∧ t.eng = s.eng ∧ t.attn = s.attn ∧ t.form = s.form ∧
  t.retr = s.retr ∧ t.couch = s.couch ∧ t.link = s.link ∧ t.cal = s.cal ∧ t.pair = s.pair ∧ t.sec = s.sec ∧ t.pkg = s.pkg
theorem OnlyLaid.rfl' (s : State) : OnlyLaid s s := by simp
theorem OnlyLaid.trans' {s t u : State} (h : OnlyLaid s t) (k : OnlyLaid t u) : OnlyLaid s u := by simp_all
theorem foldl_onlyLaid {α : Type} (l : List α) (f : State → α → State) (h : ∀ a x, OnlyLaid a (f a x)) (s : State) : OnlyLaid s (l.foldl f s) := by
  induction l generalizing s with
  | nil => exact .rfl' s
  | cons x l ih => exact (h s x).trans' (ih _)
/-- At most the part `link` of the state differs. -/
@[reducible, simp] def OnlyLink (s t : State) : Prop :=
  t.pending = s.pending ∧ t.now = s.now ∧ t.free = s.free ∧ t.board = s.board ∧ t.hub = s.hub ∧ t.mbx = s.mbx ∧ t.mem = s.mem ∧
  t.part = s.part ∧ t.rgn = s.rgn ∧ t.lode = s.lode ∧ t.xlat = s.xlat ∧ t.eng = s.eng ∧ t.attn = s.attn ∧ t.form = s.form ∧
  t.retr = s.retr ∧ t.couch = s.couch ∧ t.cal = s.cal ∧ t.laid = s.laid ∧ t.pair = s.pair ∧ t.sec = s.sec ∧ t.pkg = s.pkg
theorem OnlyLink.rfl' (s : State) : OnlyLink s s := by simp
theorem OnlyLink.trans' {s t u : State} (h : OnlyLink s t) (k : OnlyLink t u) : OnlyLink s u := by simp_all
theorem foldl_onlyLink {α : Type} (l : List α) (f : State → α → State) (h : ∀ a x, OnlyLink a (f a x)) (s : State) : OnlyLink s (l.foldl f s) := by
  induction l generalizing s with
  | nil => exact .rfl' s
  | cons x l ih => exact (h s x).trans' (ih _)
/-- At most the part `lode` of the state differs. -/
@[reducible, simp] def OnlyLode (s t : State) : Prop :=
  t.pending = s.pending ∧ t.now = s.now ∧ t.free = s.free ∧ t.board = s.board ∧ t.hub = s.hub ∧ t.mbx = s.mbx ∧ t.mem = s.mem ∧
  t.part = s.part ∧ t.rgn = s.rgn ∧ t.xlat = s.xlat ∧ t.eng = s.eng ∧ t.attn = s.attn ∧ t.form = s.form ∧ t.retr = s.retr ∧
  t.couch = s.couch ∧ t.link = s.link ∧ t.cal = s.cal ∧ t.laid = s.laid ∧ t.pair = s.pair ∧ t.sec = s.sec ∧ t.pkg = s.pkg
theorem OnlyLode.rfl' (s : State) : OnlyLode s s := by simp
theorem OnlyLode.trans' {s t u : State} (h : OnlyLode s t) (k : OnlyLode t u) : OnlyLode s u := by simp_all
theorem foldl_onlyLode {α : Type} (l : List α) (f : State → α → State) (h : ∀ a x, OnlyLode a (f a x)) (s : State) : OnlyLode s (l.foldl f s) := by
  induction l generalizing s with
  | nil => exact .rfl' s
  | cons x l ih => exact (h s x).trans' (ih _)
/-- At most the part `mbx` of the state differs. -/
@[reducible, simp] def OnlyMbx (s t : State) : Prop :=
  t.pending = s.pending ∧ t.now = s.now ∧ t.free = s.free ∧ t.board = s.board ∧ t.hub = s.hub ∧ t.mem = s.mem ∧ t.part = s.part ∧
  t.rgn = s.rgn ∧ t.lode = s.lode ∧ t.xlat = s.xlat ∧ t.eng = s.eng ∧ t.attn = s.attn ∧ t.form = s.form ∧ t.retr = s.retr ∧
  t.couch = s.couch ∧ t.link = s.link ∧ t.cal = s.cal ∧ t.laid = s.laid ∧ t.pair = s.pair ∧ t.sec = s.sec ∧ t.pkg = s.pkg
theorem OnlyMbx.rfl' (s : State) : OnlyMbx s s := by simp
theorem OnlyMbx.trans' {s t u : State} (h : OnlyMbx s t) (k : OnlyMbx t u) : OnlyMbx s u := by simp_all
theorem foldl_onlyMbx {α : Type} (l : List α) (f : State → α → State) (h : ∀ a x, OnlyMbx a (f a x)) (s : State) : OnlyMbx s (l.foldl f s) := by
  induction l generalizing s with
  | nil => exact .rfl' s
  | cons x l ih => exact (h s x).trans' (ih _)
/-- At most the part `mem` of the state differs. -/
@[reducible, simp] def OnlyMem (s t : State) : Prop :=
  t.pending = s.pending ∧ t.now = s.now ∧ t.free = s.free ∧ t.board = s.board ∧ t.hub = s.hub ∧ t.mbx = s.mbx ∧ t.part = s.part ∧
  t.rgn = s.rgn ∧ t.lode = s.lode ∧ t.xlat = s.xlat ∧ t.eng = s.eng ∧ t.attn = s.attn ∧ t.form = s.form ∧ t.retr = s.retr ∧
  t.couch = s.couch ∧ t.link = s.link ∧ t.cal = s.cal ∧ t.laid = s.laid ∧ t.pair = s.pair ∧ t.sec = s.sec ∧ t.pkg = s.pkg
theorem OnlyMem.rfl' (s : State) : OnlyMem s s := by simp
theorem OnlyMem.trans' {s t u : State} (h : OnlyMem s t) (k : OnlyMem t u) : OnlyMem s u := by simp_all
theorem foldl_onlyMem {α : Type} (l : List α) (f : State → α → State) (h : ∀ a x, OnlyMem a (f a x)) (s : State) : OnlyMem s (l.foldl f s) := by
  induction l generalizing s with
  | nil => exact .rfl' s
  | cons x l ih => exact (h s x).trans' (ih _)
/-- At most the part `pair` of the state differs. -/
@[reducible, simp] def OnlyPair (s t : State) : Prop :=
  t.pending = s.pending ∧ t.now = s.now ∧ t.free = s.free ∧ t.board = s.board ∧ t.hub = s.hub ∧ t.mbx = s.mbx ∧ t.mem = s.mem ∧
  t.part = s.part ∧ t.rgn = s.rgn ∧ t.lode = s.lode ∧ t.xlat = s.xlat ∧ t.eng = s.eng ∧ t.attn = s.attn ∧ t.form = s.form ∧
  t.retr = s.retr ∧ t.couch = s.couch ∧ t.link = s.link ∧ t.cal = s.cal ∧ t.laid = s.laid ∧ t.sec = s.sec ∧ t.pkg = s.pkg
theorem OnlyPair.rfl' (s : State) : OnlyPair s s := by simp
theorem OnlyPair.trans' {s t u : State} (h : OnlyPair s t) (k : OnlyPair t u) : OnlyPair s u := by simp_all
theorem foldl_onlyPair {α : Type} (l : List α) (f : State → α → State) (h : ∀ a x, OnlyPair a (f a x)) (s : State) : OnlyPair s (l.foldl f s) := by
  induction l generalizing s with
  | nil => exact .rfl' s
  | cons x l ih => exact (h s x).trans' (ih _)
/-- At most the part `part` of the state differs. -/
@[reducible, simp] def OnlyPart (s t : State) : Prop :=
  t.pending = s.pending ∧ t.now = s.now ∧ t.free = s.free ∧ t.board = s.board ∧ t.hub = s.hub ∧ t.mbx = s.mbx ∧ t.mem = s.mem ∧
  t.rgn = s.rgn ∧ t.lode = s.lode ∧ t.xlat = s.xlat ∧ t.eng = s.eng ∧ t.attn = s.attn ∧ t.form = s.form ∧ t.retr = s.retr ∧
  t.couch = s.couch ∧ t.link = s.link ∧ t.cal = s.cal ∧ t.laid = s.laid ∧ t.pair = s.pair ∧ t.sec = s.sec ∧ t.pkg = s.pkg
theorem OnlyPart.rfl' (s : State) : OnlyPart s s := by simp
theorem OnlyPart.trans' {s t u : State} (h : OnlyPart s t) (k : OnlyPart t u) : OnlyPart s u := by simp_all
theorem foldl_onlyPart {α : Type} (l : List α) (f : State → α → State) (h : ∀ a x, OnlyPart a (f a x)) (s : State) : OnlyPart s (l.foldl f s) := by
  induction l generalizing s with
  | nil => exact .rfl' s
  | cons x l ih => exact (h s x).trans' (ih _)
/-- At most the part `pkg` of the state differs. -/
@[reducible, simp] def OnlyPkg (s t : State) : Prop :=
  t.pending = s.pending ∧ t.now = s.now ∧ t.free = s.free ∧ t.board = s.board ∧ t.hub = s.hub ∧ t.mbx = s.mbx ∧ t.mem = s.mem ∧
  t.part = s.part ∧ t.rgn = s.rgn ∧ t.lode = s.lode ∧ t.xlat = s.xlat ∧ t.eng = s.eng ∧ t.attn = s.attn ∧ t.form = s.form ∧
  t.retr = s.retr ∧ t.couch = s.couch ∧ t.link = s.link ∧ t.cal = s.cal ∧ t.laid = s.laid ∧ t.pair = s.pair ∧ t.sec = s.sec
theorem OnlyPkg.rfl' (s : State) : OnlyPkg s s := by simp
theorem OnlyPkg.trans' {s t u : State} (h : OnlyPkg s t) (k : OnlyPkg t u) : OnlyPkg s u := by simp_all
theorem foldl_onlyPkg {α : Type} (l : List α) (f : State → α → State) (h : ∀ a x, OnlyPkg a (f a x)) (s : State) : OnlyPkg s (l.foldl f s) := by
  induction l generalizing s with
  | nil => exact .rfl' s
  | cons x l ih => exact (h s x).trans' (ih _)
/-- At most the part `retr` of the state differs. -/
@[reducible, simp] def OnlyRetr (s t : State) : Prop :=
  t.pending = s.pending ∧ t.now = s.now ∧ t.free = s.free ∧ t.board = s.board ∧ t.hub = s.hub ∧ t.mbx = s.mbx ∧ t.mem = s.mem ∧
  t.part = s.part ∧ t.rgn = s.rgn ∧ t.lode = s.lode ∧ t.xlat = s.xlat ∧ t.eng = s.eng ∧ t.attn = s.attn ∧ t.form = s.form ∧
  t.couch = s.couch ∧ t.link = s.link ∧ t.cal = s.cal ∧ t.laid = s.laid ∧ t.pair = s.pair ∧ t.sec = s.sec ∧ t.pkg = s.pkg
theorem OnlyRetr.rfl' (s : State) : OnlyRetr s s := by simp
theorem OnlyRetr.trans' {s t u : State} (h : OnlyRetr s t) (k : OnlyRetr t u) : OnlyRetr s u := by simp_all
theorem foldl_onlyRetr {α : Type} (l : List α) (f : State → α → State) (h : ∀ a x, OnlyRetr a (f a x)) (s : State) : OnlyRetr s (l.foldl f s) := by
  induction l generalizing s with
  | nil => exact .rfl' s
  | cons x l ih => exact (h s x).trans' (ih _)
/-- At most the part `rgn` of the state differs. -/
@[reducible, simp] def OnlyRgn (s t : State) : Prop :=
  t.pending = s.pending ∧ t.now = s.now ∧ t.free = s.free ∧ t.board = s.board ∧ t.hub = s.hub ∧ t.mbx = s.mbx ∧ t.mem = s.mem ∧
  t.part = s.part ∧ t.lode = s.lode ∧ t.xlat = s.xlat ∧ t.eng = s.eng ∧ t.attn = s.attn ∧ t.form = s.form ∧ t.retr = s.retr ∧
  t.couch = s.couch ∧ t.link = s.link ∧ t.cal = s.cal ∧ t.laid = s.laid ∧ t.pair = s.pair ∧ t.sec = s.sec ∧ t.pkg = s.pkg
theorem OnlyRgn.rfl' (s : State) : OnlyRgn s s := by simp
theorem OnlyRgn.trans' {s t u : State} (h : OnlyRgn s t) (k : OnlyRgn t u) : OnlyRgn s u := by simp_all
theorem foldl_onlyRgn {α : Type} (l : List α) (f : State → α → State) (h : ∀ a x, OnlyRgn a (f a x)) (s : State) : OnlyRgn s (l.foldl f s) := by
  induction l generalizing s with
  | nil => exact .rfl' s
  | cons x l ih => exact (h s x).trans' (ih _)
/-- At most the part `sec` of the state differs. -/
@[reducible, simp] def OnlySec (s t : State) : Prop :=
  t.pending = s.pending ∧ t.now = s.now ∧ t.free = s.free ∧ t.board = s.board ∧ t.hub = s.hub ∧ t.mbx = s.mbx ∧ t.mem = s.mem ∧
  t.part = s.part ∧ t.rgn = s.rgn ∧ t.lode = s.lode ∧ t.xlat = s.xlat ∧ t.eng = s.eng ∧ t.attn = s.attn ∧ t.form = s.form ∧
  t.retr = s.retr ∧ t.couch = s.couch ∧ t.link = s.link ∧ t.cal = s.cal ∧ t.laid = s.laid ∧ t.pair = s.pair ∧ t.pkg = s.pkg
theorem OnlySec.rfl' (s : State) : OnlySec s s := by simp
theorem OnlySec.trans' {s t u : State} (h : OnlySec s t) (k : OnlySec t u) : OnlySec s u := by simp_all
theorem foldl_onlySec {α : Type} (l : List α) (f : State → α → State) (h : ∀ a x, OnlySec a (f a x)) (s : State) : OnlySec s (l.foldl f s) := by
  induction l generalizing s with
  | nil => exact .rfl' s
  | cons x l ih => exact (h s x).trans' (ih _)
/-- At most the part `xlat` of the state differs. -/
@[reducible, simp] def OnlyXlat (s t : State) : Prop :=
  t.pending = s.pending ∧ t.now = s.now ∧ t.free = s.free ∧ t.board = s.board ∧ t.hub = s.hub ∧ t.mbx = s.mbx ∧ t.mem = s.mem ∧
  t.part = s.part ∧ t.rgn = s.rgn ∧ t.lode = s.lode ∧ t.eng = s.eng ∧ t.attn = s.attn ∧ t.form = s.form ∧ t.retr = s.retr ∧
  t.couch = s.couch ∧ t.link = s.link ∧ t.cal = s.cal ∧ t.laid = s.laid ∧ t.pair = s.pair ∧ t.sec = s.sec ∧ t.pkg = s.pkg
theorem OnlyXlat.rfl' (s : State) : OnlyXlat s s := by simp
theorem OnlyXlat.trans' {s t u : State} (h : OnlyXlat s t) (k : OnlyXlat t u) : OnlyXlat s u := by simp_all
theorem foldl_onlyXlat {α : Type} (l : List α) (f : State → α → State) (h : ∀ a x, OnlyXlat a (f a x)) (s : State) : OnlyXlat s (l.foldl f s) := by
  induction l generalizing s with
  | nil => exact .rfl' s
  | cons x l ih => exact (h s x).trans' (ih _)
@[simp] theorem ite_hub (p : Prop) [Decidable p] (a b : State) : (if p then a else b).hub = if p then a.hub else b.hub := by split <;> rfl
@[simp] theorem ite_fst_hub {β : Type} (p : Prop) [Decidable p] (a b : State × β) : (if p then a else b).1.hub = if p then a.1.hub else b.1.hub := by split <;> rfl
@[simp] theorem ite_mbx (p : Prop) [Decidable p] (a b : State) : (if p then a else b).mbx = if p then a.mbx else b.mbx := by split <;> rfl
@[simp] theorem ite_fst_mbx {β : Type} (p : Prop) [Decidable p] (a b : State × β) : (if p then a else b).1.mbx = if p then a.1.mbx else b.1.mbx := by split <;> rfl
@[simp] theorem ite_mem (p : Prop) [Decidable p] (a b : State) : (if p then a else b).mem = if p then a.mem else b.mem := by split <;> rfl
@[simp] theorem ite_fst_mem {β : Type} (p : Prop) [Decidable p] (a b : State × β) : (if p then a else b).1.mem = if p then a.1.mem else b.1.mem := by split <;> rfl
@[simp] theorem ite_part (p : Prop) [Decidable p] (a b : State) : (if p then a else b).part = if p then a.part else b.part := by split <;> rfl
@[simp] theorem ite_fst_part {β : Type} (p : Prop) [Decidable p] (a b : State × β) : (if p then a else b).1.part = if p then a.1.part else b.1.part := by split <;> rfl
@[simp] theorem ite_link (p : Prop) [Decidable p] (a b : State) : (if p then a else b).link = if p then a.link else b.link := by split <;> rfl
@[simp] theorem ite_fst_link {β : Type} (p : Prop) [Decidable p] (a b : State × β) : (if p then a else b).1.link = if p then a.1.link else b.1.link := by split <;> rfl
@[simp] theorem ite_cal (p : Prop) [Decidable p] (a b : State) : (if p then a else b).cal = if p then a.cal else b.cal := by split <;> rfl
@[simp] theorem ite_fst_cal {β : Type} (p : Prop) [Decidable p] (a b : State × β) : (if p then a else b).1.cal = if p then a.1.cal else b.1.cal := by split <;> rfl
@[simp] theorem ite_pair (p : Prop) [Decidable p] (a b : State) : (if p then a else b).pair = if p then a.pair else b.pair := by split <;> rfl
@[simp] theorem ite_fst_pair {β : Type} (p : Prop) [Decidable p] (a b : State × β) : (if p then a else b).1.pair = if p then a.1.pair else b.1.pair := by split <;> rfl
@[simp] theorem ite_pkg (p : Prop) [Decidable p] (a b : State) : (if p then a else b).pkg = if p then a.pkg else b.pkg := by split <;> rfl
@[simp] theorem ite_fst_pkg {β : Type} (p : Prop) [Decidable p] (a b : State × β) : (if p then a else b).1.pkg = if p then a.1.pkg else b.1.pkg := by split <;> rfl

@[simp] theorem State.draw_only (s : State) (n : Nat) : OnlyFree s (s.draw n).2 := by simp [State.draw]
@[simp] theorem State.pins_only (s : State) : OnlyPkg s s.pins := by simp [State.pins]
@[simp] theorem State.setPort_only (s : State) (p : Nat) (x : Port) : OnlyLink s (s.setPort p x) := by simp [State.setPort]
@[simp] theorem State.modPort_only (s : State) (p : Nat) (f : Port → Port) : OnlyLink s (s.modPort p f) := by simp [State.modPort]
@[simp] theorem State.enqueue_only (s : State) (p vc queue deckle : Nat) (m : Msg) (cls : Nat) :
    OnlyLink s (s.enqueue p vc queue deckle m cls) := by simp [State.enqueue]
@[simp] theorem State.bypassSlot_only (s : State) (p : Nat) (m : Slot) : OnlyLink s (s.bypassSlot p m) := by simp [State.bypassSlot]
@[simp] theorem State.sendEp_only (s : State) (ep vc queue deckle : Nat) (m : Msg) (cls : Nat) :
    OnlyLink s (s.sendEp ep vc queue deckle m cls) := by unfold State.sendEp; (repeat' split) <;> simp
@[simp] theorem State.eventAcked_only (s : State) (recv seq : Nat) : OnlyMbx s (s.eventAcked recv seq) := by simp [State.eventAcked]
@[simp] theorem State.setLease_only (s : State) (d ep : Nat) (l : Option Lease) : OnlyPart s (s.setLease d ep l) := by simp [State.setLease]
@[simp] theorem State.modDeckle_only (s : State) (d : Nat) (f : Deckle → Deckle) : OnlyPart s (s.modDeckle d f) := by simp [State.modDeckle]
@[simp] theorem State.modExtent_only (s : State) (x : Nat) (f : Extent → Extent) : OnlyPart s (s.modExtent x f) := by simp [State.modExtent]
@[simp] theorem State.canon_only (s : State) : OnlyMem s s.canon := by simp [State.canon]
@[simp] theorem State.putCell_only (s : State) (t : Tier) (line : Nat) (c : Cell) : OnlyMem s (s.putCell t line c) := by simp [State.putCell]
@[simp] theorem State.mismatch_only (s : State) (d : Nat) : OnlyPart s (s.mismatch d) := by simp [State.mismatch]
@[simp] theorem State.fillTlb_only (s : State) (core d : Nat) (lines : List Nat) (refs : List LineRef) :
    OnlyXlat s (s.fillTlb core d lines refs) := by simp [State.fillTlb]
@[simp] theorem State.dropTlb_only (s : State) (d : Nat) : OnlyXlat s (s.dropTlb d) := by simp [State.dropTlb]
@[simp] theorem State.markDirty_only (s : State) (r : LineRef) : OnlyPart s (s.markDirty r) := by simp [State.markDirty]
@[simp] theorem State.modGroup_only (s : State) (g : Nat) (f : Group → Group) : OnlyMem s (s.modGroup g f) := by simp [State.modGroup]
@[simp] theorem State.logRec_only (s : State) (r : LogRec) : OnlyMem s (s.logRec r) := by simp [State.logRec]
@[simp] theorem State.countCe_only (s : State) (k : Nat) : OnlyMem s (s.countCe k) := by simp [State.countCe]
@[simp] theorem State.failOut_only (s : State) (g u cause : Nat) : OnlyMem s (s.failOut g u cause) := by simp [State.failOut]
@[simp] theorem State.countUe_only (s : State) (g u : Nat) : OnlyMem s (s.countUe g u) := by simp [State.countUe]
@[simp] theorem State.chargeDev_only (s : State) (kind pj : Nat) : OnlyCal s (s.chargeDev kind pj) := by simp [State.chargeDev]
@[simp] theorem State.takeInject_only (s : State) (k row : Nat) (parity : Bool) : OnlyMem s (s.takeInject k row parity).2 := by
  unfold State.takeInject; (repeat' split) <;> (first | (simp; done) | (simp; (repeat' (first | (with_reducible rfl) | (simp; done) | split)); done))
@[simp] theorem State.unpoison_only (s : State) (t : Tier) (line : Nat) : OnlyMem s (s.unpoison t line) := by simp [State.unpoison]
@[simp] theorem State.storeCell_only (s : State) (t : Tier) (line : Nat) (c : Cell) (full : Bool) : OnlyMem s (s.storeCell t line c full) := by
  unfold State.storeCell; (repeat' split) <;> (first | (simp; done) | (simp; (repeat' (first | (with_reducible rfl) | (simp; done) | split)); done))
@[simp] theorem State.poisonAt_only (s : State) (r : LineRef) (cause idx : Nat) : OnlyMem s (s.poisonAt r cause idx) := by
  unfold State.poisonAt; (repeat' split) <;> (first | (simp; done) | (simp; (repeat' (first | (with_reducible rfl) | (simp; done) | split)); done))
@[simp] theorem State.poisonLine_only (s : State) (r : LineRef) (cause : Nat) : OnlyMem s (s.poisonLine r cause) := by simp [State.poisonLine]
@[simp] theorem State.returnCredits_only (s : State) (p : Nat) : OnlyLink s (s.returnCredits p) := by simp [State.returnCredits]
@[simp] theorem State.delivered_only (s : State) (l : List Msg) : OnlyMbx s (s.delivered l) := by
  unfold State.delivered
  exact foldl_onlyMbx _ _ (fun _ _ => by (repeat' split) <;> simp) _
@[simp] theorem State.freeBefore8_only (s : State) (p n : Nat) : OnlyLink s (s.freeBefore8 p n) := by simp [State.freeBefore8]
@[simp] theorem State.startRetrain_only (s : State) (p cause width : Nat) (own : Bool) :
    OnlyLink s (s.startRetrain p cause width own) := by simp [State.startRetrain]
@[simp] theorem State.renewDriver_only (s : State) (q : Req) : OnlyHub s (s.renewDriver q) := by simp [State.renewDriver]
@[simp] theorem State.discardPkt_only (s : State) (p : Nat) : OnlyLink s (s.discardPkt p) := by simp [State.discardPkt]
@[simp] theorem State.refuseReq_only (s : State) (h : Hdr) (st : Status) (aux : Nat) : OnlyLink s (s.refuseReq h st aux) := by simp [State.refuseReq]
@[simp] theorem State.setJob_only (s : State) (j : Nat) (x : Job) : OnlyMem s (s.setJob j x) := by simp [State.setJob]
@[simp] theorem State.countDrain_only (s : State) (x : Job) (discard : Bool) :
    OnlyPart s (s.countDrain x discard) := by unfold State.countDrain; exact foldl_onlyPart _ _ (fun _ _ => by simp) _
@[simp] theorem State.setLode_only (s : State) (i : Nat) (l : Lode) : OnlyLode s (s.setLode i l) := by simp [State.setLode]
@[simp] theorem State.trimCache_only (s : State) (extra : Nat) : OnlyForm s (s.trimCache extra) := by simp [State.trimCache]
@[simp] theorem State.holdRun_only (s : State) (t : Tier) (first n gen owner : Nat) :
    OnlyPart s (s.holdRun t first n gen owner) := by simp [State.holdRun]
@[simp] theorem State.retireRun_only (s : State) (t : Tier) (first n : Nat) (ver : Bool) :
    OnlyPart s (s.retireRun t first n ver) := by simp [State.retireRun]
@[simp] theorem State.modDraft_only (s : State) (i : Nat) (f : Draft → Draft) : OnlyRgn s (s.modDraft i f) := by simp [State.modDraft]
@[simp] theorem State.newKey_only (s : State) : OnlySec s s.newKey.1 := by simp [State.newKey]
@[simp] theorem State.dropKey_only (s : State) (k : Nat) : OnlySec s (s.dropKey k) := by simp [State.dropKey]
@[simp] theorem State.flipLine_only (s : State) (l : JobLine) (flip : Stored) :
    OnlyMem s (s.flipLine l flip) := by unfold State.flipLine; split <;> simp
@[simp] theorem State.takeRead_only (s : State) (j i : Nat) (x : Job) (a1 : RdOut) :
    OnlyMem s (s.takeRead j i x a1) := by unfold State.takeRead; split <;> simp
@[simp] theorem State.openReq_only (s : State) (h : Hdr) (queue : Nat) (large : Bool) :
    OnlyPart s (s.openReq h queue large) := by simp [State.openReq]
@[simp] theorem State.atHome_only (s : State) (r : LineRef) (ep tag addr : Nat) (req : LodeReq) :
    OnlyLode s (s.atHome r ep tag addr req) := by unfold State.atHome; split <;> simp
@[simp] theorem State.modLode_only (s : State) (i : Nat) (f : Lode → Lode) : OnlyLode s (s.modLode i f) := by simp [State.modLode]
@[simp] theorem State.leaveHome_only (s : State) (i : Nat) (w : LodeWork) (d : Option DirState) :
    OnlyLode s (s.leaveHome i w d) := by simp [State.leaveHome]
@[simp] theorem State.refuseLode_only (s : State) (h : Hdr) (addr : Nat) (st : Status) :
    OnlyLink s (s.refuseLode h addr st) := by simp [State.refuseLode]
@[simp] theorem State.dropLode_only (s : State) (i : Nat) : OnlyLode s (s.dropLode i) := by simp [State.dropLode]
@[simp] theorem State.putWindow_only (s : State) (i : Nat) (data : Line) (mask : BitVec 64) :
    OnlyMem s (s.putWindow i data mask) := by simp [State.putWindow]
@[simp] theorem State.leaveFaults_only (s : State) (test : Waiter → Bool) : OnlyXlat s (s.leaveFaults test) := by simp [State.leaveFaults]
@[simp] theorem State.countStopped_only (s : State) (d : Nat) (lines : List Nat) :
    OnlyPart s (s.countStopped d lines) := by unfold State.countStopped; exact foldl_onlyPart _ _ (fun _ _ => by simp) _
@[simp] theorem State.setEngine_only (s : State) (c e : Nat) (x : Engine) : OnlyEng s (s.setEngine c e x) := by simp [State.setEngine]
@[simp] theorem State.modCore_only (s : State) (c : Nat) (f : Core → Core) : OnlyEng s (s.modCore c f) := by simp [State.modCore]
@[simp] theorem State.modWork_only (s : State) (w : Nat) (f : Work → Work) : OnlyEng s (s.modWork w f) := by simp [State.modWork]
@[simp] theorem State.measure_only (s : State) : OnlyFree s s.measure.2 := by simp [State.measure]
@[simp] theorem State.freeWork_only (s : State) (w : Nat) : OnlyEng s (s.freeWork w) := by simp [State.freeWork]
@[simp] theorem State.dropKernels_only (s : State) : OnlyEng s s.dropKernels := by simp [State.dropKernels]
@[simp] theorem State.startWindows_only (s : State) (w d c n : Nat) : OnlyEng s (s.startWindows w d c n) := by simp [State.startWindows]
@[simp] theorem State.countStop_only (s : State) (xs : List Nat) :
    OnlyPart s (s.countStop xs) := by unfold State.countStop; exact foldl_onlyPart _ _ (fun _ _ => by simp) _
@[simp] theorem State.modSlot_only (s : State) (c e slot : Nat) (f : Stream → Stream) : OnlyEng s (s.modSlot c e slot f) := by simp [State.modSlot]
@[simp] theorem State.landed_only (s : State) (c e slot w : Nat) (mseq : Option Nat) : OnlyEng s (s.landed c e slot w mseq) := by simp [State.landed]
@[simp] theorem State.wantPart_only (s : State) (p : CachePart) : OnlyForm s (s.wantPart p) := by simp [State.wantPart]
@[simp] theorem State.wantFor_only (s : State) (d : Nat) (b : FormBind) (f : FormProg) :
    OnlyForm s (s.wantFor d b f) := by unfold State.wantFor; split <;> simp
@[simp] theorem State.endParts_only (s : State) (test : CachePart → Bool) : OnlyForm s (s.endParts test) := by simp [State.endParts]
@[simp] theorem State.modAdapters_only (s : State) (test : Adapter → Bool) (f : Adapter → Adapter) :
    OnlyForm s (s.modAdapters test f) := by simp [State.modAdapters]
@[simp] theorem State.sendFormed_only (s : State) (x : Work) (tag at_ len bytes : Nat) :
    OnlyLink s (s.sendFormed x tag at_ len bytes) := by unfold State.sendFormed; exact foldl_onlyLink _ _ (fun _ _ => by simp) _
@[simp] theorem State.commitIndex_only (s : State) (p : IndexP) (i : Nat) : OnlyRetr s (s.commitIndex p i).1 := by simp [State.commitIndex]
@[simp] theorem State.dropCtx_only (s : State) (d : Nat) : OnlyPart s (s.dropCtx d) := by
  unfold State.dropCtx; (repeat' split) <;> (first | (simp; done) | (exact foldl_onlyPart _ _ (fun _ _ => by simp) _))
@[simp] theorem State.setSpill_only (s : State) (n : Nat) :
    OnlyEng s (s.setSpill n) := by unfold State.setSpill; exact foldl_onlyEng _ _ (fun _ _ => by simp) _
@[simp] theorem State.touchCtx_only (s : State) (seq : Nat) : OnlyEng s (s.touchCtx seq) := by unfold State.touchCtx; split <;> simp
@[simp] theorem State.modSeq_only (s : State) (q : Nat) (f : SeqCtx → SeqCtx) : OnlyAttn s (s.modSeq q f) := by simp [State.modSeq]
@[simp] theorem State.setChan_only (s : State) (core ch : Nat) (c : Channel) : OnlyCouch s (s.setChan core ch c) := by simp [State.setChan]
@[simp] theorem State.modChain_only (s : State) (core ch : Nat) (f : Chain → Chain) : OnlyCouch s (s.modChain core ch f) := by simp [State.modChain]
@[simp] theorem State.modRun_only (s : State) (core ch : Nat) (f : DescRun → DescRun) : OnlyCouch s (s.modRun core ch f) := by simp [State.modRun]
@[simp] theorem State.setTile_only (s : State) (core ch t : Nat) (x : Option TileState) :
    OnlyCouch s (s.setTile core ch t x) := by simp [State.setTile]
@[simp] theorem State.openStatus_only (s : State) : OnlyFree s s.openStatus.1 := by simp [State.openStatus]
@[simp] theorem State.closeFault_only (s : State) (f : Nat) : OnlyXlat s (s.closeFault f) := by simp [State.closeFault]
@[simp] theorem State.reopenWindow_only (s : State) (st : Status) : OnlyHub s (s.reopenWindow st) := by simp [State.reopenWindow]
@[simp] theorem State.bootActivate_only (s : State) (q : Req) (p : FwP) (r : Nat) : OnlyHub s (s.bootActivate q p r).1 := by simp [State.bootActivate]
@[simp] theorem State.closeSession_only (s : State) : OnlySec s s.closeSession := by simp [State.closeSession]
@[simp] theorem State.adoptLease_only (s : State) (ep : Nat) : OnlyPart s (s.adoptLease ep) := by simp [State.adoptLease]
@[simp] theorem State.listPoison_only (s : State) (p : Poison) : OnlyMem s (s.listPoison p) := by simp [State.listPoison]
@[simp] theorem State.rewriteLine_only (s : State) (t : Tier) (line : Nat) :
    OnlyMem s (s.rewriteLine t line) := by unfold State.rewriteLine; split <;> simp
@[simp] theorem State.scrubParity_only (s : State) (t : Tier) (line : Nat) (rewrite : Bool) (y : Tally) :
    OnlyMem s (s.scrubParity t line rewrite y).1 := by
  unfold State.scrubParity; (repeat' split) <;> (first | (simp; done) | (simp; (repeat' (first | (with_reducible rfl) | (simp; done) | split)); done))
@[simp] theorem State.scrubbedRange_only (s : State) (t : Tier) (p : ScrubP) : OnlyMem s (s.scrubbedRange t p) := by simp [State.scrubbedRange]
@[simp] theorem State.rebuildLine_only (s : State) (g : Nat) (line : Nat) : OnlyMem s (s.rebuildLine g line) := by
  unfold State.rebuildLine; (repeat' split) <;> (first | (simp; done) | (simp; (repeat' (first | (with_reducible rfl) | (simp; done) | split)); done))
@[simp] theorem State.reparity_only (s : State) (g : Nat) (test : Place → Bool) :
    OnlyMem s (s.reparity g test) := by unfold State.reparity; exact foldl_onlyMem _ _ (fun _ _ => by simp) _
@[simp] theorem State.tap_only (s : State) (i : TapIr) (driving hiZ : Bool) (len value : Nat) :
    OnlyPkg s (s.tap i driving hiZ len value) := by simp [State.tap]
@[simp] theorem State.tapBypass_only (s : State) (i : TapIr) (driving hiZ : Bool) : OnlyPkg s (s.tapBypass i driving hiZ) := by simp [State.tapBypass]
@[simp] theorem State.modTable_only (s : State) (slot : Nat) (f : LaidTable → LaidTable) : OnlyLaid s (s.modTable slot f) := by simp [State.modTable]
@[simp] theorem State.modEntry_only (s : State) (slot i : Nat) (f : LaidRun → LaidRun) : OnlyLaid s (s.modEntry slot i f) := by simp [State.modEntry]
@[simp] theorem State.setRails_only (s : State) : OnlyPkg s s.setRails := by simp [State.setRails]
@[simp] theorem State.noteCool_only (s : State) : OnlyCal s s.noteCool := by simp [State.noteCool]
@[simp] theorem State.setRates_only (s : State) : OnlyPart s s.setRates := by simp [State.setRates]
@[simp] theorem State.sendLaid_only (s : State) (e : LaidEntry) (off n bytes : Nat) :
    OnlyLink s (s.sendLaid e off n bytes) := by unfold State.sendLaid; exact foldl_onlyLink _ _ (fun _ _ => by simp) _
@[simp] theorem State.setReserved_only (s : State) : OnlyEng s s.setReserved := by simp [State.setReserved]
@[simp] theorem State.countInbound_only (s : State) (h : Hdr) (m : MemExt) :
    OnlyLaid s (s.countInbound h m) := by unfold State.countInbound; (repeat' split) <;> simp
@[simp] theorem State.nak_only (s : State) (p : Nat) : OnlyLink s (s.nak p) := by simp [State.nak]
@[simp] theorem State.bnak_only (s : State) (p : Nat) : OnlyLink s (s.bnak p) := by simp [State.bnak]
@[simp] theorem State.modPair_only (s : State) (f : Pair → Pair) : OnlyPair s (s.modPair f) := by simp [State.modPair]
@[simp] theorem State.setPair_only (s : State) (p : PState) : OnlyPair s (s.setPair p) := by simp [State.setPair]
@[simp] theorem State.sendCtrl_only (s : State) (k : MirCtrlKind) : OnlyLink s (s.sendCtrl k) := by unfold State.sendCtrl; split <;> simp
@[simp] theorem State.sendHb_only (s : State) : OnlyLink s s.sendHb := by unfold State.sendHb; exact foldl_onlyLink _ _ (fun _ _ => by simp) _
@[simp] theorem State.noteReq_only (s : State) (x : MirExt) (lines : List MirLine) : OnlyPair s (s.noteReq x lines) := by simp [State.noteReq]
@[simp] theorem State.applyEp_only (s : State) (ep : Nat) (x : Option (Nat × Nat)) : OnlyPart s (s.applyEp ep x) := by simp [State.applyEp]
@[simp] theorem State.syncReached_only (s : State) : OnlyPair s s.syncReached := by unfold State.syncReached; split <;> simp
@[simp] theorem State.wakeReads_only (s : State) (t : Tier) (line : Nat) : OnlyMem s (s.wakeReads t line) := by simp [State.wakeReads]
@[simp] theorem State.fetchFailed_only (s : State) (t : Tier) (line : Nat) :
    OnlyMem s (s.fetchFailed t line) := by unfold State.fetchFailed; (repeat' split) <;> simp
@[simp] theorem State.startPromotion_only (s : State) (cause : Nat) : OnlyPair s (s.startPromotion cause) := by simp [State.startPromotion]
@[simp] theorem State.takePromote_only (s : State) (cause : Nat) : OnlyPair s (s.takePromote cause) := by simp [State.takePromote]
@[simp] theorem State.tryWitnesses_only (s : State) : OnlyPair s s.tryWitnesses := by simp [State.tryWitnesses]
@[simp] theorem State.roleActive_only (s : State) (cause : Nat) : OnlyPair s (s.roleActive cause) := by simp [State.roleActive]
@[simp] theorem State.hbAtStandby_only (s : State) (x : MirExt) : OnlyPair s (s.hbAtStandby x) := by simp [State.hbAtStandby]

/-! ## Reading after an update -/

@[simp] theorem State.advance_now (s : State) (d : Nat) : (s.advance d).now = s.now + d := rfl
@[simp] theorem State.advance_laid_ne (s : State) (d : Nat) (h : s.laid.counting = false) : (s.advance d).laid = s.laid := by
  unfold State.advance; rw [if_neg (by simp [h])]
@[simp] theorem State.reach_now (s : State) (t : Nat) : (s.reach t).now = max s.now t := by
  simp only [State.reach, State.advance_now]; omega
@[simp] theorem State.draw_free (s : State) (n : Nat) : (s.draw n).2.free = s.free + 1 := rfl
theorem State.draw_lt (s : State) (n : Nat) (h : 0 < n) : (s.draw n).1 < n := Nat.mod_lt _ h

@[simp] theorem State.port_setPort (s : State) (p : Nat) (x : Port) : (s.setPort p x).port p = x := by
  simp [State.port, State.setPort]
@[simp] theorem State.port_setPort_ne (s : State) (p r : Nat) (x : Port) (h : r ≠ p) : (s.setPort p x).port r = s.port r := by
  simp [State.port, State.setPort, NMap.find_put_ne, h]
@[simp] theorem State.port_modPort (s : State) (p : Nat) (f : Port → Port) : (s.modPort p f).port p = f (s.port p) := by
  simp [State.modPort]
@[simp] theorem State.port_modPort_ne (s : State) (p r : Nat) (f : Port → Port) (h : r ≠ p) : (s.modPort p f).port r = s.port r := by
  simp [State.modPort, h]

@[simp] theorem State.core_modCore (s : State) (c : Nat) (f : Core → Core) : (s.modCore c f).core c = f (s.core c) := by
  simp [State.core, State.modCore]
@[simp] theorem State.core_modCore_ne (s : State) (c e : Nat) (f : Core → Core) (h : e ≠ c) : (s.modCore c f).core e = s.core e := by
  simp [State.core, State.modCore, NMap.find_put_ne, h]

@[simp] theorem State.deckles_modDeckle (s : State) (d : Nat) (f : Deckle → Deckle) :
    (s.modDeckle d f).part.deckles.find d = (s.part.deckles.find d).map f := by simp [State.modDeckle]
@[simp] theorem State.extents_modExtent (s : State) (x : Nat) (f : Extent → Extent) :
    (s.modExtent x f).part.extents.find x = (s.part.extents.find x).map f := by simp [State.modExtent]
@[simp] theorem State.groups_modGroup (s : State) (g : Nat) (f : Group → Group) :
    (s.modGroup g f).mem.groups.find g = (s.mem.groups.find g).map f := by simp [State.modGroup]
@[simp] theorem State.lodes_modLode (s : State) (i : Nat) (f : Lode → Lode) :
    (s.modLode i f).lode.lodes.find i = (s.lode.lodes.find i).map f := by simp [State.modLode]
@[simp] theorem State.work_modWork (s : State) (w : Nat) (f : Work → Work) :
    (s.modWork w f).eng.work.find w = (s.eng.work.find w).map f := by simp [State.modWork]
@[simp] theorem State.pair_modPair (s : State) (f : Pair → Pair) : (s.modPair f).pair = f s.pair := rfl

end Sys2Proof.Machine
end

