-- ==== Sys2Proof/WellFormed.lean ====
section
/-! DEFINITION. Well-formed commands: every operand fits the width the manual's tables give its field, so
that the command is one that bits can spell. The meanings do not rely on it. -/

namespace Sys2Proof

/-- Every value fits its width in bits. -/
def fits (l : List (Nat × Nat)) : Bool := l.all fun x => x.2 < 2 ^ x.1

/-- The fields of Table 2.2 and 14.2. -/
def reqFits (x : Req) : Bool :=
  fits [
    (6, x.port), (12, x.ep), (12, x.pktDeckle), (12, x.deckle), (8, x.tag), (16, x.plen), (56, x.paramPva),
    (64, x.cookie), (56, x.resultPva), (32, x.resultLen)]

/-- The fields of Table 14.2. -/
def hdrFits (x : Hdr) : Bool :=
  fits [
    (6, x.port), (3, x.vc), (12, x.ep), (12, x.deckle), (16, x.tag), (3, x.cls), (13, x.len)]

/-- The fields of Table 14.3. -/
def memExtFits (x : MemExt) : Bool :=
  fits [
    (56, x.addr), (8, x.addrHi), (7, x.lines), (2, x.aop), (32, x.handle)]

/-- The fields of Table 14.4. -/
def lodeExtFits (x : LodeExt) : Bool :=
  fits [
    (56, x.addr)]

/-- The fields of Table 2.7. -/
def devCfgPFits (x : DevCfgP) : Bool :=
  fits [
    (16, x.wedgeMs)]

/-- The fields of Table 2.8. -/
def attachPFits (x : AttachP) : Bool :=
  fits [
    (256, x.nonce)]

/-- The fields of Table 2.10. -/
def fwPFits (x : FwP) : Bool :=
  fits [
    (56, x.imagePva), (32, x.imageLen)]

/-- The fields of Table 2.12. -/
def brPFits (x : BrP) : Bool :=
  fits [
    (32, x.word)]

/-- The fields of Table 3.6. -/
def migratePFits (x : MigrateP) : Bool :=
  fits [
    (12, x.deckle), (32, x.extent), (2, x.target)]

/-- The fields of Table 4.1. -/
def deckleCreatePFits (x : DeckleCreateP) : Bool :=
  fits [
    (12, x.deckle), (16, x.ctrlGranules), (56, x.ctrlPva), (32, x.qT1), (32, x.qT2), (32, x.qStg), (16, x.qLodeMib),
    (8, x.epCount), (14, x.leaseMs), (11, x.graceMs), (456, x.kernelKey)] && x.epList.length ≤ 16 && x.epList.all (fun e => e < 4096)

/-- The fields of Table 4.3. -/
def quotaPFits (x : QuotaP) : Bool :=
  fits [
    (12, x.deckle), (32, x.qT1), (32, x.qT2), (32, x.qStg), (16, x.qLodeMib)]

/-- The fields of Table 4.4. -/
def decklePFits (x : DeckleP) : Bool :=
  fits [
    (12, x.deckle)]

/-- The fields of Table 4.6. -/
def allocPFits (x : AllocP) : Bool :=
  fits [
    (12, x.deckle), (16, x.granules), (12, x.holder)]

/-- The fields of Table 4.12. -/
def revokePFits (x : RevokeP) : Bool :=
  fits [
    (12, x.deckle), (32, x.extent), (14, x.timeoutUs)]

/-- The fields of Table 4.9. -/
def leasePFits (x : LeaseP) : Bool :=
  fits [
    (12, x.deckle), (12, x.endpoint), (14, x.durationMs), (11, x.graceMs)]

/-- The fields of Table 5.1. -/
def regionPFits (x : RegionP) : Bool :=
  fits [
    (12, x.deckle), (32, x.region), (16, x.segments), (16, x.segGranules), (4, x.retainCount), (32, x.retainMs)]

/-- The fields of Table 5.3. -/
def draftPFits (x : DraftP) : Bool :=
  fits [
    (12, x.deckle), (32, x.region), (32, x.draft), (48, x.base)] && x.modes.length ≤ 1024

/-- The fields of Table 5.6. -/
def publishPFits (x : PublishP) : Bool :=
  fits [
    (12, x.deckle), (32, x.region), (32, x.draft), (48, x.base)]

/-- The fields of Table 5.8. -/
def openPFits (x : OpenP) : Bool :=
  fits [
    (12, x.deckle), (32, x.region), (32, x.id), (48, x.version)]

/-- The fields of Table 5.11. -/
def grantPFits (x : GrantP) : Bool :=
  fits [
    (12, x.deckle), (32, x.region), (12, x.grantee)]

/-- The fields of Table 5.12. -/
def lodePFits (x : LodeP) : Bool :=
  fits [
    (12, x.deckle), (32, x.extent), (20, x.offset64k), (13, x.size64k), (10, x.snoopUs), (32, x.lode)]

/-- The fields of Table 5.13. -/
def lodeMemPFits (x : LodeMemP) : Bool :=
  fits [
    (12, x.deckle), (12, x.endpoint), (32, x.lode)]

/-- The fields of Table 5.18. -/
def salvagePFits (x : SalvageP) : Bool :=
  fits [
    (12, x.deckle), (32, x.lode), (32, x.destExtent), (20, x.destOffset)]

/-- The fields of Table 6.6. -/
def pageEntryFits (x : PageEntry) : Bool :=
  fits [
    (24, x.table), (3, x.level), (56, x.imagePva)]

/-- The fields of Table 6.5. -/
def syncPFits (x : SyncP) : Bool :=
  fits [
    (12, x.deckle), (24, x.root), (32, x.entries.length)] && x.entries.all pageEntryFits

/-- The fields of Table 6.9. -/
def readbackPFits (x : ReadbackP) : Bool :=
  fits [
    (12, x.deckle)]

/-- The fields of Table 6.12. -/
def faultPFits (x : FaultP) : Bool :=
  fits [
    (12, x.deckle), (32, x.fault)]

/-- The fields of Table 8.13. -/
def kernelPFits (x : KernelP) : Bool :=
  fits [
    (12, x.deckle), (56, x.imagePva), (32, x.imageLen), (32, x.handle)]

/-- The fields of Table 8.15. -/
def launchBFits (x : LaunchB) : Bool :=
  fits [
    (32, x.kernel), (5, x.core), (5, x.engines), (5, x.windows), (32, x.coreMask), (20, x.capUs), (12, x.cplEp),
    (32, x.ctag), (32, x.estUj)]

/-- The fields of Table 8.19. -/
def cancelBFits (x : CancelB) : Bool :=
  fits [
    (12, x.cplEp), (32, x.ctag)]

/-- The fields of Table 9.3. -/
def poolSetPFits (x : PoolSetP) : Bool :=
  fits [
    (12, x.deckle), (3, x.windows), (21, x.maxSeq)]

/-- The fields of Table 9.4. -/
def attnOpenBFits (x : AttnOpenB) : Bool :=
  fits [
    (5, x.core), (2, x.headDim), (2, x.format), (7, x.kvHeads), (5, x.group), (9, x.layers), (21, x.maxTokens),
    (21, x.window), (11, x.sinks), (56, x.ptPva), (32, x.ptStride), (12, x.cplEp), (32, x.ctag), (32, x.posBase)]

/-- The fields of Table 9.5. -/
def attnAppendBFits (x : AttnAppendB) : Bool :=
  fits [
    (32, x.seq), (8, x.layer), (13, x.nTokens), (56, x.srcPva), (12, x.cplEp), (32, x.ctag)]

/-- The fields of Table 9.7. -/
def attnStepBFits (x : AttnStepB) : Bool :=
  fits [
    (3, x.cores), (4, x.nQ), (32, x.seq), (8, x.layer), (5, x.engines), (20, x.capUs), (56, x.queryPva),
    (64, x.outAddr), (12, x.cplEp), (32, x.ctag), (32, x.qpos)]

/-- The fields of Table 9.6. -/
def attnCloseBFits (x : AttnCloseB) : Bool :=
  fits [
    (32, x.seq), (21, x.newLength), (12, x.cplEp), (32, x.ctag)]

/-- The fields of Table 10.2. -/
def pinEntryFits (x : PinEntry) : Bool :=
  fits [
    (32, x.region), (48, x.version), (56, x.basePva)]

/-- The fields of Table 10.3. -/
def tensorEntryFits (x : TensorEntry) : Bool :=
  fits [
    (10, x.layer), (8, x.tensor), (3, x.pin), (4, x.format), (24, x.rows), (24, x.cols), (48, x.offset)]

/-- The fields of Table 10.1. -/
def mapPFits (x : MapP) : Bool :=
  fits [
    (32, x.magic), (16, x.fmt), (12, x.deckle), (64, x.mapUid), (7, x.slices), (6, x.slice), (11, x.layers),
    (4, x.pins.length), (14, x.tensors.length)] && x.pins.all pinEntryFits && x.tensors.all tensorEntryFits

/-- The fields of R171. -/
def mapRetirePFits (x : MapRetireP) : Bool :=
  fits [
    (12, x.deckle), (64, x.mapUid)]

/-- The fields of Table 10.5. -/
def adapterPFits (x : AdapterP) : Bool :=
  fits [
    (12, x.deckle), (7, x.rank), (32, x.adapter), (64, x.mapUid), (32, x.region), (48, x.version), (16, x.entries),
    (56, x.basePva), (48, x.descOffset)]

/-- The fields of Table 10.7. -/
def formProgFits (x : FormProg) : Bool :=
  fits [
    (64, x.mapUid), (10, x.layer), (8, x.tensor), (4, x.outFmt), (32, x.adapter), (24, x.row0), (16, x.rows),
    (24, x.col0), (24, x.cols), (17, x.outPitch), (5, x.engines)]

/-- The fields of Table 11.1. -/
def indexPFits (x : IndexP) : Bool :=
  fits [
    (12, x.deckle), (2, x.format), (32, x.index), (32, x.region), (48, x.version), (13, x.dim), (32, x.rows),
    (56, x.basePva), (48, x.offset), (64, x.idBase), (56, x.filterPva)]

/-- The fields of Table 11.3. -/
def topkBFits (x : TopkB) : Bool :=
  fits [
    (2, x.metric), (3, x.cores), (5, x.firstCore), (32, x.index), (32, x.rindex), (11, x.q), (11, x.k), (14, x.cand),
    (5, x.engines), (20, x.capUs), (56, x.queryPva), (56, x.qscalePva), (56, x.rqueryPva), (56, x.rqscalePva),
    (56, x.filterPva), (64, x.outAddr), (12, x.cplEp), (32, x.ctag)]

/-- The fields of Table 12.2. -/
def descFits (x : Desc) : Bool :=
  fits [
    (2, x.srcKind), (3, x.retries), (32, x.tag), (56, x.nextPva), (56, x.srcAddr), (25, x.srcLineLen),
    (32, x.srcStride), (16, x.srcLines), (12, x.remoteEp), (12, x.remoteDeckle), (32, x.remoteHandle),
    (64, x.dstAddr), (25, x.dstLineLen), (32, x.dstStride), (16, x.dstLines), (12, x.dstEp)]

/-- The fields of Table 12.1. -/
def couchBFits (x : CouchB) : Bool :=
  fits [
    (5, x.core), (3, x.channel), (56, x.chainPva), (12, x.cplEp), (32, x.ctag)] && (x.inl.map descFits).getD true

/-- The fields of Table 13.3. -/
def bypassHdrFits (x : BypassHdr) : Bool :=
  fits [
    (8, x.bseq), (8, (x.back.map (·.2)).getD 0), (16, (x.mack.map (·.2)).getD 0), (16, x.rstart.getD 0)]

/-- The fields of Table 13.2. -/
def dataFlitFits (x : DataFlit) : Bool :=
  fits [
    (16, x.seq), (3, x.vc), (8, x.fill)]

/-- The fields of Table 13.5. -/
def paramAFits (x : ParamA) : Bool :=
  fits [
    (64, x.linkId), (8, x.lanes), (4, x.maxWidth)]

/-- The fields of Table 15.1. -/
def queueMapPFits (x : QueueMapP) : Bool :=
  fits [
    (12, x.deckle), (8, x.classMask), (6, x.queue), (10, x.weight)]

/-- The fields of Table 15.2. -/
def bucketPFits (x : BucketP) : Bool :=
  fits [
    (12, x.deckle), (6, x.port), (6, x.queue), (24, x.cir), (24, x.pir), (32, x.cbs), (32, x.pbs)]

/-- The fields of Table 15.4. -/
def energyPFits (x : EnergyP) : Bool :=
  fits [
    (12, x.deckle), (13, x.queueLimit), (32, x.cerMw), (32, x.perMw), (32, x.cebUj), (32, x.pebUj)]

/-- The fields of Table 15.5. -/
def energyReadPFits (x : EnergyReadP) : Bool :=
  fits [
    (12, x.deckle)]

/-- The fields of Table 15.6. -/
def powerCapPFits (x : PowerCapP) : Bool :=
  fits [
    (11, x.capW)]

/-- The fields of Table 16.2. -/
def timeMasterPFits (x : TimeMasterP) : Bool :=
  fits [
    (2, x.role), (6, x.port), (64, x.ppsNs)]

/-- The fields of Table 16.6. -/
def laidLoadPFits (x : LaidLoadP) : Bool :=
  fits [
    (1, x.slot), (56, x.imagePva), (32, x.imageLen)]

/-- The fields of Table 16.8. -/
def laidActPFits (x : LaidActP) : Bool :=
  fits [
    (1, x.slot), (64, x.startNs)]

/-- The fields of Table 16.12. -/
def laidStatusPFits (x : LaidStatusP) : Bool :=
  fits [
    (1, x.slot)]

/-- The fields of Table 17.7. -/
def scrubPFits (x : ScrubP) : Bool :=
  fits [
    (12, x.deckle), (2, x.group), (6, x.share), (56, x.start), (56, x.length)]

/-- The fields of Table 17.9. -/
def injectPFits (x : InjectP) : Bool :=
  fits [
    (3, x.group), (5, x.unit), (2, x.kind), (40, x.row)]

/-- The fields of Table 17.4. -/
def cePFits (x : CeP) : Bool :=
  fits [
    (3, x.group), (5, x.unit), (16, x.bucketSize), (16, x.leakMs), (7, x.rebuildShare), (7, x.sealShare),
    (16, x.failUe)]

/-- The fields of Table 17.3. -/
def poisonPFits (x : PoisonP) : Bool :=
  fits [
    (12, x.deckle), (32, x.extent)]

/-- The fields of Table 18.1. -/
def pairPFits (x : PairP) : Bool :=
  fits [
    (64, x.partnerId), (7, x.resyncShare)]

/-- The fields of Table 18.6. -/
def witnessPFits (x : WitnessP) : Bool :=
  fits [
    (4, x.witnesses.length), (64, x.lostNs)] && x.witnesses.all (fun e => e < 4096)

/-- The fields of Table 18.8. -/
def failoverPFits (x : FailoverP) : Bool :=
  fits [
    (18, x.drainUs)]

/-- The fields of Table 18.3. -/
def mirExtFits (x : MirExt) : Bool :=
  fits [
    (64, x.mseq), (56, x.phys), (12, x.ep), (16, x.rtag), (32, x.term)]

/-- The fields of Table 19.8. -/
def attestPFits (x : AttestP) : Bool :=
  fits [
    (12, x.deckle), (12, x.firstDeckle), (256, x.nonce)]

/-- The fields of Table 19.3. -/
def keyPFits (x : KeyP) : Bool :=
  fits [
    (12, x.deckle), (32, x.confirm), (64, x.target), (456, x.pubkey)]

/-- The fields of Table 19.6. -/
def debugPFits (x : DebugP) : Bool :=
  fits [
    (3, x.space), (2, x.tier), (12, x.deckle), (32, x.timeoutMs), (56, x.addr), (32, x.len)]

/-- A mailbox request that came by the TAP (R351). -/
def Instr.isMailbox : Instr → Bool
  | .loadWindowWrite _ _ _ => false
  | .bootFwActivate q _ => q.via == .tap
  | .deviceQuery q => q.via == .tap
  | .deviceConfigureProfile q _ => q.via == .tap
  | .deviceConfigureWedge q _ => q.via == .tap
  | .driverAttachAttestOnly q _ => q.via == .tap
  | .driverAttachAdopt q _ => q.via == .tap
  | .driverAttachReset q _ => q.via == .tap
  | .driverDetach q => q.via == .tap
  | .fwStage q _ => q.via == .tap
  | .fwActivate q _ => q.via == .tap
  | .fwActivateCancel q _ => q.via == .tap
  | .fwStatus q => q.via == .tap
  | .brStatus q => q.via == .tap
  | .brDump q _ => q.via == .tap
  | .brDumpRead q _ => q.via == .tap
  | .brDumpClear q _ => q.via == .tap
  | .brZeroise q _ => q.via == .tap
  | .brFailoverOut q => q.via == .tap
  | .brResetHub q _ => q.via == .tap
  | .brResetDevice q _ => q.via == .tap
  | .lineWriteAccepted _ => false
  | .lineRead _ _ => false
  | .reconstructionDone _ => false
  | .requestStaleDiscard _ => false
  | .extentMigrate q _ _ => q.via == .tap
  | .extentMigrateCancel q _ => q.via == .tap
  | .migrateCopyDone _ => false
  | .migrateOldFramesFree _ => false
  | .deckleCreate q _ _ => q.via == .tap
  | .deckleQuery q _ => q.via == .tap
  | .deckleQuota q _ => q.via == .tap
  | .deckleDissolve q _ => q.via == .tap
  | .dissolveComplete _ => false
  | .extentAlloc q _ _ => q.via == .tap
  | .extentZeroDone _ => false
  | .extentFree q _ => q.via == .tap
  | .extentRevoke q _ => q.via == .tap
  | .revokeDrainEnd _ => false
  | .revokeTimeout _ => false
  | .granuleReturn _ _ => false
  | .leaseGrant q _ => q.via == .tap
  | .leaseRelease q _ => q.via == .tap
  | .leaseQuery q _ => q.via == .tap
  | .lease _ _ _ _ _ => false
  | .leaseDeadline _ _ => false
  | .leaseGraceEnd _ _ => false
  | .leaseReclaimDone _ _ => false
  | .regionCreate q _ => q.via == .tap
  | .regionRetain q _ => q.via == .tap
  | .regionDelete q _ => q.via == .tap
  | .regionDraftOpen q _ _ => q.via == .tap
  | .draftCopyDone _ => false
  | .regionDraftRebase q _ => q.via == .tap
  | .regionDraftDiscard q _ => q.via == .tap
  | .regionPublish q _ => q.via == .tap
  | .publishCommit _ => false
  | .regionOpen q _ => q.via == .tap
  | .regionReopen q _ => q.via == .tap
  | .regionList q _ => q.via == .tap
  | .regionClose q _ => q.via == .tap
  | .regionGrant q _ => q.via == .tap
  | .regionWithdraw q _ => q.via == .tap
  | .lodeCreate q _ => q.via == .tap
  | .lodeDelete q _ => q.via == .tap
  | .lodeJoin q _ => q.via == .tap
  | .lodeLeave q _ => q.via == .tap
  | .lodeRecallDone _ _ => false
  | .rds _ _ => false
  | .rdx _ _ => false
  | .wb _ _ _ => false
  | .snpRsp _ _ _ => false
  | .lodeSnoopTimeout _ _ => false
  | .lodeSalvageCopy q _ => q.via == .tap
  | .lodeSalvageCopyRearm q _ => q.via == .tap
  | .lodeSalvageRearm q _ => q.via == .tap
  | .lodeSalvageDelete q _ => q.via == .tap
  | .salvageCopyDone _ => false
  | .tableSync q _ _ => q.via == .tap
  | .tableSyncSwitched _ => false
  | .tableReadback q _ => q.via == .tap
  | .translationWalkDone _ _ _ _ => false
  | .faultResume q _ => q.via == .tap
  | .faultAbort q _ => q.via == .tap
  | .faultAutoAbort _ => false
  | .clockDroopStretch _ => false
  | .launchStart _ => false
  | .bundleIssue _ _ => false
  | .barrierRelease _ _ _ => false
  | .streamTileLand _ _ _ => false
  | .streamSlotComplete _ _ _ => false
  | .kernelLoad q _ => q.via == .tap
  | .kernelUnload q _ => q.via == .tap
  | .launch _ _ => false
  | .workCancel _ _ => false
  | .workTimeCap _ => false
  | .launchComplete _ => false
  | .attnPoolSet q _ _ => q.via == .tap
  | .attnOpen _ _ => false
  | .attnAppend _ _ => false
  | .attnAppendDone _ => false
  | .attnStep _ _ => false
  | .attnStepComplete _ => false
  | .attnClose _ _ => false
  | .attnTruncate _ _ => false
  | .attnQuery _ _ => false
  | .mapDefine q _ => q.via == .tap
  | .mapReplace q _ => q.via == .tap
  | .mapRetire q _ => q.via == .tap
  | .adapterRegister q _ => q.via == .tap
  | .adapterUnregister q _ => q.via == .tap
  | .adapterPin q _ => q.via == .tap
  | .adapterUnpin q _ => q.via == .tap
  | .adapterPartLoadDone _ _ _ _ => false
  | .rdf _ _ => false
  | .formTileFormed _ => false
  | .indexDefine q _ => q.via == .tap
  | .indexReplace q _ => q.via == .tap
  | .indexRetire q _ => q.via == .tap
  | .topkQuery _ _ => false
  | .topkComplete _ => false
  | .couchSubmit _ _ => false
  | .couchAbort _ _ => false
  | .couchChainStart _ _ => false
  | .couchDescStart _ _ => false
  | .couchTileDone _ _ _ => false
  | .couchTileTimeout _ _ _ => false
  | .couchRetry _ _ => false
  | .flitTransmit _ => false
  | .dataFlitReceive _ _ => false
  | .idleFlitReceive _ _ => false
  | .bypassFlitReceive _ _ _ => false
  | .credit _ _ => false
  | .creditInit _ _ => false
  | .retrain _ _ _ _ _ => false
  | .resume _ _ _ _ => false
  | .paramA _ _ => false
  | .paramB _ _ _ _ _ => false
  | .keyx _ _ => false
  | .keyxTimeout _ => false
  | .ackTimerExpire _ => false
  | .nakTimerExpire _ _ => false
  | .replayTimerExpire _ _ => false
  | .creditReturnTimer _ => false
  | .laneSignalLoss _ _ => false
  | .laneErrorRate _ _ => false
  | .allLanesSignalLoss _ => false
  | .linkDownWaitExpire _ => false
  | .detectPoll _ _ => false
  | .equaliseDone _ => false
  | .alignDone _ _ => false
  | .trainingFail _ => false
  | .peerClaimTimeout _ => false
  | .deviceEndpointLeaseTick _ => false
  | .rd _ _ => false
  | .rdVersion _ _ => false
  | .wr _ _ _ => false
  | .atom _ _ _ _ => false
  | .fence _ => false
  | .fenceDone _ _ => false
  | .rsp _ _ _ _ => false
  | .epClaim _ _ _ _ => false
  | .epRelease _ => false
  | .epAssign _ _ _ => false
  | .laidInboundWr _ _ _ => false
  | .queueMapMap q _ => q.via == .tap
  | .queueMapWeight q _ => q.via == .tap
  | .shaperSet q _ => q.via == .tap
  | .policerSet q _ => q.via == .tap
  | .energySet q _ => q.via == .tap
  | .energyRead q _ => q.via == .tap
  | .powerCap q _ => q.via == .tap
  | .energyQueueRelease _ => false
  | .ledgerTick _ _ => false
  | .ledgerRefine _ => false
  | .powerLoopTick _ _ _ => false
  | .powerComparator _ => false
  | .thermalComparator _ _ => false
  | .thermalLoopTick _ => false
  | .timeSync _ _ _ _ _ => false
  | .pdelayReq _ => false
  | .pdelayResp _ _ _ => false
  | .timeStatus q => q.via == .tap
  | .timeMasterSet q _ => q.via == .tap
  | .laidLoad q _ => q.via == .tap
  | .laidActivate q _ => q.via == .tap
  | .laidStop q _ => q.via == .tap
  | .laidCancel q _ => q.via == .tap
  | .laidStatus q _ => q.via == .tap
  | .laidLead _ => false
  | .laidSlot _ => false
  | .laidTileBoundary _ => false
  | .scrub q _ => q.via == .tap
  | .scrubDone _ => false
  | .inject q _ => q.via == .tap
  | .injectCancel q _ => q.via == .tap
  | .ceConfigSet q _ => q.via == .tap
  | .ceConfigFailOut q _ => q.via == .tap
  | .rebuildStatus q => q.via == .tap
  | .poisonList q _ => q.via == .tap
  | .stackTrainingLost _ _ => false
  | .rebuildDone _ => false
  | .sealDone _ => false
  | .pairArm q _ => q.via == .tap
  | .pairForm q _ => q.via == .tap
  | .pairDissolve q _ => q.via == .tap
  | .pairStatus q => q.via == .tap
  | .healthReport q => q.via == .tap
  | .failoverHandover q _ => q.via == .tap
  | .failoverForce q _ => q.via == .tap
  | .witnessSet q _ => q.via == .tap
  | .witnessReport q _ => q.via == .tap
  | .mirData _ _ _ => false
  | .mirMeta _ _ _ => false
  | .mirAck _ _ => false
  | .mirHb _ _ => false
  | .mirHealth _ _ => false
  | .mirFetch _ _ _ _ => false
  | .mirLine _ _ _ _ => false
  | .mirCtrl _ _ _ _ => false
  | .healthReportTick => false
  | .standbySelfTest _ _ => false
  | .attest q _ => q.via == .tap
  | .keyRotateDeckleKey q _ => q.via == .tap
  | .keySweepDone _ => false
  | .linkRekey q _ => q.via == .tap
  | .trustAdd q _ => q.via == .tap
  | .trustRemove q _ => q.via == .tap
  | .trustPolicy q _ => q.via == .tap
  | .operatorKernelKey q _ => q.via == .tap
  | .raiseSec q _ => q.via == .tap
  | .debugOpen q _ => q.via == .tap
  | .debugRead q _ => q.via == .tap
  | .debugClose q => q.via == .tap
  | .coldReset _ => false
  | .thermalTrip _ _ => false
  | .supplyTrip _ _ _ => false
  | .coreReady _ => false
  | .tier1Ready _ => false
  | .farDieReady _ _ => false
  | .setdasa _ => false
  | .samplePreload _ => false
  | .dbgOpen _ => false
  | .dbgMbx _ => false
  | .vsetAck _ => false
  | .asmWindowExpire _ => false
  | .wedgePowerFloor _ => false
  | .ceBucketLeak _ _ => false
  | .alignPatternSeen _ => false
  | .bootImageVerified => false
  | .driverLeaseLapse => false
  | .fwSwitchPoint => false
  | .fwActivateTimeout => false
  | .hubWedge => false
  | .wedgeDumpDone => false
  | .wedgeRestart => false
  | .hubRestartDone => false
  | .retentionTick => false
  | .timeTick => false
  | .holdoverEntry => false
  | .timePpsIn => false
  | .ppsOutSecond => false
  | .laidTableStart => false
  | .laidCycleBoundary => false
  | .integrityLogDrain => false
  | .pairArmTimeout => false
  | .handoverDrainEnd => false
  | .syncCopyDone => false
  | .mirAckTimer => false
  | .mirHbTick => false
  | .heartbeatLost => false
  | .mirrorAckTimeout => false
  | .promotionComplete => false
  | .healthReportTimeout => false
  | .debugSessionTimeout => false
  | .coldResetRelease => false
  | .warmReset => false
  | .warmResetRelease => false
  | .pllLock => false
  | .stagingReady => false
  | .bedrockReady => false
  | .hubReady => false
  | .securityReady => false
  | .i3cPrivateRead => false
  | .tapReset => false
  | .extest => false
  | .idcode => false
  | .clamp => false
  | .highz => false
  | .dbgClose => false
  | .bypass => false

/-- A command is well-formed. -/
def Instr.wf : Instr → Bool
  | .loadWindowWrite h m data => hdrFits h && memExtFits m && data.length ≤ 64
  | .bootFwActivate q p => reqFits q && fwPFits p
  | .deviceQuery q => reqFits q
  | .deviceConfigureProfile q p => reqFits q && devCfgPFits p
  | .deviceConfigureWedge q p => reqFits q && devCfgPFits p
  | .driverAttachAttestOnly q p => reqFits q && attachPFits p
  | .driverAttachAdopt q p => reqFits q && attachPFits p
  | .driverAttachReset q p => reqFits q && attachPFits p
  | .driverDetach q => reqFits q
  | .fwStage q p => reqFits q && fwPFits p
  | .fwActivate q p => reqFits q && fwPFits p
  | .fwActivateCancel q p => reqFits q && fwPFits p
  | .fwStatus q => reqFits q
  | .brStatus q => reqFits q
  | .brDump q p => reqFits q && brPFits p
  | .brDumpRead q p => reqFits q && brPFits p
  | .brDumpClear q p => reqFits q && brPFits p
  | .brZeroise q p => reqFits q && brPFits p
  | .brFailoverOut q => reqFits q
  | .brResetHub q p => reqFits q && brPFits p
  | .brResetDevice q p => reqFits q && brPFits p
  | .lineWriteAccepted _ => true
  | .lineRead _ _ => true
  | .reconstructionDone _ => true
  | .requestStaleDiscard _ => true
  | .extentMigrate q p _ => reqFits q && migratePFits p
  | .extentMigrateCancel q p => reqFits q && migratePFits p
  | .migrateCopyDone _ => true
  | .migrateOldFramesFree _ => true
  | .deckleCreate q p _ => reqFits q && deckleCreatePFits p
  | .deckleQuery q p => reqFits q && decklePFits p
  | .deckleQuota q p => reqFits q && quotaPFits p
  | .deckleDissolve q p => reqFits q && decklePFits p
  | .dissolveComplete deckle => fits [(12, deckle)]
  | .extentAlloc q p _ => reqFits q && allocPFits p
  | .extentZeroDone _ => true
  | .extentFree q p => reqFits q && revokePFits p
  | .extentRevoke q p => reqFits q && revokePFits p
  | .revokeDrainEnd _ => true
  | .revokeTimeout _ => true
  | .granuleReturn _ _ => true
  | .leaseGrant q p => reqFits q && leasePFits p
  | .leaseRelease q p => reqFits q && leasePFits p
  | .leaseQuery q p => reqFits q && leasePFits p
  | .lease port ep deckle _ _ => fits [(6, port), (12, ep), (12, deckle)]
  | .leaseDeadline deckle ep => fits [(12, deckle), (12, ep)]
  | .leaseGraceEnd deckle ep => fits [(12, deckle), (12, ep)]
  | .leaseReclaimDone deckle ep => fits [(12, deckle), (12, ep)]
  | .regionCreate q p => reqFits q && regionPFits p
  | .regionRetain q p => reqFits q && regionPFits p
  | .regionDelete q p => reqFits q && regionPFits p
  | .regionDraftOpen q p _ => reqFits q && draftPFits p
  | .draftCopyDone _ => true
  | .regionDraftRebase q p => reqFits q && draftPFits p
  | .regionDraftDiscard q p => reqFits q && draftPFits p
  | .regionPublish q p => reqFits q && publishPFits p
  | .publishCommit _ => true
  | .regionOpen q p => reqFits q && openPFits p
  | .regionReopen q p => reqFits q && openPFits p
  | .regionList q p => reqFits q && openPFits p
  | .regionClose q p => reqFits q && openPFits p
  | .regionGrant q p => reqFits q && grantPFits p
  | .regionWithdraw q p => reqFits q && grantPFits p
  | .lodeCreate q p => reqFits q && lodePFits p
  | .lodeDelete q p => reqFits q && lodePFits p
  | .lodeJoin q p => reqFits q && lodeMemPFits p
  | .lodeLeave q p => reqFits q && lodeMemPFits p
  | .lodeRecallDone _ ep => fits [(12, ep)]
  | .rds h x => hdrFits h && lodeExtFits x
  | .rdx h x => hdrFits h && lodeExtFits x
  | .wb h x _ => hdrFits h && lodeExtFits x
  | .snpRsp h x _ => hdrFits h && lodeExtFits x
  | .lodeSnoopTimeout _ ep => fits [(12, ep)]
  | .lodeSalvageCopy q p => reqFits q && salvagePFits p
  | .lodeSalvageCopyRearm q p => reqFits q && salvagePFits p
  | .lodeSalvageRearm q p => reqFits q && salvagePFits p
  | .lodeSalvageDelete q p => reqFits q && salvagePFits p
  | .salvageCopyDone _ => true
  | .tableSync q p _ => reqFits q && syncPFits p
  | .tableSyncSwitched deckle => fits [(12, deckle)]
  | .tableReadback q p => reqFits q && readbackPFits p
  | .translationWalkDone core unit _ _ => fits [(5, core), (5, unit)]
  | .faultResume q p => reqFits q && faultPFits p
  | .faultAbort q p => reqFits q && faultPFits p
  | .faultAutoAbort _ => true
  | .clockDroopStretch _ => true
  | .launchStart _ => true
  | .bundleIssue core engine => fits [(5, core), (4, engine)]
  | .barrierRelease _ core _ => fits [(5, core)]
  | .streamTileLand core engine _ => fits [(5, core), (4, engine)]
  | .streamSlotComplete core engine _ => fits [(5, core), (4, engine)]
  | .kernelLoad q p => reqFits q && kernelPFits p
  | .kernelUnload q p => reqFits q && kernelPFits p
  | .launch h b => hdrFits h && launchBFits b
  | .workCancel h b => hdrFits h && cancelBFits b
  | .workTimeCap _ => true
  | .launchComplete _ => true
  | .attnPoolSet q p _ => reqFits q && poolSetPFits p
  | .attnOpen h b => hdrFits h && attnOpenBFits b
  | .attnAppend h b => hdrFits h && attnAppendBFits b
  | .attnAppendDone _ => true
  | .attnStep h b => hdrFits h && attnStepBFits b
  | .attnStepComplete _ => true
  | .attnClose h b => hdrFits h && attnCloseBFits b
  | .attnTruncate h b => hdrFits h && attnCloseBFits b
  | .attnQuery h b => hdrFits h && attnCloseBFits b
  | .mapDefine q p => reqFits q && mapPFits p
  | .mapReplace q p => reqFits q && mapPFits p
  | .mapRetire q p => reqFits q && mapRetirePFits p
  | .adapterRegister q p => reqFits q && adapterPFits p
  | .adapterUnregister q p => reqFits q && adapterPFits p
  | .adapterPin q p => reqFits q && adapterPFits p
  | .adapterUnpin q p => reqFits q && adapterPFits p
  | .adapterPartLoadDone _ _ _ _ => true
  | .rdf h f => hdrFits h && formProgFits f
  | .formTileFormed _ => true
  | .indexDefine q p => reqFits q && indexPFits p
  | .indexReplace q p => reqFits q && indexPFits p
  | .indexRetire q p => reqFits q && indexPFits p
  | .topkQuery h b => hdrFits h && topkBFits b
  | .topkComplete _ => true
  | .couchSubmit h b => hdrFits h && couchBFits b
  | .couchAbort h b => hdrFits h && couchBFits b
  | .couchChainStart core channel => fits [(5, core), (3, channel)]
  | .couchDescStart core channel => fits [(5, core), (3, channel)]
  | .couchTileDone core channel _ => fits [(5, core), (3, channel)]
  | .couchTileTimeout core channel _ => fits [(5, core), (3, channel)]
  | .couchRetry core channel => fits [(5, core), (3, channel)]
  | .flitTransmit port => fits [(6, port)]
  | .dataFlitReceive port f => dataFlitFits f && fits [(6, port)]
  | .idleFlitReceive port _ => fits [(6, port)]
  | .bypassFlitReceive port b _ => bypassHdrFits b && fits [(6, port)]
  | .credit port counts => counts.length == 6 && counts.all (fun n => n < 16384) && fits [(6, port)]
  | .creditInit port counts => counts.length == 6 && counts.all (fun n => n < 16384) && fits [(6, port)]
  | .retrain port linkId width cause _ => fits [(6, port), (64, linkId), (4, width), (4, cause)]
  | .resume port nextMain nextBypass _ => fits [(6, port), (16, nextMain), (8, nextBypass)]
  | .paramA port p => paramAFits p && fits [(6, port)]
  | .paramB port ackTimer replayLimit downWindow _ => fits [(6, port), (10, ackTimer), (4, replayLimit), (10, downWindow)]
  | .keyx port _ => fits [(6, port)]
  | .keyxTimeout port => fits [(6, port)]
  | .ackTimerExpire port => fits [(6, port)]
  | .nakTimerExpire port _ => fits [(6, port)]
  | .replayTimerExpire port _ => fits [(6, port)]
  | .creditReturnTimer port => fits [(6, port)]
  | .laneSignalLoss port lanes => fits [(6, port), (8, lanes)]
  | .laneErrorRate port lane => fits [(6, port), (3, lane)]
  | .allLanesSignalLoss port => fits [(6, port)]
  | .linkDownWaitExpire port => fits [(6, port)]
  | .detectPoll port _ => fits [(6, port)]
  | .equaliseDone port => fits [(6, port)]
  | .alignDone port passed => fits [(6, port), (8, passed)]
  | .trainingFail port => fits [(6, port)]
  | .peerClaimTimeout port => fits [(6, port)]
  | .deviceEndpointLeaseTick port => fits [(6, port)]
  | .rd h m => hdrFits h && memExtFits m
  | .rdVersion h m => hdrFits h && memExtFits m
  | .wr h m data => hdrFits h && memExtFits m && data.length ≤ 64
  | .atom h m _ _ => hdrFits h && memExtFits m
  | .fence h => hdrFits h
  | .fenceDone ep _ => fits [(12, ep)]
  | .rsp h _ _ data => hdrFits h && data.length ≤ 64
  | .epClaim port vc identity _ => fits [(6, port), (3, vc), (64, identity)]
  | .epRelease h => hdrFits h
  | .epAssign port ep _ => fits [(6, port), (12, ep)]
  | .laidInboundWr h m data => hdrFits h && memExtFits m && data.length ≤ 64
  | .queueMapMap q p => reqFits q && queueMapPFits p
  | .queueMapWeight q p => reqFits q && queueMapPFits p
  | .shaperSet q p => reqFits q && bucketPFits p
  | .policerSet q p => reqFits q && bucketPFits p
  | .energySet q p => reqFits q && energyPFits p
  | .energyRead q p => reqFits q && energyReadPFits p
  | .powerCap q p => reqFits q && powerCapPFits p
  | .energyQueueRelease deckle => fits [(12, deckle)]
  | .ledgerTick _ _ => true
  | .ledgerRefine _ => true
  | .powerLoopTick _ _ _ => true
  | .powerComparator _ => true
  | .thermalComparator _ _ => true
  | .thermalLoopTick sensors => sensors.length == 96
  | .timeSync port hops ns frac _ => fits [(6, port), (4, hops), (64, ns), (16, frac)]
  | .pdelayReq port => fits [(6, port)]
  | .pdelayResp port turnaround _ => fits [(6, port), (32, turnaround)]
  | .timeStatus q => reqFits q
  | .timeMasterSet q p => reqFits q && timeMasterPFits p
  | .laidLoad q p => reqFits q && laidLoadPFits p
  | .laidActivate q p => reqFits q && laidActPFits p
  | .laidStop q p => reqFits q && laidActPFits p
  | .laidCancel q p => reqFits q && laidActPFits p
  | .laidStatus q p => reqFits q && laidStatusPFits p
  | .laidLead _ => true
  | .laidSlot _ => true
  | .laidTileBoundary _ => true
  | .scrub q p => reqFits q && scrubPFits p
  | .scrubDone _ => true
  | .inject q p => reqFits q && injectPFits p
  | .injectCancel q p => reqFits q && injectPFits p
  | .ceConfigSet q p => reqFits q && cePFits p
  | .ceConfigFailOut q p => reqFits q && cePFits p
  | .rebuildStatus q => reqFits q
  | .poisonList q p => reqFits q && poisonPFits p
  | .stackTrainingLost group unit => fits [(3, group), (5, unit)]
  | .rebuildDone group => fits [(3, group)]
  | .sealDone group => fits [(3, group)]
  | .pairArm q p => reqFits q && pairPFits p
  | .pairForm q p => reqFits q && pairPFits p
  | .pairDissolve q p => reqFits q && pairPFits p
  | .pairStatus q => reqFits q
  | .healthReport q => reqFits q
  | .failoverHandover q p => reqFits q && failoverPFits p
  | .failoverForce q p => reqFits q && failoverPFits p
  | .witnessSet q p => reqFits q && witnessPFits p
  | .witnessReport q p => reqFits q && witnessPFits p
  | .mirData port x lines => mirExtFits x && 1 ≤ lines.length && lines.length ≤ 57 && fits [(6, port)]
  | .mirMeta port x _ => mirExtFits x && fits [(6, port)]
  | .mirAck port mseq => fits [(6, port), (64, mseq)]
  | .mirHb port x => mirExtFits x && fits [(6, port)]
  | .mirHealth port _ => fits [(6, port)]
  | .mirFetch port x deckle gen => mirExtFits x && fits [(6, port), (12, deckle), (16, gen)]
  | .mirLine port x _ _ => mirExtFits x && fits [(6, port)]
  | .mirCtrl port _ x _ => mirExtFits x && fits [(6, port)]
  | .healthReportTick => true
  | .standbySelfTest _ _ => true
  | .attest q p => reqFits q && attestPFits p
  | .keyRotateDeckleKey q p => reqFits q && keyPFits p
  | .keySweepDone deckle => fits [(12, deckle)]
  | .linkRekey q p => reqFits q && keyPFits p
  | .trustAdd q p => reqFits q && keyPFits p
  | .trustRemove q p => reqFits q && keyPFits p
  | .trustPolicy q p => reqFits q && keyPFits p
  | .operatorKernelKey q p => reqFits q && keyPFits p
  | .raiseSec q p => reqFits q && keyPFits p
  | .debugOpen q p => reqFits q && debugPFits p
  | .debugRead q p => reqFits q && debugPFits p
  | .debugClose q => reqFits q
  | .coldReset _ => true
  | .thermalTrip _ _ => true
  | .supplyTrip cause _ _ => fits [(4, cause)]
  | .coreReady core => fits [(5, core)]
  | .tier1Ready _ => true
  | .farDieReady _ _ => true
  | .setdasa addr => fits [(7, addr)]
  | .samplePreload _ => true
  | .dbgOpen _ => true
  | .dbgMbx c => Instr.isMailbox c
  | .vsetAck _ => true
  | .asmWindowExpire _ => true
  | .wedgePowerFloor _ => true
  | .ceBucketLeak group unit => fits [(3, group), (5, unit)]
  | .alignPatternSeen port => fits [(6, port)]
  | .bootImageVerified => true
  | .driverLeaseLapse => true
  | .fwSwitchPoint => true
  | .fwActivateTimeout => true
  | .hubWedge => true
  | .wedgeDumpDone => true
  | .wedgeRestart => true
  | .hubRestartDone => true
  | .retentionTick => true
  | .timeTick => true
  | .holdoverEntry => true
  | .timePpsIn => true
  | .ppsOutSecond => true
  | .laidTableStart => true
  | .laidCycleBoundary => true
  | .integrityLogDrain => true
  | .pairArmTimeout => true
  | .handoverDrainEnd => true
  | .syncCopyDone => true
  | .mirAckTimer => true
  | .mirHbTick => true
  | .heartbeatLost => true
  | .mirrorAckTimeout => true
  | .promotionComplete => true
  | .healthReportTimeout => true
  | .debugSessionTimeout => true
  | .coldResetRelease => true
  | .warmReset => true
  | .warmResetRelease => true
  | .pllLock => true
  | .stagingReady => true
  | .bedrockReady => true
  | .hubReady => true
  | .securityReady => true
  | .i3cPrivateRead => true
  | .tapReset => true
  | .extest => true
  | .idcode => true
  | .clamp => true
  | .highz => true
  | .dbgClose => true
  | .bypass => true

end Sys2Proof
end

