-- ==== Sys2Proof/Tests/Slice0.lean ====
section
/-! SUPPORT. Tests: ill-formed terms that the check refuses, steps with the results the spec works out, and, for
every clause of the obligations that has hypotheses, a concrete state and operands that meet all of them. -/

open Sys2Proof Sys2Proof.Machine

namespace Sys2Proof.Tests

set_option maxRecDepth 100000

/-! ## States -/

/-- A trained port of eight lanes. -/
def port : Port :=
  { Port.reset with train := .active, lanes := 255, active := 255, width := 8, oldWidth := 8
                    txCred := [9999, 9999, 9999, 9999, 9999, 9999] }

/-- A deckle with no quota used, a key and a leaf that maps PVA to the same tier-1 address. -/
def deckle (key : Nat) : Deckle :=
  { freshDeckle 0 key with
    qT1 := 1000, qT2 := 1000, qStg := 1000, qLodeMib := 64, ctrlExtent := 1, ctrlPva := 100 * 2 ^ 21, ctrlGranules := 1
    tables := [(0, ⟨0, [(0, 0x1C3)]⟩)], root := 0 }

/-- An allocated tier-1 extent of deckle 1. -/
def ext (first n gen : Nat) : Extent :=
  { deckle := 1, tier := .t1, first := first, granules := n, gen := gen, mir := false, policy := .t1Only, holder := none
    state := .allocated, revoke := none, draft := none, published := none, lost := false, dirty := [] }

/-- Granules held by deckle 1. -/
def grans (first n gen : Nat) : NMap Granule :=
  (List.range n).map fun k => (first + k,
    { gen := gen, zero := none, retired := false, lastHeld := 0, owner := 1, ofRetired := false })

def held : Lease := { state := .held, duration := 1000, grace := 50, deadline := 10 ^ 12 }

def image : Image := { fwVersion := 0x10000, secVersion := 5, buildId := 1, digest := 0#512 }

/-- A device in service: the driver's endpoint 1 and the endpoints 2 and 3 of deckle 1 on port 0; deckle 1 holds
extent 1, its control extent, and extent 2. -/
def up : State :=
  { State.reset with
    now := 20000000000
    hub := { Hub.reset with phase := .running, ready := true, stagingReady := true, bedrockReady := true, windowOpen := false
                            running := some image, loader := some 1, driver := some 1, driverDeadline := 30000000000 }
    mem := { Mem.reset with groups := [(0, { Group.reset 17 with ready := true }), (1, { Group.reset 9 with ready := true }),
      (2, { Group.reset 9 with ready := true }), (3, { Group.reset 9 with ready := true }), (4, { Group.reset 9 with ready := true })]
                            farReady := [0, 1, 2, 3] }
    part := { Part.reset with
      deckles := [(0, freshDeckle 0 1), (1, deckle 2)]
      extents := [(1, ext 100 1 1), (2, ext 200 2 1)], lastExtent := 2
      granules := grans 100 1 1 ++ grans 200 2 1
      leases := [(leaseKey 0 1, held), (leaseKey 1 2, held), (leaseKey 1 3, held)]
      eps := [(1, ⟨64, 0, []⟩), (2, ⟨65, 0, []⟩), (3, ⟨66, 0, []⟩)] }
    eng := { State.reset.eng with cores := [(0, { Core.reset with ready := true }), (1, { Core.reset with ready := true })] }
    link := { State.reset.link with ports := [(0, port)] }
    laid := { Laid.reset with counting := true, time := 20000000000 * 65536 }
    sec := { Sec.reset with ready := true, lastKey := 2, keys := [1, 2] }
    pkg := { Pkg.reset with coldLow := false, pll := true, healthOk := true } }

/-- An operator request of endpoint 1. -/
def op (len : Nat) : Req := { port := 0, ep := 1, pktDeckle := 0, deckle := 0, tag := 7, plen := len }

/-- A request of endpoint 2 of deckle 1. -/
def ten (len : Nat) : Req := { port := 0, ep := 2, pktDeckle := 1, deckle := 1, tag := 7, plen := len }

/-- A packet of endpoint 2 of deckle 1. -/
def pkt (vc len : Nat) : Hdr := { port := 0, vc := vc, ep := 2, deckle := 1, tag := 9, len := len }

def dcp : DeckleCreateP := { deckle := 0, operatorVisible := false, kernelKeyValid := false, ctrlGranules := 1, ctrlPva := 0x40000000, qT1 := 8, qT2 := 8, qStg := 0, qLodeMib := 0, epCount := 1, epList := [3], leaseMs := 1000, graceMs := 50, kernelKey := 0 }

def pDis : DeckleP := { deckle := 1 }

def dDis : Deckle := { deckle 2 with dissolving := some ⟨0, 0, 0, 0, 0⟩ }

def sDis : State := { up with part := { up.part with deckles := [(0, freshDeckle 0 1), (1, dDis)], extents := [], leases := [] } }

def pAlloc : AllocP := { deckle := 1, granules := 2, policy := .t1Only, mir := false, zero := false, held := false, holder := 0 }

def pRev : RevokeP := { deckle := 1, extent := 2, timeoutUs := 1000 }

def pFree : RevokeP := { deckle := 1, extent := 2, timeoutUs := 0 }

def rv : Revoke := ⟨none, 5, 100, 0, 0, 0, 0⟩

def xRev : Extent := { ext 200 2 1 with state := .revoking, revoke := some rv }

def sRev : State := { up with part := { up.part with extents := [(1, ext 100 1 1), (2, xRev)] } }

def xZero : Extent := { ext 200 1 1 with state := .zeroing none }

def sZero : State := { up with part := { up.part with extents := [(1, ext 100 1 1), (2, xZero)], granules := grans 200 1 1 } }

def gRet : Granule := { gen := 1, zero := none, retired := true, lastHeld := 5, owner := 1, ofRetired := false }

def sRet : State := { up with part := { up.part with granules := [(200, gRet)] }, now := 10 }

def pLease : LeaseP := { deckle := 1, endpoint := 2, durationMs := 5000, graceMs := 1000 }

def pEnd : LeaseP := { deckle := 1, endpoint := 2 }

def grace : Lease := { held with state := .grace }

def sGrace : State := { up with part := { up.part with leases := [(leaseKey 1 2, grace)] } }

def gone : Lease := { held with state := .expired }

def rc : Reclaim := ⟨some 4, 0, 0, 0, 0⟩

def sGone : State := { up with part := { up.part with leases := [(leaseKey 1 2, gone)], reclaims := [(leaseKey 1 2, rc)] } }

def pReg : RegionP := { deckle := 1, segments := 2, segGranules := 1, retainCount := 3, retainMs := 10 }

def pReg1 : RegionP := { deckle := 1, region := 1, retainCount := 15, retainMs := 3600000 }

def pReg0 : RegionP := { deckle := 1, region := 1 }

/-- Region 1 of deckle 1 with version 1 on extents 3 and 4. -/
def rg : Region :=
  { deckle := 1, policy := .t1Only, mir := false, segments := 2, segGranules := 1, retainCount := 2, retainMs := 0, current := 1
    versions := [(1, ⟨2, 0, [3, 4]⟩)], deleted := false, grantees := [] }

def hd : Handle := { deckle := 1, ep := 2, region := 1, version := 1 }

/-- Draft 1 of region 1, held by endpoint 2: one segment inherited, one new. -/
def dr : Draft := { region := 1, holder := 2, base := 1, segs := [(.inherit, 3), (.raw, 5)], opening := none, copyFrom := [], sealed := none }

/-- `up` with region 1, its version, draft 1 and handle 1. -/
def reg : State :=
  { up with
    part := { up.part with
      extents := up.part.extents ++ [(3, { ext 300 1 1 with published := some 1 }), (4, { ext 301 1 1 with published := some 1 }),
        (5, { ext 302 1 1 with draft := some 1 })]
      granules := up.part.granules ++ grans 300 3 1, lastExtent := 5 }
    rgn := { regions := [(1, rg)], lastRegion := 1, drafts := [(1, dr)], lastDraft := 1, handles := [(1, hd)], lastHandle := 1 } }

def pOpen : OpenP := { deckle := 1, region := 1 }

def pId : OpenP := { deckle := 1, region := 1, id := 1 }

def pClose : OpenP := { deckle := 1, region := 0, id := 1 }

def pGrant : GrantP := { deckle := 1, region := 1, grantee := 0 }

def sGrant : State := { reg with rgn := { reg.rgn with regions := [(1, { rg with grantees := [0] })] } }

def pDraft : DraftP := { deckle := 1, region := 1, defaultMode := .zero }

def pDr : DraftP := { deckle := 1, region := 1, draft := 1 }

def drOp : Draft := { dr with opening := some 3, copyFrom := [4] }

def sOpening : State := { reg with rgn := { reg.rgn with drafts := [(1, drOp)] } }

def pPub : PublishP := { deckle := 1, region := 1, draft := 1, base := 1 }

def drSe : Draft := { dr with sealed := some 3 }

def sSealed : State := { reg with rgn := { reg.rgn with drafts := [(1, drSe)] } }

def pLo : LodeP := { deckle := 1, extent := 2, offset64k := 0, size64k := 4, snoopUs := 0 }

def pLoDel : LodeP := { deckle := 1, lode := 1 }

/-- Lode 1: the first 64 KiB of extent 2, with one caching agent and one uncached member. -/
def lo : Lode :=
  { deckle := 1, extent := 2, offset := 0, size := 1, snoopUs := 50, pva := 0, down := none, agents := [(0, 2)], uncached := [3]
    dir := [], work := [], leaving := [], salvage := none }

def withLode (l : Lode) : State :=
  { up with lode := { lodes := [(1, l)], lastLode := 1, nextSnoop := 0 }
            part := { up.part with deckles := [(0, freshDeckle 0 1), (1, { deckle 2 with tables := [(0, ⟨0, [(0, 0x9C3)]⟩)] })] } }

def loEmpty : Lode := { lo with agents := [], uncached := [] }

def pMem : LodeMemP := { deckle := 1, endpoint := 3, caching := true, lode := 1 }

def pLeave : LodeMemP := { deckle := 1, endpoint := 3, lode := 1 }

def loLeav : Lode := { lo with leaving := [(2, 4)] }

def loDown : Lode := { lo with agents := [], uncached := [], down := some (5, [1, 2]) }

def pSal : SalvageP := { deckle := 1, lode := 1, destExtent := 2, destOffset := 32 }

def pSal0 : SalvageP := { deckle := 1, lode := 1 }

def loSal : Lode := { loDown with size := 0, salvage := some (4, true, 2, 32) }

/-- A lode request of endpoint 2 on the lode's second line. -/
def lx : LodeExt := { addr := 200 * 2 ^ 21 + 64 }

def st1 : Cell := { data := 5#512, deckle := 1, epoch := 0, key := 2, gen := 1, poisoned := false, err := 0#640 }

def sLode : State := { withLode lo with mem := { up.mem with cells := [(200 * 32768 + 1, st1)] } }

def lrIn (s : State) : LineRef := match s.translate 1 .rd [lx.addr / 64] with | .ok [r] => r | _ => default

def lrHome : LineRef := (ext 200 2 1).lineAt 2 1

def loOwn : Lode := { lo with dir := [(1, .ownedExcl 0)] }

def lw : LodeWork := { ep := 3, tag := 5, line := 1, req := .rdx, addr := lx.addr, snoops := [(2, 9, some 1), (3, 10, none)], started := true, held := false, ans := none, got := none, at_ := 7 }

def loSnoop : Lode := { loOwn with work := [lw] }

/-- The line at address 200 granules of tier 1, in extent 2. -/
def jl : JobLine := { tier := .t1, line := 200 * 32768, extent := 2, gen := 1, deckle := 1, data := 7#512, mask := ~~~0#64, done := false }

def job (k : JobKind) (ls : List JobLine) : Job :=
  { ep := 2, tag := 9, deckle := 1, cls := 0, yellow := false, kind := k, lines := ls, admitted := 20000000000, fail := none }

def withJob (x : Job) : State := { up with mem := { up.mem with jobs := [(0, x)], nextJob := 1, cells := [(200 * 32768, st0)] } }
  where st0 : Cell := { data := 5#512, deckle := 1, epoch := 0, key := 2, gen := 1, poisoned := false, err := 0#640 }

def jWr : Job := job (.wr false) [jl]

def jlOld : JobLine := { jl with gen := 9 }

def jRdOld : Job := job .rd [jlOld]

def jRd2 : Job := job .rd [jl, { jl with line := 200 * 32768 + 1 }]

def jlRec : JobLine := { jl with recon := some false }

def jRec : Job := job .rd [jlRec]

def buf : AsmBuf := { openedAt := 5, lines := [] }

def sAsm : State := { up with mem := { up.mem with asm := [(3, buf)] } }

def newCell : Cell := { data := 6#512, deckle := 1, epoch := 0, key := 2, gen := 1, poisoned := false, err := 0#640 }

def ref2 : LineRef := (ext 200 2 1).lineAt 2 0

def pMig : MigrateP := { deckle := 1, extent := 2, target := 1 }

def pCan : MigrateP := { deckle := 1, extent := 2, target := 0 }

def mg : Migration := { tier := .t2, first := 500, done := false, switched := false, cursor := 0, poisoned := 0 }

def withMig (m : Migration) : State := { up with mem := { up.mem with migr := [(2, m)] } }

def mgSw : Migration := { mg with done := true, switched := true }

def pSync : SyncP := { deckle := 1, setRoot := true, root := 0, entries := [] }

def emptyTables : State := { up with part := { up.part with deckles := [(0, freshDeckle 0 1), (1, { deckle 2 with tables := [], root := 0 })] } }

def dOld : Deckle := { deckle 2 with oldCopy := some ([], 0), syncReply := none }

def sOld : State := { up with part := { up.part with deckles := [(0, freshDeckle 0 1), (1, dOld)] } }

def pBack : ReadbackP := { deckle := 1, faults := false }

def fr : FaultRec := { deckle := 1, pva := 5 * 65536, cause := 0, level := 0, write := false, first := ⟨0, 0, 0, false⟩, other := 0, raised := 0, waiters := [], frozen := 20000000000 }

def sFault : State := { up with xlat := { up.xlat with faults := [(4, fr)], lastFault := 4 } }

def pFault : FaultP := { deckle := 1, fault := 4 }

def mx (n : Nat) : MemExt := { addr := 200 * 2 ^ 21, lines := n }

def pktW : Hdr := { pkt 0 (32 + 64 * 2) with tag := 10 }

def refs (s : State) (h : Hdr) (a : Access) (ls : List Nat) : List LineRef := match s.translate h.deckle a ls with | .ok r => r | _ => []

def rgv : Region := { deckle := 1, policy := .t1Only, mir := false, segments := 1, segGranules := 2, retainCount := 2, retainMs := 0, current := 1, versions := [(1, ⟨2, 0, [2]⟩)], deleted := false, grantees := [] }

def hdv : Handle := { deckle := 1, ep := 2, region := 1, version := 1 }

def sVer : State := { up with rgn := { up.rgn with regions := [(1, rgv)], lastRegion := 1, handles := [(1, hdv)], lastHandle := 1 }, part := { up.part with extents := [(1, ext 100 1 1), (2, { ext 200 2 1 with published := some 1 })] } }

def mv : MemExt := { addr := 64, lines := 2, ver := true, handle := 1 }

def boot : State := { up with hub := { Hub.reset with stagingReady := true, bedrockReady := true }, part := { Part.reset with eps := up.part.eps, deckles := [(0, freshDeckle 0 1)] } }

def pktB : Hdr := { port := 0, vc := 0, ep := 1, deckle := 0, tag := 9, len := 96 }

def mb : MemExt := { addr := 0x00FFFE0000000000, lines := 1 }

def sFence : State := { up with part := { up.part with fences := [⟨2, 9, 1, []⟩] } }

def sFree : State := { up with part := { up.part with leases := [(leaseKey 1 2, held)] } }

def sClaiming : State := { up with link := { up.link with ports := [(0, { port with claiming := true })] } }

/-- Granules of deckle 1 whose lines were zeroed. -/
def zgrans (first n : Nat) : NMap Granule :=
  (List.range n).map fun k => (first + k,
    { gen := 1, zero := some ⟨1, 0, 2, 1⟩, retired := false, lastHeld := 0, owner := 1, ofRetired := false })

/-- `up` with zeroed extents. -/
def upz : State := { up with part := { up.part with granules := zgrans 100 1 ++ zgrans 200 2 } }

def cellAt (line : Nat) (d : Line) : Nat × Cell := (line, { data := d, deckle := 1, epoch := 0, key := 2, gen := 1, poisoned := false, err := 0#640 })

/-- The bundle of the worked example of chapter 8. -/
def bundle8 : BitVec 128 := 0x000000008B002A1100820904004018D0#128

def kern : Kernel :=
  { deckle := 1, signer := 0, code := [bundle8, 0#128], consts := [], constOffset := 0, minEngines := 1, maxEngines := 16, gang := true
    windows := 2, estUj := 10, version := 1, name := 0, digest := 0#512, unloading := false }

def lb : LaunchB := { gang := false, anyCore := false, kernel := 8, core := 0, engines := 1, windows := 0, coreMask := 0, capUs := 0, cplEp := 2, ctag := 5, estUj := 0, args := 0#2048 }

def wk (body : WorkBody) (st : WorkState) : Work :=
  { body := body, deckle := 1, ep := 2, cplEp := 2, ctag := 5, cls := 0, queue := 4, yellow := false, state := st, cores := [0], engines := 1
    started := 20000000000, capNs := 10000000, est := 10000000, tiles := 0, cause := none, after := [] }

def wLaunch (st : WorkState) : Work := { wk (.launch { lb with windows := 2 }) st with }

def eng0 : Engine := { Engine.reset with work := some 3 }

def withWork (x : Work) (e : Engine) : State :=
  { upz with eng := { upz.eng with kernels := [(8, kern)], lastKernel := 8, work := [(3, x)], nextWork := 4, engines := [(0, e)] } }

def sRun : State := withWork (wLaunch .running) eng0

def sQueued : State := withWork (wLaunch .queued) Engine.reset

def sKern : State := { upz with eng := { upz.eng with kernels := [(8, kern)], lastKernel := 8 } }

def strm (core : Bool) : Stream := { op := .rd, core := core, tiles := [[⟨64, 0, 64⟩]], refs := none, fault := none, mseq := 0 }

def strmP : Stream := { op := .rd, core := false, tiles := [[⟨200 * 2 ^ 21, 0, 64⟩]], refs := none, fault := none, mseq := 0 }

def sStrm (st : Stream) : State := withWork (wLaunch .running) { eng0 with slots := [(2, st)] }

def stNow (s : State) : Stream := ((s.walkStream 0 0 2).engine 0 0).slots.find 2 |>.getD strmP

def strm0 : Stream := { strmP with tiles := [] }

def pUnload : KernelP := { deckle := 1, handle := 8 }

def cb : CancelB := { cplEp := 2, ctag := 5 }

def pPool : PoolSetP := { deckle := 1, setWindows := true, windows := 4, setMax := false, maxSeq := 0 }

def pMax : PoolSetP := { deckle := 1, setWindows := false, windows := 0, setMax := true, maxSeq := 4 }

def ao : AttnOpenB :=
  { anyCore := false, core := 0, headDim := 0, format := 0, pvBf16 := true, kvHeads := 1, group := 1, layers := 2, maxTokens := 64
    window := 0, sinks := 0, scale := 0x3F800000#32, ptPva := 200 * 2 ^ 21, ptStride := 64, cplEp := 2, ctag := 5, posBase := 0 }

def ctx : SeqCtx := { deckle := 1, home := 0, cfg := ao, length := 3, pending := 0, nextLayer := 0 }

def ap : AttnAppendB := { copy := false, seq := 1, layer := 0, nTokens := 2, srcPva := 0, cplEp := 2, ctag := 5 }

def asb : AttnStepB := { inl := true, qryFp32 := false, outFp32 := false, outPva := false, cores := 0, qposSet := false, nQ := 1, seq := 1, layer := 0, engines := 1, capUs := 0, queryPva := 0, outAddr := 0, cplEp := 2, ctag := 5, qpos := 0, inlineLen := 128, queries := [0#512, 0#512] }

def acl : AttnCloseB := { seq := 1, cplEp := 2, ctag := 5 }

def seqs (s : State) : State := { s with attn := { seqs := [(1, ctx)], lastSeq := 1 }, part := { s.part with deckles := [(0, freshDeckle 0 1), (1, { deckle 2 with maxSeq := 4 })] } }

/-- The page-table entry of the sequence's first page: a page of extent 2. -/
def entry : Line := BitVec.ofNat 512 (2 ^ 63 + 200 * 2 ^ 21 + 65536)

def sAttn (b : WorkBody) : State := seqs { withWork (wk b .running) eng0 with mem := { upz.mem with cells := [cellAt (200 * 32768) entry] } }

def te : TensorEntry := { layer := 0, tensor := 1, pin := 0, format := 0, axisCols := false, adaptable := true, rows := 4, cols := 64, offset := 0, tscale := 0x3F800000#32, codebook := 0#128 }

def pMap : MapP := { magic := 0x50414D4B, fmt := 1, deckle := 1, mapUid := 77, slices := 1, slice := 0, layers := 2, pins := [⟨1, 0, 200 * 2 ^ 21⟩], tensors := [te] }

def rgm : Region := { deckle := 1, policy := .t1Only, mir := false, segments := 1, segGranules := 2, retainCount := 2, retainMs := 0, current := 1, versions := [(1, ⟨2, 0, [2]⟩)], deleted := false, grantees := [] }

def mmap : MMap := { deckle := 1, slices := 1, slice := 0, layers := 2, pins := [(1, 1, 200 * 2 ^ 21)], tensors := [te] }

def adp (pin : Bool) : Adapter := { mapUid := 77, id := 3, fp8 := false, rank := 1, region := 1, version := 1, alpha := 0x3F800000#32, basePva := 200 * 2 ^ 21, entries := [⟨0, 1, 0, 64⟩], pinned := pin, pinReply := none }

/-- `upz` with extent 2 as version 1 of region 1, pinned by map 77. -/
def sForm (ads : List Adapter) : State :=
  { upz with rgn := { upz.rgn with regions := [(1, rgm)], lastRegion := 1 }
             part := { upz.part with extents := [(1, ext 100 1 1), (2, { ext 200 2 1 with published := some 1 })]
                                     deckles := [(0, freshDeckle 0 1), (1, { deckle 2 with tables := [(0, ⟨0, [(0, 0x5C3)]⟩)] })] }
             form := { maps := [(77, mmap)], adapters := ads, cache := [] } }

def sRgm : State := { sForm [] with form := { maps := [], adapters := [], cache := [] } }

def pRetire : MapRetireP := { deckle := 1, mapUid := 77 }

def pAd : AdapterP := { deckle := 1, adapter := 3, mapUid := 77 }

def pAdReg : AdapterP := { deckle := 1, rank := 1, adapter := 3, mapUid := 77, region := 1, entries := 1, alpha := 0x3F800000#32, basePva := 200 * 2 ^ 21, descOffset := 4096 }

def adEnt : Line := BitVec.ofNat 512 (1 * 2 ^ 16 + 64 * 2 ^ 128)

def sAdReg : State := { sForm [] with mem := { upz.mem with cells := [cellAt (200 * 32768 + 64) adEnt] } }

def part0 : CachePart := { mapUid := 77, adapter := 3, layer := 0, tensor := 1, owner := 1, payer := 1, bPva := 200 * 2 ^ 21, bBytes := 64, aPva := 200 * 2 ^ 21 + 64, aBytes := 128, loaded := false }

def sPart : State := { sForm [adp true] with form := { (sForm [adp true]).form with cache := [part0] } }

def prog : FormProg := { mapUid := 77, layer := 0, tensor := 1, outFmt := 0, transpose := false, adapter := 0, alpha := 0#32, row0 := 0, rows := 2, col0 := 0, cols := 64, outPitch := 65536, engines := 1 }

def bindOf (s : State) : FormBind := (s.bindForm 1 prog).toOption.getD default

def fb : FormBind := { owner := 1, entry := te, slices := 1, basePva := 200 * 2 ^ 21, part := none, pins := [(1, 1)] }

def sRdf : State := { sForm [] with eng := (withWork (wk (.rdf 9 prog fb) .running) eng0).eng }

def pIx : IndexP := { deckle := 1, format := 3, region := 1, dim := 512, rows := 4, basePva := 200 * 2 ^ 21 }

def pIxR : IndexP := { pIx with index := 1 }

def pIx0 : IndexP := { deckle := 1, index := 1 }

def ix : IndexB := { deckle := 1, format := 3, region := 1, version := 1, dim := 512, rows := 4, tscale := 0#32, basePva := 200 * 2 ^ 21, offset := 0, idBase := 0, filter := none }

def sIx : State := { sRgm with retr := { indexes := [(1, ix)], lastIndex := 1 } }

def tk : TopkB := { metric := 2, rescore := false, outPva := false, cores := 0, firstCore := 0, index := 1, rindex := 0, q := 1, k := 2, cand := 0, engines := 1, capUs := 0, queryPva := 200 * 2 ^ 21 + 4096, qscalePva := 0, rqueryPva := 0, rqscalePva := 0, filterPva := 0, outAddr := 0, cplEp := 2, ctag := 5 }

def sTk : State := { sIx with eng := (withWork (wk (.topk tk ix none) .running) eng0).eng, part := { sIx.part with leases := up.part.leases } }

def desc : Desc := { srcKind := 0, dstEndpoint := false, barrier := false, mirRequired := false, haltOnBad := false, notify := false, writeback := false, retries := 2, retrySet := true, tag := 44, nextPva := 0, srcAddr := 200 * 2 ^ 21, srcLineLen := 64, srcStride := 64, srcLines := 1, remoteEp := 0, remoteDeckle := 0, remoteHandle := 0, dstAddr := 201 * 2 ^ 21, dstLineLen := 64, dstStride := 64, dstLines := 1, dstEp := 0 }

def cbod : CouchB := { core := 0, channel := 1, cplEp := 2, ctag := 5, inl := some desc }

def cabt : CouchB := { core := 0, channel := 1, cplEp := 2, ctag := 5 }

def chain (inl : Option Desc) (run : Option DescRun) : Chain := { deckle := 1, ep := 2, cplEp := 2, ctag := 5, cls := 0, queue := 4, inl := inl, next := 200 * 2 ^ 21, run := run, ended := 0, bad := 0, revoked := 0, tiles := 0, bytes := 0, lastTag := 0, nj := 0 }

def drun (ts : NMap TileState) (d : Desc) : DescRun := { d := d, pva := none, next := 1, tiles := ts, retriesLeft := 2, retriesUsed := 0, landed := 0, bytes := 0, formed := none, prog := none, broken := none, mseq := 0, est := 0, yellow := false }

def sCh (c : Channel) : State := { upz with couch := { chans := [(chanKey 0 1, c)], hubBusy := 0, nextTag := 1 } }

def chQ : Chain := chain (some desc) none

def rWait : DescRun := drun [(0, .waiting)] desc

def descE : Desc := { desc with dstEndpoint := true, dstEp := 3, dstAddr := 0 }

def rPush : DescRun := drun [(0, .pushed 6 100)] descE

def rFail : DescRun := drun [(0, .failed .busy 30000000000)] descE

def sLine (d : Nat) : Cell := (cellAt 0 (BitVec.ofNat 512 d)).2

def spush : State := sCh ⟨some (chain (some descE) (some rPush)), []⟩

def rspPkt : Hdr := { port := 0, vc := 1, ep := 3, deckle := 1, tag := 6, len := 0 }

def engB : Engine := { eng0 with barrier := 1 }

def engEnd : Engine := { eng0 with ended := true, halting := true }

def stp := ((sAttn (.step asb)).touchCtx 1).runStep (wk (.step asb) .running) ctx asb

def area : List Line := match stp.2 with | .ok l => l | _ => []

def exq (len : Nat) : Req := { ten len with ext := true, paramPva := 100 * 2 ^ 21 }

def zed (s : State) : State := { s with part := { s.part with granules := zgrans 100 1 ++ zgrans 200 2, deckles := up.part.deckles } }

def fpart := (sPart.trimCache part0.bytes).formRead 1 1 0 (lineRun part0.bPva 1 ++ lineRun part0.aPva 2)

def h0 := pkt 0 64

def g0 := ((sForm []).gate h0 0 { ok := h0.len == 64 }).1.openReq h0 4 false

def p0 := g0.police 0 1 0 (2 * 65536)

def o0 : State := { p0.1 with part := { p0.1.part with eps := p0.1.part.eps.upd 2 fun e => { e with outst := e.outst.map fun (r : OutReq) => if r.tag = 9 then { r with queue := 4 } else r } } }

def fn := sRdf.formNext 1 0 fb prog 0

def rt := sTk.runTopk (wk (.topk tk ix none) .running) tk ix none

def rsc : Scan := match rt.2.1 with | .ok x => x | _ => { ranks := [] }

def rpo := ((rt.1.chargeScores (wk (.topk tk ix none) .running) ix 4).chargeScores (wk (.topk tk ix none) .running) ix 0).putOut 3 (wk (.topk tk ix none) .running) false 0 (topkOut tk ix rsc)

def chN : Chain := chain none none

def chW : Chain := chain (some desc) (some rWait)

def sW : State := (sCh ⟨some chW, []⟩).issueTo 0 1 0 4 |>.walkTile 0 1 0

def rW : DescRun := ((sW.runAt 0 1).map (·.2)).getD rWait

def tlW : List LineRef × List LineRef := match rW.tiles.find 0 with | some (.translated a b) => (a, b) | _ => ([], [])

def withPort (x : Port) : State := { up with link := { up.link with ports := [(0, x)] } }

def msg0 : Msg := .rsp 2 9 1 .ok 0 0 [] true

def eg (q : Nat) : Egress := { vc := 1, queue := q, deckle := 1, left := 100, msg := msg0 }

def flit (n : Nat) : Flit := { seq := n, vc := 1, fill := 100, enc := false, epoch := false, counter := 0, ackReq := false, replays := 0, since := 0, ends := [] }

def pBy : Port := { port with ackDue := true }

def pRep : Port := { port with replay := [flit 0, flit 1], replayLeft := [0, 1] }

def dfl : DataFlit := { seq := 0, vc := 0, ackReq := true, enc := false, epoch := false, fill := 100 }

def pa : ParamA := { linkId := 77, lanes := 255, maxWidth := 8, encRequired := false, encCapable := false, poolDevice := false }

def tr (t : Train) : State := withPort { port with train := t }

def sLaid (l : Laid) : State := { up with laid := l }

def spb := withPort { port with train := .param, gotA := true, partner := some pa }

def kx : KeyxMsg := { epoch := 1, pubkey := 5, sig := 6 }

def pQm : QueueMapP := { deckle := 1, classMask := 3, queue := 10 }

def pQw : QueueMapP := { queue := 10, weight := 100 }

def pSh (t : Bool) : BucketP := { deckle := if t then 1 else 0, targetDeckle := t, allPorts := false, enable := true, resetFill := true, port := 0, queue := if t then 0 else 10, cir := 100, pir := 200, cbs := 4096, pbs := 8192 }

def pEn : EnergyP := { deckle := 1, enable := true, resetFill := true, queueLimit := 5, cerMw := 100, perMw := 200, cebUj := 1000, pebUj := 2000 }

def xw : Work := { wLaunch .energyQueued with est := 0 }

def sEw : State := let s := withWork xw eng0; { s with part := { s.part with deckles := [(0, freshDeckle 0 1), (1, { deckle 2 with energy := { EnergyB.off with enable := true, ctok := 500, cer := 1, per := 2, ceb := 1000, peb := 1000 } })] } }

def masterL : Laid := { up.laid with role := .internal, state := .locked, hops := 0 }

def sLocked : State := sLaid { up.laid with state := .locked, upstream := 0, hops := 2 }

def pTm (r : Nat) : TimeMasterP := { role := r, autoPort := false, port := 0, ppsNs := 0 }

/-- A header and one entry: port 0, deckle 1, endpoint 2, 4,096 bytes of extent 2. -/
def imgHead : Line := BitVec.ofNat 512 (0x4449414C + 1 * 2^32 + 99 * 2^64 + 1000 * 2^128 + 1000 * 2^160 + 100 * 2^176 + 0 * 2^192 + 1 * 2^224)

def imgEnt : Line := BitVec.ofNat 512 (0 + 0 * 2^23 + 2 * 2^32 + 1 * 2^44 + 4096 * 2^64 + (200 * 2^21) * 2^128 + 4096 * 2^192 + 5 * 2^256)

def sImg : State :=
  { upz with part := { upz.part with granules := zgrans 100 1 ++ (zgrans 200 2), deckles := [(0, { freshDeckle 0 2 with ctrlGranules := 8 }), (1, deckle 2)] } }

def imgN : Nat := imgHead.toNat + imgEnt.toNat * 2 ^ 2048

def sI : State := sImg.writeBytes 0 0x00FFFF0000000000 320 imgN

def pLd : LaidLoadP := { slot := 0, checkOnly := false, imagePva := 0x00FFFF0000000000, imageLen := 320 }

def ld := (sI.acting (laidLoadCmd pLd) (op (laidLoadCmd pLd).len)).loadLaid pLd

def le : LaidEntry := { offset := 500, port := 0, inbound := false, lateDrop := false, form := false, target := 2, deckle := 1, shedPrio := 0, addr := 4096, srcPva := 200 * 2 ^ 21, length := 131072, slack := 0, id := 5, formCore := 0, engines := 0, rsvd := 0 }

def tab (r : LaidRun) : LaidTable := { tableId := 99, cycle := 1000, refPeriod := 1000, refLen := 100, refOffset := 0, entries := [le], run := [r], forms := [], pjs := [10], digest := 0#256, mw := 1, widths := [(0, 8)], start := 20000000000, cycles := 0, slips := 0, unscheduled := 0 }

def laidSt (act pend : Option Nat) (r : LaidRun) : State :=
  { upz with laid := { upz.laid with state := .locked, active := act, pendSlot := pend, tables := [(0, tab r)] } }

def pAct : LaidActP := { slot := 0, startNs := 30000000000 }

def pStop : LaidActP := { startNs := 20000000000 + 8000 * 1000 }

def laidLater : State := let s := laidSt none (some 0) .fresh; { s with laid := { s.laid with tables := [(0, { tab .fresh with start := 30000000000 })] } }

def pStat : LaidStatusP := { slot := 0, records := false, degradedOnly := false }

def dn : LaidRun := { LaidRun.fresh with done := true }

def ls0 := laidSt (some 0) none .fresh

def lt := (ls0.reachDom ((tab .fresh).slotNs le)).laidTile (tab .fresh) 0 le 0

def lf (n : Nat) : LaidRun := { LaidRun.fresh with done := true, left := some n }

def hIn : Hdr := { pkt 2 (32 + 128) with }

def mIn : MemExt := { addr := 200 * 2 ^ 21, lines := 2 }

def refsIn := match (upz.freeBuf 0 2 (Hdr.credits hIn)).translate 1 .wr (lineRun mIn.addr 2) with | .ok r => r | _ => []

/-- A deckle-0 request with parameters or results in its control window. -/
def opr (len : Nat) : Req := { op len with resultPva := 0x00FFFF0000000000, resultLen := 65536 }

def hubS (f : Hub → Hub) : State := { up with hub := f up.hub }

def memS (f : Mem → Mem) : State := { up with mem := f up.mem }

def pkgS (f : Pkg → Pkg) : State := { up with pkg := f up.pkg }

def secS (f : Sec → Sec) : State := { up with sec := f up.sec }

def pScr : ScrubP := { deckle := 0, group := 0, pva := false, rewrite := true, parity := true, share := 10, start := 0, length := 64 }

def sScr := memS fun m => { m with scrubs := [(0, ⟨0, pScr⟩)], nextScrub := 1 }

def pIn : InjectP := { group := 0, unit := 1, kind := 1, isMatch := true, row := 64, mask := 1#640 }

def pInC : InjectP := { group := 0, unit := 1 }

def pCe : CeP := { bucketSize := 5, leakMs := 100, failUe := 3 }

def pFo : CeP := { group := 0, unit := 3 }

def ceu : CeUnit := { level := 5, corrected := 9, storm := false, ue := [] }

def grp (f : Group → Group) : State := memS fun m => { m with groups := m.groups.upd 0 f }

def pAt : AttestP := { deckle := 1, perDeckle := true, firstDeckle := 0, nonce := 5 }

def pDk : KeyP := { deckle := 1 }

def swp : Sweep := { oldEpoch := 0, oldKey := 1, start := 0, lines := 0 }

def pTa : KeyP := { target := 77, pubkey := 5 }

def bulkS : State := { up with part := { up.part with bulk := true } }

def ses : State := secS fun x => { x with session := some ⟨30000000000, false⟩ }

def pDbgRead : DebugP := { space := 0, len := 64 }

def pRs : KeyP := { confirm := 0x53454356 }

def bootS : State := { up with hub := { Hub.reset with stagingReady := true, bedrockReady := true }, part := { Part.reset with eps := up.part.eps, deckles := [(0, freshDeckle 0 1)] }, sec := Sec.reset }

/-- Header of a loader image of 64 bytes. -/
def imHd : Nat := 0x534D4D45 + 1 * 2 ^ 32 + 7 * 2 ^ 48 + 64 * 2 ^ 64 + 0x20000 * 2 ^ 96

def pFa : FwP := { imageLen := 4160 }

def bootW : State := bootS.putWindow 0 (BitVec.ofNat 512 imHd) (~~~0#64)

def st0 : Image := { fwVersion := 0x20000, secVersion := 7, buildId := 2, digest := 0#512 }

def stg : State := hubS fun h => { h with staged := some st0 }

def act : State := hubS fun h => { h with phase := .activating, staged := some st0, activation := some ⟨20000000000, none, st0⟩ }

def dc : DevCfgP := { setProfile := false, bulk := true, setWedge := false, wedgeMs := 500 }

def lone : State := { up with part := { up.part with deckles := [(0, freshDeckle 0 1)] } }

def wed : State := hubS fun h => { h with phase := .wedged, ready := false, dumping := some 5, stoppedAt := some 5 }

def wed2 : State := hubS fun h => { h with phase := .wedged, ready := false, dumpDone := some 5, stoppedAt := some 5, wedgeMs := 100 }

def g0n := grp fun g => { g with ready := false }

def g1n : State := memS fun m => { m with groups := m.groups.upd 1 fun g => { g with ready := false } }

def ri : MbxRsp := { code := 0xFF01, tag := 7, deckle := 0, cookie := 0, elapsed := 0, ans := okAns }

def pid : Nat := 5 * 64 + 62

def pport : Port := { port with partner := some { linkId := pid, lanes := 255, maxWidth := 8, encRequired := false, encCapable := false, poolDevice := true } }

def pairS (f : Pair → Pair) : State := { up with link := { up.link with ports := [(0, port), (62, pport)] }, pair := f up.pair }

def pinfo : PartnerInfo := { (pairS id).pairInfo with linkId := pid }

def hl : Health := { hubOk := true, securityOk := true, pairPorts := 2, patrolLate := false, ceStorm := false, coresOk := 0xFFFFFFFF, stacksOk := 0x3FFFF, channelsOk := 0xFFFFFFFFFF, groups := [], appliedMseq := 5, lagNs := 0, lanesFailed := 0, tjMax := 500, reportNs := 5 }

def actS (f : Pair → Pair) : State := pairS fun p => f { p with role := .active, state := .inSync, partnerId := pid, partner := some pinfo, health := some (hl, 20000000000), reportAt := 20000000000, lastHb := 20000000000, ackedAt := 20000000000 }

def stbS (f : Pair → Pair) : State := pairS fun p => f { p with role := .standby, state := .inSync, partnerId := pid, partner := some pinfo, reportAt := 20000000000, lastHb := 20000000000, ackedAt := 20000000000, synced := true }

def pArm : PairP := { partnerId := pid }

def loneP (f : Pair → Pair) : State := { pairS f with part := { up.part with deckles := [(0, freshDeckle 0 1)] } }

def sForm' := pairS fun p => { p with partner := some pinfo }

def pW : WitnessP := { witnesses := [1] }

def sWit := stbS fun p => { p with witnesses := [⟨1, false, 0, 0⟩] }

def sHand := actS fun p => { p with handover := some 20000001000 }

def sProm := stbS fun p => { p with state := .linkLost, promoting := some (1, true), promoteAt := 20000000000 }

def mln : MirLine := { data := 5#512, deckle := 1, epoch := 0, gen := 1 }

def sRetain := actS fun p => { p with retained := [⟨1, .mirAck 1, 62⟩, ⟨2, .mirAck 1, 62⟩], mseq := 2 }

def sArmed := loneP fun p => { p with state := .armed, partnerId := pid }

/-- Sixteen outstanding commands of deckle 1's mailbox. -/
def full : State := { up with mbx := { up.mbx with nextReply := 16, outst := (List.range 16).map fun i =>
  (i, { box := 1, req := { ten 0 with tag := i }, code := 0x0101, accepted := 5, progress := .running }) } }

def one : State := { up with mbx := { up.mbx with nextReply := 1, outst := [(0, { box := 1, req := { ten 0 with tag := 7 }, code := 0x0B03, accepted := 5, progress := .running })] } }

def qf : Req := { ten deviceQueryCmd.len with tag := 40 }

def sMis := pairS fun p => { p with partner := some { pinfo with bulk := true } }

def qm : Req := { ten 0 with deckle := 0 }

def withP (s : State) (c : Instr) : State := { s with pending := [c] }

/-- `sRun` with a kernel of one bundle whose slots are all no-operations. -/
def sNop : State := { sRun with eng := { sRun.eng with kernels := [(8, { kern with code := [0#128] })] } }

/-- Under the boot ROM, with an image of 64 bytes in the window and its verification running. -/
def bootV : State := { bootW with hub := { bootW.hub with verifying := some ⟨4, 4160, false⟩, loader := some 1 } }
/-- `up` with that image in deckle 0's control window. -/
def stageS : State := up.writeBytes 0 0x00FFFF0000000000 4160 imHd
/-- The header of a kernel image of one bundle, its signature and digest zero. -/
def kHd : Nat := 0x4C4E524B + 1 * 2 ^ 32 + 1 * 2 ^ 64 + 1 * 2 ^ 160 + 1 * 2 ^ 165
/-- `upz` with that image, its bundle a HALT, at the start of extent 2. -/
def kernS : State := upz.writeBytes 1 (200 * 2 ^ 21) 528 (kHd + 0x3E * 2 ^ 4096)

/-! ## Witnesses -/

theorem witness_DeckleCommandsComplete_0 :
    let q : Req := op (deckleCreateCmd dcp up).len
    let p : DeckleCreateP := dcp
    let hint : Nat := 0
    let s : State := up
    (s.passes (deckleCreateCmd p s) q (deckleCreateChecks p hint)) := by decide

theorem witness_DeckleCommandsComplete_1 :
    let q : Req := op 8
    let p : DeckleP := {deckle := 1}
    let s : State := up
    let k : Deckle := deckle 2
    (s.passes (deckleQueryCmd p) q (deckleQueryChecks p)) ∧
    ((s.acting (deckleQueryCmd p) q).part.deckles.find p.deckle = some k) := by decide

theorem witness_DeckleCommandsComplete_2 :
    let q : Req := op 24
    let p : QuotaP := {deckle := 1, qT1 := 50, qT2 := 5, qStg := 1, qLodeMib := 4}
    let s : State := up
    (s.passes (deckleQuotaCmd p) q (deckleQuotaChecks p)) := by decide

theorem witness_DeckleCommandsComplete_3 :
    let q : Req := op 8
    let p : DeckleP := {deckle := 1}
    let s : State := up
    (s.passes (deckleDissolveCmd p) q (deckleDissolveChecks p)) := by decide

theorem witness_DeckleCommandsComplete_4 :
    let d : Nat := 1
    let s : State := sDis
    let k : Deckle := dDis
    let x : Dissolve := ⟨0,0,0,0,0⟩
    (s.part.deckles.find d = some k) ∧
    (k.dissolving = some x) ∧
    (s.drained d = true) ∧
    (s.hubStopped = false) := by decide

theorem witness_ExtentCommandsComplete_0 :
    let q : Req := ten (extentAllocCmd pAlloc up).len
    let p : AllocP := pAlloc
    let hint : Nat := 300
    let s : State := up
    let y : Tier × Nat := (.t1, 300)
    (s.passes (extentAllocCmd p s) q (extentAllocChecks q p hint)) ∧
    ((s.acting (extentAllocCmd p s) q).placeBy p.deckle p.policy p.granules hint = .ok y) := by decide

theorem witness_ExtentCommandsComplete_1 :
    let q : Req := ten (extentFreeCmd pFree).len
    let p : RevokeP := pFree
    let s : State := up
    (s.passes (extentFreeCmd p) q (extentFreeChecks p)) := by decide

theorem witness_ExtentCommandsComplete_2 :
    let q : Req := op (extentRevokeCmd pRev).len
    let p : RevokeP := pRev
    let s : State := up
    (s.passes (extentRevokeCmd p) q (extentRevokeChecks p)) := by decide

theorem witness_ExtentCommandsComplete_3 :
    let x : Nat := 2
    let s : State := sRev
    let e : Extent := xRev
    let r : Revoke := rv
    (NMap.wf s.part.extents) ∧
    (s.part.extents.find x = some e) ∧
    (e.revoke = some r) ∧
    ((s.jobsOn x).isEmpty) ∧
    (s.tilesOn x = false) := by decide

theorem witness_ExtentCommandsComplete_4 :
    let x : Nat := 2
    let s : State := sRev
    let e : Extent := xRev
    let r : Revoke := rv
    (NMap.wf s.part.extents) ∧
    (s.part.extents.find x = some e) ∧
    (e.revoke = some r) ∧
    ((s.jobsOn x).isEmpty) := by decide

theorem witness_ZeroingWritesZeroLines_0 :
    let x : Nat := 2
    let s : State := sZero
    let e : Extent := xZero
    let r : Option Nat := none
    (s.part.extents.find x = some e) ∧
    (e.state = .zeroing r) ∧
    ((∀ g ∈ runGranules e.tier e.first e.granules, g < 2 ^ 25 ∧ s.part.granules.has (granKey e.tier g))) := by decide

theorem witness_ExtentCommandsComplete_5 :
    let t : Tier := .t1
    let g : Nat := 200
    let s : State := sRet
    let x : Granule := gRet
    (s.part.granules.find (granKey t g) = some x) ∧
    (x.retired = true) := by decide

theorem witness_LeaseCommandsComplete_0 :
    let q : Req := op (leaseCmd pLease).len
    let p : LeaseP := pLease
    let s : State := up
    (s.passes (leaseCmd p) q (leaseChecks q p)) ∧
    (p.durationMs ≠ 0) := by decide

theorem witness_LeaseCommandsComplete_1 :
    let q : Req := op (leaseCmd pEnd).len
    let p : LeaseP := pEnd
    let s : State := up
    let l : Lease := held
    (s.passes (leaseCmd { p with durationMs := 0 }) q (leaseChecks q { p with durationMs := 0 })) ∧
    ((s.acting (leaseCmd { p with durationMs := 0 }) q).lease p.deckle p.endpoint = some l) ∧
    (l.isMember = true) := by decide

theorem witness_LeaseCommandsComplete_2 :
    let q : Req := op (leaseQueryCmd pEnd).len
    let p : LeaseP := pEnd
    let s : State := up
    (s.passes (leaseQueryCmd p) q (leaseQueryChecks p)) := by decide

theorem witness_LeaseCommandsComplete_3 :
    let port : Nat := 0
    let ep : Nat := 2
    let deckle : Nat := 1
    let stamp : Nat := 5
    let rsvd : Nat := 0
    let s : State := up
    let l : Lease := held
    (s.bound port ep = true) ∧
    (s.lease deckle ep = some l) ∧
    (l.state = .held) ∧
    (stamp ≤ l.deadline) ∧
    (s.hubStopped = false) := by decide

theorem witness_LeaseTimersComplete_0 :
    let d : Nat := 1
    let ep : Nat := 2
    let s : State := up
    let l : Lease := held
    (s.lease d ep = some l) ∧
    (l.state = .held) ∧
    (s.hubStopped = false) := by decide

theorem witness_LeaseTimersComplete_1 :
    let d : Nat := 1
    let ep : Nat := 2
    let s : State := sGrace
    let l : Lease := grace
    (s.lease d ep = some l) ∧
    (l.state = .grace) ∧
    (s.hubStopped = false) := by decide

theorem witness_LeaseTimersComplete_2 :
    let d : Nat := 1
    let ep : Nat := 2
    let s : State := sGone
    let rc : Reclaim := rc
    let r : Nat := 4
    let l : Lease := gone
    (NMap.wf s.part.leases) ∧
    (s.part.reclaims.find (leaseKey d ep) = some rc) ∧
    (rc.reply = some r) ∧
    (s.reclaimDrained d ep = true) ∧
    (s.lease d ep = some l) ∧
    (l.state = .expired) := by decide

theorem witness_RegionCommandsComplete_0 :
    let q : Req := ten (regionCreateCmd pReg).len
    let p : RegionP := pReg
    let s : State := up
    (s.passes (regionCreateCmd p) q (regionCreateChecks q p)) := by decide

theorem witness_RegionCommandsComplete_1 :
    let q : Req := ten (regionRetainCmd pReg1).len
    let p : RegionP := pReg1
    let s : State := reg
    let r : Region := rg
    (s.passes (regionRetainCmd p) q (regionRetainChecks p)) ∧
    (s.rgn.regions.find p.region = some r) := by decide

theorem witness_RegionCommandsComplete_2 :
    let q : Req := ten (regionDeleteCmd pReg0).len
    let p : RegionP := pReg0
    let s : State := reg
    (s.passes (regionDeleteCmd p) q (regionDeleteChecks p)) := by decide

theorem witness_RegionCommandsComplete_3 :
    let q : Req := ten (regionOpenCmd pOpen).len
    let p : OpenP := pOpen
    let s : State := reg
    let r : Region := rg
    (s.passes (regionOpenCmd p) q (regionOpenChecks q p)) ∧
    (s.rgn.regions.find p.region = some r) := by decide

theorem witness_RegionCommandsComplete_4 :
    let q : Req := ten (regionReopenCmd pId).len
    let p : OpenP := pId
    let s : State := reg
    let r : Region := rg
    (s.passes (regionReopenCmd p) q (regionReopenChecks p)) ∧
    (s.rgn.regions.find p.region = some r) := by decide

theorem witness_RegionCommandsComplete_5 :
    let q : Req := ten (regionListCmd pId).len
    let p : OpenP := pId
    let s : State := reg
    let r : Region := rg
    let h : Handle := hd
    (s.passes (regionListCmd p) q (regionListChecks p)) ∧
    (s.rgn.regions.find p.region = some r) ∧
    (p.ofDraft = false) ∧
    (s.handleOf p.deckle p.region p.id = some h) := by decide

theorem witness_RegionCommandsComplete_6 :
    let q : Req := ten (regionCloseCmd pClose).len
    let p : OpenP := pClose
    let s : State := reg
    (NMap.wf s.rgn.handles) ∧
    (s.passes (regionCloseCmd p) q (regionCloseChecks p)) := by decide

theorem witness_RegionCommandsComplete_7 :
    let q : Req := ten (regionGrantCmd pGrant).len
    let p : GrantP := pGrant
    let s : State := reg
    (s.passes (regionGrantCmd p) q (regionGrantChecks p)) := by decide

theorem witness_RegionCommandsComplete_8 :
    let q : Req := ten (regionWithdrawCmd pGrant).len
    let p : GrantP := pGrant
    let s : State := sGrant
    (s.passes (regionWithdrawCmd p) q (regionWithdrawChecks p)) := by decide

theorem witness_DraftCommandsComplete_0 :
    let q : Req := ten (regionDraftOpenCmd pDraft reg).len
    let p : DraftP := pDraft
    let hint : Nat := 400
    let s : State := reg
    let r : Region := rg
    let y : State × List (SegMode × Nat) × List Nat := ((reg.acting (regionDraftOpenCmd pDraft reg) (ten (regionDraftOpenCmd pDraft reg).len)).allocSegs rg 2 2 400 (draftModes pDraft 2) (reg.versionSegs 1 1)).toOption.getD (reg, [], [])
    (s.passes (regionDraftOpenCmd p s) q (regionDraftOpenChecks q p hint)) ∧
    (s.liveRegion p.deckle p.region = some r) ∧
    ((s.acting (regionDraftOpenCmd p s) q).allocSegs r q.ep (s.rgn.lastDraft + 1) hint (draftModes p r.segments) (s.versionSegs p.region (r.baseOf p.base)) = .ok y) := by decide

theorem witness_DraftCommandsComplete_1 :
    let i : Nat := 1
    let r : Nat := 3
    let s : State := sOpening
    let d : Draft := drOp
    (s.rgn.drafts.find i = some d) ∧
    (d.opening = some r) := by decide

theorem witness_DraftCommandsComplete_2 :
    let q : Req := ten (regionDraftRebaseCmd pDr).len
    let p : DraftP := pDr
    let s : State := reg
    let r : Region := rg
    let d : Draft := dr
    (s.passes (regionDraftRebaseCmd p) q (regionDraftRebaseChecks p)) ∧
    (s.rgn.regions.find p.region = some r) ∧
    (s.rgn.drafts.find p.draft = some d) := by decide

theorem witness_DraftCommandsComplete_3 :
    let q : Req := ten (regionDraftDiscardCmd pDr).len
    let p : DraftP := pDr
    let s : State := reg
    (NMap.wf s.rgn.drafts) ∧
    (s.passes (regionDraftDiscardCmd p) q (regionDraftDiscardChecks p)) := by decide

theorem witness_DraftCommandsComplete_4 :
    let q : Req := ten (regionPublishCmd pPub).len
    let p : PublishP := pPub
    let s : State := reg
    let r : Region := rg
    let d : Draft := dr
    (s.passes (regionPublishCmd p) q (regionPublishChecks p)) ∧
    (s.rgn.regions.find p.region = some r) ∧
    (r.queue = []) ∧
    (s.publishing p.region = false) ∧
    (s.rgn.drafts.find p.draft = some d) ∧
    (d.region = p.region) ∧
    (d.base = p.base) ∧
    (d.holder = q.ep) ∧
    (d.base = r.current) := by decide

theorem witness_DraftCommandsComplete_5 :
    let i : Nat := 1
    let r : Nat := 3
    let s : State := sSealed
    let d : Draft := drSe
    let g : Region := rg
    (s.rgn.drafts.find i = some d) ∧
    (d.sealed = some r) ∧
    (s.rgn.regions.find d.region = some g) ∧
    (g.deleted = false) ∧
    (d.opening = none) ∧
    (s.draftQuiet d = true) := by decide

theorem witness_DraftCommandsComplete_6 :
    let s : State := reg
    (s.fwRuns = true) := by decide

theorem witness_LodeCommandsComplete_0 :
    let q : Req := ten (lodeCreateCmd pLo).len
    let p : LodeP := pLo
    let s : State := up
    (s.passes (lodeCreateCmd p) q (lodeCreateChecks p)) := by decide

theorem witness_LodeCommandsComplete_1 :
    let q : Req := ten (lodeDeleteCmd pLoDel).len
    let p : LodeP := pLoDel
    let s : State := withLode loEmpty
    (NMap.wf s.lode.lodes) ∧
    (s.passes (lodeDeleteCmd p) q (lodeDeleteChecks p)) := by decide

theorem witness_LodeCommandsComplete_2 :
    let q : Req := ten (lodeJoinCmd pMem).len
    let p : LodeMemP := pMem
    let s : State := withLode loEmpty
    (s.passes (lodeJoinCmd p) q (lodeJoinChecks p)) := by decide

theorem witness_LodeCommandsComplete_3 :
    let q : Req := ten (lodeLeaveCmd pLeave).len
    let p : LodeMemP := pLeave
    let s : State := withLode lo
    let l : Lode := lo
    (s.passes (lodeLeaveCmd p) q (lodeLeaveChecks p)) ∧
    (s.lode.lodes.find p.lode = some l) ∧
    (l.uncached.contains p.endpoint = true) := by decide

theorem witness_LodeCommandsComplete_4 :
    let i : Nat := 1
    let ep : Nat := 2
    let a : Nat := 0
    let r : Nat := 4
    let s : State := withLode loLeav
    let l : Lode := loLeav
    (s.lode.lodes.find i = some l) ∧
    (l.leaving.find? (fun x => x.1 == ep) = some (ep, r)) ∧
    ((l.work.any fun w => w.ep == ep && w.req == .recall) = false) ∧
    (l.agentOf ep = some a) ∧
    (l.linesOf a = []) := by decide

theorem witness_LodeCommandsComplete_5 :
    let q : Req := ten (salvageCopyCmd pSal).len
    let p : SalvageP := pSal
    let s : State := withLode loDown
    (s.passes (salvageCopyCmd p) q (salvageCopyChecks p)) := by decide

theorem witness_LodeCommandsComplete_6 :
    let q : Req := ten (salvageCopyCmd pSal).len
    let p : SalvageP := pSal
    let s : State := withLode loDown
    (s.passes (salvageCopyCmd p) q (salvageCopyChecks p)) := by decide

theorem witness_LodeCommandsComplete_7 :
    let q : Req := ten (lodeSalvageRearmCmd pSal0).len
    let p : SalvageP := pSal0
    let s : State := withLode loDown
    let l : Lode := loDown
    (s.passes (lodeSalvageRearmCmd p) q (lodeSalvageRearmChecks p)) ∧
    (s.lode.lodes.find p.lode = some l) := by decide

theorem witness_LodeCommandsComplete_8 :
    let q : Req := ten (lodeSalvageDeleteCmd pSal0).len
    let p : SalvageP := pSal0
    let s : State := withLode loDown
    (NMap.wf s.lode.lodes) ∧
    (s.passes (lodeSalvageDeleteCmd p) q (lodeSalvageDeleteChecks p)) := by decide

theorem witness_LodeCommandsComplete_9 :
    let i : Nat := 1
    let r : Nat := 4
    let x : Nat := 2
    let off : Nat := 32
    let s : State := withLode loSal
    let l : Lode := loSal
    let e : Extent := ext 200 2 1
    let f : Extent := ext 200 2 1
    (s.lode.lodes.find i = some l) ∧
    (l.salvage = some (r, true, x, off)) ∧
    (s.part.extents.find x = some e) ∧
    (e.state ≠ .revoking) ∧
    (s.part.extents.find l.extent = some f) ∧
    (f.state ≠ .revoking) := by decide

theorem witness_LodeRequestsComplete_0 :
    let h : Hdr := pkt 3 16
    let x : LodeExt := lx
    let s : State := sLode
    let qu : Nat := 4
    let y : Bool := false
    let o : Bool := false
    let r : LineRef := lrIn sLode
    let r' : LineRef := lrHome
    let i : Nat := 1
    let a : Nat := 0
    let l : Lode := lo
    let v : Line := 5#512
    let f : PktForm := { ok := x.rsvd == 0 && !x.data && !x.dirty && h.len == 16, aligned := x.addr % 64 == 0 }
    ((s.gate h 3 f).2 = .accept qu y o) ∧
    let s1 := (s.gate h 3 f).1.openReq h qu false
    (s1.translate h.deckle .rd [x.addr / 64] = .ok [r]) ∧
    (s1.lodeOf r = some (i, l)) ∧
    (s1.lode.lodes.find i = some l) ∧
    (l.down = none) ∧
    (l.work = []) ∧
    (l.agentOf h.ep = some a) ∧
    (l.dir.find (s1.lodeLine r l) = none) ∧
    let u := s1.atHomeAlone i l (s1.lodeLine r l) h x.addr .rds
    (u.lodeRef l (s1.lodeLine r l) = some r') ∧
    ((u.readLine r' 8).2 = .data v) ∧
    (((u.readLine r' 8).1.route h.ep).isSome) := by decide

theorem witness_LodeRequestsComplete_1 :
    let h : Hdr := pkt 3 16
    let x : LodeExt := lx
    let s : State := sLode
    let qu : Nat := 4
    let y : Bool := false
    let o : Bool := false
    let r : LineRef := lrIn sLode
    let r' : LineRef := lrHome
    let i : Nat := 1
    let a : Nat := 0
    let l : Lode := lo
    let v : Line := 5#512
    let f : PktForm := { ok := x.rsvd == 0 && !x.data && !x.dirty && h.len == 16, aligned := x.addr % 64 == 0 }
    ((s.gate h 3 f).2 = .accept qu y o) ∧
    let s1 := (s.gate h 3 f).1.openReq h qu false
    (s1.translate h.deckle .atom [x.addr / 64] = .ok [r]) ∧
    (s1.lodeOf r = some (i, l)) ∧
    (s1.lode.lodes.find i = some l) ∧
    (l.down = none) ∧
    (l.work = []) ∧
    (l.agentOf h.ep = some a) ∧
    (l.dir.find (s1.lodeLine r l) = none) ∧
    let u := s1.atHomeAlone i l (s1.lodeLine r l) h x.addr .rdx
    (u.lodeRef l (s1.lodeLine r l) = some r') ∧
    ((u.readLine r' 8).2 = .data v) ∧
    (((u.readLine r' 8).1.route h.ep).isSome) := by decide

theorem witness_LodeRequestsComplete_2 :
    let h : Hdr := pkt 3 80
    let x : LodeExt := lx
    let data : Line := 9#512
    let s : State := withLode loOwn
    let qu : Nat := 4
    let y : Bool := false
    let o : Bool := false
    let r : LineRef := lrIn sLode
    let r' : LineRef := lrHome
    let i : Nat := 1
    let a : Nat := 0
    let l : Lode := loOwn
    let f : PktForm := { ok := x.rsvd == 0 && !x.data && !x.dirty && h.len == 80, aligned := x.addr % 64 == 0 }
    ((s.gate h 3 f).2 = .accept qu y o) ∧
    let s1 := (s.gate h 3 f).1.openReq h qu false
    (s1.translate h.deckle .wr [x.addr / 64] = .ok [r]) ∧
    (s1.lodeOf r = some (i, l)) ∧
    (s1.lode.lodes.find i = some l) ∧
    (l.down = none) ∧
    (l.work = []) ∧
    (NMap.wf l.dir) ∧
    (l.agentOf h.ep = some a) ∧
    (l.dir.find (s1.lodeLine r l) = some (.ownedExcl a)) ∧
    let u := s1.atHomeAlone i l (s1.lodeLine r l) h x.addr (.wb data)
    (u.lodeRef l (s1.lodeLine r l) = some r') ∧
    let z := u.writeWhole r' data false { ep := h.ep, rtag := h.tag, cls := 8 }
    (z.2 = none) ∧
    ((z.1.route h.ep).isSome) := by decide

theorem witness_LodeRequestsComplete_3 :
    let h : Hdr := pkt 3 80
    let x : LodeExt := { lx with data := true }
    let data : Line := 9#512
    let s : State := withLode loSnoop
    let i : Nat := 1
    let ep : Nat := 3
    let tag : Nat := 10
    let k : Nat := 1
    let b : Option Nat := none
    let l : Lode := loSnoop
    let w : LodeWork := lw
    (s.carries h.port = true) ∧
    (s.bound h.port h.ep = true) ∧
    (h.vc = 3) ∧
    (s.lode.lodes = [(i, l)]) ∧
    (l.down = none) ∧
    (l.work = [w]) ∧
    (w.started = true) ∧
    (w.ans = none) ∧
    (w.snoops = [(h.ep, h.tag, some k), (ep, tag, b)]) ∧
    ((ep, tag) ≠ (h.ep, h.tag)) := by decide

theorem witness_LodeRequestsComplete_4 :
    let i : Nat := 1
    let ep : Nat := 2
    let s : State := withLode loSnoop
    let l : Lode := loSnoop
    let w : LodeWork := lw
    (s.lode.lodes.find i = some l) ∧
    (l.down = none) ∧
    (l.work.find? (fun w => w.snoops.any fun t => t.1 == ep) = some w) := by decide

theorem witness_MemoryJobsComplete_0 :
    let j : Nat := 0
    let s : State := withJob jWr
    let x : Job := jWr
    (s.mem.jobs.find j = some x) ∧
    (x.writes = true) ∧
    (s.mirrors = false) := by decide

theorem witness_MemoryJobsComplete_1 :
    let j : Nat := 0
    let flip : Stored := 0#640
    let s : State := withJob jRdOld
    let x : Job := jRdOld
    let l : JobLine := jlOld
    let i : Nat := 0
    (s.mem.jobs.find j = some x) ∧
    (x.writes = false) ∧
    (((x.lines.zip (List.range x.lines.length)).find? fun y => !y.1.done && !y.1.lode && y.1.recon.isNone) = some (l, i)) ∧
    (s.blocked j x l = false) ∧
    (s.liveLine l = false) ∧
    (s.mirrors = false) ∧
    (NMap.wf s.mem.jobs) := by decide

theorem witness_MemoryJobsComplete_2 :
    let j : Nat := 0
    let s : State := withJob jRec
    let x : Job := jRec
    let l : JobLine := jlRec
    let i : Nat := 0
    (s.mem.jobs.find j = some x) ∧
    (((x.lines.zip (List.range x.lines.length)).find? fun y => !y.1.done && y.1.recon.isSome) = some (l, i)) ∧
    (s.liveLine l = true) := by decide

theorem witness_MemoryJobsComplete_3 :
    let j : Nat := 0
    let s : State := withJob jWr
    let x : Job := jWr
    (NMap.wf s.mem.jobs) ∧
    (s.mem.jobs.find j = some x) ∧
    (x.lines.all (·.done) = false) ∧
    (s.mirrors = false) := by decide

theorem witness_MemoryJobsComplete_4 :
    let st : Nat := 3
    let s : State := sAsm
    let b : AsmBuf := buf
    (NMap.wf s.mem.asm) ∧
    (s.mem.asm.find st = some b) := by decide

theorem witness_LineReadReturnsData_0 :
    let j : Nat := 0
    let s : State := withJob jRd2
    let x : Job := jRd2
    let l : JobLine := jl
    let i : Nat := 0
    let d : Line := 5#512
    (s.mem.jobs.find j = some x) ∧
    (x.writes = false) ∧
    (((x.lines.zip (List.range x.lines.length)).find? fun y => !y.1.done && !y.1.lode && y.1.recon.isNone) = some (l, i)) ∧
    (s.blocked j x l = false) ∧
    (s.liveLine l = true) ∧
    ((x.lines.drop (i + 1)).any (fun k => !k.done) = true) ∧
    (((s.flipLine l 0#640).chargeTier x.deckle (x.cls + 8) l.tier (readPj l.tier) 1).firstRead (l.ref (s.isMir l.extent) x.deckle) = (.data d, false)) := by decide

theorem witness_StoredLineReadsBack_0 :
    let s : State := up
    let t : Tier := .t1
    let line : Nat := 4000
    let c : Cell := newCell
    (NMap.wf s.mem.cells) := by decide

theorem witness_StoredLineReadsBack_1 :
    let s : State := up
    let r : LineRef := ref2
    let data : Line := 6#512
    let full : Bool := false
    let o : Origin := {}
    (NMap.wf s.mem.cells) ∧
    (s.mem.migr.find r.extent = none) := by decide

theorem witness_MigrationCommandsComplete_0 :
    let q : Req := ten (extentMigrateCmd pMig up).len
    let p : MigrateP := pMig
    let hint : Nat := 500
    let s : State := up
    let e : Extent := ext 200 2 1
    (s.passes (extentMigrateCmd p s) q (extentMigrateChecks q p hint)) ∧
    ((s.acting (extentMigrateCmd p s) q).part.extents.find p.extent = some e) := by decide

theorem witness_MigrationCommandsComplete_1 :
    let q : Req := ten (extentMigrateCancelCmd pCan).len
    let p : MigrateP := pCan
    let s : State := withMig mg
    let m : Migration := mg
    (NMap.wf (s.acting (extentMigrateCancelCmd p) q).mem.migr) ∧
    (s.passes (extentMigrateCancelCmd p) q (extentMigrateCancelChecks p)) ∧
    ((s.acting (extentMigrateCancelCmd p) q).mem.migr.find p.extent = some m) ∧
    (m.done = false) := by decide

theorem witness_MigrationCommandsComplete_2 :
    let x : Nat := 2
    let s : State := withMig mg
    let m : Migration := mg
    let e : Extent := ext 200 2 1
    (s.mem.migr.find x = some m) ∧
    (s.part.extents.find x = some e) ∧
    (m.done = false) ∧
    (s.deferStopped = false) := by decide

theorem witness_MigrationCommandsComplete_3 :
    let x : Nat := 2
    let s : State := withMig mgSw
    let m : Migration := mgSw
    let e : Extent := ext 200 2 1
    (NMap.wf s.mem.migr) ∧
    (s.mem.migr.find x = some m) ∧
    (s.part.extents.find x = some e) ∧
    (m.switched = true) ∧
    (s.onOldFrames m e.granules = false) ∧
    (((s.part.deckles.find e.deckle).map fun k => k.oldCopy.isNone).getD true = true) := by decide

theorem witness_TableCommandsComplete_0 :
    let q : Req := ten (tableSyncCmd pSync).len
    let p : SyncP := pSync
    let hint : Nat := 600
    let s : State := emptyTables
    let s' : State := ((emptyTables.acting (tableSyncCmd pSync) (ten (tableSyncCmd pSync).len)).sync (ten (tableSyncCmd pSync).len) pSync 600 (emptyTables.replyOf (tableSyncCmd pSync) (ten (tableSyncCmd pSync).len))).1
    (s.passes (tableSyncCmd p) q (tableSyncChecks p)) ∧
    ((s.acting (tableSyncCmd p) q).sync q p hint (s.replyOf (tableSyncCmd p) q) = (s', none)) := by decide

theorem witness_TableCommandsComplete_1 :
    let d : Nat := 1
    let s : State := sOld
    let k : Deckle := dOld
    (s.part.deckles.find d = some k) ∧
    (k.oldCopy.isSome = true) := by decide

theorem witness_TableCommandsComplete_2 :
    let q : Req := ten (tableReadbackCmd pBack).len
    let p : ReadbackP := pBack
    let s : State := up
    let k : Deckle := deckle 2
    (s.passes (tableReadbackCmd p) q (tableReadbackChecks p)) ∧
    ((s.acting (tableReadbackCmd p) q).part.deckles.find p.deckle = some k) := by decide

theorem witness_FaultCommandsComplete_0 :
    let core : Nat := 0
    let unit : Nat := 0
    let slot : Nat := 0
    let s : State := up
    (s.pkg.tripped = false) := by decide

theorem witness_FaultCommandsComplete_1 :
    let core : Nat := 0
    let unit : Nat := 0
    let slot : Nat := 0
    let s : State := up
    (s.pkg.tripped = false) := by decide

theorem witness_FaultCommandsComplete_2 :
    let q : Req := ten (faultResumeCmd pFault).len
    let p : FaultP := pFault
    let s : State := sFault
    let r : FaultRec := fr
    (s.passes (faultResumeCmd p) q (faultResumeChecks p)) ∧
    ((s.acting (faultResumeCmd p) q).faultNamed p = some r) ∧
    (r.waiters = []) ∧
    (NMap.wf (s.acting (faultResumeCmd p) q).xlat.faults) := by decide

theorem witness_FaultCommandsComplete_3 :
    let q : Req := ten (faultAbortCmd pFault).len
    let p : FaultP := pFault
    let s : State := sFault
    let r : FaultRec := fr
    (s.passes (faultAbortCmd p) q (faultAbortChecks p)) ∧
    ((s.acting (faultAbortCmd p) q).faultNamed p = some r) ∧
    (r.waiters = []) ∧
    (NMap.wf (s.acting (faultAbortCmd p) q).xlat.faults) := by decide

theorem witness_FaultCommandsComplete_4 :
    let f : Nat := 4
    let s : State := sFault
    let r : FaultRec := fr
    (s.xlat.faults.find f = some r) ∧
    (s.hubStopped = false) := by decide

theorem witness_MemoryPacketsComplete_0 :
    let h : Hdr := pkt 0 32
    let m : MemExt := mx 2
    let s : State := up
    let qu : Nat := 4
    let y : Bool := false
    let o : Bool := false
    let refs : List LineRef := refs up (pkt 0 32) .rd (lineRun (mx 2).addr 2)
    ((s.gate h 0 (rdForm h m) (bootRead h m.addr)).2 = .accept qu y o) ∧
    (m.ver = false) ∧
    let s1 := (s.gate h 0 (rdForm h m) (bootRead h m.addr)).1.openReq h qu o
    (s1.translate h.deckle .rd (lineRun m.addr m.lines) = .ok refs) ∧
    (s1.lodeCheck h.ep refs = none) ∧
    (s1.lodesOf refs = []) := by decide

theorem witness_MemoryPacketsComplete_1 :
    let h : Hdr := pkt 0 32
    let m : MemExt := mv
    let s : State := sVer
    let qu : Nat := 4
    let y : Bool := false
    let o : Bool := false
    let hd : Handle := hdv
    let refs : List LineRef := (sVer.versionLines hdv 64 2).getD []
    ((s.gate h 0 (rdForm h { m with ver := true }) (some .notReady)).2 = .accept qu y o) ∧
    let s1 := (s.gate h 0 (rdForm h { m with ver := true }) (some .notReady)).1.openReq h qu o
    (s1.rgn.handles.find m.handle = some hd) ∧
    (hd.deckle = h.deckle) ∧
    (s1.versionLines hd m.addr m.lines = some refs) ∧
    (refs.length = m.lines) ∧
    (s1.versionStatus refs = .ok) ∧
    (s1.lodesOf refs = []) := by decide

theorem witness_MemoryPacketsComplete_2 :
    let h : Hdr := pktW
    let m : MemExt := mx 2
    let data : List Line := [1#512, 2#512]
    let s : State := up
    let qu : Nat := 4
    let y : Bool := false
    let o : Bool := false
    let refs : List LineRef := refs up pktW .wr (lineRun (mx 2).addr 2)
    ((s.gate h 0 (wrForm h m data) (bootWrite h m.addr)).2 = .accept qu y o) ∧
    let s1 := (s.gate h 0 (wrForm h m data) (bootWrite h m.addr)).1.openReq h qu o
    (s1.translate h.deckle .wr (lineRun m.addr m.lines) = .ok refs) ∧
    (s1.lodeCheck h.ep refs = none) ∧
    (s1.lodesOf refs = []) ∧
    (refs.length = data.length) := by decide

theorem witness_MemoryPacketsComplete_3 :
    let h : Hdr := pkt 0 40
    let m : MemExt := mx 0
    let a : BitVec 128 := 1#128
    let b : BitVec 128 := 0#128
    let s : State := up
    let qu : Nat := 4
    let y : Bool := false
    let o : Bool := false
    let refs : List LineRef := refs up (pkt 0 40) .atom [(mx 0).addr / 64]
    ((s.gate h 0 (atomForm h m) (bootRead h m.addr)).2 = .accept qu y o) ∧
    let s1 := (s.gate h 0 (atomForm h m) (bootRead h m.addr)).1.openReq h qu o
    (s1.translate h.deckle .atom [m.addr / 64] = .ok refs) ∧
    (s1.lodeCheck h.ep refs = none) ∧
    (s1.lodesOf refs = []) := by decide

theorem witness_MemoryPacketsComplete_4 :
    let h : Hdr := pktB
    let m : MemExt := mb
    let data : List Line := [1#512]
    let s : State := boot
    let qu : Nat := 4
    let off : Nat := 0
    let y : Bool := false
    let o : Bool := false
    ((s.gate h 0 (wrForm h m data) (bootWrite h m.addr)).2 = .accept qu y o) ∧
    let s1 := (s.gate h 0 (wrForm h m data) (bootWrite h m.addr)).1.openReq h qu o
    (s1.translate h.deckle .wr (lineRun m.addr m.lines) = .window off) ∧
    (s.hub.stagingReady = true) ∧
    (s.hub.verifying = none) ∧
    ((s.hub.loader = none ∨ s.hub.loader = some h.ep)) := by decide

theorem witness_EndpointPacketsComplete_0 :
    let h : Hdr := pkt 0 0
    let s : State := up
    let qu : Nat := 4
    let y : Bool := false
    let o : Bool := false
    ((s.gate h 0 { ok := h.len == 0, bytes := some 0 } (some .notReady)).2 = .accept qu y o) := by decide

theorem witness_EndpointPacketsComplete_1 :
    let ep : Nat := 2
    let tag : Nat := 9
    let s : State := sFence
    let f : Fence := ⟨2, 9, 1, []⟩
    (s.part.fences.find? (fun f => f.ep == ep && f.tag == tag) = some f) ∧
    (f.waits = []) := by decide

theorem witness_EndpointPacketsComplete_2 :
    let port : Nat := 0
    let identity : Nat := 66
    let ep : Nat := 3
    let s : State := up
    let e : Endpoint := ⟨66, 0, []⟩
    (s.carries port = true) ∧
    (s.part.eps.find? (fun e => e.2.identity == identity) = some (ep, e)) ∧
    (e.port = port) := by decide

theorem witness_EndpointPacketsComplete_3 :
    let h : Hdr := { pkt 5 0 with ep := 3 }
    let s : State := sFree
    (NMap.wf s.part.eps) ∧
    (s.carries h.port = true) ∧
    (s.bound h.port h.ep = true) ∧
    (h.vc = 5) ∧
    (h.rsvd = 0) ∧
    (h.len = 0) ∧
    (s.holdsLease h.ep = false) := by decide

theorem witness_EndpointPacketsComplete_4 :
    let port : Nat := 0
    let ep : Nat := 5
    let st : Status := .ok
    let s : State := sClaiming
    (s.carries port = true) ∧
    ((s.port port).claiming = true) := by decide

theorem witness_BundleIssueExecutes_0 :
    let core : Nat := 0
    let engine : Nat := 0
    let w : Nat := 3
    let s : State := sNop
    let k : Work := wLaunch .running
    let b : BitVec 128 := 0#128
    (s.pkg.tripped = false) ∧
    ((s.engine core engine).work = some w) ∧
    (s.eng.work.find w = some k) ∧
    (k.state = .running) ∧
    (k.cause = none) ∧
    ((s.core core).clockTarget = none) ∧
    ((s.engine core engine).ended = false) ∧
    ((s.engine core engine).halting = false) ∧
    ((s.engine core engine).barrier = 0) ∧
    let x := (s.engine core engine).arrive (Config.freeNat (s.free + 50))
    let r := issue x b (s.codeOf k).length (2 ^ 21 * (s.windowsOf core w).length) (s.launchStat w k core engine x) (fun i => Config.freeNat (s.free + i))
    ((s.codeOf k)[x.pc]? = some b) ∧
    (stalls x (slotX b) = false) ∧
    (r.2 = none) := by
  refine ⟨by decide, by decide, by decide, by decide, by decide, by decide, by decide, by decide, by decide, by decide, by decide, ?_⟩
  generalize (fun i => Config.freeNat (sNop.free + i)) = f
  rcases Nat.mod_two_eq_zero_or_one (f 40) with h | h <;> rcases Nat.mod_two_eq_zero_or_one (f 45) with k | k <;>
    (unfold issue; simp only [h, k]; rfl)

theorem witness_EngineEventsComplete_0 :
    let work : Nat := 3
    let core : Nat := 0
    let k : Nat := 0
    let gang : Bool := false
    let s : State := withWork (wLaunch .running) engB
    let w : Work := wLaunch .running
    (s.pkg.tripped = false) ∧
    (s.eng.work.find work = some w) ∧
    (w.cause = none) ∧
    ((∀ e ∈ s.enginesOf work, (gang = true ∨ e / 16 = core) → (s.engine (e / 16) (e % 16)).ended = true ∨ (s.engine (e / 16) (e % 16)).barrier = if gang then 2 else 1)) ∧
    (k ∈ s.enginesOf work) ∧
    ((gang = true ∨ k / 16 = core)) ∧
    ((s.engine (k / 16) (k % 16)).barrier = (if gang then 2 else 1)) := by decide

theorem witness_EngineEventsComplete_1 :
    let core : Nat := 0
    let engine : Nat := 0
    let slot : Nat := 2
    let w : Nat := 3
    let s : State := sStrm (strm true)
    let k : Work := wLaunch .running
    let st : Stream := strm true
    (s.pkg.tripped = false) ∧
    ((s.walkStream core engine slot).streamAt core engine slot = some (w, k, st)) ∧
    (st.core = true) := by decide

theorem witness_EngineEventsComplete_2 :
    let core : Nat := 0
    let engine : Nat := 0
    let slot : Nat := 2
    let w : Nat := 3
    let s : State := sStrm strmP
    let k : Work := wLaunch .running
    let st : Stream := stNow (sStrm strmP)
    let refs : List LineRef := (stNow (sStrm strmP)).refs.getD []
    (s.pkg.tripped = false) ∧
    ((s.walkStream core engine slot).streamAt core engine slot = some (w, k, st)) ∧
    (st.core = false) ∧
    (st.refs = some refs) := by decide

theorem witness_EngineEventsComplete_3 :
    let core : Nat := 0
    let engine : Nat := 0
    let slot : Nat := 2
    let s : State := sStrm strm0
    let st : Stream := strm0
    (s.pkg.tripped = false) ∧
    (NMap.wf (s.engine core engine).slots) ∧
    ((s.engine core engine).slots.find slot = some st) ∧
    (st.tiles = []) ∧
    (s.mirrors = false) := by decide

theorem witness_LaunchCommandsComplete_1 :
    let q : Req := ten (kernelUnloadCmd pUnload).len
    let p : KernelP := pUnload
    let s : State := sKern
    (NMap.wf s.eng.kernels) ∧
    (s.passes (kernelUnloadCmd p) q (kernelUnloadChecks p)) := by decide

theorem witness_LaunchCommandsComplete_2 :
    let h : Hdr := pkt 4 320
    let b : LaunchB := lb
    let q : Nat := 4
    let s : State := sKern
    let s2 : State := ((sKern.workIn (pkt 4 320) 320).admitEnergy 1 10000000).1
    let k : KernelNeeds := ⟨1, 16, true, 2, 10⟩
    let cores : List Nat := [0]
    let y : Bool := false
    (s.workPasses h 320 q) ∧
    let s1 := s.workIn h 320
    let win := if b.windows = 0 then k.windows else b.windows
    let est := (if b.estUj = 0 then k.estUj else b.estUj) * 1000000
    (s1.deckleActive h.deckle = true) ∧
    (s1.launchFields h.deckle b = true) ∧
    (s1.kernelFor h.deckle b.kernel = .ok k) ∧
    (k.lo ≤ b.engines) ∧
    (b.engines ≤ k.hi) ∧
    ((b.gang = true → k.gang = true)) ∧
    (((b.kernel = 6 ∨ b.kernel = 7) → b.windows = 0)) ∧
    ((∀ w ∈ s1.workNamed h.deckle b.cplEp b.ctag, ∀ x b', s1.eng.work.find w = some x → x.body ≠ .launch b')) ∧
    (cores = (if b.gang then maskCores b.coreMask else if b.anyCore then (s1.chooseCore b.engines win).toList else [b.core])) ∧
    (cores ≠ []) ∧
    ((∀ c ∈ cores, (s1.core c).ready = true ∧ win ≤ s1.launchWindows c ∧ s1.queuedOn c < 4096)) ∧
    (s1.admitEnergy h.deckle est = (s2, .go y)) := by
  refine ⟨⟨false, false, by decide⟩, by decide, by decide, rfl, by decide, by decide, by decide, by decide, ?_, by decide, by decide, by decide, by decide⟩
  intro w hw
  exact absurd hw (by decide +revert)

theorem witness_LaunchCommandsComplete_3 :
    let work : Nat := 3
    let s : State := sQueued
    let x : Work := wLaunch .queued
    (s.pkg.tripped = false) ∧
    (s.eng.work.find work = some x) ∧
    (s.startable work x = true) ∧
    (s.outranked work x = false) := by decide

theorem witness_LaunchCommandsComplete_4 :
    let work : Nat := 3
    let s : State := withWork (wLaunch .running) engEnd
    let x : Work := wLaunch .running
    let b : LaunchB := { lb with windows := 2 }
    (s.pkg.tripped = false) ∧
    (NMap.wf s.eng.work) ∧
    (s.eng.work.find work = some x) ∧
    (x.body = .launch b) ∧
    (x.state = .running) ∧
    (LaunchB.builtin b = false) ∧
    ((x.cause.isSome = true ∨ ∀ k ∈ s.enginesOf work, (s.engine (k / 16) (k % 16)).ended = true)) := by decide

theorem witness_LaunchCommandsComplete_5 :
    let work : Nat := 3
    let s : State := sRun
    let x : Work := wLaunch .running
    let b : LaunchB := { lb with windows := 2 }
    (s.eng.work.find work = some x) ∧
    (x.body = .launch b) ∧
    (x.state = .running) ∧
    (x.cause = none) ∧
    (x.ready = none) := by decide

theorem witness_LaunchCommandsComplete_6 :
    let h : Hdr := pkt 4 64
    let b : CancelB := cb
    let q : Nat := 4
    let s : State := sRun
    (s.workPasses h 64 q) ∧
    (b.rsvd = 0) := by
  exact ⟨⟨false, false, by decide⟩, by decide⟩

theorem witness_AttnPoolSetSets_0 :
    let q : Req := op (attnPoolSetCmd pPool).len
    let p : PoolSetP := pPool
    let hint : Nat := 600
    let c : Nat := 5
    let s : State := up
    (s.passes (attnPoolSetCmd p) q (attnPoolSetChecks p)) ∧
    (p.setMax = false) ∧
    (p.setWindows = true) ∧
    (c < 32) := by decide

theorem witness_AttnPoolSetSets_1 :
    let q : Req := op (attnPoolSetCmd pMax).len
    let p : PoolSetP := pMax
    let hint : Nat := 600
    let s : State := up
    let s1 : State := ((up.acting (attnPoolSetCmd pMax) (op (attnPoolSetCmd pMax).len)).setMaxSeq 1 4 600).toOption.getD up
    (s.passes (attnPoolSetCmd p) q (attnPoolSetChecks p)) ∧
    (p.setMax = true) ∧
    ((s.acting (attnPoolSetCmd p) q).setMaxSeq p.deckle p.maxSeq hint = .ok s1) := by decide

theorem witness_AttnMessagesComplete_0 :
    let h : Hdr := pkt 4 128
    let b : AttnOpenB := ao
    let q : Nat := 4
    let s : State := seqs up
    let s2 : State := ((seqs up).workIn (pkt 4 128) 128)
    let y : Bool := false
    (s.workPasses h 128 q) ∧
    let s1 := s.workIn h 128
    (s1.attnAdmits h (.open_ b) b.cplEp (openFields b) (b.ptPva % 64 == 0) (s1.homeFor b).toList = true) ∧
    (s1.admitEnergy h.deckle 0 = (s2, .go y)) := by
  exact ⟨⟨false, false, by decide⟩, by decide, by decide⟩

theorem witness_AttnMessagesComplete_1 :
    let h : Hdr := pkt 4 128
    let b : AttnAppendB := ap
    let q : Nat := 4
    let s : State := seqs up
    let s2 : State := ((seqs up).workIn (pkt 4 128) 128)
    let y : Bool := false
    (s.workPasses h 128 q) ∧
    let s1 := s.workIn h 128
    (s1.attnAdmits h (.append b) b.cplEp (b.rsvd == 0 && b.layer ≤ 255 && 1 ≤ b.nTokens && b.nTokens ≤ 4096 && (b.copy || b.srcPva == 0)) (b.srcPva % 64 == 0) [s1.homeOf h.deckle b.seq] = true) ∧
    (s1.admitEnergy h.deckle (s1.appendEstimate h.deckle b) = (s2, .go y)) := by
  exact ⟨⟨false, false, by decide⟩, by decide, by decide⟩

theorem witness_AttnMessagesComplete_2 :
    let h : Hdr := pkt 4 256
    let b : AttnStepB := asb
    let q : Nat := 4
    let s : State := seqs up
    let s2 : State := ((seqs up).workIn (pkt 4 256) 256)
    let y : Bool := false
    (s.workPasses h (128 + if b.inl then b.inlineLen else 0) q) ∧
    let s1 := s.workIn h (128 + if b.inl then b.inlineLen else 0)
    let cores := stepCores (s1.homeOf h.deckle b.seq) (coreCount b.cores)
    (s1.attnAdmits h (.step b) b.cplEp (b.rsvd == 0 && b.cores ≤ 5 && 1 ≤ b.nQ && b.nQ ≤ 8 && b.engines ≤ 16 && (b.capUs == 0 || (10 ≤ b.capUs && b.capUs ≤ 1000000)) && (!b.inl || b.queryPva == 0) && (!b.outPva || b.outAddr < 2 ^ 56) && b.inlineLen ≤ 3968) (b.queryPva % 64 == 0 && b.outAddr % 64 == 0) cores = true) ∧
    (s1.admitEnergy h.deckle (s1.stepEstimate h.deckle b) = (s2, .go y)) := by
  exact ⟨⟨false, false, by decide⟩, by decide, by decide⟩

theorem witness_AttnMessagesComplete_3 :
    let op : Fin 3 := 0
    let h : Hdr := pkt 4 64
    let b : AttnCloseB := acl
    let q : Nat := 4
    let s : State := seqs up
    let s2 : State := ((seqs up).workIn (pkt 4 64) 64)
    let y : Bool := false
    (s.workPasses h 64 q) ∧
    let s1 := s.workIn h 64
    (s1.attnAdmits h (.close b op) b.cplEp (b.rsvd == 0 && ((op : Nat) == 1 || b.newLength == 0)) true [s1.homeOf h.deckle b.seq] = true) ∧
    (s1.admitEnergy h.deckle 0 = (s2, .go y)) := by
  exact ⟨⟨false, false, by decide⟩, by decide, by decide⟩

theorem witness_AttnMessagesComplete_3a :
    let op : Fin 3 := 1
    let h : Hdr := pkt 4 64
    let b : AttnCloseB := acl
    let q : Nat := 4
    let s : State := seqs up
    let s2 : State := ((seqs up).workIn (pkt 4 64) 64)
    let y : Bool := false
    (s.workPasses h 64 q) ∧
    let s1 := s.workIn h 64
    (s1.attnAdmits h (.close b op) b.cplEp (b.rsvd == 0 && ((op : Nat) == 1 || b.newLength == 0)) true [s1.homeOf h.deckle b.seq] = true) ∧
    (s1.admitEnergy h.deckle 0 = (s2, .go y)) := by
  exact ⟨⟨false, false, by decide⟩, by decide, by decide⟩

theorem witness_AttnMessagesComplete_3b :
    let op : Fin 3 := 2
    let h : Hdr := pkt 4 64
    let b : AttnCloseB := acl
    let q : Nat := 4
    let s : State := seqs up
    let s2 : State := ((seqs up).workIn (pkt 4 64) 64)
    let y : Bool := false
    (s.workPasses h 64 q) ∧
    let s1 := s.workIn h 64
    (s1.attnAdmits h (.close b op) b.cplEp (b.rsvd == 0 && ((op : Nat) == 1 || b.newLength == 0)) true [s1.homeOf h.deckle b.seq] = true) ∧
    (s1.admitEnergy h.deckle 0 = (s2, .go y)) := by
  exact ⟨⟨false, false, by decide⟩, by decide, by decide⟩

theorem witness_AttnTurnsChangeContexts_0 :
    let w : Nat := 3
    let core : Nat := 0
    let s : State := sAttn (.open_ ao)
    let x : Work := wk (.open_ ao) .running
    let b : AttnOpenB := ao
    (x.body = .open_ b) ∧
    (s.attnBad x.deckle x.body = none) ∧
    (s.homeFor b = some core) ∧
    (s.mirrors = false) := by decide

theorem witness_AttnTurnsChangeContexts_1 :
    let w : Nat := 3
    let s : State := sAttn (.close { acl with newLength := 2 } 1)
    let x : Work := wk (.close { acl with newLength := 2 } 1) .running
    let b : AttnCloseB := { acl with newLength := 2 }
    let c : SeqCtx := ctx
    (x.body = .close b 1) ∧
    (s.attnBad x.deckle x.body = none) ∧
    (s.attn.seqs.find b.seq = some c) ∧
    (s.mirrors = false) := by decide

theorem witness_AttnTurnsChangeContexts_2 :
    let w : Nat := 3
    let s : State := sAttn (.close acl 0)
    let x : Work := wk (.close acl 0) .running
    let b : AttnCloseB := acl
    (x.body = .close b 0) ∧
    (s.attnBad x.deckle x.body = none) ∧
    (NMap.wf s.attn.seqs) ∧
    (s.mirrors = false) := by decide

theorem witness_AttnRunsComplete_0 :
    let work : Nat := 3
    let m : Nat := 0
    let s : State := sAttn (.append ap)
    let s1 : State := (((sAttn (.append ap)).touchCtx 1).runAppend (wk (.append ap) .running) ctx ap).1
    let x : Work := wk (.append ap) .running
    let b : AttnAppendB := ap
    let c : SeqCtx := ctx
    (s.pkg.tripped = false) ∧
    (s.eng.work.find work = some x) ∧
    (x.body = .append b) ∧
    (x.cause = none) ∧
    (x.ready = none) ∧
    (x.state = .running) ∧
    (s.waiting (s.firstEngine work x) = false) ∧
    (s.attnBad x.deckle x.body = none) ∧
    (s.seqOf x.deckle b.seq = some c) ∧
    ((s.touchCtx b.seq).runAppend x c b = (s1, .ok m)) := by decide

theorem witness_AttnRunsComplete_1 :
    let work : Nat := 3
    let m : Option Nat := none
    let s : State := sAttn (.step asb)
    let s1 : State := stp.1
    let s2 : State := (stp.1.putOut 3 (wk (.step asb) .running) false 0 area).1
    let x : Work := wk (.step asb) .running
    let b : AttnStepB := asb
    let c : SeqCtx := ctx
    let area : List Line := area
    (s.pkg.tripped = false) ∧
    (s.eng.work.find work = some x) ∧
    (x.body = .step b) ∧
    (x.cause = none) ∧
    (x.ready = none) ∧
    (x.state = .running) ∧
    (s.waiting (s.firstEngine work x) = false) ∧
    (s.attnBad x.deckle x.body = none) ∧
    (s.seqOf x.deckle b.seq = some c) ∧
    ((s.touchCtx b.seq).runStep x c b = (s1, .ok area)) ∧
    (s1.putOut work x b.outPva b.outAddr area = (s2, some m)) := by
  exact ⟨by decide, by decide, by decide, by decide, by decide, by decide, by decide, by decide, by decide, Prod.ext rfl rfl, Prod.ext rfl rfl⟩

theorem witness_FormCommandsComplete_0 :
    let q : Req := exq (mapDefineCmd pMap).len
    let p : MapP := pMap
    let s : State := zed sRgm
    (s.passes (mapDefineCmd p) q (mapDefineChecks p)) := by decide

theorem witness_FormCommandsComplete_1 :
    let q : Req := exq (mapReplaceCmd pMap).len
    let p : MapP := pMap
    let s : State := zed (sForm [])
    (s.passes (mapReplaceCmd p) q (mapReplaceChecks p)) := by decide

theorem witness_FormCommandsComplete_2 :
    let q : Req := ten (mapRetireCmd pRetire).len
    let p : MapRetireP := pRetire
    let s : State := sForm [adp true]
    (NMap.wf s.form.maps) ∧
    (s.passes (mapRetireCmd p) q (mapRetireChecks p)) := by decide

theorem witness_FormCommandsComplete_3 :
    let q : Req := ten (adapterRegisterCmd pAdReg).len
    let p : AdapterP := pAdReg
    let s : State := sAdReg
    let s' : State := ((sAdReg.acting (adapterRegisterCmd pAdReg) (ten (adapterRegisterCmd pAdReg).len)).registerAdapter pAdReg).1
    (s.passes (adapterRegisterCmd p) q adapterRegisterChecks) ∧
    ((s.acting (adapterRegisterCmd p) q).registerAdapter p = (s', some okAns)) := by decide

theorem witness_FormCommandsComplete_4 :
    let q : Req := ten (adapterUnregisterCmd pAd).len
    let p : AdapterP := pAd
    let s : State := sForm [adp true]
    (s.passes (adapterUnregisterCmd p) q (adapterUnregisterChecks p)) := by decide

theorem witness_FormCommandsComplete_5 :
    let q : Req := ten (adapterPinCmd pAd).len
    let p : AdapterP := pAd
    let s : State := sForm [adp false]
    (s.passes (adapterPinCmd p) q (adapterPinChecks p)) := by decide

theorem witness_FormCommandsComplete_6 :
    let q : Req := ten (adapterUnpinCmd pAd).len
    let p : AdapterP := pAd
    let s : State := sForm [adp true]
    (s.passes (adapterUnpinCmd p) q (adapterUnpinChecks p)) := by decide

theorem witness_FormedReadsComplete_0 :
    let mapUid : Nat := 77
    let adapter : Nat := 3
    let layer : Nat := 0
    let tensor : Nat := 1
    let s : State := sPart
    let s1 : State := fpart.1
    let p : CachePart := part0
    let ls : List Line := match fpart.2 with | some (.ok l) => l | _ => []
    (s.pkg.tripped = false) ∧
    (s.form.cache.find? (fun p => !p.loaded && p.mapUid == mapUid && p.adapter == adapter && p.layer == layer && p.tensor == tensor) = some p) ∧
    let s0 := s.trimCache p.bytes
    (s0.loadedBytes (fun _ => true) + p.bytes ≤ s0.cacheBytes) ∧
    (s0.formRead p.owner p.payer 0 (lineRun p.bPva (p.bBytes / 64) ++ lineRun p.aPva (p.aBytes / 64)) = (s1, some (.ok ls))) := by decide

theorem witness_FormedReadsComplete_1 :
    let h : Hdr := h0
    let f : FormProg := prog
    let b : FormBind := fb
    let qu : Nat := 4
    let qq : Nat := 4
    let o : Bool := false
    let y : Bool := false
    let yl : Bool := false
    let s : State := sForm []
    let s2 : State := p0.1
    let s4 : State := (o0.admitEnergy 1 (formEstimate fb prog true)).1
    ((s.gate h 0 { ok := h.len == 64 }).2 = .accept qu y o) ∧
    let s1 := (s.gate h 0 { ok := h.len == 64 }).1.openReq h qu o
    (s1.bindForm h.deckle f = .ok b) ∧
    (s1.police h.port h.deckle h.cls ((formShape f).1 * f.outPitch) = (s2, .accept qq y)) ∧
    let outs := s2.part.eps.upd h.ep fun e => { e with outst := e.outst.map fun (r : OutReq) => if r.tag = h.tag then { r with queue := qq } else r }
    let s3 := { s2 with part := { s2.part with eps := outs } }
    (s3.admitEnergy h.deckle (formEstimate b f true) = (s4, .go yl)) := by decide

theorem witness_FormedReadsComplete_2 :
    let work : Nat := 3
    let tag : Nat := 9
    let bytes : Nat := match fn.2 with | some (.ok b) => b | _ => 0
    let s : State := sRdf
    let s1 : State := fn.1
    let x : Work := wk (.rdf 9 prog fb) .running
    let f : FormProg := prog
    let b : FormBind := fb
    (s.pkg.tripped = false) ∧
    (s.eng.work.find work = some x) ∧
    (x.body = .rdf tag f b) ∧
    (x.cause = none) ∧
    (x.state = .running) ∧
    (x.pos + 1 < formTiles f) ∧
    (s.formNext x.deckle x.cls b f x.pos = (s1, some (.ok bytes))) := by
  exact ⟨by decide, by decide, by decide, by decide, by decide, by decide, Prod.ext rfl rfl⟩

theorem witness_RetrievalCommandsComplete_0 :
    let q : Req := ten (indexDefineCmd pIx).len
    let p : IndexP := pIx
    let s : State := sRgm
    (s.passes (indexDefineCmd p) q (indexDefineChecks p)) := by decide

theorem witness_RetrievalCommandsComplete_1 :
    let q : Req := ten (indexReplaceCmd pIxR).len
    let p : IndexP := pIxR
    let s : State := sIx
    (s.passes (indexReplaceCmd p) q (indexReplaceChecks p)) := by decide

theorem witness_RetrievalCommandsComplete_2 :
    let q : Req := ten (indexRetireCmd pIx0).len
    let p : IndexP := pIx0
    let s : State := sIx
    (NMap.wf s.retr.indexes) ∧
    (s.passes (indexRetireCmd p) q (indexRetireChecks p)) := by decide

theorem witness_RetrievalCommandsComplete_3 :
    let h : Hdr := pkt 4 128
    let t : TopkB := tk
    let b : IndexB := ix
    let r : Option IndexB := none
    let q : Nat := 4
    let y : Bool := false
    let s : State := sIx
    let s2 : State := sIx.workIn (pkt 4 128) 128
    (s.workPasses h 128 q) ∧
    let s1 := s.workIn h 128
    (s1.deckleActive h.deckle = true) ∧
    (s1.topkFields h.deckle t = true) ∧
    (topkAligned t = true) ∧
    (s1.retr.indexes.find t.index = some b) ∧
    ((if t.rescore then s1.retr.indexes.find t.rindex else none) = r) ∧
    ((t.rescore = true → r.isSome = true)) ∧
    (s1.mayQuery h.deckle b = true) ∧
    ((∀ i ∈ r, s1.mayQuery h.deckle i = true)) ∧
    ((t.metric = 2 ↔ b.format = 3)) ∧
    ((∀ i ∈ r, i.format = 1 ∧ i.rows = b.rows ∧ i.idBase = b.idBase)) ∧
    (s1.admitEnergy h.deckle (topkEstimate t b r) = (s2, .go y)) := by
  exact ⟨⟨false, false, by decide⟩, by decide, by decide, by decide, by decide, by decide, by decide, by decide, nofun, by decide, nofun, by decide⟩

theorem witness_RetrievalCommandsComplete_4 :
    let work : Nat := 3
    let n : Nat := 0
    let m : Option Nat := none
    let s : State := sTk
    let s1 : State := rt.1
    let s2 : State := rpo.1
    let x : Work := wk (.topk tk ix none) .running
    let t : TopkB := tk
    let b : IndexB := ix
    let r : Option IndexB := none
    let sc : Scan := rsc
    (s.pkg.tripped = false) ∧
    (s.eng.work.find work = some x) ∧
    (x.body = .topk t b r) ∧
    (x.cause = none) ∧
    (x.ready = none) ∧
    (x.state = .running) ∧
    (s.waiting (s.firstEngine work x) = false) ∧
    (s.runTopk x t b r = (s1, .ok sc, n)) ∧
    (((s1.chargeScores x b (b.rows * t.q)).chargeScores x (r.getD b) (n * t.q)).putOut work x t.outPva t.outAddr (topkOut t b sc) = (s2, some m)) := by decide

theorem witness_CouchCommandsComplete_0 :
    let h : Hdr := pkt 4 192
    let b : CouchB := cbod
    let q : Nat := 4
    let s : State := upz
    (s.workPasses h (64 + if b.inl.isSome then 128 else 0) q) ∧
    let s1 := s.workIn h (64 + if b.inl.isSome then 128 else 0)
    let c := s1.pickChannel h.ep b
    (s1.couchBad h b ((!b.anyChannel || (b.core == 0 && b.channel == 0)) && (b.inl.isNone || b.chainPva == 0)) = none) ∧
    ((s1.chan c.1 c.2).queue.length < 256) ∧
    ((s1.core c.1).ready = true) := by
  exact ⟨⟨false, false, by decide⟩, by decide, by decide, by decide⟩

theorem witness_CouchCommandsComplete_1 :
    let h : Hdr := pkt 4 64
    let b : CouchB := cabt
    let q : Nat := 4
    let s : State := upz
    (s.workPasses h 64 q) ∧
    ((s.workIn h 64).couchBad h b (b.inl.isNone && !b.anyChannel && b.chainPva == 0) = none) := by
  exact ⟨⟨false, false, by decide⟩, by decide⟩

theorem witness_CouchCommandsComplete_2 :
    let core : Nat := 0
    let channel : Nat := 1
    let s : State := sCh ⟨none, [chQ]⟩
    ((s.chan core channel).cur = none) ∧
    (nextChains (s.chan core channel).queue ≠ []) := by decide

theorem witness_CouchCommandsComplete_3 :
    let core : Nat := 0
    let channel : Nat := 1
    let s : State := sCh ⟨some chQ, []⟩
    let s1 : State := ((sCh ⟨some chQ, []⟩).descCheck 1 desc true).1
    let s2 : State := (((sCh ⟨some chQ, []⟩).descCheck 1 desc true).1.admitEnergy 1 (descEstimate desc none)).1
    let k : Chain := chQ
    let d : Desc := desc
    let f : Option (FormProg × FormBind) := none
    let y : Bool := false
    ((s.chan core channel).cur = some k) ∧
    (k.run = none) ∧
    (k.ended < 65535) ∧
    (k.inl = some d) ∧
    (s.descCheck k.deckle d true = (s1, .ok f)) ∧
    (s1.admitEnergy k.deckle (descEstimate d f) = (s2, .go y)) ∧
    ((s2.chan core channel).cur = some k) := by decide

theorem witness_CouchCommandsComplete_4 :
    let core : Nat := 0
    let channel : Nat := 1
    let b : Nat := (sCh ⟨some chN, []⟩).readBytes 1 (200 * 2 ^ 21) 128 |>.2.2
    let s : State := sCh ⟨some chN, []⟩
    let s1 : State := ((sCh ⟨some chN, []⟩).readBytes 1 (200 * 2 ^ 21) 128).1
    let k : Chain := chN
    ((s.chan core channel).cur = some k) ∧
    (k.run = none) ∧
    (k.ended < 65535) ∧
    (k.inl = none) ∧
    (s.readBytes k.deckle k.next 128 = (s1, .ok, b)) := by decide

theorem witness_CouchCommandsComplete_5 :
    let core : Nat := 0
    let channel : Nat := 1
    let tile : Nat := 0
    let s : State := sCh ⟨some chW, []⟩
    let k0 : Chain := chW
    let k : Chain := (sW.runAt 0 1).map (·.1) |>.getD chW
    let r0 : DescRun := rWait
    let r : DescRun := rW
    let a : List LineRef := tlW.1
    let b : List LineRef := tlW.2
    (s.pkg.tripped = false) ∧
    (s.runAt core channel = some (k0, r0)) ∧
    (r0.broken = none) ∧
    ((r0.d.mirRequired = true → s.inSync = true)) ∧
    let s1 := (s.issueTo core channel tile 4).walkTile core channel tile
    (s1.runAt core channel = some (k, r)) ∧
    (r.tiles.find tile = some (.translated a b)) := by decide

theorem witness_CouchCommandsComplete_6 :
    let core : Nat := 0
    let channel : Nat := 1
    let tile : Nat := 0
    let tag : Nat := 6
    let sent : Nat := 100
    let s : State := spush
    let k : Chain := chain (some descE) (some rPush)
    let r : DescRun := rPush
    (s.pkg.tripped = false) ∧
    (s.runAt core channel = some (k, r)) ∧
    (r.tiles.find tile = some (.pushed tag sent)) ∧
    (0 < r.retriesLeft) := by decide

theorem witness_CouchCommandsComplete_7 :
    let core : Nat := 0
    let channel : Nat := 1
    let t : Nat := 0
    let at_ : Nat := 30000000000
    let s : State := sCh ⟨some (chain (some descE) (some rFail)), []⟩
    let k : Chain := chain (some descE) (some rFail)
    let r : DescRun := rFail
    (s.runAt core channel = some (k, r)) ∧
    (r.dueRetry = some (t, at_)) := by decide

theorem witness_CouchCommandsComplete_8 :
    let h : Hdr := rspPkt
    let data : List Line := []
    let key : Nat := chanKey 0 1
    let tile : Nat := 0
    let tag : Nat := 6
    let sent : Nat := 100
    let s : State := spush
    let s0 := s.freeBuf h.port h.vc (Hdr.credits h)
    (s0.carries h.port = true) ∧
    (s0.bound h.port h.ep = true) ∧
    (h.vc = 1) ∧
    (s0.tileOfTag h.ep h.tag = some (key, tile, .pushed tag sent)) := by decide

theorem witness_LinkFlitsComplete_0 :
    let p : Nat := 0
    let s : State := withPort pBy
    ((s.port p).train = .active) ∧
    ((s.port p).rstart = none) ∧
    ((s.port p).replayLeft = []) ∧
    ((if (s.port p).mayNew then s.choose p else none) = none) ∧
    ((s.port p).wantsBypass = true) := by decide

theorem witness_LinkFlitsComplete_1 :
    let p : Nat := 0
    let s : State := withPort pRep
    ((s.port p).train = .active) ∧
    ((s.port p).rstart = none) ∧
    ((s.port p).replayLeft ≠ []) ∧
    ((s.port p).sinceBypass < 16) := by decide

theorem witness_LinkFlitsComplete_2 :
    let p : Nat := 0
    let i : Nat := 0
    let e : Egress := eg 4
    let s : State := withPort { port with txq := [eg 4] }
    ((s.port p).train = .active) ∧
    ((s.port p).rstart = none) ∧
    ((s.port p).replayLeft = []) ∧
    ((s.port p).sinceBypass < 16) ∧
    ((s.port p).mayNew = true) ∧
    (s.choose p = some (i, e)) := by decide

theorem witness_LinkFlitsComplete_3 :
    let p : Nat := 0
    let s : State := withPort port
    ((s.port p).train = .active) ∧
    ((s.port p).rstart = none) ∧
    ((s.port p).replayLeft = []) ∧
    ((if (s.port p).mayNew then s.choose p else none) = none) ∧
    ((s.port p).wantsBypass = false) := by decide

theorem witness_LinkFlitsComplete_4 :
    let p : Nat := 0
    let f : DataFlit := dfl
    let s : State := withPort port
    ((s.port p).hears = true) ∧
    (f.good = true) ∧
    ((s.port p).keyFor f = true) ∧
    (f.seq = (s.port p).rxSeq) := by decide

theorem witness_LinkFlitsComplete_5 :
    let p : Nat := 0
    let s : State := withPort port
    ((s.port p).hears = true) ∧
    ((s.port p).nakSent = none) := by decide

theorem witness_LinkFlitsComplete_7 :
    let p : Nat := 0
    let b : BypassHdr := { bseq := 0, seqd := true }
    let s : State := withPort port
    ((s.port p).train = .active) ∧
    (b.seqd = true) ∧
    (b.bseq = (s.port p).rxB) ∧
    (b.rstart = none) ∧
    (b.back = none) ∧
    (b.mack = none) := by decide

theorem witness_LinkFlitsComplete_8 :
    let p : Nat := 0
    let n : Nat := 1
    let nak : Bool := true
    let b : BypassHdr := { bseq := 0, mack := some (true, 1) }
    let s : State := withPort { port with replay := [flit 0, flit 1], txSeq := 2 }
    ((s.port p).train = .active) ∧
    (b.seqd = false) ∧
    (b.rstart = none) ∧
    (b.back = none) ∧
    (b.mack = some (nak, n)) := by decide

theorem witness_LinkCreditsComplete_0 :
    let p : Nat := 0
    let counts : List Nat := [1, 2, 65535, 0, 0, 1]
    let s : State := withPort port
    ((s.port p).train = .active) := by decide

theorem witness_LinkCreditsComplete_1 :
    let p : Nat := 0
    let counts : List Nat := [1, 2, 65535, 0, 0, 1]
    let s : State := { up with link := { up.link with ports := [(0, { port with train := .start, full := true })] }, sec := Sec.reset }
    ((s.port p).train = .start) ∧
    ((s.port p).full = true) ∧
    (((s.port p).partner.map (·.encCapable)).getD false = false) ∧
    (s.encRequired = false) := by decide

theorem witness_LinkCreditsComplete_2 :
    let p : Nat := 0
    let s : State := withPort { port with owed := [0, 3, 0, 0, 0, 0] }
    ((s.port p).up = true) ∧
    (s.part.bulk = false) ∧
    ((s.port p).owed.any (· != 0) = true) := by decide

theorem witness_LinkTrainingComplete_0 :
    let p : Nat := 0
    let s : State := tr .detect
    ((s.port p).train = .detect) := by decide

theorem witness_LinkTrainingComplete_1 :
    let p : Nat := 0
    let s : State := tr .equalise
    ((s.port p).train = .equalise) := by decide

theorem witness_LinkTrainingComplete_2 :
    let p : Nat := 0
    let passed : Nat := 0x7F
    let s : State := tr .align
    ((s.port p).train = .align) := by decide

theorem witness_LinkTrainingComplete_2a :
    let p : Nat := 0
    let passed : Nat := 0
    let s : State := tr .align
    ((s.port p).train = .align) := by decide

theorem witness_LinkTrainingComplete_3 :
    let p : Nat := 0
    let a : ParamA := pa
    let s : State := tr .param
    ((s.port p).train = .param) ∧
    ((s.port p).gotB = false) := by decide

theorem witness_LinkTrainingComplete_4 :
    let p : Nat := 0
    let ack : Nat := 100
    let replay : Nat := 3
    let down : Nat := 20
    let rsvd : Nat := 0
    let w : Nat := 8
    let g : Nat := 255
    let a : ParamA := pa
    let s : State := spb
    ((s.port p).train = .param) ∧
    ((s.port p).gotA = true) ∧
    ((s.port p).partner = some a) ∧
    (a.linkId ≠ s.linkId p) ∧
    (resolveWidth (min (min 8 a.maxWidth) (if (s.port p).reqWidth = 0 then 8 else (s.port p).reqWidth)) ((s.port p).lanes &&& a.lanes) = some (w, g)) := by decide

theorem witness_LinkTrainingComplete_5 :
    let p : Nat := 0
    let linkId : Nat := 77
    let width : Nat := 4
    let cause : Nat := 1
    let rsvd : Nat := 0
    let s : State := withPort port
    ((s.port p).train = .active) := by decide

theorem witness_LinkTrainingComplete_6 :
    let p : Nat := 0
    let s : State := withPort port
    ((s.port p).train = .active) := by decide

theorem witness_LinkTrainingComplete_7 :
    let p : Nat := 0
    let m : Nat := 0
    let b : Nat := 0
    let rsvd : Nat := 0
    let s : State := withPort { port with train := .start, full := false }
    ((s.port p).train = .start) ∧
    ((s.port p).full = false) := by decide

theorem witness_LinkTrainingComplete_8 :
    let p : Nat := 0
    let s : State := tr .align
    ((s.port p).train = .equalise ∨ (s.port p).train = .align ∨ (s.port p).train = .param ∨ (s.port p).train = .start) := by decide

theorem witness_LinkTrainingComplete_9 :
    let p : Nat := 0
    let lanes : Nat := 3
    let s : State := withPort port
    ((s.port p).train = .active) ∧
    (lanes &&& (s.port p).active ≠ 0) ∧
    (lanes &&& (s.port p).active ≠ (s.port p).active) := by decide

theorem witness_LinkTrainingComplete_10 :
    let p : Nat := 0
    let lane : Nat := 2
    let s : State := withPort port
    ((s.port p).train = .active) ∧
    ((s.port p).active.testBit lane = true) := by decide

theorem witness_LinkTrainingComplete_11 :
    let p : Nat := 0
    let s : State := withPort port
    ((s.port p).train = .active) := by decide

theorem witness_LinkTrainingComplete_12 :
    let p : Nat := 0
    let s : State := tr .down
    ((s.port p).train = .down) := by decide

theorem witness_LinkTimersComplete_0 :
    let p : Nat := 0
    let m : KeyxMsg := kx
    let s : State := withPort port
    ((s.port p).train = .active ∨ (s.port p).train = .keying) ∧
    (s.canKey = true) := by decide

theorem witness_LinkTimersComplete_1 :
    let p : Nat := 0
    let since : Nat := 100
    let s : State := withPort { port with keyx := some 100, train := .keying }
    ((s.port p).keyx = some since) ∧
    (s.part.bulk = false) := by decide

theorem witness_LinkTimersComplete_2 :
    let p : Nat := 0
    let s : State := withPort { port with unacked := 1, unackedAt := 20000000000 }
    ((s.port p).unacked ≠ 0) := by decide

theorem witness_LinkTimersComplete_3 :
    let p : Nat := 0
    let at_ : Nat := 100
    let bypass : Bool := true
    let s : State := withPort { port with bnakSent := some 100 }
    ((if bypass then (s.port p).bnakSent else (s.port p).nakSent) = some at_) := by decide

theorem witness_LinkTimersComplete_3a :
    let p : Nat := 0
    let at_ : Nat := 100
    let bypass : Bool := false
    let s : State := withPort { port with nakSent := some 100 }
    ((if bypass then (s.port p).bnakSent else (s.port p).nakSent) = some at_) := by decide

theorem witness_LinkTimersComplete_4 :
    let p : Nat := 0
    let f : Flit := flit 0
    let fs : List Flit := [flit 1]
    let s : State := withPort { port with replay := [flit 0, flit 1], txSeq := 2 }
    ((s.port p).train = .active) ∧
    ((s.port p).replay = f :: fs) := by decide

theorem witness_LinkTimersComplete_5 :
    let p : Nat := 0
    let at_ : Nat := 100
    let s : State := withPort { port with peerWait := some 100 }
    ((s.port p).peerWait = some at_) := by decide

theorem witness_LinkTimersComplete_6 :
    let p : Nat := 0
    let e : Nat := 9
    let s : State := withPort { port with ownEp := some 9, remoteDeckles := [1] }
    ((s.port p).ownEp = some e) ∧
    ((s.port p).train = .active) := by decide

theorem witness_ReplayStartsAtTheNak_0 :
    let p : Nat := 0
    let n : Nat := 1
    let s : State := withPort { port with replay := [flit 0, flit 1], txSeq := 2 }
    ((∀ f ∈ (s.port p).replay, f.replays + 1 ≤ (s.port p).replayLimit ∧ f.since + 1 ≤ (s.port p).replayLimit)) := by decide

theorem witness_QosCommandsComplete_0 :
    let q : Req := op (queueMapMapCmd pQm).len
    let p : QueueMapP := pQm
    let s : State := up
    (s.passes (queueMapMapCmd p) q (queueMapMapChecks p)) := by decide

theorem witness_QosCommandsComplete_1 :
    let q : Req := op (queueMapWeightCmd pQw).len
    let p : QueueMapP := pQw
    let s : State := up
    (NMap.wf s.cal.weights) ∧
    (s.passes (queueMapWeightCmd p) q (queueMapWeightChecks p)) := by decide

theorem witness_QosCommandsComplete_2 :
    let q : Req := op (shaperSetCmd (pSh false)).len
    let p : BucketP := pSh false
    let s : State := up
    (s.passes (shaperSetCmd p) q (shaperSetChecks p)) := by decide

theorem witness_QosCommandsComplete_2a :
    let q : Req := op (shaperSetCmd (pSh true)).len
    let p : BucketP := pSh true
    let s : State := up
    (s.passes (shaperSetCmd p) q (shaperSetChecks p)) := by decide

theorem witness_QosCommandsComplete_3 :
    let q : Req := op (policerSetCmd (pSh false)).len
    let p : BucketP := pSh false
    let s : State := up
    (s.passes (policerSetCmd p) q (policerSetChecks p)) ∧
    (p.targetDeckle = false) := by decide

theorem witness_QosCommandsComplete_4 :
    let q : Req := op (energySetCmd pEn).len
    let p : EnergyP := pEn
    let s : State := up
    (s.passes (energySetCmd p) q (energySetChecks p)) ∧
    (p.enable = true) := by decide

theorem witness_QosCommandsComplete_4a :
    let q : Req := op (energySetCmd { pEn with resetFill := false }).len
    let p : EnergyP := { pEn with resetFill := false }
    let s : State := up
    (s.passes (energySetCmd p) q (energySetChecks p)) ∧
    (p.enable = true) := by decide

theorem witness_QosCommandsComplete_5 :
    let deckle : Nat := 1
    let w : Nat := 3
    let ws : List Nat := []
    let x : Work := xw
    let s : State := sEw
    (s.energyWaiting deckle = w :: ws) ∧
    (s.eng.work.find w = some x) ∧
    let b := (s.energy deckle).accrue s.now
    (b.colour x.est ≠ .red) := by decide

theorem witness_QosCommandsComplete_6 :
    let q : Req := op (energyReadCmd { deckle := 1, device := false }).len
    let p : EnergyReadP := { deckle := 1, device := false }
    let s : State := up
    (s.passes (energyReadCmd p) q (energyReadChecks p)) := by decide

theorem witness_QosCommandsComplete_6a :
    let q : Req := op (energyReadCmd { deckle := 0, device := true }).len
    let p : EnergyReadP := { deckle := 0, device := true }
    let s : State := up
    (s.passes (energyReadCmd p) q (energyReadChecks p)) := by decide

theorem witness_PowerCommandsComplete_0 :
    let m : Nat := 5
    let n : Nat := 6
    let s : State := up
    (s.fwRuns = true) := by decide

theorem witness_PowerCommandsComplete_1 :
    let coef : List Nat := [1000, 900]
    let s : State := up
    (s.fwRuns = true) := by decide

theorem witness_PowerCommandsComplete_2 :
    let q : Req := op (powerCapCmd { capW := 800, force := false }).len
    let p : PowerCapP := { capW := 800, force := false }
    let s : State := up
    (s.passes (powerCapCmd p) q (powerCapChecks p)) := by decide

theorem witness_PowerCommandsComplete_3 :
    let w : Nat := 1700
    let s : State := up
    (s.inReset = false) ∧
    (1650 < w) := by decide

theorem witness_PowerCommandsComplete_4 :
    let i : Nat := 3
    let v : Nat := 900
    let s : State := up
    (s.inReset = false) ∧
    (i < 96) ∧
    (840 ≤ v) := by decide

theorem witness_PowerCommandsComplete_5 :
    let w : Nat := 1500
    let s : State := { up with hub := { up.hub with phase := .wedged } }
    (s.hubStopped = true) ∧
    (s.cal.capW < w) := by decide

theorem witness_PowerCommandsComplete_6 :
    let p : Nat := 1500
    let st : Nat := 100
    let d : Nat := 200
    let s : State := up
    (s.fwRuns = true) := by decide

theorem witness_PowerCommandsComplete_7 :
    let l : List Nat := [500]
    let s : State := up
    (s.fwRuns = true) := by decide

theorem witness_PowerCommandsComplete_9 :
    let c : Nat := 1
    let s : State := up
    (s.cal.emergency = none) := by decide

theorem witness_TimeCommandsComplete_0 :
    let p : Nat := 0
    let s : State := sLaid masterL
    ((s.port p).train = .active) ∧
    (s.link.ports.has p = true) ∧
    (NMap.wf s.link.ports) ∧
    (s.isMaster = true) := by decide

theorem witness_TimeCommandsComplete_1 :
    let p : Nat := 0
    let s : State := up
    (s.portActive p = true) := by decide

theorem witness_TimeCommandsComplete_2 :
    let p : Nat := 0
    let ta : Nat := 100
    let rt : Nat := 500
    let s : State := up
    (s.portActive p = true) := by decide

theorem witness_TimeCommandsComplete_3 :
    let p : Nat := 0
    let hops : Nat := 1
    let ns : Nat := 500
    let frac : Nat := 3
    let late : Nat := 0
    let s : State := sLaid masterL
    (s.portActive p = true) ∧
    (s.laid.counting = true) ∧
    (s.isMaster = true) := by decide

theorem witness_TimeCommandsComplete_4 :
    let p : Nat := 0
    let hops : Nat := 1
    let ns : Nat := 500
    let frac : Nat := 3
    let late : Nat := 0
    let d : Nat := 655360
    let s : State := withPort { port with delay := some 655360 }
    (s.portActive p = true) ∧
    (s.laid.counting = true) ∧
    (s.isMaster = false) ∧
    (hops < 15) ∧
    (late ≤ 20) ∧
    ((s.modPort p fun x => { x with hops := some hops }).bestUpstream = some p) ∧
    ((s.port p).delay = some d) := by decide

theorem witness_TimeCommandsComplete_5 :
    let s : State := sLocked
    (s.isMaster = false) ∧
    (s.laid.state = .locked) ∧
    (((s.reach (s.laid.syncAt + 3000000)).modPort s.laid.upstream fun x => { x with hops := none }).bestUpstream = none) := by decide

theorem witness_TimeCommandsComplete_6 :
    let n : Nat := 5
    let s : State := sLaid { up.laid with role := .pps, ppsNs := some 5 }
    (s.laid.role = .pps) ∧
    (s.laid.ppsNs = some n) := by decide

theorem witness_TimeCommandsComplete_7 :
    let s : State := up
    (s.laid.counting = true) := by decide

theorem witness_TimeCommandsComplete_8 :
    let q : Req := op timeStatusCmd.len
    let s : State := up
    (s.passes timeStatusCmd q timeStatusChecks) := by decide

theorem witness_TimeCommandsComplete_9 :
    let q : Req := op (timeMasterSetCmd (pTm 1)).len
    let p : TimeMasterP := pTm 1
    let s : State := up
    (s.passes (timeMasterSetCmd p) q (timeMasterSetChecks p)) := by decide

theorem witness_TimeCommandsComplete_9a :
    let q : Req := op (timeMasterSetCmd { pTm 0 with autoPort := true }).len
    let p : TimeMasterP := { pTm 0 with autoPort := true }
    let s : State := up
    (s.passes (timeMasterSetCmd p) q (timeMasterSetChecks p)) := by decide

theorem witness_TimeCommandsComplete_9b :
    let q : Req := op (timeMasterSetCmd { pTm 2 with ppsNs := 77 }).len
    let p : TimeMasterP := { pTm 2 with ppsNs := 77 }
    let s : State := up
    (s.passes (timeMasterSetCmd p) q (timeMasterSetChecks p)) := by decide

theorem witness_LaidCommandsComplete_0 :
    let q : Req := op (laidLoadCmd pLd).len
    let p : LaidLoadP := pLd
    let s : State := sI
    let s' : State := ld.1
    let a : Ans := ld.2.getD okAns
    (s.passes (laidLoadCmd p) q (laidLoadChecks p)) ∧
    ((s.acting (laidLoadCmd p) q).loadLaid p = (s', some a)) ∧
    (a.status = .ok) := by
  exact ⟨by decide, Prod.ext rfl rfl, by decide⟩

theorem witness_LaidCommandsComplete_1 :
    let q : Req := op (laidActivateCmd pAct).len
    let p : LaidActP := pAct
    let s : State := laidSt none none .fresh
    let x : LaidTable := tab .fresh
    (s.passes (laidActivateCmd p) q (laidActivateChecks p)) ∧
    (s.laid.tables.find p.slot = some x) := by decide

theorem witness_LaidCommandsComplete_2 :
    let q : Req := op (laidStopCmd pStop).len
    let p : LaidActP := pStop
    let s : State := laidSt (some 0) none .fresh
    (s.passes (laidStopCmd p) q laidStopChecks) := by decide

theorem witness_LaidCommandsComplete_3 :
    let q : Req := op (laidCancelCmd {}).len
    let p : LaidActP := {}
    let s : State := laidLater
    (s.passes (laidCancelCmd p) q laidCancelChecks) := by decide

theorem witness_LaidCommandsComplete_4 :
    let q : Req := op (laidStatusCmd pStat).len
    let p : LaidStatusP := pStat
    let s : State := laidSt none (some 0) .fresh
    (s.passes (laidStatusCmd p) q (laidStatusChecks p)) := by decide

theorem witness_LaidCommandsComplete_5 :
    let s : State := laidSt none (some 0) .fresh
    let i : Nat := 0
    let x : LaidTable := tab .fresh
    (s.laid.pendSlot = some i) ∧
    (s.laid.tables.find i = some x) := by decide

theorem witness_LaidCommandsComplete_6 :
    let s : State := laidSt (some 0) none dn
    let i : Nat := 0
    let x : LaidTable := tab dn
    (s.activeTable = some (i, x)) ∧
    (x.slotsDone = true) := by decide

theorem witness_LaidCommandsComplete_7 :
    let entry : Nat := 0
    let slot : Nat := 0
    let s : State := laidSt (some 0) none .fresh
    let x : LaidTable := tab .fresh
    let e : LaidEntry := le
    (s.pushEntry entry = some (slot, x, e)) ∧
    ((x.runOf entry).done = false) ∧
    ((x.runOf entry).lead = false) ∧
    (s.pkg.tripped = false) ∧
    let s1 := (s.reachDom (x.slotNs e - x.leadNs)).modEntry slot entry fun r => { r with lead := true }
    (s1.lateness x e (nsTime (x.slotNs e)) e.length = 0) := by decide

theorem witness_LaidCommandsComplete_8 :
    let entry : Nat := 0
    let slot : Nat := 0
    let n : Nat := 65536
    let bytes : Nat := match lt.2 with | some (.ok x) => x.2 | _ => 0
    let s : State := ls0
    let s2 : State := lt.1
    let x : LaidTable := tab .fresh
    let e : LaidEntry := le
    (s.pushEntry entry = some (slot, x, e)) ∧
    ((x.runOf entry).done = false) ∧
    (s.pkg.tripped = false) ∧
    ((s.reachDom (x.slotNs e)).skipReason e (x.runOf entry) = none) ∧
    ((s.reachDom (x.slotNs e)).laidTile x entry e 0 = (s2, some (.ok (n, bytes)))) := by
  exact ⟨by decide, by decide, by decide, by decide, Prod.ext rfl rfl⟩

theorem witness_LaidCommandsComplete_9 :
    let entry : Nat := 0
    let slot : Nat := 0
    let left : Nat := 65536
    let s : State := laidSt (some 0) none (lf 65536)
    let x : LaidTable := tab (lf 65536)
    let e : LaidEntry := le
    (s.pushEntry entry = some (slot, x, e)) ∧
    ((x.runOf entry).left = some left) ∧
    (0 < left) ∧
    ((s.port e.port).train = .active) ∧
    ((s.port e.port).txq.any (fun y => y.queue == 62) = false) ∧
    (s.pkg.tripped = false) ∧
    (s.deckleActive e.deckle = true) ∧
    (s.lateness x e s.laid.time left = 0) := by decide

theorem witness_LaidCommandsComplete_10 :
    let entry : Nat := 0
    let slot : Nat := 0
    let s : State := laidSt (some 0) none (lf 0)
    let x : LaidTable := tab (lf 0)
    let e : LaidEntry := le
    (s.pushEntry entry = some (slot, x, e)) ∧
    ((x.runOf entry).left = some 0) ∧
    ((s.port e.port).train = .active) ∧
    ((s.port e.port).txq.any (fun y => y.queue == 62) = false) ∧
    (s.pkg.tripped = false) := by decide

theorem witness_LaidCommandsComplete_11 :
    let h : Hdr := hIn
    let m : MemExt := mIn
    let data : List Line := [1#512, 2#512]
    let refs : List LineRef := refsIn
    let s : State := upz
    (s.carries h.port = true) ∧
    (h.vc = 2) ∧
    let s0 := s.freeBuf h.port 2 (Hdr.credits h)
    (s0.laidAdmits h (wrForm h m data) = true) ∧
    (s0.translate h.deckle .wr (lineRun m.addr m.lines) = .ok refs) ∧
    (s0.lodeCheck h.ep refs = none) ∧
    (s0.lodesOf refs = []) ∧
    (refs.length = data.length) := by decide

theorem witness_IntegrityCommandsComplete_0 :
    let q : Req := op (scrubCmd pScr).len
    let p : ScrubP := pScr
    let s : State := up
    (s.passes (scrubCmd p) q (scrubChecks p)) := by decide

theorem witness_IntegrityCommandsComplete_1 :
    let n : Nat := 0
    let s : State := sScr
    let w : ScrubRun := ⟨0, pScr⟩
    (NMap.wf s.mem.scrubs) ∧
    (s.mem.scrubs.find n = some w) ∧
    (s.deferStopped = false) := by decide

theorem witness_IntegrityCommandsComplete_2 :
    let q : Req := op (injectCmd pIn).len
    let p : InjectP := pIn
    let s : State := up
    (s.passes (injectCmd p) q (injectChecks p)) := by decide

theorem witness_IntegrityCommandsComplete_3 :
    let q : Req := op (injectCancelCmd pInC).len
    let p : InjectP := pInC
    let s : State := memS fun m => { m with inject := [(unitKey 0 1, ⟨1, none, 1#640⟩)] }
    (s.passes (injectCancelCmd p) q (injectCancelChecks p)) ∧
    (NMap.wf (s.acting (injectCancelCmd p) q).mem.inject) := by decide

theorem witness_IntegrityCommandsComplete_4 :
    let q : Req := op (ceConfigSetCmd pCe).len
    let p : CeP := pCe
    let s : State := up
    (s.passes (ceConfigSetCmd p) q (ceConfigSetChecks p)) := by decide

theorem witness_IntegrityCommandsComplete_5 :
    let q : Req := op (ceConfigFailOutCmd pFo).len
    let p : CeP := pFo
    let s : State := up
    (s.passes (ceConfigFailOutCmd p) q (ceConfigFailOutChecks p)) := by decide

theorem witness_IntegrityCommandsComplete_6 :
    let g : Nat := 0
    let u : Nat := 3
    let s : State := memS fun m => { m with ce := [(unitKey 0 3, ceu)] }
    let x : CeUnit := ceu
    (s.mem.ce.find (unitKey g u) = some x) := by decide

theorem witness_IntegrityCommandsComplete_7 :
    let g : Nat := 0
    let u : Nat := 3
    let s : State := up
    (g < 5) ∧
    ((s.group g).ready = true) ∧
    (u ≤ spareUnit g) := by decide

theorem witness_IntegrityCommandsComplete_8 :
    let q : Req := op rebuildStatusCmd.len
    let s : State := up
    (s.passes rebuildStatusCmd q rebuildStatusChecks) := by decide

theorem witness_IntegrityCommandsComplete_9 :
    let g : Nat := 0
    let s : State := grp fun g => { g with rebuilding := true }
    ((s.group g).rebuilding = true) ∧
    (s.hubStopped = false) ∧
    (s.hub.phase ≠ .activating) := by decide

theorem witness_IntegrityCommandsComplete_10 :
    let g : Nat := 0
    let s : State := up
    ((s.group g).ready = true) ∧
    ((s.group g).sealed = false) ∧
    (s.hubStopped = false) := by decide

theorem witness_IntegrityCommandsComplete_11 :
    let q : Req := op (poisonListCmd ⟨1, 0, 0⟩).len
    let p : PoisonP := ⟨1, 0, 0⟩
    let s : State := up
    (s.passes (poisonListCmd p) q (poisonListChecks p)) := by decide

theorem witness_IntegrityCommandsComplete_12 :
    let s : State := up
    (s.fwRuns = true) ∧
    (s.hub.ready = true) := by decide

theorem witness_SecurityCommandsComplete_0 :
    let q : Req := opr (attestCmd pAt up).len
    let p : AttestP := pAt
    let s : State := up
    (s.passes (attestCmd p s) q (attestChecks q p)) := by decide

theorem witness_SecurityCommandsComplete_1 :
    let q : Req := op (keyRotateDeckleKeyCmd pDk up).len
    let p : KeyP := pDk
    let s : State := up
    (s.passes (keyRotateDeckleKeyCmd p s) q (keyRotateDeckleKeyChecks p)) := by decide

theorem witness_SecurityCommandsComplete_2 :
    let d : Nat := 1
    let s : State := { up with part := { up.part with deckles := [(0, freshDeckle 0 1), (1, { deckle 2 with sweep := some swp, epoch := 1 })] } }
    let k : Deckle := { deckle 2 with sweep := some swp, epoch := 1 }
    let w : Sweep := swp
    (s.part.deckles.find d = some k) ∧
    (k.sweep = some w) ∧
    (s.deferStopped = false) := by decide

theorem witness_SecurityCommandsComplete_3 :
    let q : Req := op (linkRekeyCmd {}).len
    let p : KeyP := {}
    let s : State := up
    (s.passes (linkRekeyCmd p) q linkRekeyChecks) := by decide

theorem witness_SecurityCommandsComplete_4 :
    let q : Req := op (trustAddCmd pTa).len
    let p : KeyP := pTa
    let s : State := up
    (s.passes (trustAddCmd p) q (trustAddChecks p)) := by decide

theorem witness_SecurityCommandsComplete_5 :
    let q : Req := op (trustRemoveCmd { target := 77 }).len
    let p : KeyP := { target := 77 }
    let s : State := up
    (NMap.wf s.link.trust) ∧
    (s.passes (trustRemoveCmd p) q trustRemoveChecks) := by decide

theorem witness_SecurityCommandsComplete_6 :
    let q : Req := op (trustPolicyCmd { strict := true }).len
    let p : KeyP := { strict := true }
    let s : State := up
    (s.passes (trustPolicyCmd p) q trustPolicyChecks) := by decide

theorem witness_SecurityCommandsComplete_7 :
    let q : Req := op (operatorKernelKeyCmd { pubkey := 9 }).len
    let p : KeyP := { pubkey := 9 }
    let s : State := bulkS
    (s.passes (operatorKernelKeyCmd p) q operatorKernelKeyChecks) := by decide

theorem witness_SecurityCommandsComplete_8 :
    let q : Req := op (debugOpenCmd {}).len
    let p : DebugP := {}
    let s : State := up
    (s.passes (debugOpenCmd p) q (debugOpenChecks p)) := by decide

theorem witness_SecurityCommandsComplete_9 :
    let q : Req := opr (debugReadCmd pDbgRead).len
    let p : DebugP := pDbgRead
    let v : Nat := ((ses.acting (debugReadCmd pDbgRead) (opr (debugReadCmd pDbgRead).len)).debugBytes pDbgRead).2.2
    let s : State := ses
    let s1 : State := ((ses.acting (debugReadCmd pDbgRead) (opr (debugReadCmd pDbgRead).len)).debugBytes pDbgRead).1
    (s.passes (debugReadCmd p) q (debugReadChecks p)) ∧
    ((s.acting (debugReadCmd p) q).debugBytes p = (s1, .ok, v)) := by
  exact ⟨by decide, Prod.ext rfl (Prod.ext (by decide) rfl)⟩

theorem witness_SecurityCommandsComplete_10 :
    let q : Req := op debugCloseCmd.len
    let s : State := ses
    (s.passes debugCloseCmd q debugCloseChecks) := by decide

theorem witness_SecurityCommandsComplete_11 :
    let s : State := ses
    let x : DebugS := ⟨30000000000, false⟩
    (s.sec.session = some x) := by decide

theorem witness_SecurityCommandsComplete_12 :
    let q : Req := op (raiseSecCmd pRs).len
    let p : KeyP := pRs
    let s : State := up
    (s.passes (raiseSecCmd p) q (raiseSecChecks p)) := by decide

theorem witness_HubCommandsComplete_1 :
    let q : Req := op (fwActivateCmd pFa bootW).len
    let p : FwP := pFa
    let s : State := bootW
    (s.passes (fwActivateCmd p s) q (fun _ => [])) ∧
    ((s.acting (fwActivateCmd p s) q).underBoot = true) ∧
    (s.hub.verifying = none) ∧
    ((s.hub.loader = none ∨ s.hub.loader = some q.ep)) ∧
    (p.cancel = false) ∧
    (p.imagePva = 0) ∧
    (imageFormOk ((s.acting (fwActivateCmd p s) q).windowBytes 0 4096) p.imageLen = true) := by decide

theorem witness_HubCommandsComplete_2 :
    let q : Req := op (fwActivateCmd {} stg).len
    let p : FwP := {}
    let s : State := stg
    let i : Image := st0
    (s.passes (fwActivateCmd p s) q (fun _ => [])) ∧
    ((s.acting (fwActivateCmd p s) q).underBoot = false) ∧
    (p.imagePva = 0) ∧
    (p.imageLen = 0) ∧
    (p.fillAtStart = false) ∧
    (p.cancel = false) ∧
    (s.hub.staged = some i) ∧
    (s.cal.emergency = none) := by decide

theorem witness_HubCommandsComplete_3 :
    let q : Req := op (fwActivateCmd {cancel := true} stg).len
    let p : FwP := {}
    let s : State := stg
    (s.passes (fwActivateCmd { p with cancel := true } s) q (fun _ => [])) ∧
    ((s.acting (fwActivateCmd { p with cancel := true } s) q).underBoot = false) ∧
    (p.imagePva = 0) ∧
    (p.imageLen = 0) ∧
    (p.fillAtStart = false) := by decide

theorem witness_HubCommandsComplete_5 :
    let q : Req := op fwStatusCmd.len
    let s : State := up
    (s.passes fwStatusCmd q fwStatusChecks) := by decide

theorem witness_HubCommandsComplete_6 :
    let s : State := act
    let a : Activation := ⟨20000000000, none, st0⟩
    (s.hub.activation = some a) ∧
    (s.hub.phase = .activating) := by decide

theorem witness_HubCommandsComplete_7 :
    let s : State := act
    let a : Activation := ⟨20000000000, none, st0⟩
    (s.hub.activation = some a) ∧
    (s.hub.phase = .activating) := by decide

theorem witness_HubCommandsComplete_8 :
    let q : Req := op deviceQueryCmd.len
    let s : State := up
    (s.passes deviceQueryCmd q deviceQueryChecks) := by decide

theorem witness_HubCommandsComplete_9 :
    let q : Req := op (configureCmd dc).len
    let p : DevCfgP := { dc with wedgeMs := 0 }
    let s : State := lone
    (s.passes (configureCmd { p with setProfile := true }) q (configureChecks { p with setProfile := true })) := by decide

theorem witness_HubCommandsComplete_10 :
    let q : Req := op (configureCmd dc).len
    let p : DevCfgP := { dc with bulk := false }
    let s : State := up
    (s.passes (configureCmd { p with setWedge := true }) q (configureChecks { p with setWedge := true })) := by decide

theorem witness_HubCommandsComplete_11 :
    let q : Req := opr (driverAttachAttestOnlyCmd ⟨5, 0⟩ up).len
    let p : AttachP := ⟨5, 0⟩
    let s : State := up
    (s.passes (driverAttachAttestOnlyCmd p s) q (driverAttachAttestOnlyChecks q)) := by decide

theorem witness_HubCommandsComplete_12 :
    let q : Req := opr (driverAttachAdoptCmd ⟨5, 0⟩ up).len
    let p : AttachP := ⟨5, 0⟩
    let s : State := up
    (s.passes (driverAttachAdoptCmd p s) q (driverAttachAdoptChecks q)) := by decide

theorem witness_HubCommandsComplete_13 :
    let q : Req := opr (up.attachCmd ⟨5, 0⟩).len
    let p : AttachP := ⟨5, 0⟩
    let s : State := up
    (s.passes (s.attachCmd p) q (driverAttachAttestOnlyChecks q)) := by decide

theorem witness_HubCommandsComplete_14 :
    let q : Req := op driverDetachCmd.len
    let s : State := up
    (s.passes driverDetachCmd q (driverDetachChecks q)) := by decide

theorem witness_HubCommandsComplete_15 :
    let s : State := up
    (s.hub.driver.isSome = true) ∧
    (s.hubStopped = false) := by decide

theorem witness_WedgeAndBedrockComplete_0 :
    let s : State := up
    (s.fwRuns = true) := by decide

theorem witness_WedgeAndBedrockComplete_1 :
    let s : State := wed
    (s.hub.phase = .wedged) ∧
    (s.hub.dumping.isSome = true) ∧
    (s.hub.resetAfterDump = false) := by decide

theorem witness_WedgeAndBedrockComplete_2 :
    let s : State := wed2
    let d : Nat := 5
    (s.hub.dumpDone = some d) ∧
    (s.hub.phase = .wedged) ∧
    (s.hub.wedgeMs ≠ 0) := by decide

theorem witness_WedgeAndBedrockComplete_3 :
    let s : State := hubS fun h => { h with phase := .restarting, ready := false }
    (s.hub.phase = .restarting) := by decide

theorem witness_WedgeAndBedrockComplete_4 :
    let q : Req := op brStatusCmd.len
    let s : State := up
    (s.passesBr brStatusCmd q) := by decide

theorem witness_WedgeAndBedrockComplete_5 :
    let q : Req := op 8
    let p : BrP := {}
    let s : State := up
    (s.passesBr (brDumpCmd p) q) ∧
    (p.word % 128 = 0) ∧
    (p.word < 67108864) := by decide

theorem witness_WedgeAndBedrockComplete_6 :
    let q : Req := op 8
    let p : BrP := {}
    let s : State := up
    (s.passesBr (brDumpReadCmd p) q) ∧
    (p.word % 128 = 0) ∧
    (p.word < 67108864) := by decide

theorem witness_WedgeAndBedrockComplete_6a :
    let q : Req := op 8
    let p : BrP := {}
    let s : State := hubS fun h => { h with dumpValid := true }
    (s.passesBr (brDumpReadCmd p) q) ∧
    (p.word % 128 = 0) ∧
    (p.word < 67108864) := by decide

theorem witness_WedgeAndBedrockComplete_7 :
    let q : Req := op 8
    let p : BrP := {}
    let s : State := hubS fun h => { h with dumpValid := true }
    (s.passesBr (brDumpClearCmd p) q) ∧
    (p.word % 128 = 0) ∧
    (p.word < 67108864) := by decide

theorem witness_WedgeAndBedrockComplete_8 :
    let q : Req := op 8
    let p : BrP := { word := 0x5A45524F }
    let s : State := up
    (s.passesBr (brZeroiseCmd p) q) ∧
    (p.word = 0x5A45524F) := by decide

theorem witness_WedgeAndBedrockComplete_9 :
    let q : Req := op 8
    let p : BrP := {}
    let s : State := up
    (s.passesBr (brResetHubCmd p) q) ∧
    (p.word = 0) ∧
    (s.hub.phase = .running ∨ s.hub.phase = .activating) := by decide

theorem witness_WedgeAndBedrockComplete_10 :
    let q : Req := op 8
    let p : BrP := {}
    let s : State := up
    (s.passesBr (brResetDeviceCmd p) q) ∧
    (p.word = 0) := by decide

theorem witness_ResetAndTripComplete_1 :
    let s : State := State.reset
    (s.pkg.coldLow = true) := by decide

theorem witness_ResetAndTripComplete_2 :
    let s : State := up
    (s.pkg.coldLow = false) ∧
    (s.pkg.tripped = false) := by decide

theorem witness_ResetAndTripComplete_3 :
    let s : State := pkgS fun p => { p with warmLow := true }
    (s.pkg.warmLow = true) := by decide

theorem witness_ResetAndTripComplete_4 :
    let i : Nat := 3
    let v : Nat := 950
    let s : State := up
    (i < 96) ∧
    (920 ≤ v) ∧
    (s.pkg.tripped = false) ∧
    (s.pkg.coldLow = false) := by decide

theorem witness_ResetAndTripComplete_5 :
    let c : Nat := 1
    let r : Nat := 0
    let v : Nat := 900
    let s : State := up
    (1 ≤ c) ∧
    (c ≤ 3) ∧
    (s.pkg.tripped = false) ∧
    (s.pkg.coldLow = false) := by decide

theorem witness_ReadinessCompletes_0 :
    let s : State := { up with laid := Laid.reset, pkg := { up.pkg with pll := false } }
    (s.inReset = false) ∧
    (s.laid.counting = false) := by decide

theorem witness_ReadinessCompletes_1 :
    let s : State := hubS fun h => { h with stagingReady := false }
    (s.inReset = false) ∧
    (s.hub.stagingReady = false) := by decide

theorem witness_ReadinessCompletes_2 :
    let s : State := hubS fun h => { h with bedrockReady := false }
    (s.inReset = false) ∧
    (s.hub.bedrockReady = false) := by decide

theorem witness_ReadinessCompletes_3 :
    let s : State := hubS fun h => { h with ready := false }
    (s.fwRuns = true) ∧
    (s.hub.ready = false) := by decide

theorem witness_ReadinessCompletes_4 :
    let s : State := { up with sec := { Sec.reset with lastKey := 2, keys := [1,2] } }
    (s.hub.running.isSome = true) ∧
    (s.sec.ready = false) ∧
    (s.hub.phase ≠ .zeroised) ∧
    (s.pkg.tripped = false) := by decide

theorem witness_ReadinessCompletes_5 :
    let c : Nat := 7
    let s : State := up
    (s.hub.running.isSome = true) ∧
    (c < 32) ∧
    ((s.core c).ready = false) ∧
    (s.pkg.tripped = false) := by decide

theorem witness_ReadinessCompletes_6 :
    let u : List Nat := [17]
    let s : State := g0n
    (s.hub.running.isSome = true) ∧
    ((s.group 0).ready = false) ∧
    (s.mem.groups.has 0 = true) ∧
    (lostUnits 0 u < 2) ∧
    (s.pkg.tripped = false) := by decide

theorem witness_ReadinessCompletes_6a :
    let u : List Nat := [3]
    let s : State := g0n
    (s.hub.running.isSome = true) ∧
    ((s.group 0).ready = false) ∧
    (s.mem.groups.has 0 = true) ∧
    (lostUnits 0 u < 2) ∧
    (s.pkg.tripped = false) := by decide

theorem witness_ReadinessCompletes_7 :
    let d : Nat := 0
    let u : List Nat := [9]
    let s : State := g1n
    (s.hub.running.isSome = true) ∧
    (s.populated.contains d = true) ∧
    ((s.group (d + 1)).ready = false) ∧
    (s.mem.groups.has (d + 1) = true) ∧
    (s.mem.farFailed.contains d = false) ∧
    (s.farLegal d = true) ∧
    (lostUnits (d + 1) u < 2) ∧
    (s.pkg.tripped = false) := by decide

theorem witness_SidebandCommandsComplete_0 :
    let s : State := { up with mbx := { up.mbx with i3c := [ri] } }
    let r : MbxRsp := ri
    let l : List MbxRsp := []
    (s.mbx.i3c = r :: l) := by decide

theorem witness_SidebandCommandsComplete_1 :
    let a : Nat := 200
    let s : State := up
    (s.hub.bedrockReady = true) := by decide

theorem witness_SidebandCommandsComplete_9 :
    let ms : Nat := 2000
    let n : Nat := 2000
    let s : State := up
    (s.fwRuns = true) ∧
    (s.hub.ready = true) ∧
    (debugMs ms = some n) ∧
    (s.sec.session = none) := by decide

theorem witness_SidebandCommandsComplete_12 :
    let die : Nat := 3
    let mv : Nat := 700
    let s : State := pkgS fun p => { p with vsetWait := [(3, 700)] }
    (NMap.wf s.pkg.vsetWait) ∧
    (s.pkg.vsetWait.find die = some mv) := by decide

theorem witness_PairCommandsComplete_0 :
    let q : Req := op (pairArmCmd pArm).len
    let p : PairP := pArm
    let s : State := loneP id
    (s.passes (pairArmCmd p) q (pairArmChecks p)) := by decide

theorem witness_PairCommandsComplete_1 :
    let q : Req := op (pairFormCmd pArm).len
    let p : PairP := pArm
    let s : State := sForm'
    (s.passes (pairFormCmd p) q (pairFormChecks p)) := by decide

theorem witness_PairCommandsComplete_2 :
    let q : Req := op (pairDissolveCmd {}).len
    let p : PairP := {}
    let s : State := actS id
    (s.passes (pairDissolveCmd p) q pairDissolveChecks) := by decide

theorem witness_PairCommandsComplete_3 :
    let s : State := pairS fun p => { p with state := .armed }
    (s.pair.state = .armed) := by decide

theorem witness_PairCommandsComplete_4 :
    let q : Req := op pairStatusCmd.len
    let s : State := actS id
    (s.passes pairStatusCmd q pairStatusChecks) := by decide

theorem witness_PairCommandsComplete_5 :
    let q : Req := op healthReportCmd.len
    let s : State := actS id
    (s.passes healthReportCmd q healthReportChecks) := by decide

theorem witness_PairCommandsComplete_6 :
    let q : Req := op (witnessSetCmd pW).len
    let p : WitnessP := pW
    let s : State := actS id
    (s.passes (witnessSetCmd p) q (witnessSetChecks p)) := by decide

theorem witness_PairCommandsComplete_7 :
    let q : Req := op (witnessReportCmd { lost := true, lostNs := 9 }).len
    let p : WitnessP := { lost := true, lostNs := 9 }
    let s : State := sWit
    (s.passes (witnessReportCmd p) q (witnessReportChecks q)) := by decide

theorem witness_PairCommandsComplete_7a :
    let q : Req := op (witnessReportCmd { lost := true, lostNs := 9 }).len
    let p : WitnessP := { lost := true, lostNs := 9 }
    let s : State := actS fun p => { p with witnesses := [⟨1, false, 0, 0⟩] }
    (s.passes (witnessReportCmd p) q (witnessReportChecks q)) := by decide

theorem witness_PairCommandsComplete_8 :
    let q : Req := op (failoverHandoverCmd {}).len
    let p : FailoverP := {}
    let s : State := actS id
    (s.passes (failoverHandoverCmd p) q (failoverHandoverChecks p)) := by decide

theorem witness_PairCommandsComplete_9 :
    let q : Req := op (failoverForceCmd {}).len
    let p : FailoverP := {}
    let s : State := stbS fun p => { p with detached := true, state := .linkLost }
    (s.passes (failoverForceCmd p) q failoverForceChecks) := by decide

theorem witness_PairCommandsComplete_10 :
    let q : Req := op brFailoverOutCmd.len
    let s : State := actS id
    (s.passesBr brFailoverOutCmd q) ∧
    (s.pair.role = .active) := by decide

theorem witness_PairTimersComplete_0 :
    let s : State := stbS id
    (s.pair.role = .standby) := by decide

theorem witness_PairTimersComplete_1 :
    let s : State := actS id
    (s.pair.role = .active) := by decide

theorem witness_PairTimersComplete_2 :
    let pass : Bool := true
    let s : State := stbS id
    (s.pair.role = .standby) := by decide

theorem witness_PairTimersComplete_2a :
    let pass : Bool := false
    let s : State := stbS id
    (s.pair.role = .standby) := by decide

theorem witness_PairTimersComplete_3 :
    let core : Nat := 40
    let pass : Bool := false
    let s : State := stbS id
    (s.pair.role = .standby) := by decide

theorem witness_PairTimersComplete_4 :
    let s : State := sHand
    let at_ : Nat := 20000001000
    (s.pair.handover = some at_) ∧
    (s.pair.handed = false) ∧
    (s.pair.role = .active) := by decide

theorem witness_PairTimersComplete_5 :
    let s : State := sProm
    let c : Nat := 1
    let g : Bool := true
    (s.pair.promoting = some (c, g)) := by decide

theorem witness_PairTimersComplete_6 :
    let s : State := stbS fun p => { p with ackOwed := true, owedAt := 20000000000 }
    (s.pair.role = .standby) ∧
    (s.applyAll.pair.ackOwed = true) := by decide

theorem witness_PairTimersComplete_7 :
    let s : State := actS fun p => { p with state := .syncing, copyStart := 20000000000 }
    (s.pair.role = .active) ∧
    (s.pair.state = .syncing) ∧
    (s.hubStopped = false) ∧
    (s.hub.phase ≠ .activating) ∧
    (s.copyRate ≠ 0) := by decide

theorem witness_PairTimersComplete_8 :
    let s : State := actS id
    (s.paired = true) := by decide

theorem witness_PairTimersComplete_9 :
    let s : State := actS id
    (s.paired = true) ∧
    (s.pair.role = .active) ∧
    (s.pair.state ≠ .linkLost) := by decide

theorem witness_PairTimersComplete_10 :
    let s : State := stbS id
    (s.pair.role = .standby) ∧
    (s.pair.state = .inSync) := by decide

theorem witness_PairTimersComplete_11 :
    let s : State := actS fun p => { p with retained := [⟨1, .mirAck 1, 62⟩], mseq := 1 }
    (s.mirrors = true) ∧
    (s.pair.retained ≠ []) := by decide

theorem witness_PairMessagesComplete_0 :
    let p : Nat := 62
    let s : State := actS id
    (isPairPort p = true) ∧
    ((s.port p).train = .active) := by decide

theorem witness_PairMessagesComplete_1 :
    let p : Nat := 62
    let s : State := stbS id
    (isPairPort p = true) ∧
    let x : MirExt := { mseq := 1, phys := 0 }
    let l : List MirLine := [mln]
    (s.takesRecords = true) ∧
    (1 ≤ l.length) ∧
    (l.length ≤ 57) := by decide

theorem witness_PairMessagesComplete_2 :
    let p : Nat := 62
    let s : State := stbS id
    (isPairPort p = true) ∧
    let x : MirExt := { mseq := 1 }
    let r : MetaRec := .granule 5 none
    (s.takesRecords = true) := by decide

theorem witness_PairMessagesComplete_3 :
    let p : Nat := 62
    let s : State := sRetain
    (isPairPort p = true) ∧
    let n : Nat := 1
    (s.pair.role = .active) ∧
    (s.pair.acked < n) ∧
    (n ≤ s.pair.mseq) := by decide

theorem witness_PairMessagesComplete_4 :
    let p : Nat := 62
    let s : State := actS id
    (isPairPort p = true) ∧
    let x : MirExt := { term := 3 }
    (s.pair.role = .active) ∧
    (s.pair.term < x.term) ∧
    (s.pair.handed = false) := by decide

theorem witness_PairMessagesComplete_5 :
    let p : Nat := 62
    let s : State := stbS id
    (isPairPort p = true) ∧
    let x : MirExt := { solo := true }
    (s.pair.role = .standby) ∧
    (x.promote = false) := by decide

theorem witness_PairMessagesComplete_5a :
    let p : Nat := 62
    let s : State := stbS id
    (isPairPort p = true) ∧
    let x : MirExt := { solo := false }
    (s.pair.role = .standby) ∧
    (x.promote = false) := by decide

theorem witness_PairMessagesComplete_6 :
    let p : Nat := 62
    let s : State := actS id
    (isPairPort p = true) ∧
    let d : Nat := 1
    let g : Nat := 1
    let x : MirExt := { phys := 200 * 2 ^ 21 }
    (s.paired = true) := by decide

theorem witness_PairMessagesComplete_7 :
    let p : Nat := 62
    let s : State := actS fun p => { p with fetches := [⟨.t1, 7⟩] }
    (isPairPort p = true) ∧
    let x : MirExt := { phys := 7 * 64 }
    let st : Status := .ok
    let l : MirLine := mln
    ((s.pair.fetches.any fun f => f.tier == x.tier && f.line == x.phys / 64) = true) ∧
    ((s.freeBuf p 1 (cdiv 128 64)).refAt x.tier (x.phys / 64) = none) := by decide

theorem witness_PairMessagesComplete_8 :
    let p : Nat := 62
    let s : State := pairS id
    (isPairPort p = true) ∧
    let x : MirExt := {}
    let i : PartnerInfo := pinfo
    (s.unpaired = true) ∧
    (s.partnerOn p i.linkId = true) := by decide

theorem witness_PairMessagesComplete_9 :
    let p : Nat := 62
    let s : State := sArmed
    (isPairPort p = true) ∧
    let x : MirExt := { term := 4 }
    let i : PartnerInfo := pinfo
    (s.pair.state = .armed) ∧
    (s.pair.partnerId / 64 = i.linkId / 64) := by decide

theorem witness_PairMessagesComplete_10 :
    let p : Nat := 62
    let s : State := pairS fun p => { p with reply := some 3, partner := some pinfo, partnerId := pid }
    (isPairPort p = true) ∧
    let x : MirExt := {}
    let i : PartnerInfo := pinfo
    let r : Nat := 3
    (s.pair.role = .none) ∧
    (s.pair.reply = some r) := by decide

theorem witness_PairMessagesComplete_11 :
    let p : Nat := 62
    let s : State := stbS id
    (isPairPort p = true) ∧
    let x : MirExt := { mseq := 5 }
    let i : PartnerInfo := pinfo
    (s.applies = true) ∧
    (s.pair.mseq < x.mseq) := by decide

theorem witness_PairMessagesComplete_12 :
    let p : Nat := 62
    let s : State := actS fun p => { p with handed := true, handover := some 5 }
    (isPairPort p = true) ∧
    let x : MirExt := { mseq := 5 }
    let i : PartnerInfo := pinfo
    (s.pair.handed = true) := by decide

theorem witness_PairMessagesComplete_13 :
    let p : Nat := 62
    let s : State := stbS id
    (isPairPort p = true) ∧
    let x : MirExt := { mseq := 5 }
    let i : PartnerInfo := pinfo
    (s.applies = true) := by decide

theorem witness_PairMessagesComplete_14 :
    let p : Nat := 62
    let s : State := stbS fun p => { p with state := .resyncing }
    (isPairPort p = true) ∧
    let x : MirExt := { mseq := 0 }
    let i : PartnerInfo := pinfo
    (s.applies = true) ∧
    (x.mseq ≤ s.pair.mseq) := by decide

theorem witness_PairMessagesComplete_15 :
    let p : Nat := 62
    let s : State := actS id
    (isPairPort p = true) ∧
    let x : MirExt := {}
    let i : PartnerInfo := pinfo
    (s.pair.role = .active) := by decide

theorem witness_MailboxHoldsSixteen_0 :
    let self : Instr := .deviceQuery qf
    let c : Cmd := deviceQueryCmd
    let q : Req := qf
    let checks : State → List Check := deviceQueryChecks
    let act : State → Nat → State × Option Ans := deviceQueryAct qf
    let s : State := full
    (c.code < 0xFF01) ∧
    (s.arrives c q = true) ∧
    ((s.atBox q).servedCheck c q = none) ∧
    ((c.oper = true → q.deckle = 0)) ∧
    (((s.atBox q).isDissolving q.deckle = true → c.query = true)) ∧
    (16 ≤ ((s.atBox q).heldTags q.deckle).length) := by decide

theorem witness_MailboxHoldsSixteen_1 :
    let self : Instr := .deviceQuery (ten 0)
    let c : Cmd := deviceQueryCmd
    let q : Req := ten 0
    let checks : State → List Check := deviceQueryChecks
    let act : State → Nat → State × Option Ans := deviceQueryAct (ten 0)
    let s : State := one
    (c.code < 0xFF01) ∧
    (s.arrives c q = true) ∧
    ((s.atBox q).servedCheck c q = none) ∧
    ((c.oper = true → q.deckle = 0)) ∧
    (((s.atBox q).isDissolving q.deckle = true → c.query = true)) ∧
    (((s.atBox q).heldTags q.deckle).length < 16) ∧
    (q.tag ∈ (s.atBox q).heldTags q.deckle) := by decide

theorem witness_MailboxHoldsSixteen_2 :
    let code : Nat := 1
    let acc : Nat := 5
    let q : Req := ten 0
    let st : Status := .busy
    let dup : Bool := false
    let s : State := one
    (s.pkg.tripped = false) := by decide

theorem witness_MailboxHoldsSixteen_3 :
    let c : Cmd := deviceQueryCmd
    let q : Req := ten 0
    let s : State := up
    (s.admits c q = true) := by decide

theorem witness_MailboxHoldsSixteen_4 :
    let r : Nat := 0
    let a : Ans := okAns
    let o : Outst := { box := 1, req := { ten 0 with tag := 7 }, code := 0x0B03, accepted := 5, progress := .running }
    let s : State := one
    (NMap.wf s.mbx.outst) ∧
    (s.mbx.outst.find r = some o) ∧
    (o.mseq = none) ∧
    (s.hubStopped = false) ∧
    (s.pkg.tripped = false) ∧
    (a.area = 0) := by decide

theorem witness_PairFormRefusesOtherPartners_1 :
    let q : Req := op (pairFormCmd pArm).len
    let p : PairP := pArm
    let s : State := sMis
    let u := s.entry (pairFormCmd p) q
    (s.admits (pairFormCmd p) q = true) ∧
    (s.pkg.tripped = false) ∧
    (firstFail (commonChecks u (pairFormCmd p) q ++ (pairFormChecks p u).take 4) = none) ∧
    ((u.partnerIs fun i => i.bulk == u.pairInfo.bulk) = false) := by decide

theorem witness_MailboxHeaderMustMatch_0 :
    let self : Instr := .deviceQuery qm
    let c : Cmd := deviceQueryCmd
    let q : Req := qm
    let checks : State → List Check := deviceQueryChecks
    let act : State → Nat → State × Option Ans := deviceQueryAct qm
    let s : State := up
    let u := (s.freeReq q).renewDriver q
    (s.pkg.tripped = false) ∧
    (s.mbx.draining = none) ∧
    (q.via = .link) ∧
    ((s.freeReq q).carries q.port = true) ∧
    ((s.freeReq q).bound q.port q.ep = true) ∧
    (s.hub.running.isSome = true) ∧
    (u.isDissolving q.pktDeckle = false) ∧
    (u.accessCheck q.pktDeckle q.ep = none) ∧
    (c.code < 0xFF01) ∧
    (q.pktDeckle ≠ q.deckle) := by decide

theorem witness_MailboxHeaderMustMatch_1 :
    let c : Cmd := brStatusCmd
    let q : Req := ten 0
    let act : State → Nat → State × Option Ans := brStatusAct
    let s : State := up
    let u := s.freeReq q
    (s.pkg.tripped = false) ∧
    (q.via = .link) ∧
    (u.carries q.port = true) ∧
    (u.bound q.port q.ep = true) ∧
    (s.hub.running.isSome = true) ∧
    (u.isDissolving q.pktDeckle = false) ∧
    (u.accessCheck q.pktDeckle q.ep = none) ∧
    (0xFF01 ≤ c.code) ∧
    (q.pktDeckle ≠ 0) := by decide


/-! ## Ill-formed operands and commands, which the check refuses -/

theorem test_illFormed_operand_0 :
    [reqFits { (default : Req) with port := 2 ^ 6 },
     reqFits { (default : Req) with ep := 2 ^ 12 },
     reqFits { (default : Req) with pktDeckle := 2 ^ 12 },
     reqFits { (default : Req) with deckle := 2 ^ 12 },
     reqFits { (default : Req) with tag := 2 ^ 8 },
     reqFits { (default : Req) with plen := 2 ^ 16 },
     reqFits { (default : Req) with paramPva := 2 ^ 56 },
     reqFits { (default : Req) with cookie := 2 ^ 64 },
     reqFits { (default : Req) with resultPva := 2 ^ 56 },
     reqFits { (default : Req) with resultLen := 2 ^ 32 },
     hdrFits { (default : Hdr) with port := 2 ^ 6 },
     hdrFits { (default : Hdr) with vc := 2 ^ 3 },
     hdrFits { (default : Hdr) with ep := 2 ^ 12 },
     hdrFits { (default : Hdr) with deckle := 2 ^ 12 },
     hdrFits { (default : Hdr) with tag := 2 ^ 16 },
     hdrFits { (default : Hdr) with cls := 2 ^ 3 },
     hdrFits { (default : Hdr) with len := 2 ^ 13 },
     memExtFits { (default : MemExt) with addr := 2 ^ 56 },
     memExtFits { (default : MemExt) with addrHi := 2 ^ 8 },
     memExtFits { (default : MemExt) with lines := 2 ^ 7 },
     memExtFits { (default : MemExt) with aop := 2 ^ 2 },
     memExtFits { (default : MemExt) with handle := 2 ^ 32 },
     lodeExtFits { (default : LodeExt) with addr := 2 ^ 56 },
     devCfgPFits { (default : DevCfgP) with wedgeMs := 2 ^ 16 },
     attachPFits { (default : AttachP) with nonce := 2 ^ 256 },
     fwPFits { (default : FwP) with imagePva := 2 ^ 56 },
     fwPFits { (default : FwP) with imageLen := 2 ^ 32 },
     brPFits { (default : BrP) with word := 2 ^ 32 },
     migratePFits { (default : MigrateP) with deckle := 2 ^ 12 },
     migratePFits { (default : MigrateP) with extent := 2 ^ 32 },
     migratePFits { (default : MigrateP) with target := 2 ^ 2 },
     deckleCreatePFits { (default : DeckleCreateP) with deckle := 2 ^ 12 },
     deckleCreatePFits { (default : DeckleCreateP) with ctrlGranules := 2 ^ 16 },
     deckleCreatePFits { (default : DeckleCreateP) with ctrlPva := 2 ^ 56 },
     deckleCreatePFits { (default : DeckleCreateP) with qT1 := 2 ^ 32 },
     deckleCreatePFits { (default : DeckleCreateP) with qT2 := 2 ^ 32 },
     deckleCreatePFits { (default : DeckleCreateP) with qStg := 2 ^ 32 },
     deckleCreatePFits { (default : DeckleCreateP) with qLodeMib := 2 ^ 16 },
     deckleCreatePFits { (default : DeckleCreateP) with epCount := 2 ^ 8 },
     deckleCreatePFits { (default : DeckleCreateP) with leaseMs := 2 ^ 14 }].all (!·) = true := by decide

theorem test_illFormed_operand_1 :
    [deckleCreatePFits { (default : DeckleCreateP) with graceMs := 2 ^ 11 },
     deckleCreatePFits { (default : DeckleCreateP) with kernelKey := 2 ^ 456 },
     deckleCreatePFits { (default : DeckleCreateP) with epList := List.replicate 17 0 },
     deckleCreatePFits { (default : DeckleCreateP) with epList := [4096] },
     quotaPFits { (default : QuotaP) with deckle := 2 ^ 12 },
     quotaPFits { (default : QuotaP) with qT1 := 2 ^ 32 },
     quotaPFits { (default : QuotaP) with qT2 := 2 ^ 32 },
     quotaPFits { (default : QuotaP) with qStg := 2 ^ 32 },
     quotaPFits { (default : QuotaP) with qLodeMib := 2 ^ 16 },
     decklePFits { (default : DeckleP) with deckle := 2 ^ 12 },
     allocPFits { (default : AllocP) with deckle := 2 ^ 12 },
     allocPFits { (default : AllocP) with granules := 2 ^ 16 },
     allocPFits { (default : AllocP) with holder := 2 ^ 12 },
     revokePFits { (default : RevokeP) with deckle := 2 ^ 12 },
     revokePFits { (default : RevokeP) with extent := 2 ^ 32 },
     revokePFits { (default : RevokeP) with timeoutUs := 2 ^ 14 },
     leasePFits { (default : LeaseP) with deckle := 2 ^ 12 },
     leasePFits { (default : LeaseP) with endpoint := 2 ^ 12 },
     leasePFits { (default : LeaseP) with durationMs := 2 ^ 14 },
     leasePFits { (default : LeaseP) with graceMs := 2 ^ 11 },
     regionPFits { (default : RegionP) with deckle := 2 ^ 12 },
     regionPFits { (default : RegionP) with region := 2 ^ 32 },
     regionPFits { (default : RegionP) with segments := 2 ^ 16 },
     regionPFits { (default : RegionP) with segGranules := 2 ^ 16 },
     regionPFits { (default : RegionP) with retainCount := 2 ^ 4 },
     regionPFits { (default : RegionP) with retainMs := 2 ^ 32 },
     draftPFits { (default : DraftP) with deckle := 2 ^ 12 },
     draftPFits { (default : DraftP) with region := 2 ^ 32 },
     draftPFits { (default : DraftP) with draft := 2 ^ 32 },
     draftPFits { (default : DraftP) with base := 2 ^ 48 },
     draftPFits { (default : DraftP) with modes := List.replicate 1025 .zero },
     publishPFits { (default : PublishP) with deckle := 2 ^ 12 },
     publishPFits { (default : PublishP) with region := 2 ^ 32 },
     publishPFits { (default : PublishP) with draft := 2 ^ 32 },
     publishPFits { (default : PublishP) with base := 2 ^ 48 },
     openPFits { (default : OpenP) with deckle := 2 ^ 12 },
     openPFits { (default : OpenP) with region := 2 ^ 32 },
     openPFits { (default : OpenP) with id := 2 ^ 32 },
     openPFits { (default : OpenP) with version := 2 ^ 48 },
     grantPFits { (default : GrantP) with deckle := 2 ^ 12 }].all (!·) = true := by decide

theorem test_illFormed_operand_2 :
    [grantPFits { (default : GrantP) with region := 2 ^ 32 },
     grantPFits { (default : GrantP) with grantee := 2 ^ 12 },
     lodePFits { (default : LodeP) with deckle := 2 ^ 12 },
     lodePFits { (default : LodeP) with extent := 2 ^ 32 },
     lodePFits { (default : LodeP) with offset64k := 2 ^ 20 },
     lodePFits { (default : LodeP) with size64k := 2 ^ 13 },
     lodePFits { (default : LodeP) with snoopUs := 2 ^ 10 },
     lodePFits { (default : LodeP) with lode := 2 ^ 32 },
     lodeMemPFits { (default : LodeMemP) with deckle := 2 ^ 12 },
     lodeMemPFits { (default : LodeMemP) with endpoint := 2 ^ 12 },
     lodeMemPFits { (default : LodeMemP) with lode := 2 ^ 32 },
     salvagePFits { (default : SalvageP) with deckle := 2 ^ 12 },
     salvagePFits { (default : SalvageP) with lode := 2 ^ 32 },
     salvagePFits { (default : SalvageP) with destExtent := 2 ^ 32 },
     salvagePFits { (default : SalvageP) with destOffset := 2 ^ 20 },
     pageEntryFits { (default : PageEntry) with table := 2 ^ 24 },
     pageEntryFits { (default : PageEntry) with level := 2 ^ 3 },
     pageEntryFits { (default : PageEntry) with imagePva := 2 ^ 56 },
     syncPFits { (default : SyncP) with deckle := 2 ^ 12 },
     syncPFits { (default : SyncP) with root := 2 ^ 24 },
     readbackPFits { (default : ReadbackP) with deckle := 2 ^ 12 },
     faultPFits { (default : FaultP) with deckle := 2 ^ 12 },
     faultPFits { (default : FaultP) with fault := 2 ^ 32 },
     kernelPFits { (default : KernelP) with deckle := 2 ^ 12 },
     kernelPFits { (default : KernelP) with imagePva := 2 ^ 56 },
     kernelPFits { (default : KernelP) with imageLen := 2 ^ 32 },
     kernelPFits { (default : KernelP) with handle := 2 ^ 32 },
     launchBFits { (default : LaunchB) with kernel := 2 ^ 32 },
     launchBFits { (default : LaunchB) with core := 2 ^ 5 },
     launchBFits { (default : LaunchB) with engines := 2 ^ 5 },
     launchBFits { (default : LaunchB) with windows := 2 ^ 5 },
     launchBFits { (default : LaunchB) with coreMask := 2 ^ 32 },
     launchBFits { (default : LaunchB) with capUs := 2 ^ 20 },
     launchBFits { (default : LaunchB) with cplEp := 2 ^ 12 },
     launchBFits { (default : LaunchB) with ctag := 2 ^ 32 },
     launchBFits { (default : LaunchB) with estUj := 2 ^ 32 },
     cancelBFits { (default : CancelB) with cplEp := 2 ^ 12 },
     cancelBFits { (default : CancelB) with ctag := 2 ^ 32 },
     poolSetPFits { (default : PoolSetP) with deckle := 2 ^ 12 },
     poolSetPFits { (default : PoolSetP) with windows := 2 ^ 3 }].all (!·) = true := by decide

theorem test_illFormed_operand_3 :
    [poolSetPFits { (default : PoolSetP) with maxSeq := 2 ^ 21 },
     attnOpenBFits { (default : AttnOpenB) with core := 2 ^ 5 },
     attnOpenBFits { (default : AttnOpenB) with headDim := 2 ^ 2 },
     attnOpenBFits { (default : AttnOpenB) with format := 2 ^ 2 },
     attnOpenBFits { (default : AttnOpenB) with kvHeads := 2 ^ 7 },
     attnOpenBFits { (default : AttnOpenB) with group := 2 ^ 5 },
     attnOpenBFits { (default : AttnOpenB) with layers := 2 ^ 9 },
     attnOpenBFits { (default : AttnOpenB) with maxTokens := 2 ^ 21 },
     attnOpenBFits { (default : AttnOpenB) with window := 2 ^ 21 },
     attnOpenBFits { (default : AttnOpenB) with sinks := 2 ^ 11 },
     attnOpenBFits { (default : AttnOpenB) with ptPva := 2 ^ 56 },
     attnOpenBFits { (default : AttnOpenB) with ptStride := 2 ^ 32 },
     attnOpenBFits { (default : AttnOpenB) with cplEp := 2 ^ 12 },
     attnOpenBFits { (default : AttnOpenB) with ctag := 2 ^ 32 },
     attnOpenBFits { (default : AttnOpenB) with posBase := 2 ^ 32 },
     attnAppendBFits { (default : AttnAppendB) with seq := 2 ^ 32 },
     attnAppendBFits { (default : AttnAppendB) with layer := 2 ^ 8 },
     attnAppendBFits { (default : AttnAppendB) with nTokens := 2 ^ 13 },
     attnAppendBFits { (default : AttnAppendB) with srcPva := 2 ^ 56 },
     attnAppendBFits { (default : AttnAppendB) with cplEp := 2 ^ 12 },
     attnAppendBFits { (default : AttnAppendB) with ctag := 2 ^ 32 },
     attnStepBFits { (default : AttnStepB) with cores := 2 ^ 3 },
     attnStepBFits { (default : AttnStepB) with nQ := 2 ^ 4 },
     attnStepBFits { (default : AttnStepB) with seq := 2 ^ 32 },
     attnStepBFits { (default : AttnStepB) with layer := 2 ^ 8 },
     attnStepBFits { (default : AttnStepB) with engines := 2 ^ 5 },
     attnStepBFits { (default : AttnStepB) with capUs := 2 ^ 20 },
     attnStepBFits { (default : AttnStepB) with queryPva := 2 ^ 56 },
     attnStepBFits { (default : AttnStepB) with outAddr := 2 ^ 64 },
     attnStepBFits { (default : AttnStepB) with cplEp := 2 ^ 12 },
     attnStepBFits { (default : AttnStepB) with ctag := 2 ^ 32 },
     attnStepBFits { (default : AttnStepB) with qpos := 2 ^ 32 },
     attnCloseBFits { (default : AttnCloseB) with seq := 2 ^ 32 },
     attnCloseBFits { (default : AttnCloseB) with newLength := 2 ^ 21 },
     attnCloseBFits { (default : AttnCloseB) with cplEp := 2 ^ 12 },
     attnCloseBFits { (default : AttnCloseB) with ctag := 2 ^ 32 },
     pinEntryFits { (default : PinEntry) with region := 2 ^ 32 },
     pinEntryFits { (default : PinEntry) with version := 2 ^ 48 },
     pinEntryFits { (default : PinEntry) with basePva := 2 ^ 56 },
     tensorEntryFits { (default : TensorEntry) with layer := 2 ^ 10 }].all (!·) = true := by decide

theorem test_illFormed_operand_4 :
    [tensorEntryFits { (default : TensorEntry) with tensor := 2 ^ 8 },
     tensorEntryFits { (default : TensorEntry) with pin := 2 ^ 3 },
     tensorEntryFits { (default : TensorEntry) with format := 2 ^ 4 },
     tensorEntryFits { (default : TensorEntry) with rows := 2 ^ 24 },
     tensorEntryFits { (default : TensorEntry) with cols := 2 ^ 24 },
     tensorEntryFits { (default : TensorEntry) with offset := 2 ^ 48 },
     mapPFits { (default : MapP) with magic := 2 ^ 32 },
     mapPFits { (default : MapP) with fmt := 2 ^ 16 },
     mapPFits { (default : MapP) with deckle := 2 ^ 12 },
     mapPFits { (default : MapP) with mapUid := 2 ^ 64 },
     mapPFits { (default : MapP) with slices := 2 ^ 7 },
     mapPFits { (default : MapP) with slice := 2 ^ 6 },
     mapPFits { (default : MapP) with layers := 2 ^ 11 },
     mapRetirePFits { (default : MapRetireP) with deckle := 2 ^ 12 },
     mapRetirePFits { (default : MapRetireP) with mapUid := 2 ^ 64 },
     adapterPFits { (default : AdapterP) with deckle := 2 ^ 12 },
     adapterPFits { (default : AdapterP) with rank := 2 ^ 7 },
     adapterPFits { (default : AdapterP) with adapter := 2 ^ 32 },
     adapterPFits { (default : AdapterP) with mapUid := 2 ^ 64 },
     adapterPFits { (default : AdapterP) with region := 2 ^ 32 },
     adapterPFits { (default : AdapterP) with version := 2 ^ 48 },
     adapterPFits { (default : AdapterP) with entries := 2 ^ 16 },
     adapterPFits { (default : AdapterP) with basePva := 2 ^ 56 },
     adapterPFits { (default : AdapterP) with descOffset := 2 ^ 48 },
     formProgFits { (default : FormProg) with mapUid := 2 ^ 64 },
     formProgFits { (default : FormProg) with layer := 2 ^ 10 },
     formProgFits { (default : FormProg) with tensor := 2 ^ 8 },
     formProgFits { (default : FormProg) with outFmt := 2 ^ 4 },
     formProgFits { (default : FormProg) with adapter := 2 ^ 32 },
     formProgFits { (default : FormProg) with row0 := 2 ^ 24 },
     formProgFits { (default : FormProg) with rows := 2 ^ 16 },
     formProgFits { (default : FormProg) with col0 := 2 ^ 24 },
     formProgFits { (default : FormProg) with cols := 2 ^ 24 },
     formProgFits { (default : FormProg) with outPitch := 2 ^ 17 },
     formProgFits { (default : FormProg) with engines := 2 ^ 5 },
     indexPFits { (default : IndexP) with deckle := 2 ^ 12 },
     indexPFits { (default : IndexP) with format := 2 ^ 2 },
     indexPFits { (default : IndexP) with index := 2 ^ 32 },
     indexPFits { (default : IndexP) with region := 2 ^ 32 },
     indexPFits { (default : IndexP) with version := 2 ^ 48 }].all (!·) = true := by decide

theorem test_illFormed_operand_5 :
    [indexPFits { (default : IndexP) with dim := 2 ^ 13 },
     indexPFits { (default : IndexP) with rows := 2 ^ 32 },
     indexPFits { (default : IndexP) with basePva := 2 ^ 56 },
     indexPFits { (default : IndexP) with offset := 2 ^ 48 },
     indexPFits { (default : IndexP) with idBase := 2 ^ 64 },
     indexPFits { (default : IndexP) with filterPva := 2 ^ 56 },
     topkBFits { (default : TopkB) with metric := 2 ^ 2 },
     topkBFits { (default : TopkB) with cores := 2 ^ 3 },
     topkBFits { (default : TopkB) with firstCore := 2 ^ 5 },
     topkBFits { (default : TopkB) with index := 2 ^ 32 },
     topkBFits { (default : TopkB) with rindex := 2 ^ 32 },
     topkBFits { (default : TopkB) with q := 2 ^ 11 },
     topkBFits { (default : TopkB) with k := 2 ^ 11 },
     topkBFits { (default : TopkB) with cand := 2 ^ 14 },
     topkBFits { (default : TopkB) with engines := 2 ^ 5 },
     topkBFits { (default : TopkB) with capUs := 2 ^ 20 },
     topkBFits { (default : TopkB) with queryPva := 2 ^ 56 },
     topkBFits { (default : TopkB) with qscalePva := 2 ^ 56 },
     topkBFits { (default : TopkB) with rqueryPva := 2 ^ 56 },
     topkBFits { (default : TopkB) with rqscalePva := 2 ^ 56 },
     topkBFits { (default : TopkB) with filterPva := 2 ^ 56 },
     topkBFits { (default : TopkB) with outAddr := 2 ^ 64 },
     topkBFits { (default : TopkB) with cplEp := 2 ^ 12 },
     topkBFits { (default : TopkB) with ctag := 2 ^ 32 },
     descFits { (default : Desc) with srcKind := 2 ^ 2 },
     descFits { (default : Desc) with retries := 2 ^ 3 },
     descFits { (default : Desc) with tag := 2 ^ 32 },
     descFits { (default : Desc) with nextPva := 2 ^ 56 },
     descFits { (default : Desc) with srcAddr := 2 ^ 56 },
     descFits { (default : Desc) with srcLineLen := 2 ^ 25 },
     descFits { (default : Desc) with srcStride := 2 ^ 32 },
     descFits { (default : Desc) with srcLines := 2 ^ 16 },
     descFits { (default : Desc) with remoteEp := 2 ^ 12 },
     descFits { (default : Desc) with remoteDeckle := 2 ^ 12 },
     descFits { (default : Desc) with remoteHandle := 2 ^ 32 },
     descFits { (default : Desc) with dstAddr := 2 ^ 64 },
     descFits { (default : Desc) with dstLineLen := 2 ^ 25 },
     descFits { (default : Desc) with dstStride := 2 ^ 32 },
     descFits { (default : Desc) with dstLines := 2 ^ 16 },
     descFits { (default : Desc) with dstEp := 2 ^ 12 }].all (!·) = true := by decide

theorem test_illFormed_operand_6 :
    [couchBFits { (default : CouchB) with core := 2 ^ 5 },
     couchBFits { (default : CouchB) with channel := 2 ^ 3 },
     couchBFits { (default : CouchB) with chainPva := 2 ^ 56 },
     couchBFits { (default : CouchB) with cplEp := 2 ^ 12 },
     couchBFits { (default : CouchB) with ctag := 2 ^ 32 },
     bypassHdrFits { (default : BypassHdr) with bseq := 2 ^ 8 },
     dataFlitFits { (default : DataFlit) with seq := 2 ^ 16 },
     dataFlitFits { (default : DataFlit) with vc := 2 ^ 3 },
     dataFlitFits { (default : DataFlit) with fill := 2 ^ 8 },
     paramAFits { (default : ParamA) with linkId := 2 ^ 64 },
     paramAFits { (default : ParamA) with lanes := 2 ^ 8 },
     paramAFits { (default : ParamA) with maxWidth := 2 ^ 4 },
     queueMapPFits { (default : QueueMapP) with deckle := 2 ^ 12 },
     queueMapPFits { (default : QueueMapP) with classMask := 2 ^ 8 },
     queueMapPFits { (default : QueueMapP) with queue := 2 ^ 6 },
     queueMapPFits { (default : QueueMapP) with weight := 2 ^ 10 },
     bucketPFits { (default : BucketP) with deckle := 2 ^ 12 },
     bucketPFits { (default : BucketP) with port := 2 ^ 6 },
     bucketPFits { (default : BucketP) with queue := 2 ^ 6 },
     bucketPFits { (default : BucketP) with cir := 2 ^ 24 },
     bucketPFits { (default : BucketP) with pir := 2 ^ 24 },
     bucketPFits { (default : BucketP) with cbs := 2 ^ 32 },
     bucketPFits { (default : BucketP) with pbs := 2 ^ 32 },
     energyPFits { (default : EnergyP) with deckle := 2 ^ 12 },
     energyPFits { (default : EnergyP) with queueLimit := 2 ^ 13 },
     energyPFits { (default : EnergyP) with cerMw := 2 ^ 32 },
     energyPFits { (default : EnergyP) with perMw := 2 ^ 32 },
     energyPFits { (default : EnergyP) with cebUj := 2 ^ 32 },
     energyPFits { (default : EnergyP) with pebUj := 2 ^ 32 },
     energyReadPFits { (default : EnergyReadP) with deckle := 2 ^ 12 },
     powerCapPFits { (default : PowerCapP) with capW := 2 ^ 11 },
     timeMasterPFits { (default : TimeMasterP) with role := 2 ^ 2 },
     timeMasterPFits { (default : TimeMasterP) with port := 2 ^ 6 },
     timeMasterPFits { (default : TimeMasterP) with ppsNs := 2 ^ 64 },
     laidLoadPFits { (default : LaidLoadP) with slot := 2 ^ 1 },
     laidLoadPFits { (default : LaidLoadP) with imagePva := 2 ^ 56 },
     laidLoadPFits { (default : LaidLoadP) with imageLen := 2 ^ 32 },
     laidActPFits { (default : LaidActP) with slot := 2 ^ 1 },
     laidActPFits { (default : LaidActP) with startNs := 2 ^ 64 },
     laidStatusPFits { (default : LaidStatusP) with slot := 2 ^ 1 }].all (!·) = true := by decide

theorem test_illFormed_operand_7 :
    [scrubPFits { (default : ScrubP) with deckle := 2 ^ 12 },
     scrubPFits { (default : ScrubP) with group := 2 ^ 2 },
     scrubPFits { (default : ScrubP) with share := 2 ^ 6 },
     scrubPFits { (default : ScrubP) with start := 2 ^ 56 },
     scrubPFits { (default : ScrubP) with length := 2 ^ 56 },
     injectPFits { (default : InjectP) with group := 2 ^ 3 },
     injectPFits { (default : InjectP) with unit := 2 ^ 5 },
     injectPFits { (default : InjectP) with kind := 2 ^ 2 },
     injectPFits { (default : InjectP) with row := 2 ^ 40 },
     cePFits { (default : CeP) with group := 2 ^ 3 },
     cePFits { (default : CeP) with unit := 2 ^ 5 },
     cePFits { (default : CeP) with bucketSize := 2 ^ 16 },
     cePFits { (default : CeP) with leakMs := 2 ^ 16 },
     cePFits { (default : CeP) with rebuildShare := 2 ^ 7 },
     cePFits { (default : CeP) with sealShare := 2 ^ 7 },
     cePFits { (default : CeP) with failUe := 2 ^ 16 },
     poisonPFits { (default : PoisonP) with deckle := 2 ^ 12 },
     poisonPFits { (default : PoisonP) with extent := 2 ^ 32 },
     pairPFits { (default : PairP) with partnerId := 2 ^ 64 },
     pairPFits { (default : PairP) with resyncShare := 2 ^ 7 },
     witnessPFits { (default : WitnessP) with lostNs := 2 ^ 64 },
     witnessPFits { (default : WitnessP) with witnesses := [4096] },
     failoverPFits { (default : FailoverP) with drainUs := 2 ^ 18 },
     mirExtFits { (default : MirExt) with mseq := 2 ^ 64 },
     mirExtFits { (default : MirExt) with phys := 2 ^ 56 },
     mirExtFits { (default : MirExt) with ep := 2 ^ 12 },
     mirExtFits { (default : MirExt) with rtag := 2 ^ 16 },
     mirExtFits { (default : MirExt) with term := 2 ^ 32 },
     attestPFits { (default : AttestP) with deckle := 2 ^ 12 },
     attestPFits { (default : AttestP) with firstDeckle := 2 ^ 12 },
     attestPFits { (default : AttestP) with nonce := 2 ^ 256 },
     keyPFits { (default : KeyP) with deckle := 2 ^ 12 },
     keyPFits { (default : KeyP) with confirm := 2 ^ 32 },
     keyPFits { (default : KeyP) with target := 2 ^ 64 },
     keyPFits { (default : KeyP) with pubkey := 2 ^ 456 },
     debugPFits { (default : DebugP) with space := 2 ^ 3 },
     debugPFits { (default : DebugP) with tier := 2 ^ 2 },
     debugPFits { (default : DebugP) with deckle := 2 ^ 12 },
     debugPFits { (default : DebugP) with timeoutMs := 2 ^ 32 },
     debugPFits { (default : DebugP) with addr := 2 ^ 56 }].all (!·) = true := by decide

theorem test_illFormed_operand_8 :
    [debugPFits { (default : DebugP) with len := 2 ^ 32 },
     mapPFits { (default : MapP) with pins := List.replicate 16 default },
     mapPFits { (default : MapP) with pins := [{ (default : PinEntry) with region := 2 ^ 32 }] },
     mapPFits { (default : MapP) with tensors := [{ (default : TensorEntry) with layer := 2 ^ 10 }] },
     couchBFits { (default : CouchB) with inl := some { (default : Desc) with tag := 2 ^ 32 } },
     witnessPFits { (default : WitnessP) with witnesses := List.replicate 16 0 },
     syncPFits { (default : SyncP) with entries := [{ (default : PageEntry) with table := 2 ^ 24 }] }].all (!·) = true := by decide

theorem test_illFormed_command_0 :
    [Instr.wf (.dissolveComplete (2 ^ 12)),
     Instr.wf (.lease (2 ^ 6) default default default default),
     Instr.wf (.lease default (2 ^ 12) default default default),
     Instr.wf (.lease default default (2 ^ 12) default default),
     Instr.wf (.leaseDeadline (2 ^ 12) default),
     Instr.wf (.leaseDeadline default (2 ^ 12)),
     Instr.wf (.leaseGraceEnd (2 ^ 12) default),
     Instr.wf (.leaseGraceEnd default (2 ^ 12)),
     Instr.wf (.leaseReclaimDone (2 ^ 12) default),
     Instr.wf (.leaseReclaimDone default (2 ^ 12)),
     Instr.wf (.lodeRecallDone default (2 ^ 12)),
     Instr.wf (.lodeSnoopTimeout default (2 ^ 12)),
     Instr.wf (.tableSyncSwitched (2 ^ 12)),
     Instr.wf (.translationWalkDone (2 ^ 5) default default default),
     Instr.wf (.translationWalkDone default (2 ^ 5) default default),
     Instr.wf (.bundleIssue (2 ^ 5) default),
     Instr.wf (.bundleIssue default (2 ^ 4)),
     Instr.wf (.barrierRelease default (2 ^ 5) default),
     Instr.wf (.streamTileLand (2 ^ 5) default default),
     Instr.wf (.streamTileLand default (2 ^ 4) default),
     Instr.wf (.streamSlotComplete (2 ^ 5) default default),
     Instr.wf (.streamSlotComplete default (2 ^ 4) default),
     Instr.wf (.couchChainStart (2 ^ 5) default),
     Instr.wf (.couchChainStart default (2 ^ 3)),
     Instr.wf (.couchDescStart (2 ^ 5) default),
     Instr.wf (.couchDescStart default (2 ^ 3)),
     Instr.wf (.couchTileDone (2 ^ 5) default default),
     Instr.wf (.couchTileDone default (2 ^ 3) default),
     Instr.wf (.couchTileTimeout (2 ^ 5) default default),
     Instr.wf (.couchTileTimeout default (2 ^ 3) default),
     Instr.wf (.couchRetry (2 ^ 5) default),
     Instr.wf (.couchRetry default (2 ^ 3)),
     Instr.wf (.flitTransmit (2 ^ 6)),
     Instr.wf (.dataFlitReceive (2 ^ 6) default),
     Instr.wf (.idleFlitReceive (2 ^ 6) default),
     Instr.wf (.bypassFlitReceive (2 ^ 6) default default),
     Instr.wf (.credit (2 ^ 6) default),
     Instr.wf (.creditInit (2 ^ 6) default),
     Instr.wf (.retrain (2 ^ 6) default default default default),
     Instr.wf (.retrain default (2 ^ 64) default default default)].all (!·) = true := by decide

theorem test_illFormed_command_1 :
    [Instr.wf (.retrain default default (2 ^ 4) default default),
     Instr.wf (.retrain default default default (2 ^ 4) default),
     Instr.wf (.resume (2 ^ 6) default default default),
     Instr.wf (.resume default (2 ^ 16) default default),
     Instr.wf (.resume default default (2 ^ 8) default),
     Instr.wf (.paramA (2 ^ 6) default),
     Instr.wf (.paramB (2 ^ 6) default default default default),
     Instr.wf (.paramB default (2 ^ 10) default default default),
     Instr.wf (.paramB default default (2 ^ 4) default default),
     Instr.wf (.paramB default default default (2 ^ 10) default),
     Instr.wf (.keyx (2 ^ 6) default),
     Instr.wf (.keyxTimeout (2 ^ 6)),
     Instr.wf (.ackTimerExpire (2 ^ 6)),
     Instr.wf (.nakTimerExpire (2 ^ 6) default),
     Instr.wf (.replayTimerExpire (2 ^ 6) default),
     Instr.wf (.creditReturnTimer (2 ^ 6)),
     Instr.wf (.laneSignalLoss (2 ^ 6) default),
     Instr.wf (.laneSignalLoss default (2 ^ 8)),
     Instr.wf (.laneErrorRate (2 ^ 6) default),
     Instr.wf (.laneErrorRate default (2 ^ 3)),
     Instr.wf (.allLanesSignalLoss (2 ^ 6)),
     Instr.wf (.linkDownWaitExpire (2 ^ 6)),
     Instr.wf (.detectPoll (2 ^ 6) default),
     Instr.wf (.equaliseDone (2 ^ 6)),
     Instr.wf (.alignDone (2 ^ 6) default),
     Instr.wf (.alignDone default (2 ^ 8)),
     Instr.wf (.trainingFail (2 ^ 6)),
     Instr.wf (.peerClaimTimeout (2 ^ 6)),
     Instr.wf (.deviceEndpointLeaseTick (2 ^ 6)),
     Instr.wf (.fenceDone (2 ^ 12) default),
     Instr.wf (.epClaim (2 ^ 6) default default default),
     Instr.wf (.epClaim default (2 ^ 3) default default),
     Instr.wf (.epClaim default default (2 ^ 64) default),
     Instr.wf (.epAssign (2 ^ 6) default default),
     Instr.wf (.epAssign default (2 ^ 12) default),
     Instr.wf (.energyQueueRelease (2 ^ 12)),
     Instr.wf (.timeSync (2 ^ 6) default default default default),
     Instr.wf (.timeSync default (2 ^ 4) default default default),
     Instr.wf (.timeSync default default (2 ^ 64) default default),
     Instr.wf (.timeSync default default default (2 ^ 16) default)].all (!·) = true := by decide

theorem test_illFormed_command_2 :
    [Instr.wf (.pdelayReq (2 ^ 6)),
     Instr.wf (.pdelayResp (2 ^ 6) default default),
     Instr.wf (.pdelayResp default (2 ^ 32) default),
     Instr.wf (.stackTrainingLost (2 ^ 3) default),
     Instr.wf (.stackTrainingLost default (2 ^ 5)),
     Instr.wf (.rebuildDone (2 ^ 3)),
     Instr.wf (.sealDone (2 ^ 3)),
     Instr.wf (.mirData (2 ^ 6) default default),
     Instr.wf (.mirMeta (2 ^ 6) default default),
     Instr.wf (.mirAck (2 ^ 6) default),
     Instr.wf (.mirAck default (2 ^ 64)),
     Instr.wf (.mirHb (2 ^ 6) default),
     Instr.wf (.mirHealth (2 ^ 6) default),
     Instr.wf (.mirFetch (2 ^ 6) default default default),
     Instr.wf (.mirFetch default default (2 ^ 12) default),
     Instr.wf (.mirFetch default default default (2 ^ 16)),
     Instr.wf (.mirLine (2 ^ 6) default default default),
     Instr.wf (.mirCtrl (2 ^ 6) default default default),
     Instr.wf (.keySweepDone (2 ^ 12)),
     Instr.wf (.supplyTrip (2 ^ 4) default default),
     Instr.wf (.coreReady (2 ^ 5)),
     Instr.wf (.setdasa (2 ^ 7)),
     Instr.wf (.ceBucketLeak (2 ^ 3) default),
     Instr.wf (.ceBucketLeak default (2 ^ 5)),
     Instr.wf (.alignPatternSeen (2 ^ 6))].all (!·) = true := by decide

/-- The operands at zero pass. -/
theorem test_wellFormed_zero : [reqFits default, hdrFits default, memExtFits default, deckleCreatePFits default, mapPFits default,
    launchBFits default, attnStepBFits default, topkBFits default, descFits default, couchBFits default, mirExtFits default].all id = true := by decide

/-- A request or a packet that does not fit makes its command ill-formed. -/
theorem test_illFormed_request : Instr.wf (.deviceQuery { op 0 with tag := 256 }) = false ∧
    Instr.wf (.rd { pkt 0 32 with ep := 4096 } { addr := 0, lines := 1 }) = false ∧
    Instr.wf (.rd (pkt 0 32) { addr := 0, lines := 1 }) = true := by decide

/-! ## Steps and values that the spec works out -/

/-- The state after a command. -/
def after (i : Instr) (s : State) : State :=
  match exec i s with
  | .next t => t
  | _ => s

/-- Chapter 8, encoding one bundle: the four slots of the word. -/
theorem test_bundle_slots : (slotS bundle8, slotV bundle8, slotM bundle8, slotX bundle8) = (0x004018D0, 0x00820904, 0x002A11, 0x8B) := by decide

/-- Chapter 7, decoding stored blocks: MXFP4 elements 0xB and 0x7 at scale 2^−3 are E4M3 0xA4 and 0x34. -/
theorem test_mxfp4_block :
    ((Fmt.e4m3.narrow ((Fmt.e2m1.decode 0xB).mul (e8m0 0x7C)).1).1, (Fmt.e4m3.narrow ((Fmt.e2m1.decode 0x7).mul (e8m0 0x7C)).1).1)
      = (0xA4, 0x34) := by decide

/-- Chapter 7: the Slate-3 scale 0x48 times 0.5 and times −0.25 in BF16 give 2.0 and −1.0. -/
theorem test_slate3_block :
    (fp32Of ((Fmt.e4m3.decode 0x48).mul (Fmt.bf16.decode 0x3F00)).1, fp32Of ((Fmt.e4m3.decode 0x48).mul (Fmt.bf16.decode 0xBE80)).1)
      = (0x40000000, 0xBF800000) := by decide

/-- Chapter 7: FP32 500.0 narrows to E4M3 0x7E with SAT, and a block whose amax is 500.0 has X = 127. -/
theorem test_narrow_500 : Fmt.e4m3.narrow (Fmt.fp32.decode 0x43FA0000) = (0x7E, flagSat) ∧
    mxScale 8 [Fmt.fp32.decode 0x43FA0000] = some 127 := by decide

/-- Chapter 14, an unaligned 100-byte write: LEN 224 takes 4 credits, and FIRST_MASK enables bytes 48 to 63. -/
theorem test_write_100_bytes : Hdr.credits { pkt 0 224 with cls := 2 } = 4 ∧ maskRange 48 16 = 0xFFFF000000000000#64 ∧
    maskRange 0 20 = 0x00000000000FFFFF#64 := by decide

/-- Bytes of a line that a mask does not enable stay as they were. -/
theorem test_mergeLine : mergeLine 0x1122#512 0xAABB#512 1#64 = 0x11BB#512 := by decide

/-- The policer of chapter 15's example, full at 0. -/
def pol : Bucket :=
  { enable := true, cir := 10000, pir := 20000, cbs := 1048576, pbs := 2097152, ctok := 1048576000, ptok := 2097152000, last := 0, resetFill := true }

/-- Chapter 15, a reader above its committed rate: 2,128 committed tokens make an RD of 4,096 bytes yellow, 4,128 green. -/
theorem test_policer_colours : ({ pol with ctok := 2128000 }).colour .green 4096 = .yellow ∧ ({ pol with ctok := 4128000 }).colour .green 4096 = .green ∧
    ({ pol with ctok := 0, ptok := 3248000 }).colour .green 4096 = .red := by decide

/-- Chapter 15: a green RD leaves 3,096 fewer committed and 2,096 fewer peak tokens at the next arrival. -/
theorem test_policer_tokens :
    ((pol.take .green 4096).accrue 100).ctok = pol.ctok - 3096000 ∧ ((pol.take .green 4096).accrue 100).ptok = pol.ptok - 2096000 := by decide

/-- Chapter 17: one bad symbol is corrected; a flip of 0x01 at byte 10 and 0x80 at byte 40 is not. -/
theorem test_line_code : correction (BitVec.ofNat 640 (0x55 <<< 80)) = some (BitVec.ofNat 640 (0x55 <<< 80)) ∧
    correction (BitVec.ofNat 640 (0x01 <<< 80 + 0x80 <<< 320)) = none := by decide

/-- Chapter 5, two publishers: a draft on version 41 meets the watermark VERSION 42 of PUBLISHER 0x031, and the
publish is answered ST_CONFLICT with DETAIL 0x0031_0000_0000_002A. -/
theorem test_two_publishers :
    let r : Region := { rg with segments := 1, current := 42, versions := [(42, ⟨0x31, 0, [3]⟩)] }
    let s : State := { reg with rgn := { reg.rgn with regions := [(1, r)], drafts := [(1, { dr with base := 41 })] } }
    let p : PublishP := { deckle := 1, region := 1, draft := 1, base := 41 }
    let q := ten (regionPublishCmd p).len
    ((after (.regionPublish q p) s).responses q).map (fun x => (x.ans.status, x.ans.detail)) = [(.conflict, 0x00310000_0000002A)] := by decide

/-- The home core of endpoint 0x2C6 (710) is 710 modulo 32. -/
theorem test_homeCore : homeCore 0x2C6 = 6 := by decide

/-- R24: a 17th request is answered ST_BUSY. -/
theorem test_mailbox_full : ((after (.deviceQuery qf) full).responses qf).map (·.ans.status) = [.busy] := by decide

/-- R27: a tenant's operator command is refused with ST_NO_ACCESS. -/
theorem test_operator_only : ((after (.deckleDissolve (ten 8) { deckle := 1 }) up).responses (ten 8)).map (·.ans.status) = [.noAccess] := by decide

/-- R19: under the boot ROM a mailbox request other than its three is answered ST_NOT_READY. -/
theorem test_boot_not_ready : ((after (.deckleQuery (op 8) { deckle := 1 }) bootS).responses (op 8)).map (·.ans.status) = [.notReady] := by decide

/-- R262: class c maps to queue 4 + c at DECKLE_CREATE. -/
theorem test_class_map : (freshDeckle 0 1).classMap = [4, 5, 6, 7, 8, 9, 10, 11] := by decide

/-- Chapter 20, the IEEE 1149.1 port: IDCODE captures 0x2964_0A63. -/
theorem test_idcode : (after .idcode up).pkg.capture = (32, 0x29640A63) := by decide

/-- R66: a LEASE message stamped at 5 ns moves the deadline of a lease of 1,000 ms to 1 s later. -/
theorem test_lease_renewed : ((after (.lease 0 2 1 5 0) up).lease 1 2).map (·.deadline) = some 1000000005 := by decide

/-- R347: a sensor at 115 °C trips the device and destroys its keys. -/
theorem test_thermal_trip : ((after (.thermalTrip 3 920) up).pkg.thermTrip, (after (.thermalTrip 3 920) up).sec.keys) = (true, []) := by decide

/-- No word of the opcode table spells a command. -/
theorem test_decodeTableWord : decodeTableWord 16 0x1234 = none := by decide

/-! ## Witnesses of the statements about every command -/

theorem witness_StepRunsTheFrontCommand : ({ up with pending := [.tapReset, .idcode] }).pending = .tapReset :: [.idcode] := by decide

theorem witness_EmptyQueueStep_0 :
    let s : State := { up with pkg := { up.pkg with tapReq := some .tapReset } }
    s.pending = [] ∧ s.pkg.tapReq = some .tapReset := by decide

/-- A request of endpoint 2 that waits. -/
def sWaits : State := { up with mbx := { up.mbx with waiting := [⟨.deviceQuery (ten 0), 5, ten 0, 1⟩] } }

theorem witness_EmptyQueueStep_1 :
    (sWaits.pending = [] ∧ sWaits.pkg.tapReq = none ∧ sWaits.drains = true ∧ sWaits.mbx.waiting = ⟨.deviceQuery (ten 0), 5, ten 0, 1⟩ :: []) ∧
    ∃ t, exec (.deviceQuery (ten 0)) { sWaits with mbx := { sWaits.mbx with waiting := [], draining := some 5 } } = .next t :=
  ⟨by decide, _, rfl⟩

theorem witness_EmptyQueueStep_2 : up.pending = [] ∧ up.pkg.tapReq = none ∧ up.drains = false := by decide

theorem witness_QueueAndFusesKept : (∃ t, exec .tapReset up = .next t) ∧ (∀ q p, Instr.tapReset ≠ .raiseSec q p) ∧
    up.board.wf = true ∧ ∃ t, step { up with pending := [.tapReset] } = .next t :=
  ⟨⟨_, rfl⟩, nofun, by decide, _, rfl⟩

theorem witness_EveryStepKeepsTheMemoryForm : Memory.wf sLode = true ∧ (∃ t, exec .tapReset sLode = .next t) ∧ ∃ t, step sLode = .next t :=
  ⟨by decide, ⟨_, rfl⟩, _, rfl⟩

/-- Sixteen outstanding commands of the bedrock mailbox, and one. -/
def fullBr : State := { up with mbx := { up.mbx with nextReply := 16, outst := (List.range 16).map fun i =>
  (i, { box := 4096, req := { op 0 with tag := i }, code := 0xFF02, accepted := 5, progress := .running }) } }
def oneBr : State := { up with mbx := { up.mbx with nextReply := 1, outst := [(0, { box := 4096, req := op 0, code := 0xFF02, accepted := 5, progress := .running })] } }

theorem witness_MailboxHoldsSixteen_5 : fullBr.hub.bedrockReady = true ∧ boxOf brStatusCmd.code qf ≠ 4097 ∧
    16 ≤ (fullBr.boxTags (boxOf brStatusCmd.code qf)).length := by decide

theorem witness_MailboxHoldsSixteen_5a : oneBr.hub.bedrockReady = true ∧ boxOf brStatusCmd.code (op 0) ≠ 4097 ∧
    (oneBr.boxTags (boxOf brStatusCmd.code (op 0))).length < 16 ∧ (op 0).tag ∈ oneBr.boxTags (boxOf brStatusCmd.code (op 0)) := by decide

theorem witness_PairFormRefusesOtherPartners_0 :
    let q : Req := op (pairFormCmd pArm).len
    let p : PairP := pArm
    let s : State := pairS fun x => { x with partner := some { pinfo with stepping := pinfo.stepping + 1 } }
    let u := s.entry (pairFormCmd p) q
    (s.admits (pairFormCmd p) q = true) ∧ (s.pkg.tripped = false) ∧
    (firstFail (commonChecks u (pairFormCmd p) q ++ (pairFormChecks p u).take 3) = none) ∧
    ((u.partnerIs fun i => i.order == u.pairInfo.order && i.stepping == u.pairInfo.stepping) = false) := by decide

theorem witness_DeviceCommandsFrame : Instr.mailbox .tapReset = none ∧ Zone.part ∉ Instr.mayChange .tapReset ∧
    (∃ t, exec .tapReset up = .next t) ∧ Zone.mem ∉ Instr.mayChange .tapReset := ⟨by decide, by decide, ⟨_, rfl⟩, by decide⟩

/-- A quota of nothing for deckle 1. -/
def quota : QuotaP := { deckle := 1, qT1 := 0, qT2 := 0, qStg := 0, qLodeMib := 0 }

theorem witness_MailboxCommandsFrame : Instr.mailbox (.deckleQuota (op 24) quota) = some (op 24) ∧
    (∃ t, exec (.deckleQuota (op 24) quota) up = .next t) ∧ Zone.rgn ∉ Instr.mayChange (.deckleQuota (op 24) quota) :=
  ⟨by decide, ⟨_, rfl⟩, by decide⟩

theorem witness_WorkCommandsFrame : Instr.mailbox (.fence (pkt 0 0)) = none ∧ Zone.part ∈ Instr.mayChange (.fence (pkt 0 0)) ∧
    (∃ t, exec (.fence (pkt 0 0)) up = .next t) ∧ Zone.rgn ∉ Instr.mayChange (.fence (pkt 0 0)) := ⟨by decide, by decide, ⟨_, rfl⟩, by decide⟩

theorem witness_CommandsThatKeepEveryLine : Instr.keepsLines (.deviceQuery (ten 0)) = true ∧
    (∀ q, Instr.mailbox (.deviceQuery (ten 0)) = some q → q.ext = false ∧ q.resultPva = 0) ∧ ∃ t, exec (.deviceQuery (ten 0)) up = .next t :=
  ⟨by decide, fun _ h => by cases h; decide, _, rfl⟩

theorem witness_HubCommandsComplete_0
    (sig : Config.sigValid (Config.fusedKey 0) (Config.shake256 (imHd % 2 ^ 1024) 128 512) 0 = true)
    (dig : Config.shake256 0 64 512 = 0) :
    let s : State := bootV
    let v : Verify := ⟨4, 4160, false⟩
    (s.hub.verifying = some v) ∧
    (s.underBoot = true) ∧
    (s.imageBad (s.windowBytes 0 4096) (s.windowBytes 4096 (v.len - 4096)) = none) := by
  refine ⟨by decide, by decide, ?_⟩
  have h1 : bootV.windowBytes 0 4096 = imHd := by decide
  have h2 : bootV.windowBytes 4096 64 = 0 := by decide
  have b1 : bitsOf imHd 1935 1024 = 0 := by decide
  have b2 : bitsOf imHd 95 64 = 64 := by decide
  have b3 : bitsOf imHd 1023 512 = 0 := by decide
  have b4 : bitsOf imHd 63 48 = 7 := by decide
  have b5 : bootV.board.fusedMinSec ≤ 7 := by decide
  show bootV.imageBad (bootV.windowBytes 0 4096) (bootV.windowBytes 4096 64) = none
  rw [h1, h2]
  unfold State.imageBad
  simp only [b1, b2, b3, b4, sig, dig]
  simp [b5]

theorem witness_HubCommandsComplete_4
    (sig : Config.sigValid (Config.fusedKey 0) (Config.shake256 (imHd % 2 ^ 1024) 128 512) 0 = true)
    (dig : Config.shake256 0 64 512 = 0) :
    let p : FwP := { imagePva := 0x00FFFF0000000000, imageLen := 4160 }
    let q : Req := op (fwStageCmd p).len
    let s : State := stageS
    let s1 : State := ((s.acting (fwStageCmd p) q).readBytes 0 p.imagePva 4096).1
    let s2 : State := (s1.readBytes 0 (p.imagePva + 4096) (p.imageLen - 4096)).1
    let h : Nat := imHd
    let body : Nat := 0
    (s.passes (fwStageCmd p) q (fwStageChecks p)) ∧
    ((s.acting (fwStageCmd p) q).readBytes 0 p.imagePva 4096 = (s1, .ok, h)) ∧
    (imageFormOk h p.imageLen = true) ∧
    (s1.readBytes 0 (p.imagePva + 4096) (p.imageLen - 4096) = (s2, .ok, body)) ∧
    (s2.imageBad h body = none) := by
  refine ⟨by decide, Prod.ext rfl (Prod.ext (by decide) (by decide)), by decide, Prod.ext rfl (Prod.ext (by decide) (by decide)), ?_⟩
  have b1 : bitsOf imHd 1935 1024 = 0 := by decide
  have b2 : bitsOf imHd 95 64 = 64 := by decide
  have b3 : bitsOf imHd 1023 512 = 0 := by decide
  have b4 : bitsOf imHd 63 48 = 7 := by decide
  unfold State.imageBad
  simp only [b1, b2, b3, b4, sig, dig]
  rw [if_neg (by decide), if_neg (by decide), if_neg (by decide)]

theorem witness_LaunchCommandsComplete_0
    (sig : Config.sigValid (Config.fusedKey 1) (Config.shake256 (kHd % 2 ^ 1024) 128 512) 0 = true)
    (dig : Config.shake256 0x3E 16 512 = 0) :
    let p : KernelP := { deckle := 1, imagePva := 200 * 2 ^ 21, imageLen := 528 }
    let q : Req := ten (kernelLoadCmd p).len
    let s : State := kernS
    let s' : State := ((s.acting (kernelLoadCmd p) q).loadKernel p).1
    let a : Ans := okFields 8 [(32, 8), (32, 0)]
    (s.passes (kernelLoadCmd p) q (kernelLoadChecks p)) ∧
    ((s.acting (kernelLoadCmd p) q).loadKernel p = (s', some a)) ∧
    (a.status = .ok) := by
  refine ⟨by decide, Prod.ext rfl ?_, by decide⟩
  unfold State.loadKernel
  rw [if_neg (by decide)]
  generalize hr : (kernS.acting _ _).readBytes _ _ 512 = r
  obtain ⟨s1, st, h⟩ := r
  have e1 : st = .ok := by have := congrArg (fun x => x.2.1) hr; exact this.symm.trans (by decide)
  have e2 : h = kHd := by have := congrArg (fun x => x.2.2) hr; exact this.symm.trans (by decide)
  have e3 : s1 = _ := (congrArg (fun x => x.1) hr).symm
  subst e1 e2
  dsimp only
  rw [if_neg (by decide)]
  have e4 : s1.signerKey 1 (bitsOf kHd 55 48) = some (Config.fusedKey 1) := rfl
  rw [e4]
  dsimp only
  generalize hb : s1.readBytes _ _ _ = r2
  obtain ⟨s2, st2, body⟩ := r2
  have f1 : st2 = .ok := by have := congrArg (fun x => x.2.1) hb; rw [e3] at this; exact this.symm.trans (by decide)
  have f2 : body = 0x3E := by have := congrArg (fun x => x.2.2) hb; rw [e3] at this; exact this.symm.trans (by decide)
  have f3 : s2 = _ := (congrArg (fun x => x.1) hb).symm
  subst f1 f2
  dsimp only
  have b1 : bitsOf kHd 1935 1024 = 0 := by decide
  have b3 : (BitVec.ofNat 512 (bitsOf kHd 1023 512)).toNat = 0 := by decide
  rw [b1, b3]
  rw [if_neg (by rw [sig, show 528 - 512 = 16 from rfl, dig]; decide)]
  have b5 : badBundle ((List.range (bitsOf kHd 79 64)).map fun i => BitVec.ofNat 128 (bytesFrom 0x3E (16 * i) 16)) = none := by decide
  rw [b5]
  dsimp only
  rw [if_neg (by rw [f3, e3]; decide)]
  rw [f3, e3]
  decide

end Sys2Proof.Tests
end

section
/-! PROOFS. A mailbox request that fails one of the command's own checks: it is answered with that check's status,
whatever the command, and PAIR_FORM with a partner that does not match. -/

namespace Sys2Proof.Machine

/-! ## The checks -/

/-- Checks that pass leave the verdict to those behind them. -/
theorem firstFail_append {l r : List Check} (h : firstFail l = none) : firstFail (l ++ r) = firstFail r := by
  induction l with
  | nil => rfl
  | cons x l ih =>
    obtain ⟨b, st, d⟩ := x
    cases b with
    | true => exact ih h
    | false => cases h

/-- Where the common checks and the first `n` of a command's own pass and the next one does not, that one decides. -/
theorem firstFail_at {l checks rest : List Check} {st : Status} {d : Nat} (n : Nat)
    (hpass : firstFail (l ++ checks.take n) = none) (hnext : checks.drop n = (false, st, d) :: rest) :
    firstFail (l ++ checks) = some (st, d) :=
  calc firstFail (l ++ checks) = firstFail ((l ++ checks.take n) ++ checks.drop n) := by
        rw [List.append_assoc, List.take_append_drop]
    _ = firstFail (checks.drop n) := firstFail_append hpass
    _ = some (st, d) := by rw [hnext]; rfl

/-! ## From the port to the refusal -/

/-- A request that its port admits is served at its mailbox. -/
theorem serve_of_arrives {self : Instr} {c : Cmd} {q : Req} {checks : State → List Check}
    {act : State → Nat → State × Option Ans} {s : State} (h : s.arrives c q = true) :
    s.serve self c q checks act = (s.atBox q).reachBox self c q checks act := by
  unfold State.serve
  by_cases hd : s.mbx.draining.isSome = true
  · simp [State.atBox, hd]
  · cases hv : q.via with
    | tap => simp [State.atBox, hd, hv]
    | i3c => simp [State.arrives, hd, hv] at h
    | link =>
      simp only [State.arrives, State.atBox, hd, hv, Bool.false_or, Bool.and_eq_true, Option.isNone_iff_eq_none] at h
      obtain ⟨⟨hcarries, hbound⟩, hport⟩ := h
      simp_all [State.atBox]

/-- A request that passes checks 1 to 6 of R27 is decided by the command's checks and its effect. -/
theorem serve_of_admits {self : Instr} {c : Cmd} {q : Req} {checks : State → List Check}
    {act : State → Nat → State × Option Ans} {s : State} (h : s.admits c q = true) :
    s.serve self c q checks act = (s.atBox q).commitReq c q checks act := by
  simp only [State.admits, Bool.and_eq_true, Option.isNone_iff_eq_none] at h
  obtain ⟨⟨⟨harr, hearly⟩, hwait⟩, -⟩ := h
  have hserved : ((s.atBox q).mustWait && !(s.atBox q).underBoot) = false := by
    rw [← Bool.not_eq_true', Bool.not_and, Bool.not_not]; exact hwait
  rw [serve_of_arrives harr, State.reachBox, hearly]
  simp [hserved]

/-- A request that fails one of the command's checks is answered with what that check says, and nothing else happens
after the checks of its form. -/
theorem serve_of_refused {self : Instr} {c : Cmd} {q : Req} {checks : State → List Check}
    {act : State → Nat → State × Option Ans} {s : State} {st : Status} {d : Nat} (hadm : s.admits c q = true)
    (hfail : firstFail (commonChecks (s.entry c q) c q ++ checks (s.entry c q)) = some (st, d)) :
    s.serve self c q checks act = (s.entry c q).answerNow q c.code (s.accAt q) { status := st, detail := d } := by
  have hform : ((s.atBox q).formCheck c q).2 = none := by
    simp only [State.admits, Bool.and_eq_true, Option.isNone_iff_eq_none] at hadm
    exact hadm.2
  rw [serve_of_admits hadm, State.commitReq, hform]
  simp only [State.entry] at hfail
  simp only [hfail]
  rfl

/-! ## The answer on its way -/

/-- A changed port stands in the table of ports. -/
theorem State.mem_ports_modPort (s : State) (p : Nat) (f : Port → Port) : (p, f (s.port p)) ∈ (s.modPort p f).link.ports :=
  NMap.find_some_mem (NMap.find_put ..)

/-- Until a trip every packet put on a port's egress stands there. -/
theorem State.mem_sent_enqueue {s : State} (p vc queue deckle : Nat) (m : Msg) (cls : Nat) (htrip : s.pkg.tripped = false) :
    m ∈ (s.enqueue p vc queue deckle m cls).sent := by
  rw [State.enqueue, if_neg (by simp [htrip])]
  exact List.mem_append_right _ (List.mem_flatMap.mpr ⟨_, mem_ports_modPort .., by simp⟩)

/-- Until a trip a packet to an endpoint waits on its port, or is held for it. -/
theorem State.mem_sent_sendHeld {s : State} (ep vc queue deckle : Nat) (m : Msg) (cls : Nat) (htrip : s.pkg.tripped = false) :
    m ∈ (s.sendHeld ep vc queue deckle m cls).sent := by
  unfold State.sendHeld
  split
  · exact mem_sent_enqueue _ _ _ _ _ _ htrip
  · simp [State.sent]

/-- Until a trip a response is on its way by the path its request came. -/
theorem State.mem_responses_respond {s : State} (q : Req) (r : MbxRsp) (htrip : s.pkg.tripped = false) :
    r ∈ (s.respond q r).responses q := by
  unfold State.respond State.responses
  cases hv : q.via with
  | link => exact List.mem_filterMap.mpr ⟨_, mem_sent_sendHeld _ _ _ _ _ _ htrip, by simp⟩
  | i3c => simp
  | tap => simp

/-- An answer without a result area reaches the sender. -/
theorem State.answers_answerNow {s : State} (q : Req) (code acc : Nat) {a : Ans} (dup : Bool) (htrip : s.pkg.tripped = false)
    (harea : a.area = 0) : (s.answerNow q code acc a dup).answers q code a := by
  have hfill : s.fillArea q a = (s, a) := if_pos harea
  rw [State.answerNow, hfill]
  exact .inl ⟨_, mem_responses_respond q _ htrip, rfl, rfl, rfl, rfl⟩

/-! ## No trip latches on the way to the checks

The latch of R345 stands in the part `pkg`, which the receive buffer, the driver's lease, the reads of the parameter
block and the event ring leave alone. -/

@[simp] theorem foldl_pkg {α : Type} (l : List α) (f : State → α → State) (s : State) (h : ∀ a x, (f a x).pkg = a.pkg) :
    (l.foldl f s).pkg = s.pkg :=
  List.foldlRecOn (motive := fun t => t.pkg = s.pkg) l f rfl fun a ha x _ => (h a x).trans ha

@[simp] theorem State.freeBuf_pkg (s : State) (p vc n : Nat) : (s.freeBuf p vc n).pkg = s.pkg := by simp [State.freeBuf]
@[simp] theorem State.atBox_pkg (s : State) (q : Req) : (s.atBox q).pkg = s.pkg := by simp [State.atBox, State.freeReq]

@[simp] theorem State.charge_pkg (s : State) (d cls kind pj : Nat) : (s.charge d cls kind pj).pkg = s.pkg := by
  simp [State.charge]
@[simp] theorem State.chargeTier_pkg (s : State) (d cls : Nat) (t : Tier) (pj n : Nat) :
    (s.chargeTier d cls t pj n).pkg = s.pkg := by cases t <;> simp [State.chargeTier]
@[simp] theorem State.fetchLine_pkg (s : State) (r : LineRef) : (s.fetchLine r).pkg = s.pkg := by simp [State.fetchLine]
@[simp] theorem State.endPoison_pkg (s : State) (r : LineRef) (cause : Nat) : (s.endPoison r cause).1.pkg = s.pkg := by
  simp [State.endPoison]
@[simp] theorem State.reconstruct_pkg (s : State) (r : LineRef) (step4 : Bool) (cls : Nat) :
    (s.reconstruct r step4 cls).1.pkg = s.pkg := by
  unfold State.reconstruct
  dsimp only
  (repeat' split) <;> simp
@[simp] theorem State.readLineN_pkg (s : State) (r : LineRef) (cls : Nat) : (s.readLineN r cls).1.pkg = s.pkg := by
  unfold State.readLineN
  dsimp only
  split <;> simp
@[simp] theorem State.readLine_pkg (s : State) (r : LineRef) (cls : Nat) : (s.readLine r cls).1.pkg = s.pkg := by
  simp [State.readLine]
@[simp] theorem State.readLines_pkg (s : State) (rs : List LineRef) (cls : Nat) : (s.readLines rs cls).1.pkg = s.pkg := by
  induction rs generalizing s with
  | nil => rfl
  | cons r rs ih =>
    have h := State.readLine_pkg s r cls
    unfold State.readLines
    split
    · next s1 l hr =>
      rw [hr] at h
      have k := (ih s1).trans h
      split <;> simp_all
    · next hr => rw [hr] at h; exact h
@[simp] theorem State.readBytes_pkg (s : State) (d pva n : Nat) : (s.readBytes d pva n).1.pkg = s.pkg := by
  unfold State.readBytes
  dsimp only
  split
  · next refs _ =>
    have h := State.readLines_pkg s refs 0
    split <;> simp_all
  · simp
  · rfl
@[simp] theorem State.formCheck_pkg (s : State) (c : Cmd) (q : Req) : (s.formCheck c q).1.pkg = s.pkg := by
  simp [State.formCheck]

@[simp] theorem State.pumpRing_pkg (s : State) (recv : Nat) : (s.pumpRing recv).pkg = s.pkg := by
  unfold State.pumpRing State.pumpRingIf
  (repeat' split) <;> simp
@[simp] theorem State.takeEvreg_pkg (s : State) (q : Req) : (s.takeEvreg q).pkg = s.pkg := by
  simp [State.takeEvreg, State.setEvEp]

/-- No trip latches before the command's own checks. -/
@[simp] theorem State.entry_pkg (s : State) (c : Cmd) (q : Req) : (s.entry c q).pkg = s.pkg := by simp [State.entry]

/-! ## The refusal of a mailbox request -/

/-- A request that fails one of the command's checks is answered with that check's status and leaves the pair alone. -/
theorem completes_of_refused {i self : Instr} {c : Cmd} {q : Req} {checks : State → List Check}
    {act : State → Nat → State × Option Ans} {s : State} {st : Status} {d : Nat}
    (hexec : exec i s = .next (s.serve self c q checks act)) (hadm : s.admits c q = true) (htrip : s.pkg.tripped = false)
    (hfail : firstFail (commonChecks (s.entry c q) c q ++ checks (s.entry c q)) = some (st, d)) :
    Completes i s fun t => t.answers q c.code { status := st, detail := d } ∧ t.pair = (s.entry c q).pair := by
  rw [serve_of_refused hadm hfail] at hexec
  obtain ⟨-, -, -, -, -, hpair, -⟩ :=
    (s.entry c q).answerNow_inline q c.code (s.accAt q) { status := st, detail := d } false rfl
  exact ⟨_, hexec, State.answers_answerNow q _ _ _ (by simpa using htrip) rfl, hpair⟩

/-! ## The partner in PAIR_FORM (R305, checks 3 and 4) -/

/-- A partner of another ordering code or stepping fails the check behind the first three. -/
theorem pairFormChecks_of_other_code {p : PairP} {u : State}
    (h : (u.partnerIs fun i => i.order == u.pairInfo.order && i.stepping == u.pairInfo.stepping) = false) :
    (pairFormChecks p u).drop 3 = (false, .unsupported, 0) :: (pairFormChecks p u).drop 4 := by
  rw [← h]; rfl

/-- A partner of another pool profile fails the check behind the first four (R17). -/
theorem pairFormChecks_of_other_profile {p : PairP} {u : State}
    (h : (u.partnerIs fun i => i.bulk == u.pairInfo.bulk) = false) :
    (pairFormChecks p u).drop 4 = (false, .invalid, 0) :: (pairFormChecks p u).drop 5 := by
  rw [← h]; rfl

end Sys2Proof.Machine

namespace Sys2Proof

open Machine

/-- Settles O55: the first check that fails decides the answer, and a request so refused has no effect on the pair. -/
theorem pairFormRefusesOtherPartners : Obligations.PairFormRefusesOtherPartners := by
  unfold Obligations.PairFormRefusesOtherPartners
  constructor
  · intro q p s u hadm htrip hpass hcode
    exact completes_of_refused rfl hadm htrip (firstFail_at 3 hpass (pairFormChecks_of_other_code hcode))
  · intro q p s u hadm htrip hpass hprofile
    exact completes_of_refused rfl hadm htrip (firstFail_at 4 hpass (pairFormChecks_of_other_profile hprofile))

end Sys2Proof
end

section
/-! PROOFS. The room of a mailbox (R24): sixteen outstanding commands with distinct tags, and the way of an
outstanding command's answer to its sender. -/

namespace Sys2Proof

/-- What a write into a table drops is the entry that a look-up of the key finds. -/
theorem NMap.mem_put_or_find {α : Type} {m : NMap α} {x : Nat × α} (h : x ∈ m) (k : Nat) (a : α) :
    x ∈ NMap.put m k a ∨ (x.1 = k ∧ NMap.find m k = some x.2) := by
  induction m with
  | nil => cases h
  | cons y m ih =>
    obtain ⟨i, b⟩ := y
    simp only [NMap.put, NMap.find_cons]
    by_cases hlt : k < i
    · rw [if_pos hlt]
      exact .inl (List.mem_cons_of_mem _ h)
    · rw [if_neg hlt]
      by_cases heq : k = i
      · rw [if_pos heq]
        rcases List.mem_cons.mp h with rfl | h
        · exact .inr ⟨heq.symm, by simp [heq]⟩
        · exact .inl (List.mem_cons_of_mem _ h)
      · rw [if_neg heq]
        rcases List.mem_cons.mp h with rfl | h
        · exact .inl List.mem_cons_self
        · rcases ih h with hput | ⟨hkey, hfind⟩
          · exact .inl (List.mem_cons_of_mem _ hput)
          · exact .inr ⟨hkey, by simpa [heq] using hfind⟩

end Sys2Proof

namespace Sys2Proof.Machine

/-! ## Room and tag among the checks (R24, R27, R37) -/

/-- Behind the checks of state, operator and deckle, the room of the mailbox and the tag decide. -/
theorem State.earlyCheck_of_served {c : Cmd} {q : Req} {s : State} (hserved : s.servedCheck c q = none)
    (hoper : c.oper = true → q.deckle = 0) (hdis : s.isDissolving q.deckle = true → c.query = true) :
    s.earlyCheck c q = if 16 ≤ (s.heldTags q.deckle).length then some (.busy, 0, false)
      else if (s.heldTags q.deckle).contains q.tag then some (.invalid, 0, true) else none := by
  rw [State.earlyCheck, hserved]
  dsimp only
  rw [if_neg (by simpa using hoper), if_neg (by simpa using hdis)]

/-- A request that reaches its mailbox and fails one of the first five checks of R27 is answered with it at once. -/
theorem serve_of_earlyCheck {self : Instr} {c : Cmd} {q : Req} {checks : State → List Check}
    {act : State → Nat → State × Option Ans} {s : State} {st : Status} {d : Nat} {dup : Bool} (harr : s.arrives c q = true)
    (hfail : (s.atBox q).earlyCheck c q = some (st, d, dup)) :
    s.serve self c q checks act =
      (s.atBox q).answerNow q c.code (s.atBox q).now { status := st, detail := d } dup := by
  rw [serve_of_arrives harr, State.reachBox, hfail]

/-- Once bedrock is ready, the room of the link's bedrock mailbox and the tag stand before the form. -/
theorem State.brCheck_of_ready {c : Cmd} {q : Req} {s : State} (hready : s.hub.bedrockReady = true)
    (hbox : boxOf c.code q ≠ 4097) :
    (16 ≤ (s.boxTags (boxOf c.code q)).length → s.brCheck c q = some (.busy, false)) ∧
    ((s.boxTags (boxOf c.code q)).length < 16 → q.tag ∈ s.boxTags (boxOf c.code q) →
      s.brCheck c q = some (.invalid, true)) := by
  constructor
  · intro hfull
    simp [State.brCheck, hready, hbox, hfull]
  · intro hroom htag
    simp [State.brCheck, hready, hbox, hroom, htag]

/-- A bedrock request that fails a check of its mailbox is answered with it at once. -/
theorem State.reachBr_of_brCheck {c : Cmd} {q : Req} {act : State → Nat → State × Option Ans} {s : State} {st : Status}
    {dup : Bool} (hfail : s.brCheck c q = some (st, dup)) :
    s.reachBr c q act = s.answerNow q c.code s.now { status := st } dup := by
  rw [State.reachBr, hfail]

/-! ## What is on its way stays on its way -/

/-- A packet put on a port's egress loses no message that is on its way. -/
theorem State.mem_sent_enqueue_of_mem {s : State} {m : Msg} (h : m ∈ s.sent) (p vc queue deckle : Nat) (m' : Msg) (cls : Nat) :
    m ∈ (s.enqueue p vc queue deckle m' cls).sent := by
  unfold State.enqueue
  split
  · exact h
  · rcases List.mem_append.mp h with hheld | hport
    · exact List.mem_append_left _ hheld
    · obtain ⟨x, hx, hm⟩ := List.mem_flatMap.mp hport
      refine List.mem_append_right _ (List.mem_flatMap.mpr ?_)
      rcases NMap.mem_put_or_find hx p _ with hkeeps | ⟨-, hfind⟩
      · exact ⟨x, hkeeps, hm⟩
      · have hat : s.port p = x.2 := by simp [State.port, hfind]
        refine ⟨_, mem_ports_modPort s p _, ?_⟩
        rw [hat, List.map_append]
        exact List.mem_append_left _ hm

/-- A packet that is put on a port's egress, or is not, loses no message that is on its way. -/
theorem State.mem_sent_ite_enqueue_of_mem {s : State} {m : Msg} (h : m ∈ s.sent) (b : Bool) (p vc queue deckle : Nat)
    (m' : Msg) (cls : Nat) : m ∈ (if b then s.enqueue p vc queue deckle m' cls else s).sent := by
  cases b
  · exact h
  · exact mem_sent_enqueue_of_mem h ..

/-- A metadata record to the standby loses no message that is on its way. -/
theorem State.mem_sent_pushMeta_of_mem {s : State} {m : Msg} (h : m ∈ s.sent) (ep rtag : Nat) (fw last : Bool) (r : MetaRec) :
    m ∈ (s.pushMeta ep rtag fw last r).sent := by
  unfold State.pushMeta State.pushRecord
  refine mem_sent_ite_enqueue_of_mem ?_ ..
  exact h

/-- A metadata record to the standby loses no response. -/
theorem State.mem_responses_pushMeta_of_mem {s : State} {q : Req} {x : MbxRsp} (h : x ∈ s.responses q) (ep rtag : Nat)
    (fw last : Bool) (r : MetaRec) : x ∈ (s.pushMeta ep rtag fw last r).responses q := by
  obtain ⟨-, -, hmbx, -, -, -, hpkg⟩ := s.pushMeta_sent ep rtag fw last r
  unfold State.responses at h ⊢
  cases hv : q.via with
  | link =>
    simp only [hv] at h ⊢
    obtain ⟨m, hm, hx⟩ := List.mem_filterMap.mp h
    exact List.mem_filterMap.mpr ⟨m, mem_sent_pushMeta_of_mem hm .., hx⟩
  | i3c => simpa [hv, hmbx] using h
  | tap => simpa [hv, hpkg] using h

/-! ## The answer of an outstanding command -/

/-- Until a trip, an answer without a result area is on its way to the sender, with the request's tag and cookie. -/
theorem State.mem_responses_answerNow {s : State} (q : Req) (code acc : Nat) {a : Ans} (dup : Bool) (htrip : s.pkg.tripped = false)
    (harea : a.area = 0) :
    ∃ r ∈ (s.answerNow q code acc a dup).responses q, r.ans = a ∧ r.dupTag = dup ∧ r.tag = q.tag ∧ r.cookie = q.cookie := by
  have hfill : s.fillArea q a = (s, a) := if_pos harea
  rw [State.answerNow, hfill]
  exact ⟨_, mem_responses_respond q _ htrip, rfl, rfl, rfl, rfl⟩

/-- The state in which a command is answered: it is outstanding no more. -/
def State.withoutOutst (s : State) (r : Nat) : State := { s with mbx := { s.mbx with outst := s.mbx.outst.del r } }

/-- A command without a mirrored commit, answered while the hub runs, is answered at once; the standby may learn of it. -/
theorem State.answer_at_once {s : State} {r : Nat} {o : Outst} (a : Ans) (hfind : s.mbx.outst.find r = some o)
    (hmseq : o.mseq = none) (hhub : s.hubStopped = false) :
    let t := (s.withoutOutst r).answerNow o.req o.code o.accepted a
    s.answer r a = if t.mirrors && o.box < 4096 then t.pushMeta o.req.ep o.req.tag false true (.request r none) else t := by
  rw [State.answer, hfind]
  simp only [hmseq, hhub, Bool.false_and, Bool.or_self, if_neg Bool.false_ne_true]
  rfl

/-- A command answered at once leaves the outstanding commands, and its response is on its way. -/
theorem State.answer_inline {s : State} {r : Nat} {o : Outst} {a : Ans} (hfind : s.mbx.outst.find r = some o)
    (hmseq : o.mseq = none) (hhub : s.hubStopped = false) (htrip : s.pkg.tripped = false) (harea : a.area = 0) :
    (s.answer r a).mbx.outst = s.mbx.outst.del r ∧
      ∃ x ∈ (s.answer r a).responses o.req, x.tag = o.req.tag ∧ x.ans = a := by
  obtain ⟨-, -, -, -, -, -, houtst, -⟩ := (s.withoutOutst r).answerNow_inline o.req o.code o.accepted a false harea
  obtain ⟨x, hx, hans, -, htag, -⟩ :=
    State.mem_responses_answerNow (s := s.withoutOutst r) o.req o.code o.accepted false htrip harea
  rw [State.answer_at_once a hfind hmseq hhub]
  split
  · obtain ⟨-, -, hmbx, -⟩ := State.pushMeta_sent ((s.withoutOutst r).answerNow o.req o.code o.accepted a)
      o.req.ep o.req.tag false true (.request r none)
    exact ⟨by rw [hmbx, houtst]; rfl, x, mem_responses_pushMeta_of_mem hx .., htag, hans⟩
  · exact ⟨houtst, x, hx, htag, hans⟩

end Sys2Proof.Machine

namespace Sys2Proof

open Machine

/-- Settles O54: room and tag decide behind the checks before them; a refusal leaves all but the answer's path, and
the outstanding commands grow by the accepted command and shrink by the answered one. -/
theorem mailboxHoldsSixteen : Obligations.MailboxHoldsSixteen := by
  unfold Obligations.MailboxHoldsSixteen
  refine ⟨?full, ?duplicate, ?refusal, ?accepted, ?answered, ?bedrock⟩
  case full =>
    intro self c q checks act s _ harr hserved hoper hdis hfull
    exact serve_of_earlyCheck harr (by rw [State.earlyCheck_of_served hserved hoper hdis, if_pos hfull])
  case duplicate =>
    intro self c q checks act s _ harr hserved hoper hdis hroom htag
    refine serve_of_earlyCheck harr ?_
    rw [State.earlyCheck_of_served hserved hoper hdis, if_neg (by omega), if_pos (List.contains_iff_mem.mpr htag)]
  case refusal =>
    intro code acc q st dup s htrip t
    obtain ⟨r, hr, hans, hdup, htag, hcookie⟩ :=
      State.mem_responses_answerNow q code acc (a := { status := st }) dup htrip rfl
    obtain ⟨hkept, hhub, hmem, hpart, -, -, houtst, hnext⟩ := s.answerNow_inline q code acc { status := st } dup rfl
    obtain ⟨-, -, -, -, hrgn, -, -, heng, -⟩ := hkept
    exact ⟨⟨r, hr, by rw [hans], hdup, htag, hcookie⟩, houtst, hnext, hpart, hmem, heng, hrgn, hhub⟩
  case accepted =>
    intro c q s _
    exact ⟨_, State.opened_outst .., rfl, rfl, rfl⟩
  case answered =>
    intro r a o s hwf hfind hmseq hhub htrip harea
    obtain ⟨houtst, hrsp⟩ := State.answer_inline hfind hmseq hhub htrip harea
    exact ⟨by rw [houtst, NMap.find_del hwf], hrsp⟩
  case bedrock =>
    intro c q act s hready hbox
    obtain ⟨hbusy, hdup⟩ := State.brCheck_of_ready (s := s) hready hbox
    exact ⟨fun hfull => State.reachBr_of_brCheck (hbusy hfull),
      fun hroom htag => State.reachBr_of_brCheck (hdup hroom htag)⟩

end Sys2Proof
end

section
/-! PROOFS. The header of a mailbox request (R246): the deckle its packet names must be that of its mailbox header, or
0 for a bedrock request; check 4 of R247 refuses it otherwise. -/

namespace Sys2Proof.Machine

/-! ## The check of the header -/

/-- For an endpoint that may send to the deckle of the packet, the header decides: whether its command is exempt from
the check of membership or not, the check lets it pass. -/
theorem State.portCheck_of_wrong_deckle {c : Cmd} {q : Req} {s : State} (hrun : s.hub.running.isSome = true)
    (hdis : s.isDissolving q.pktDeckle = false) (hmember : s.accessCheck q.pktDeckle q.ep = none)
    (hwrong : q.pktDeckle ≠ if c.code < 0xFF01 then q.deckle else 0) : s.portCheck c q = some .invalid := by
  have hrunning : s.hub.running.isNone = false := by rw [← Option.not_isSome, hrun]; rfl
  unfold State.portCheck
  rw [hrunning, hdis, if_neg Bool.false_ne_true, Bool.false_and, if_neg Bool.false_ne_true]
  cases hexempt : c.attach || (c.report && s.isStandby) with
  | true => simp [hwrong]
  | false => simp [hmember, hwrong]

/-! ## From the port to the refusal -/

/-- A request's packet that leaves the receive buffer changes its port alone. -/
@[simp] theorem State.freeReq_only (s : State) (q : Req) : OnlyLink s (s.freeReq q) := by simp [State.freeReq, State.freeBuf]

/-- Renewing the driver's lease starts and stops no firmware. -/
theorem State.renewDriver_running (s : State) (q : Req) : (s.renewDriver q).hub.running = s.hub.running := by
  unfold State.renewDriver
  split <;> rfl

/-- A request on the link that fails check 3 or 4 of R247 is answered with it at once. -/
theorem serve_of_portCheck {self : Instr} {c : Cmd} {q : Req} {checks : State → List Check}
    {act : State → Nat → State × Option Ans} {s : State} {st : Status} (hdrain : s.mbx.draining = none) (hvia : q.via = .link)
    (hcarries : (s.freeReq q).carries q.port = true) (hbound : (s.freeReq q).bound q.port q.ep = true)
    (hfail : ((s.freeReq q).renewDriver q).portCheck c q = some st) :
    s.serve self c q checks act = ((s.freeReq q).renewDriver q).answerNow q c.code ((s.freeReq q).renewDriver q).now
      { status := st } := by
  simp [State.serve, hdrain, hvia, hcarries, hbound, hfail]

/-- A bedrock request on the link that fails check 3 or 4 of R247 is answered with it at once. -/
theorem serveBr_of_portCheck {c : Cmd} {q : Req} {act : State → Nat → State × Option Ans} {s : State} {st : Status}
    (hvia : q.via = .link) (hcarries : (s.freeReq q).carries q.port = true) (hbound : (s.freeReq q).bound q.port q.ep = true)
    (hfail : (s.freeReq q).portCheck c q = some st) :
    s.serveBr c q act = (s.freeReq q).answerNow q c.code (s.freeReq q).now { status := st } := by
  simp [State.serveBr, hvia, hcarries, hbound, hfail]

/-- A refusal reaches the sender and leaves the partition and the outstanding commands. -/
theorem State.answerNow_refusal {s : State} (q : Req) (code acc : Nat) (st : Status) (htrip : s.pkg.tripped = false) :
    let t := s.answerNow q code acc { status := st }
    t.answers q code { status := st } ∧ t.part = s.part ∧ t.mbx.outst = s.mbx.outst := by
  obtain ⟨-, -, -, hpart, -, -, houtst, -⟩ := s.answerNow_inline q code acc { status := st } false rfl
  exact ⟨answers_answerNow q code acc false htrip rfl, hpart, houtst⟩

end Sys2Proof.Machine

namespace Sys2Proof

open Machine

/-- Settles O56: check 4 of R247 refuses the header, and the refusal is sent from the port, before any mailbox. -/
theorem mailboxHeaderMustMatch : Obligations.MailboxHeaderMustMatch := by
  unfold Obligations.MailboxHeaderMustMatch
  constructor
  · intro self c q checks act s u htrip hdrain hvia hcarries hbound hrun hdis hmember hcode hne
    have hrunning : u.hub.running.isSome = true := by simpa [u, State.renewDriver_running] using hrun
    have hfail : u.portCheck c q = some .invalid :=
      State.portCheck_of_wrong_deckle hrunning hdis hmember (by rwa [if_pos hcode])
    rw [serve_of_portCheck hdrain hvia hcarries hbound hfail]
    obtain ⟨hans, hpart, houtst⟩ := State.answerNow_refusal q c.code u.now .invalid (s := u) (by simpa [u] using htrip)
    exact ⟨hans, hpart, by simpa [u] using houtst⟩
  · intro c q act s u htrip hvia hcarries hbound hrun hdis hmember hcode hne
    have hfail : u.portCheck c q = some .invalid :=
      State.portCheck_of_wrong_deckle (by simpa [u] using hrun) hdis hmember (by rwa [if_neg (by omega)])
    rw [serveBr_of_portCheck hvia hcarries hbound hfail]
    obtain ⟨hans, hpart, houtst⟩ := State.answerNow_refusal q c.code u.now .invalid (s := u) (by simpa [u] using htrip)
    exact ⟨hans, hpart, by simpa [u] using houtst⟩

end Sys2Proof
end

section
/-! PROOFS. The machine as a whole: reset, one step of the queue, and what passes on an empty queue. -/

namespace Sys2Proof

open Machine

/-- Settles O48: `step` looks at the queue first. -/
theorem stepRunsTheFrontCommand : Obligations.StepRunsTheFrontCommand := by
  unfold Obligations.StepRunsTheFrontCommand
  intro c rest s hpending
  simp only [step, hpending]

/-- Settles O49: on an empty queue the test port, the waiting requests and the passing of time are tried in this order. -/
theorem emptyQueueStep : Obligations.EmptyQueueStep := by
  unfold Obligations.EmptyQueueStep
  refine ⟨?testPort, ?waiting, ?idle⟩
  case testPort =>
    intro c s hpending htap
    simp only [step, hpending, htap]
  case waiting =>
    intro w ws s t hpending htap hdrains hwaiting hexec
    simp only [hpending] at hexec
    simp only [step, hpending, htap, hdrains, if_true, hwaiting, hexec]
  case idle =>
    intro s hpending htap hdrains
    refine ⟨s.idle, ?_, ?_⟩
    · simp only [step, hpending, htap, hdrains, Bool.false_eq_true, if_false]
    · simp [State.idle, State.advance]

/-- Settles O51: the reset state is a closed term, so each field is read off it. -/
theorem resetLeaves : Obligations.ResetLeaves := by
  unfold Obligations.ResetLeaves
  exact ⟨rfl, rfl, rfl, rfl, rfl, rfl, rfl, rfl, rfl, rfl, rfl, rfl, rfl, rfl, rfl, rfl, reset_memory_wf, rfl⟩

/-- Settles O33: none of the flits to resend is at its limit, so the replay is no retrain, and the port is set up
for it. -/
theorem replayStartsAtTheNak : Obligations.ReplayStartsAtTheNak := by
  unfold Obligations.ReplayStartsAtTheNak
  intro p n s hlimit
  have hroom : ∀ b : Bool, (((s.port p).replay.filter fun f => !seqBefore 65536 f.seq n).any fun f =>
      decide ((s.port p).replayLimit < (if b then f.since else f.replays) + 1)) = false := by
    intro b
    refine List.any_eq_false.mpr fun f hf => ?_
    obtain ⟨hreplays, hsince⟩ := hlimit f (List.mem_of_mem_filter hf)
    cases b <;> simp <;> omega
  have heq : s.replayFrom p n = s.setPort p { s.port p with
      rstart := some n, replayLeft := ((s.port p).replay.filter fun f => !seqBefore 65536 f.seq n).map (·.seq),
      progressAt := s.now } := by
    rw [State.replayFrom]
    exact if_neg (by rw [hroom]; exact Bool.false_ne_true)
  simp [heq]

end Sys2Proof
end

section
/-! PROOFS. A command that reads lines may store one: a line that can no longer be read is poisoned where it is stored. -/

namespace Sys2Proof.Machine

/-- A running hub whose first control line was written under a key that is no longer in the store. -/
def staleControlLine : State :=
  { State.reset with
    hub := { Hub.reset with
      phase := .running, ready := true, running := some { fwVersion := 0, secVersion := 0, buildId := 0, digest := 0#512 } }
    mem := { Mem.reset with cells := [(cellKey .staging 0x200000,
      { data := 0#512, deckle := 0, epoch := 0, key := 7, gen := 1, poisoned := false, err := 0#640 })] }
    part := { Part.reset with deckles := [(0, freshDeckle 0 1)] } }

/-- A request of the test port to stage an image from the control lines, inline and without a result area. -/
def stageControlReq : Req := { via := .tap, port := 0, ep := 0, pktDeckle := 0, deckle := 0, tag := 0, plen := 16 }
def stageControlP : FwP := { imagePva := 0x00FFFF0000000000, imageLen := 4160, auto := false, cancel := false, fillAtStart := false }

/-- The state FW_STAGE goes on to. -/
def staged : State :=
  staleControlLine.serve (.fwStage stageControlReq stageControlP) (fwStageCmd stageControlP) stageControlReq
    (fwStageChecks stageControlP) (fwStageAct stageControlP)

set_option maxRecDepth 100000 in
/-- The read of the image's header fails, and poisons the line. -/
theorem staged_poisons : staged.mem.cells.map (·.2.poisoned) = [true] := by decide

end Sys2Proof.Machine

namespace Sys2Proof

open Machine

/-- Refutes O60: FW_STAGE stands in the list and takes its parameters inline, but it reads its image from memory, and
of staging SRAM, which has no parity to reconstruct from, a line under a lost key is stored anew as poisoned. -/
theorem not_commandsThatKeepEveryLine : ¬ Obligations.CommandsThatKeepEveryLine := by
  unfold Obligations.CommandsThatKeepEveryLine
  intro h
  have hkept : staged.mem.cells = staleControlLine.mem.cells :=
    h (.fwStage stageControlReq stageControlP) staleControlLine staged rfl (fun q hq => by cases hq; exact ⟨rfl, rfl⟩) rfl
  have hpoisoned := staged_poisons
  rw [hkept] at hpoisoned
  exact absurd hpoisoned (by decide)

end Sys2Proof
end

section
/-! PROOFS. What an operation may change: the spots of the state, footprints, and how they compose. -/

namespace Sys2Proof.Machine

/-! ## Spots and footprints -/

/-- The places a footprint is made of: the parts of the state, with the stored lines and the granules apart from the
rest of memory and of the partition. -/
inductive Spot
  | pending | now | free | board | hub | mbx | cells | mem | grans | part | rgn | lode | xlat | eng | attn
  | form | retr | couch | link | cal | laid | pair | sec | pkg

/-- A spot is the same in two states. -/
def Spot.same (x : Spot) (s t : State) : Prop :=
  match x with
  | .pending => t.pending = s.pending
  | .now => t.now = s.now
  | .free => t.free = s.free
  | .board => t.board = s.board
  | .hub => t.hub = s.hub
  | .mbx => t.mbx = s.mbx
  | .cells => t.mem.cells = s.mem.cells
  | .mem => { t.mem with cells := s.mem.cells } = s.mem
  | .grans => t.part.granules = s.part.granules
  | .part => { t.part with granules := s.part.granules } = s.part
  | .rgn => t.rgn = s.rgn
  | .lode => t.lode = s.lode
  | .xlat => t.xlat = s.xlat
  | .eng => t.eng = s.eng
  | .attn => t.attn = s.attn
  | .form => t.form = s.form
  | .retr => t.retr = s.retr
  | .couch => t.couch = s.couch
  | .link => t.link = s.link
  | .cal => t.cal = s.cal
  | .laid => t.laid = s.laid
  | .pair => t.pair = s.pair
  | .sec => t.sec = s.sec
  | .pkg => t.pkg = s.pkg

/-- `t` follows from `s` by changes at the spots `Z` alone, and memory keeps its canonical form. -/
def Within (Z : List Spot) (s t : State) : Prop :=
  (∀ x, x ∉ Z → x.same s t) ∧ (Memory.wf s = true → Memory.wf t = true)

/-- The stored lines and the granules, which the canonical form is about. -/
@[simp] def Spot.stores : Spot → Bool
  | .cells | .grans => true
  | _ => false

/-- A footprint names neither the stored lines nor the granules. -/
def storeless (Y : List Spot) : Bool := Y.all fun x => !x.stores

variable {Y Z : List Spot} {s t u : State}

@[simp] theorem Spot.same_refl (x : Spot) (s : State) : x.same s s := by cases x <;> rfl

theorem Spot.same_iff {x : Spot} (h : x.same t u) : x.same s u ↔ x.same s t := by
  cases x <;> simp only [Spot.same] at h ⊢ <;> rw [← h]

theorem Within.refl (Z : List Spot) (s : State) : Within Z s s := ⟨fun x _ => x.same_refl s, id⟩

@[simp] theorem within_self : Within Z s s ↔ True := iff_true_intro (.refl Z s)

theorem Within.mono (h : Within Y s t) (hZ : Y ⊆ Z) : Within Z s t :=
  ⟨fun x hx => h.1 x fun hy => hx (hZ hy), h.2⟩

theorem Within.trans (h : Within Z s t) (k : Within Z t u) : Within Z s u :=
  ⟨fun x hx => (Spot.same_iff (k.1 x hx)).mpr (h.1 x hx), k.2 ∘ h.2⟩

/-- An operation that may change the spots `Y` goes on from within `Z`. -/
theorem Within.step (hx : Within Z s t) (hZ : Y ⊆ Z) (h : Within Y t u) : Within Z s u := hx.trans (h.mono hZ)

theorem not_mem_of_storeless (hk : storeless Y = true) : Spot.cells ∉ Y ∧ Spot.grans ∉ Y :=
  ⟨fun h => by simpa using List.all_eq_true.mp hk _ h, fun h => by simpa using List.all_eq_true.mp hk _ h⟩

theorem Within.cellsKept (h : Within Y t u) (hk : storeless Y = true) : CellsKept t u :=
  ⟨h.1 .cells (not_mem_of_storeless hk).1, h.1 .grans (not_mem_of_storeless hk).2⟩

/-- What an operation that stores nothing leads to is within `Z` just where what it starts from is. -/
theorem Within.iff (hZ : Y ⊆ Z) (hk : storeless Y = true) (h : Within Y t u) : Within Z s u ↔ Within Z s t :=
  ⟨fun k => ⟨fun x hx => (Spot.same_iff (h.1 x fun hy => hx (hZ hy))).mp (k.1 x hx),
      fun w => by rw [← wf_congr (h.cellsKept hk)]; exact k.2 w⟩,
    fun k => k.step hZ h⟩

/-- An update that changes at most the spots `Y`, none of them stored lines or granules. -/
theorem Within.of_same (hk : storeless Y = true) (h : ∀ x, x ∉ Y → x.same t u) : Within Y t u :=
  ⟨h, fun w => (wf_congr ⟨h .cells (not_mem_of_storeless hk).1, h .grans (not_mem_of_storeless hk).2⟩).trans w⟩

/-! ## Single updates -/

@[simp] theorem within_pending (v : List Instr) (hZ : [.pending] ⊆ Z) : Within Z s { t with pending := v } ↔ Within Z s t :=
  Within.iff hZ rfl (Within.of_same rfl fun x hx => by cases x <;> first | rfl | simp at hx)
@[simp] theorem within_now (v : Nat) (hZ : [.now] ⊆ Z) : Within Z s { t with now := v } ↔ Within Z s t :=
  Within.iff hZ rfl (Within.of_same rfl fun x hx => by cases x <;> first | rfl | simp at hx)
@[simp] theorem within_free (v : Nat) (hZ : [.free] ⊆ Z) : Within Z s { t with free := v } ↔ Within Z s t :=
  Within.iff hZ rfl (Within.of_same rfl fun x hx => by cases x <;> first | rfl | simp at hx)
@[simp] theorem within_board (v : Board) (hZ : [.board] ⊆ Z) : Within Z s { t with board := v } ↔ Within Z s t :=
  Within.iff hZ rfl (Within.of_same rfl fun x hx => by cases x <;> first | rfl | simp at hx)
@[simp] theorem within_hub (v : Hub) (hZ : [.hub] ⊆ Z) : Within Z s { t with hub := v } ↔ Within Z s t :=
  Within.iff hZ rfl (Within.of_same rfl fun x hx => by cases x <;> first | rfl | simp at hx)
@[simp] theorem within_mbx (v : Mbx) (hZ : [.mbx] ⊆ Z) : Within Z s { t with mbx := v } ↔ Within Z s t :=
  Within.iff hZ rfl (Within.of_same rfl fun x hx => by cases x <;> first | rfl | simp at hx)
@[simp] theorem within_rgn (v : Rgn) (hZ : [.rgn] ⊆ Z) : Within Z s { t with rgn := v } ↔ Within Z s t :=
  Within.iff hZ rfl (Within.of_same rfl fun x hx => by cases x <;> first | rfl | simp at hx)
@[simp] theorem within_lode (v : Lodes) (hZ : [.lode] ⊆ Z) : Within Z s { t with lode := v } ↔ Within Z s t :=
  Within.iff hZ rfl (Within.of_same rfl fun x hx => by cases x <;> first | rfl | simp at hx)
@[simp] theorem within_xlat (v : Xlat) (hZ : [.xlat] ⊆ Z) : Within Z s { t with xlat := v } ↔ Within Z s t :=
  Within.iff hZ rfl (Within.of_same rfl fun x hx => by cases x <;> first | rfl | simp at hx)
@[simp] theorem within_eng (v : Eng) (hZ : [.eng] ⊆ Z) : Within Z s { t with eng := v } ↔ Within Z s t :=
  Within.iff hZ rfl (Within.of_same rfl fun x hx => by cases x <;> first | rfl | simp at hx)
@[simp] theorem within_attn (v : Attn) (hZ : [.attn] ⊆ Z) : Within Z s { t with attn := v } ↔ Within Z s t :=
  Within.iff hZ rfl (Within.of_same rfl fun x hx => by cases x <;> first | rfl | simp at hx)
@[simp] theorem within_form (v : Form) (hZ : [.form] ⊆ Z) : Within Z s { t with form := v } ↔ Within Z s t :=
  Within.iff hZ rfl (Within.of_same rfl fun x hx => by cases x <;> first | rfl | simp at hx)
@[simp] theorem within_retr (v : Retr) (hZ : [.retr] ⊆ Z) : Within Z s { t with retr := v } ↔ Within Z s t :=
  Within.iff hZ rfl (Within.of_same rfl fun x hx => by cases x <;> first | rfl | simp at hx)
@[simp] theorem within_couch (v : Couch) (hZ : [.couch] ⊆ Z) : Within Z s { t with couch := v } ↔ Within Z s t :=
  Within.iff hZ rfl (Within.of_same rfl fun x hx => by cases x <;> first | rfl | simp at hx)
@[simp] theorem within_link (v : Links) (hZ : [.link] ⊆ Z) : Within Z s { t with link := v } ↔ Within Z s t :=
  Within.iff hZ rfl (Within.of_same rfl fun x hx => by cases x <;> first | rfl | simp at hx)
@[simp] theorem within_cal (v : Cal) (hZ : [.cal] ⊆ Z) : Within Z s { t with cal := v } ↔ Within Z s t :=
  Within.iff hZ rfl (Within.of_same rfl fun x hx => by cases x <;> first | rfl | simp at hx)
@[simp] theorem within_laid (v : Laid) (hZ : [.laid] ⊆ Z) : Within Z s { t with laid := v } ↔ Within Z s t :=
  Within.iff hZ rfl (Within.of_same rfl fun x hx => by cases x <;> first | rfl | simp at hx)
@[simp] theorem within_pair (v : Pair) (hZ : [.pair] ⊆ Z) : Within Z s { t with pair := v } ↔ Within Z s t :=
  Within.iff hZ rfl (Within.of_same rfl fun x hx => by cases x <;> first | rfl | simp at hx)
@[simp] theorem within_sec (v : Sec) (hZ : [.sec] ⊆ Z) : Within Z s { t with sec := v } ↔ Within Z s t :=
  Within.iff hZ rfl (Within.of_same rfl fun x hx => by cases x <;> first | rfl | simp at hx)
@[simp] theorem within_pkg (v : Pkg) (hZ : [.pkg] ⊆ Z) : Within Z s { t with pkg := v } ↔ Within Z s t :=
  Within.iff hZ rfl (Within.of_same rfl fun x hx => by cases x <;> first | rfl | simp at hx)
@[simp] theorem within_mem (v : Mem) (hv : v.cells = t.mem.cells) (hZ : [.mem] ⊆ Z) : Within Z s { t with mem := v } ↔ Within Z s t :=
  Within.iff hZ rfl (Within.of_same rfl fun x hx => by cases x <;> first | rfl | exact hv | simp at hx)
@[simp] theorem within_part (v : Part) (hv : v.granules = t.part.granules) (hZ : [.part] ⊆ Z) : Within Z s { t with part := v } ↔ Within Z s t :=
  Within.iff hZ rfl (Within.of_same rfl fun x hx => by cases x <;> first | rfl | exact hv | simp at hx)
@[simp] theorem within_hub_pkg (v0 : Hub) (v1 : Pkg) (hZ : [.hub, .pkg] ⊆ Z) :
    Within Z s { t with hub := v0, pkg := v1 } ↔ Within Z s t :=
  Within.iff hZ rfl (Within.of_same rfl fun x hx => by cases x <;> first | rfl | simp at hx)
@[simp] theorem within_free_pkg (v0 : Nat) (v1 : Pkg) (hZ : [.free, .pkg] ⊆ Z) :
    Within Z s { t with free := v0, pkg := v1 } ↔ Within Z s t :=
  Within.iff hZ rfl (Within.of_same rfl fun x hx => by cases x <;> first | rfl | simp at hx)
@[simp] theorem within_pkg_laid (v0 : Pkg) (v1 : Laid) (hZ : [.pkg, .laid] ⊆ Z) :
    Within Z s { t with pkg := v0, laid := v1 } ↔ Within Z s t :=
  Within.iff hZ rfl (Within.of_same rfl fun x hx => by cases x <;> first | rfl | simp at hx)
@[simp] theorem within_pkg_link (v0 : Pkg) (v1 : Links) (hZ : [.pkg, .link] ⊆ Z) :
    Within Z s { t with pkg := v0, link := v1 } ↔ Within Z s t :=
  Within.iff hZ rfl (Within.of_same rfl fun x hx => by cases x <;> first | rfl | simp at hx)
@[simp] theorem within_sec_pair (v0 : Sec) (v1 : Pair) (hZ : [.sec, .pair] ⊆ Z) :
    Within Z s { t with sec := v0, pair := v1 } ↔ Within Z s t :=
  Within.iff hZ rfl (Within.of_same rfl fun x hx => by cases x <;> first | rfl | simp at hx)
@[simp] theorem within_now_laid (v0 : Nat) (v1 : Laid) (hZ : [.now, .laid] ⊆ Z) :
    Within Z s { t with now := v0, laid := v1 } ↔ Within Z s t :=
  Within.iff hZ rfl (Within.of_same rfl fun x hx => by cases x <;> first | rfl | simp at hx)
@[simp] theorem within_part_cal (v0 : Part) (v1 : Cal) (hg : v0.granules = t.part.granules) (hZ : [.part, .cal] ⊆ Z) :
    Within Z s { t with part := v0, cal := v1 } ↔ Within Z s t :=
  Within.iff hZ rfl (Within.of_same rfl fun x hx => by cases x <;> first | rfl | exact hg | simp at hx)
@[simp] theorem within_part_mbx (v0 : Part) (v1 : Mbx) (hg : v0.granules = t.part.granules) (hZ : [.part, .mbx] ⊆ Z) :
    Within Z s { t with part := v0, mbx := v1 } ↔ Within Z s t :=
  Within.iff hZ rfl (Within.of_same rfl fun x hx => by cases x <;> first | rfl | exact hg | simp at hx)
@[simp] theorem within_part_sec (v0 : Part) (v1 : Sec) (hg : v0.granules = t.part.granules) (hZ : [.part, .sec] ⊆ Z) :
    Within Z s { t with part := v0, sec := v1 } ↔ Within Z s t :=
  Within.iff hZ rfl (Within.of_same rfl fun x hx => by cases x <;> first | rfl | exact hg | simp at hx)
@[simp] theorem within_hub_cal (v0 : Hub) (v1 : Cal) (hZ : [.hub, .cal] ⊆ Z) :
    Within Z s { t with hub := v0, cal := v1 } ↔ Within Z s t :=
  Within.iff hZ rfl (Within.of_same rfl fun x hx => by cases x <;> first | rfl | simp at hx)
@[simp] theorem within_mbx_pkg (v0 : Mbx) (v1 : Pkg) (hZ : [.mbx, .pkg] ⊆ Z) :
    Within Z s { t with mbx := v0, pkg := v1 } ↔ Within Z s t :=
  Within.iff hZ rfl (Within.of_same rfl fun x hx => by cases x <;> first | rfl | simp at hx)
@[simp] theorem within_mem_pair (v0 : Mem) (v1 : Pair) (hv : v0.cells = t.mem.cells) (hZ : [.mem, .pair] ⊆ Z) :
    Within Z s { t with mem := v0, pair := v1 } ↔ Within Z s t :=
  Within.iff hZ rfl (Within.of_same rfl fun x hx => by cases x <;> first | rfl | exact hv | simp at hx)
@[simp] theorem within_mbx_hub (v0 : Mbx) (v1 : Hub) (hZ : [.mbx, .hub] ⊆ Z) :
    Within Z s { t with mbx := v0, hub := v1 } ↔ Within Z s t :=
  Within.iff hZ rfl (Within.of_same rfl fun x hx => by cases x <;> first | rfl | simp at hx)
@[simp] theorem within_free_hub (v0 : Nat) (v1 : Hub) (hZ : [.free, .hub] ⊆ Z) :
    Within Z s { t with free := v0, hub := v1 } ↔ Within Z s t :=
  Within.iff hZ rfl (Within.of_same rfl fun x hx => by cases x <;> first | rfl | simp at hx)
@[simp] theorem within_form_eng_couch (v0 : Form) (v1 : Eng) (v2 : Couch) (hZ : [.form, .eng, .couch] ⊆ Z) :
    Within Z s { t with form := v0, eng := v1, couch := v2 } ↔ Within Z s t :=
  Within.iff hZ rfl (Within.of_same rfl fun x hx => by cases x <;> first | rfl | simp at hx)
@[simp] theorem within_part_sec_pair (v0 : Part) (v1 : Sec) (v2 : Pair) (hg : v0.granules = t.part.granules) (hZ : [.part, .sec, .pair] ⊆ Z) :
    Within Z s { t with part := v0, sec := v1, pair := v2 } ↔ Within Z s t :=
  Within.iff hZ rfl (Within.of_same rfl fun x hx => by cases x <;> first | rfl | exact hg | simp at hx)
@[simp] theorem within_part_mbx_hub (v0 : Part) (v1 : Mbx) (v2 : Hub) (hg : v0.granules = t.part.granules) (hZ : [.part, .mbx, .hub] ⊆ Z) :
    Within Z s { t with part := v0, mbx := v1, hub := v2 } ↔ Within Z s t :=
  Within.iff hZ rfl (Within.of_same rfl fun x hx => by cases x <;> first | rfl | exact hg | simp at hx)
@[simp] theorem within_part_xlat_hub (v0 : Part) (v1 : Xlat) (v2 : Hub) (hg : v0.granules = t.part.granules) (hZ : [.part, .xlat, .hub] ⊆ Z) :
    Within Z s { t with part := v0, xlat := v1, hub := v2 } ↔ Within Z s t :=
  Within.iff hZ rfl (Within.of_same rfl fun x hx => by cases x <;> first | rfl | exact hg | simp at hx)
@[simp] theorem within_part_lode_mbx_eng (v0 : Part) (v1 : Lodes) (v2 : Mbx) (v3 : Eng) (hg : v0.granules = t.part.granules) (hZ : [.part, .lode, .mbx, .eng] ⊆ Z) :
    Within Z s { t with part := v0, lode := v1, mbx := v2, eng := v3 } ↔ Within Z s t :=
  Within.iff hZ rfl (Within.of_same rfl fun x hx => by cases x <;> first | rfl | exact hg | simp at hx)
@[simp] theorem within_sec_hub_mbx_pair (v0 : Sec) (v1 : Hub) (v2 : Mbx) (v3 : Pair) (hZ : [.sec, .hub, .mbx, .pair] ⊆ Z) :
    Within Z s { t with sec := v0, hub := v1, mbx := v2, pair := v3 } ↔ Within Z s t :=
  Within.iff hZ rfl (Within.of_same rfl fun x hx => by cases x <;> first | rfl | simp at hx)
@[simp] theorem within_rgn_retr_attn_xlat_eng (v0 : Rgn) (v1 : Retr) (v2 : Attn) (v3 : Xlat) (v4 : Eng) (hZ : [.rgn, .retr, .attn, .xlat, .eng] ⊆ Z) :
    Within Z s { t with rgn := v0, retr := v1, attn := v2, xlat := v3, eng := v4 } ↔ Within Z s t :=
  Within.iff hZ rfl (Within.of_same rfl fun x hx => by cases x <;> first | rfl | simp at hx)
@[simp] theorem within_part_lode_couch_xlat_mem_mbx (v0 : Part) (v1 : Lodes) (v2 : Couch) (v3 : Xlat) (v4 : Mem) (v5 : Mbx) (hg : v0.granules = t.part.granules) (hv : v4.cells = t.mem.cells) (hZ : [.part, .lode, .couch, .xlat, .mem, .mbx] ⊆ Z) :
    Within Z s { t with part := v0, lode := v1, couch := v2, xlat := v3, mem := v4, mbx := v5 } ↔ Within Z s t :=
  Within.iff hZ rfl (Within.of_same rfl fun x hx => by cases x <;> first | rfl | exact hg | exact hv | simp at hx)
@[simp] theorem within_part_rgn_lode_eng_attn_retr_sec (v0 : Part) (v1 : Rgn) (v2 : Lodes) (v3 : Eng) (v4 : Attn) (v5 : Retr) (v6 : Sec) (hg : v0.granules = t.part.granules) (hZ : [.part, .rgn, .lode, .eng, .attn, .retr, .sec] ⊆ Z) :
    Within Z s { t with part := v0, rgn := v1, lode := v2, eng := v3, attn := v4, retr := v5, sec := v6 } ↔ Within Z s t :=
  Within.iff hZ rfl (Within.of_same rfl fun x hx => by cases x <;> first | rfl | exact hg | simp at hx)

/-! ## Branches and loops -/

@[simp] theorem within_ite (p : Prop) [Decidable p] : Within Z s (if p then t else u) ↔ if p then Within Z s t else Within Z s u := by
  split <;> rfl

@[simp] theorem within_ite_fst {β : Type} (p : Prop) [Decidable p] (a b : State × β) :
    Within Z s (if p then a else b).1 ↔ if p then Within Z s a.1 else Within Z s b.1 := by
  split <;> rfl

/-- A loop of steps each of which is within the footprint. -/
theorem within_foldl {α : Type} (l : List α) (f : State → α → State) (h : ∀ a x, Within Z a (f a x)) (hx : Within Z s t) :
    Within Z s (l.foldl f t) := by
  induction l generalizing t with
  | nil => exact hx
  | cons x l ih => exact ih (hx.trans (h t x))

/-- A loop of steps on a state and a value, each of which is within the footprint. -/
theorem within_foldl_fst {α β : Type} (l : List α) (f : State × β → α → State × β) (p : State × β)
    (h : ∀ a x, Within Z a.1 (f a x).1) (hx : Within Z s p.1) : Within Z s (l.foldl f p).1 := by
  induction l generalizing p with
  | nil => exact hx
  | cons x l ih => exact ih _ (hx.trans (h p x))

@[simp] theorem within_foldl_iff {α : Type} (l : List α) (f : State → α → State) (h : ∀ a x, Within Z s (f a x) ↔ Within Z s a) :
    Within Z s (l.foldl f t) ↔ Within Z s t := by
  induction l generalizing t with
  | nil => rfl
  | cons x l ih => exact ih.trans (h t x)

@[simp] theorem within_foldl_fst_iff {α β : Type} (l : List α) (f : State × β → α → State × β) (p : State × β)
    (h : ∀ a x, Within Z s (f a x).1 ↔ Within Z s a.1) : Within Z s (l.foldl f p).1 ↔ Within Z s p.1 := by
  induction l generalizing p with
  | nil => rfl
  | cons x l ih => exact (ih _).trans (h p x)

/-- A pair's first component, by the equation that a match gives. -/
theorem Within.of_fst {β : Type} {p : State × β} {b : β} (e : p = (t, b)) (h : Within Z s p.1) : Within Z s t := by
  subst e; exact h

/-! ## Outcomes -/

/-- A command goes on, and changes the spots `Z` alone. -/
def Goes (Z : List Spot) (s : State) (o : Host.Outcome State Fault Refusal) : Prop :=
  ∃ t, o = .next t ∧ Within Z s t

@[simp] theorem goes_next : Goes Z s (.next t) ↔ Within Z s t := by simp [Goes]

end Sys2Proof.Machine
end

section
namespace Sys2Proof.Machine
variable {Z : List Spot} {s₀ : State}
@[simp] theorem State.advance_within (s : State) (d : Nat) (hZ : [.now, .laid] ⊆ Z) :
    Within Z s₀ (s.advance d) ↔ Within Z s₀ s := Within.iff hZ rfl (by simp [State.advance])
@[simp] theorem State.reach_within (s : State) (t : Nat) (hZ : [.now, .laid] ⊆ Z) :
    Within Z s₀ (s.reach t) ↔ Within Z s₀ s := Within.iff hZ rfl (by simp [State.reach])
@[simp] theorem State.reachDom_within (s : State) (t : Nat) (hZ : [.now, .laid] ⊆ Z) :
    Within Z s₀ (s.reachDom t) ↔ Within Z s₀ s := Within.iff hZ rfl (by simp [State.reachDom])
@[simp] theorem State.draw_within (s : State) (n : Nat) (hZ : [.free] ⊆ Z) :
    Within Z s₀ (s.draw n).2 ↔ Within Z s₀ s := Within.iff hZ rfl (by simp [State.draw])
@[simp] theorem State.unlessTripped_within (s t : State) (hs : Within Z s₀ s) (ht : Within Z s₀ t) : Within Z s₀ (s.unlessTripped t) := by
  unfold State.unlessTripped; split <;> assumption
@[simp] theorem State.pins_within (s : State) (hZ : [.pkg] ⊆ Z) :
    Within Z s₀ s.pins ↔ Within Z s₀ s := Within.iff hZ rfl (by simp [State.pins])
@[simp] theorem State.setPhase_within (s : State) (p : Phase) (hZ : [.hub, .pkg] ⊆ Z) :
    Within Z s₀ (s.setPhase p) ↔ Within Z s₀ s := Within.iff hZ rfl (by simp [State.setPhase])
@[simp] theorem State.setPort_within (s : State) (p : Nat) (x : Port) (hZ : [.link] ⊆ Z) :
    Within Z s₀ (s.setPort p x) ↔ Within Z s₀ s := Within.iff hZ rfl (by simp [State.setPort])
@[simp] theorem State.modPort_within (s : State) (p : Nat) (f : Port → Port) (hZ : [.link] ⊆ Z) :
    Within Z s₀ (s.modPort p f) ↔ Within Z s₀ s := Within.iff hZ rfl (by simp [State.modPort])
@[simp] theorem State.enqueue_within (s : State) (p vc queue deckle : Nat) (m : Msg) (cls : Nat) (hZ : [.link] ⊆ Z) :
    Within Z s₀ (s.enqueue p vc queue deckle m cls) ↔ Within Z s₀ s := Within.iff hZ rfl (by simp [State.enqueue])
@[simp] theorem State.bypassSlot_within (s : State) (p : Nat) (m : Slot) (hZ : [.link] ⊆ Z) :
    Within Z s₀ (s.bypassSlot p m) ↔ Within Z s₀ s := Within.iff hZ rfl (by simp [State.bypassSlot])
@[simp] theorem State.sendEp_within (s : State) (ep vc queue deckle : Nat) (m : Msg) (cls : Nat) (hZ : [.link] ⊆ Z) :
    Within Z s₀ (s.sendEp ep vc queue deckle m cls) ↔ Within Z s₀ s := Within.iff hZ rfl (by unfold State.sendEp; (repeat' split) <;> simp)
@[simp] theorem State.sendHeld_within (s : State) (ep vc queue deckle : Nat) (m : Msg) (cls : Nat) (hZ : [.mbx, .link] ⊆ Z) :
    Within Z s₀ (s.sendHeld ep vc queue deckle m cls) ↔ Within Z s₀ s := Within.iff hZ rfl (by unfold State.sendHeld; split <;> simp)
@[simp] theorem State.pumpRingIf_within (s : State) (may : Bool) (recv : Nat) (hZ : [.mbx, .link] ⊆ Z) :
    Within Z s₀ (s.pumpRingIf may recv) ↔ Within Z s₀ s := Within.iff hZ rfl (by unfold State.pumpRingIf; (repeat' split) <;> simp only [within_self, within_ite, within_ite_fst, within_foldl_iff, within_foldl_fst_iff, within_mbx, State.enqueue_within, List.cons_subset, List.nil_subset, List.mem_cons, true_or, or_true, false_or, and_true, true_and, reduceCtorEq, implies_true, ite_self])
@[simp] theorem State.pumpRing_within (s : State) (recv : Nat) (hZ : [.mbx, .link] ⊆ Z) :
    Within Z s₀ (s.pumpRing recv) ↔ Within Z s₀ s := Within.iff hZ rfl (by simp [State.pumpRing])
@[simp] theorem State.pushRing_within (s : State) (recv : Nat) (dev : Bool) (code deckle source params : Nat) (hZ : [.mbx, .link] ⊆ Z) :
    Within Z s₀ (s.pushRing recv dev code deckle source params) ↔ Within Z s₀ s := Within.iff hZ rfl (by simp [State.pushRing])
@[simp] theorem State.raise_within (s : State) (code : Nat) (who : Recv) (source : Nat) (params : Nat) (about : Nat) (hZ : [.mbx, .link] ⊆ Z) :
    Within Z s₀ (s.raise code who source params about) ↔ Within Z s₀ s := Within.iff hZ rfl (by unfold State.raise; (repeat' split) <;> simp)
@[simp] theorem State.eventAcked_within (s : State) (recv seq : Nat) (hZ : [.mbx] ⊆ Z) :
    Within Z s₀ (s.eventAcked recv seq) ↔ Within Z s₀ s := Within.iff hZ rfl (by simp [State.eventAcked])
@[simp] theorem State.discardHeld_within (s : State) (test : Nat → Nat → Bool) (hZ : [.hub, .mbx] ⊆ Z) :
    Within Z s₀ (s.discardHeld test) ↔ Within Z s₀ s := Within.iff hZ rfl (by simp [State.discardHeld])
@[simp] theorem State.deliverHeld_within (s : State) (ep : Nat) (hZ : [.mbx, .link] ⊆ Z) :
    Within Z s₀ (s.deliverHeld ep) ↔ Within Z s₀ s := Within.iff hZ rfl (by unfold State.deliverHeld; split <;> simp)
@[simp] theorem State.setEvEp_within (s : State) (deckle ep : Nat) (hZ : [.mbx, .link] ⊆ Z) :
    Within Z s₀ (s.setEvEp deckle ep) ↔ Within Z s₀ s := Within.iff hZ rfl (by simp [State.setEvEp])
@[simp] theorem State.setLease_within (s : State) (d ep : Nat) (l : Option Lease) (hZ : [.part] ⊆ Z) :
    Within Z s₀ (s.setLease d ep l) ↔ Within Z s₀ s := Within.iff hZ rfl (by simp [State.setLease])
@[simp] theorem State.modDeckle_within (s : State) (d : Nat) (f : Deckle → Deckle) (hZ : [.part] ⊆ Z) :
    Within Z s₀ (s.modDeckle d f) ↔ Within Z s₀ s := Within.iff hZ rfl (by simp [State.modDeckle])
@[simp] theorem State.modExtent_within (s : State) (x : Nat) (f : Extent → Extent) (hZ : [.part] ⊆ Z) :
    Within Z s₀ (s.modExtent x f) ↔ Within Z s₀ s := Within.iff hZ rfl (by simp [State.modExtent])
@[simp] theorem State.canon_within (s : State) (hZ : [.cells] ⊆ Z) (hx : Within Z s₀ s) : Within Z s₀ s.canon :=
  hx.step hZ ⟨fun x h => by cases x <;> first | rfl | simp at h, fun h => s.canon_wf ((Memory.wf_iff s).mp h).1⟩
@[simp] theorem State.putCell_within (s : State) (t : Tier) (line : Nat) (c : Cell) (hZ : [.cells] ⊆ Z) (hx : Within Z s₀ s) :
    Within Z s₀ (s.putCell t line c) :=
  hx.step hZ ⟨fun x h => by cases x <;> first | rfl | simp at h, (s.putCell_memOp t line c).2⟩
@[simp] theorem State.mismatch_within (s : State) (d : Nat) (hZ : [.part] ⊆ Z) :
    Within Z s₀ (s.mismatch d) ↔ Within Z s₀ s := Within.iff hZ rfl (by simp [State.mismatch])
@[simp] theorem State.fillTlb_within (s : State) (core d : Nat) (lines : List Nat) (refs : List LineRef) (hZ : [.xlat] ⊆ Z) :
    Within Z s₀ (s.fillTlb core d lines refs) ↔ Within Z s₀ s := Within.iff hZ rfl (by simp [State.fillTlb])
@[simp] theorem State.dropTlb_within (s : State) (d : Nat) (hZ : [.xlat] ⊆ Z) :
    Within Z s₀ (s.dropTlb d) ↔ Within Z s₀ s := Within.iff hZ rfl (by simp [State.dropTlb])
@[simp] theorem State.pushRecord_within (s : State) (mk : Nat → Msg) (hZ : [.link, .pair] ⊆ Z) :
    Within Z s₀ (s.pushRecord mk).1 ↔ Within Z s₀ s := Within.iff hZ rfl (by simp [State.pushRecord])
@[simp] theorem State.pushMeta_within (s : State) (ep rtag : Nat) (fw : Bool) (last : Bool) (r : MetaRec) (hZ : [.link, .pair] ⊆ Z) :
    Within Z s₀ (s.pushMeta ep rtag fw last r) ↔ Within Z s₀ s := Within.iff hZ rfl (by simp [State.pushMeta])
@[simp] theorem State.markDirty_within (s : State) (r : LineRef) (hZ : [.part] ⊆ Z) :
    Within Z s₀ (s.markDirty r) ↔ Within Z s₀ s := Within.iff hZ rfl (by simp [State.markDirty])
@[simp] theorem State.mirrorWrite_within (s : State) (r : LineRef) (c : Cell) (ep rtag : Nat) (fw last : Bool) (hZ : [.part, .link, .pair] ⊆ Z) :
    Within Z s₀ (s.mirrorWrite r c ep rtag fw last).1 ↔ Within Z s₀ s := Within.iff hZ rfl (by simp [State.mirrorWrite])
@[simp] theorem State.fetchLine_within (s : State) (r : LineRef) (hZ : [.link, .pair] ⊆ Z) :
    Within Z s₀ (s.fetchLine r) ↔ Within Z s₀ s := Within.iff hZ rfl (by simp [State.fetchLine])
@[simp] theorem State.idle_within (s : State) (hZ : [.now, .laid] ⊆ Z) :
    Within Z s₀ s.idle ↔ Within Z s₀ s := Within.iff hZ rfl (by simp [State.idle])
@[simp] theorem State.modGroup_within (s : State) (g : Nat) (f : Group → Group) (hZ : [.mem] ⊆ Z) :
    Within Z s₀ (s.modGroup g f) ↔ Within Z s₀ s := Within.iff hZ rfl (by simp [State.modGroup])
@[simp] theorem State.logRec_within (s : State) (r : LogRec) (hZ : [.mem] ⊆ Z) :
    Within Z s₀ (s.logRec r) ↔ Within Z s₀ s := Within.iff hZ rfl (by simp [State.logRec])
@[simp] theorem State.countCe_within (s : State) (k : Nat) (hZ : [.mem] ⊆ Z) :
    Within Z s₀ (s.countCe k) ↔ Within Z s₀ s := Within.iff hZ rfl (by simp [State.countCe])
@[simp] theorem State.failOut_within (s : State) (g u cause : Nat) (hZ : [.mem] ⊆ Z) :
    Within Z s₀ (s.failOut g u cause) ↔ Within Z s₀ s := Within.iff hZ rfl (by simp [State.failOut])
@[simp] theorem State.countUe_within (s : State) (g u : Nat) (hZ : [.mem] ⊆ Z) :
    Within Z s₀ (s.countUe g u) ↔ Within Z s₀ s := Within.iff hZ rfl (by simp [State.countUe])
@[simp] theorem State.charge_within (s : State) (d cls kind pj : Nat) (hZ : [.part, .cal] ⊆ Z) :
    Within Z s₀ (s.charge d cls kind pj) ↔ Within Z s₀ s := Within.iff hZ rfl (by simp [State.charge])
@[simp] theorem State.chargeDev_within (s : State) (kind pj : Nat) (hZ : [.cal] ⊆ Z) :
    Within Z s₀ (s.chargeDev kind pj) ↔ Within Z s₀ s := Within.iff hZ rfl (by simp [State.chargeDev])
@[simp] theorem State.chargeTier_within (s : State) (d cls : Nat) (t : Tier) (pj n : Nat) (hZ : [.part, .cal] ⊆ Z) :
    Within Z s₀ (s.chargeTier d cls t pj n) ↔ Within Z s₀ s := Within.iff hZ rfl (by unfold State.chargeTier; split <;> simp)
@[simp] theorem State.takeInject_within (s : State) (k row : Nat) (parity : Bool) (hZ : [.mem] ⊆ Z) :
    Within Z s₀ (s.takeInject k row parity).2 ↔ Within Z s₀ s := Within.iff hZ rfl (by unfold State.takeInject; dsimp only; (repeat' split) <;> simp)
@[simp] theorem State.unpoison_within (s : State) (t : Tier) (line : Nat) (hZ : [.mem] ⊆ Z) :
    Within Z s₀ (s.unpoison t line) ↔ Within Z s₀ s := Within.iff hZ rfl (by simp [State.unpoison])
@[simp] theorem State.storeCell_within (s : State) (t : Tier) (line : Nat) (c : Cell) (full : Bool) (hZ : [.cells, .mem] ⊆ Z) (hx : Within Z s₀ s) :
    Within Z s₀ (s.storeCell t line c full) := hx.step hZ (by
  unfold State.storeCell; dsimp only
  (repeat' split) <;> (try simp only [within_self, within_ite, within_ite_fst, within_foldl_iff, within_foldl_fst_iff, within_mem, State.putCell_within, State.takeInject_within, List.cons_subset, List.nil_subset, List.mem_cons, true_or, or_true, false_or, and_true, true_and, reduceCtorEq, implies_true, ite_self]) <;> (have h1 := Within.of_fst (Z := [.cells, .mem]) (s := s) (by assumption) (by simp); simp only [h1, within_self, within_ite, within_ite_fst, within_foldl_iff, within_foldl_fst_iff, within_mem, State.putCell_within, State.takeInject_within, List.cons_subset, List.nil_subset, List.mem_cons, true_or, or_true, false_or, and_true, true_and, reduceCtorEq, implies_true, ite_self]))
@[simp] theorem State.dualWrite_within (s : State) (r : LineRef) (c : Cell) (full : Bool) (hZ : [.cells, .mem, .part, .link, .pair] ⊆ Z) (hx : Within Z s₀ s) :
    Within Z s₀ (s.dualWrite r c full) := hx.step hZ (by unfold State.dualWrite; split <;> simp)
@[simp] theorem State.storeLine_within (s : State) (r : LineRef) (c : Cell) (full : Bool) (hZ : [.cells, .mem, .part, .link, .pair] ⊆ Z) (hx : Within Z s₀ s) :
    Within Z s₀ (s.storeLine r c full) := hx.step hZ (by simp [State.storeLine])
@[simp] theorem State.poisonAt_within (s : State) (r : LineRef) (cause idx : Nat) (hZ : [.cells, .mem] ⊆ Z) (hx : Within Z s₀ s) :
    Within Z s₀ (s.poisonAt r cause idx) := hx.step hZ (by unfold State.poisonAt; dsimp only; (repeat' split) <;> simp)
@[simp] theorem State.poisonLine_within (s : State) (r : LineRef) (cause : Nat) (hZ : [.cells, .mem] ⊆ Z) (hx : Within Z s₀ s) :
    Within Z s₀ (s.poisonLine r cause) := hx.step hZ (by simp [State.poisonLine])
@[simp] theorem State.endPoison_within (s : State) (r : LineRef) (cause : Nat) (hZ : [.cells, .mem, .link, .pair] ⊆ Z) (hx : Within Z s₀ s) :
    Within Z s₀ (s.endPoison r cause).1 := hx.step hZ (by simp [State.endPoison])
@[simp] theorem State.reconstruct_within (s : State) (r : LineRef) (step4 : Bool) (cls : Nat) (hZ : [.cells, .mem, .part, .link, .cal, .pair] ⊆ Z) (hx : Within Z s₀ s) :
    Within Z s₀ (s.reconstruct r step4 cls).1 := hx.step hZ (by unfold State.reconstruct; dsimp only; (repeat' split) <;> simp)
@[simp] theorem State.readLineN_within (s : State) (r : LineRef) (cls : Nat) (hZ : [.cells, .mem, .part, .link, .cal, .pair] ⊆ Z) (hx : Within Z s₀ s) :
    Within Z s₀ (s.readLineN r cls).1 := hx.step hZ (by unfold State.readLineN; dsimp only; (repeat' split) <;> simp)
@[simp] theorem State.readLine_within (s : State) (r : LineRef) (cls : Nat) (hZ : [.cells, .mem, .part, .link, .cal, .pair] ⊆ Z) (hx : Within Z s₀ s) :
    Within Z s₀ (s.readLine r cls).1 := hx.step hZ (by simp [State.readLine])
@[simp] theorem State.readLines_within (s : State) (rs : List LineRef) (cls : Nat) (hZ : [.cells, .mem, .part, .link, .cal, .pair] ⊆ Z)
    (hx : Within Z s₀ s) : Within Z s₀ (s.readLines rs cls).1 := by
  induction rs generalizing s with
  | nil => exact hx
  | cons r rs ih =>
    have h1 : Within Z s₀ (s.readLine r cls).1 := by simp_all
    unfold State.readLines
    split
    · next s1 d e =>
      have h2 := ih s1 (.of_fst e h1)
      split <;> simp_all
    · simp_all
@[simp] theorem State.writeWhole_within (s : State) (r : LineRef) (data : Line) (full : Bool) (o : Origin) (hZ : [.cells, .mem, .part, .link, .cal, .pair] ⊆ Z) (hx : Within Z s₀ s) :
    Within Z s₀ (s.writeWhole r data full o).1 := hx.step hZ (by simp [State.writeWhole])
@[simp] theorem State.writeLine_within (s : State) (r : LineRef) (data : Line) (mask : BitVec 64) (full : Bool) (o : Origin) (hZ : [.cells, .mem, .part, .link, .cal, .pair] ⊆ Z) (hx : Within Z s₀ s) :
    Within Z s₀ (s.writeLine r data mask full o).1 := hx.step hZ (by
  unfold State.writeLine; dsimp only
  (repeat' split) <;> (try simp) <;> (have h1 := Within.of_fst (Z := [.cells, .mem, .part, .link, .cal, .pair]) (s := s) (by assumption) (by simp); simp [h1]))
@[simp] theorem State.writeLines_within (s : State) (ls : List (LineRef × Line)) (full : Bool) (o : Origin)
    (hZ : [.cells, .mem, .part, .link, .cal, .pair] ⊆ Z) (hx : Within Z s₀ s) : Within Z s₀ (s.writeLines ls full o).1 := hx.step hZ
  (within_foldl_fst _ _ _ (fun a x => by simp) (.refl _ _))
@[simp] theorem State.closeAsm_within (s : State) (stripe : Nat) (hZ : [.cells, .mem, .part, .link, .cal, .pair] ⊆ Z)
    (hx : Within Z s₀ s) : Within Z s₀ (s.closeAsm stripe) := hx.step hZ (by
  unfold State.closeAsm
  split
  · simp
  · exact within_foldl _ _ (fun a x => by split <;> simp) (by simp))
@[simp] theorem State.closeAsmOf_within (s : State) (t : Tier) (line : Nat) (hZ : [.cells, .mem, .part, .link, .cal, .pair] ⊆ Z) (hx : Within Z s₀ s) :
    Within Z s₀ (s.closeAsmOf t line) := hx.step hZ (by simp [State.closeAsmOf])
@[simp] theorem State.assemble_within (s : State) (r : LineRef) (data : Line) (o : Origin) (hZ : [.cells, .mem, .part, .link, .cal, .pair] ⊆ Z) (hx : Within Z s₀ s) :
    Within Z s₀ (s.assemble r data o).1 := hx.step hZ (by unfold State.assemble; dsimp only; (repeat' split) <;> simp)
@[simp] theorem State.readBytes_within (s : State) (d pva n : Nat) (hZ : [.cells, .mem, .part, .link, .cal, .pair] ⊆ Z)
    (hx : Within Z s₀ s) : Within Z s₀ (s.readBytes d pva n).1 := hx.step hZ (by
  unfold State.readBytes
  dsimp only
  split
  · split <;> exact Within.of_fst (by assumption) (by simp)
  · simp
  · simp)
@[simp] theorem State.writeBytes_within (s : State) (d pva n v : Nat) (hZ : [.cells, .mem, .part, .link, .cal, .pair] ⊆ Z)
    (hx : Within Z s₀ s) : Within Z s₀ (s.writeBytes d pva n v) := hx.step hZ (by
  unfold State.writeBytes
  split
  · exact within_foldl_fst _ _ _ (fun a x => by simp) (.refl _ _)
  · simp)
@[simp] theorem State.police_within (s : State) (p d cls n : Nat) (hZ : [.part, .cal] ⊆ Z) :
    Within Z s₀ (s.police p d cls n).1 ↔ Within Z s₀ s := Within.iff hZ rfl (by unfold State.police; dsimp only; (repeat' split) <;> simp)
@[simp] theorem State.takeShape_within (s : State) (p : Nat) (e : Egress) (hZ : [.part, .cal] ⊆ Z) :
    Within Z s₀ (s.takeShape p e) ↔ Within Z s₀ s := Within.iff hZ rfl (by simp [State.takeShape])
@[simp] theorem State.energyFull_within (s : State) (d : Nat) (hZ : [.mbx, .part, .link] ⊆ Z) :
    Within Z s₀ (s.energyFull d) ↔ Within Z s₀ s := Within.iff hZ rfl (by simp [State.energyFull])
@[simp] theorem State.admitEnergy_within (s : State) (d x : Nat) (hZ : [.mbx, .part, .link] ⊆ Z) :
    Within Z s₀ (s.admitEnergy d x).1 ↔ Within Z s₀ s := Within.iff hZ rfl (by unfold State.admitEnergy; dsimp only; (repeat' split) <;> simp)
@[simp] theorem State.freeBuf_within (s : State) (p vc n : Nat) (hZ : [.link] ⊆ Z) :
    Within Z s₀ (s.freeBuf p vc n) ↔ Within Z s₀ s := Within.iff hZ rfl (by simp [State.freeBuf])
@[simp] theorem State.grantShared_within (s : State) (p : Nat) (hZ : [.link] ⊆ Z) :
    Within Z s₀ (s.grantShared p) ↔ Within Z s₀ s := Within.iff hZ rfl (by simp [State.grantShared])
@[simp] theorem State.returnCredits_within (s : State) (p : Nat) (hZ : [.link] ⊆ Z) :
    Within Z s₀ (s.returnCredits p) ↔ Within Z s₀ s := Within.iff hZ rfl (by simp [State.returnCredits])
@[simp] theorem State.freeEp_within (s : State) (ep : Nat) (hZ : [.hub, .mbx, .part] ⊆ Z) :
    Within Z s₀ (s.freeEp ep) ↔ Within Z s₀ s := Within.iff hZ rfl (by simp [State.freeEp])
@[simp] theorem State.freeIfIdle_within (s : State) (ep : Nat) (hZ : [.hub, .mbx, .part] ⊆ Z) :
    Within Z s₀ (s.freeIfIdle ep) ↔ Within Z s₀ s := Within.iff hZ rfl (by unfold State.freeIfIdle; split <;> simp)
@[simp] theorem State.delivered_within (s : State) (l : List Msg) (hZ : [.mbx] ⊆ Z) : Within Z s₀ (s.delivered l) ↔ Within Z s₀ s :=
  Within.iff hZ rfl (within_foldl _ _ (fun a x => by split <;> simp) (.refl _ _))
@[simp] theorem State.freeBefore_within (s : State) (p n : Nat) (hZ : [.mbx, .link] ⊆ Z) :
    Within Z s₀ (s.freeBefore p n) ↔ Within Z s₀ s := Within.iff hZ rfl (by simp [State.freeBefore])
@[simp] theorem State.freeBefore8_within (s : State) (p n : Nat) (hZ : [.link] ⊆ Z) :
    Within Z s₀ (s.freeBefore8 p n) ↔ Within Z s₀ s := Within.iff hZ rfl (by simp [State.freeBefore8])
@[simp] theorem State.resendRecords_within (s : State) (p : Nat) (hZ : [.link, .pair] ⊆ Z) :
    Within Z s₀ (s.resendRecords p) ↔ Within Z s₀ s := Within.iff hZ rfl (by simp [State.resendRecords])
@[simp] theorem State.portDown_within (s : State) (p cause : Nat) (hZ : [.hub, .mbx, .part, .link, .pair] ⊆ Z) :
    Within Z s₀ (s.portDown p cause) ↔ Within Z s₀ s := Within.iff hZ rfl (by unfold State.portDown; simp only [within_self, within_ite, within_ite_fst, within_foldl_iff, within_foldl_fst_iff, within_mbx, State.freeIfIdle_within, State.raise_within, State.resendRecords_within, State.setPort_within, List.cons_subset, List.nil_subset, List.mem_cons, true_or, or_true, false_or, and_true, true_and, reduceCtorEq, implies_true, ite_self])
@[simp] theorem State.startRetrain_within (s : State) (p cause width : Nat) (own : Bool) (hZ : [.link] ⊆ Z) :
    Within Z s₀ (s.startRetrain p cause width own) ↔ Within Z s₀ s := Within.iff hZ rfl (by simp [State.startRetrain])
@[simp] theorem State.replayFrom_within (s : State) (p n : Nat) (hZ : [.hub, .mbx, .part, .link, .pair] ⊆ Z) :
    Within Z s₀ (s.replayFrom p n) ↔ Within Z s₀ s := Within.iff hZ rfl (by simp [State.replayFrom])
@[simp] theorem State.replayFrom8_within (s : State) (p n : Nat) (hZ : [.hub, .mbx, .part, .link, .pair] ⊆ Z) :
    Within Z s₀ (s.replayFrom8 p n) ↔ Within Z s₀ s := Within.iff hZ rfl (by simp [State.replayFrom8])
@[simp] theorem State.announce_within (s : State) (fn index : Nat) (lost : Option Nat) (filled : Bool) (peer : Option Nat) (hZ : [.mbx, .link, .pkg] ⊆ Z) :
    Within Z s₀ (s.announce fn index lost filled peer) ↔ Within Z s₀ s := Within.iff hZ rfl (by simp [State.announce])
@[simp] theorem State.wakePort_within (s : State) (p : Nat) (hZ : [.mbx, .link] ⊆ Z) :
    Within Z s₀ (s.wakePort p) ↔ Within Z s₀ s := Within.iff hZ rfl (by simp [State.wakePort])
@[simp] theorem State.becomeActive_within (s : State) (p : Nat) (hZ : [.mbx, .link, .pkg] ⊆ Z) :
    Within Z s₀ (s.becomeActive p) ↔ Within Z s₀ s := Within.iff hZ rfl (by simp [State.becomeActive])
@[simp] theorem State.sendKeyx_within (s : State) (p epoch : Nat) (hZ : [.free, .link] ⊆ Z) :
    Within Z s₀ (s.sendKeyx p epoch) ↔ Within Z s₀ s := Within.iff hZ rfl (by simp [State.sendKeyx])
@[simp] theorem State.startKeyx_within (s : State) (p : Nat) (hZ : [.free, .link] ⊆ Z) :
    Within Z s₀ (s.startKeyx p) ↔ Within Z s₀ s := Within.iff hZ rfl (by simp [State.startKeyx])
@[simp] theorem State.takeKeyx_within (s : State) (p : Nat) (m : KeyxMsg) (hZ : [.free, .hub, .mbx, .part, .link, .pair, .pkg] ⊆ Z) :
    Within Z s₀ (s.takeKeyx p m) ↔ Within Z s₀ s := Within.iff hZ rfl (by simp [State.takeKeyx])
@[simp] theorem State.keyPort_within (s : State) (p : Nat) (hZ : [.free, .hub, .mbx, .part, .link, .pair, .pkg] ⊆ Z) :
    Within Z s₀ (s.keyPort p) ↔ Within Z s₀ s := Within.iff hZ rfl (by unfold State.keyPort; dsimp only; (repeat' split) <;> simp)
@[simp] theorem State.keyPorts_within (s : State) (hZ : [.free, .hub, .mbx, .part, .link, .pair, .pkg] ⊆ Z) :
    Within Z s₀ s.keyPorts ↔ Within Z s₀ s := Within.iff hZ rfl (by simp [State.keyPorts])
@[simp] theorem State.respond_within (s : State) (q : Req) (r : MbxRsp) (hZ : [.mbx, .link, .pkg] ⊆ Z) :
    Within Z s₀ (s.respond q r) ↔ Within Z s₀ s := Within.iff hZ rfl (by unfold State.respond; split <;> simp)
@[simp] theorem State.fillArea_within (s : State) (q : Req) (a : Ans) (hZ : [.cells, .mem, .part, .link, .cal, .pair] ⊆ Z) (hx : Within Z s₀ s) :
    Within Z s₀ (s.fillArea q a).1 := hx.step hZ (by simp [State.fillArea])
@[simp] theorem State.answerNow_within (s : State) (q : Req) (code accepted : Nat) (a : Ans) (dup : Bool) (hZ : [.mbx, .cells, .mem, .part, .link, .cal, .pair, .pkg] ⊆ Z) (hx : Within Z s₀ s) :
    Within Z s₀ (s.answerNow q code accepted a dup) := hx.step hZ (by simp [State.answerNow])
@[simp] theorem State.answer_within (s : State) (r : Nat) (a : Ans) (hZ : [.mbx, .cells, .mem, .part, .link, .cal, .pair, .pkg] ⊆ Z) (hx : Within Z s₀ s) :
    Within Z s₀ (s.answer r a) := hx.step hZ (by unfold State.answer; split <;> simp)
@[simp] theorem State.answerOpt_within (s : State) (r : Option Nat) (a : Ans) (hZ : [.mbx, .cells, .mem, .part, .link, .cal, .pair, .pkg] ⊆ Z) (hx : Within Z s₀ s) :
    Within Z s₀ (s.answerOpt r a) := hx.step hZ (by unfold State.answerOpt; split <;> simp)
@[simp] theorem State.mirrorCommit_within (old new : State) (ep rtag : Nat) (fw : Bool) (done : List MetaRec) (hZ : [.link, .pair] ⊆ Z) :
    Within Z s₀ (old.mirrorCommit new ep rtag fw done).1 ↔ Within Z s₀ new := Within.iff hZ rfl (by unfold State.mirrorCommit; (repeat' split) <;> simp)
@[simp] theorem State.commitFw_within (old new : State) (hZ : [.link, .pair] ⊆ Z) :
    Within Z s₀ (old.commitFw new) ↔ Within Z s₀ new := Within.iff hZ rfl (by simp [State.commitFw])
@[simp] theorem State.settle_within (old new : State) (r : Option Nat) (a : Ans) (hZ : [.mbx, .cells, .mem, .part, .link, .cal, .pair, .pkg] ⊆ Z) (hx : Within Z s₀ new) :
    Within Z s₀ (old.settle new r a) := hx.step hZ (by unfold State.settle; (repeat' split) <;> simp only [within_self, within_ite, within_ite_fst, within_foldl_iff, within_foldl_fst_iff, within_mbx, State.answer_within, State.commitFw_within, State.mirrorCommit_within, List.cons_subset, List.nil_subset, List.mem_cons, true_or, or_true, false_or, and_true, true_and, reduceCtorEq, implies_true, ite_self])
@[simp] theorem State.renewDriver_within (s : State) (q : Req) (hZ : [.hub] ⊆ Z) :
    Within Z s₀ (s.renewDriver q) ↔ Within Z s₀ s := Within.iff hZ rfl (by simp [State.renewDriver])
@[simp] theorem State.discardPkt_within (s : State) (p : Nat) (hZ : [.link] ⊆ Z) :
    Within Z s₀ (s.discardPkt p) ↔ Within Z s₀ s := Within.iff hZ rfl (by simp [State.discardPkt])
@[simp] theorem State.formCheck_within (s : State) (c : Cmd) (q : Req) (hZ : [.cells, .mem, .part, .link, .cal, .pair] ⊆ Z) (hx : Within Z s₀ s) :
    Within Z s₀ (s.formCheck c q).1 := hx.step hZ (by simp [State.formCheck])
@[simp] theorem State.takeEvreg_within (s : State) (q : Req) (hZ : [.mbx, .link] ⊆ Z) :
    Within Z s₀ (s.takeEvreg q) ↔ Within Z s₀ s := Within.iff hZ rfl (by simp [State.takeEvreg])
end Sys2Proof.Machine
end

section
namespace Sys2Proof.Machine
variable {Z : List Spot} {s₀ : State}
@[simp] theorem State.opened_within (s : State) (c : Cmd) (q : Req) (acc : Nat) (hZ : [.mbx, .link, .pair] ⊆ Z) :
    Within Z s₀ (s.opened c q acc) ↔ Within Z s₀ s := Within.iff hZ rfl (by unfold State.opened; simp only [within_self, within_ite, within_ite_fst, within_foldl_iff, within_foldl_fst_iff, within_mbx, State.pushMeta_within, List.cons_subset, List.nil_subset, List.mem_cons, true_or, or_true, false_or, and_true, true_and, reduceCtorEq, implies_true, ite_self])
@[simp] theorem State.closed_within (s : State) (c : Cmd) (q : Req) (acc r : Nat) (y : State × Option Ans) (hZ : [.mbx, .cells, .mem, .part, .link, .cal, .pair, .pkg] ⊆ Z) (hx : Within Z s₀ y.1) :
    Within Z s₀ (s.closed c q acc r y) := hx.step hZ (by
  unfold State.closed
  dsimp only
  have hm := fun l => (State.mirrorCommit_within (Z := [.link, .pair]) (s₀ := y.1) s y.1 q.ep q.tag false l (by simp)).mpr (.refl _ _)
  split
  · exact State.answer_within _ _ _ (by simp) ((within_mbx _ (by simp)).mpr ((hm _).mono (by simp)))
  · exact (within_mbx _ (by simp)).mpr ((hm _).mono (by simp)))
@[simp] theorem State.conclude_within (s : State) (c : Cmd) (q : Req) (acc : Nat) (act : State → Nat → State × Option Ans)
    (hZ : [.mbx, .cells, .mem, .part, .link, .cal, .pair, .pkg] ⊆ Z) (hact : ∀ u n, Within Z u (act u n).1) (hx : Within Z s₀ s) :
    Within Z s₀ (s.conclude c q acc act) := by
  simp only [List.cons_subset] at hZ
  exact State.closed_within _ _ _ _ _ _ (by simp_all) ((State.opened_within _ _ _ _ (by simp_all)).mpr hx |>.trans (hact _ _))
@[simp] theorem State.commitReq_within (s : State) (c : Cmd) (q : Req) (checks : State → List Check) (act : State → Nat → State × Option Ans)
    (hZ : [.mbx, .cells, .mem, .part, .link, .cal, .pair, .pkg] ⊆ Z) (hact : ∀ u n, Within Z u (act u n).1) (hx : Within Z s₀ s) :
    Within Z s₀ (s.commitReq c q checks act) := by
  simp only [List.cons_subset] at hZ
  have h1 : Within Z s₀ (s.formCheck c q).1 := by simp_all
  unfold State.commitReq
  dsimp only
  (repeat' split) <;> simp_all
@[simp] theorem State.freeReq_within (s : State) (q : Req) (hZ : [.link] ⊆ Z) :
    Within Z s₀ (s.freeReq q) ↔ Within Z s₀ s := Within.iff hZ rfl (by simp [State.freeReq])
@[simp] theorem State.reachBox_within (s : State) (self : Instr) (c : Cmd) (q : Req) (checks : State → List Check) (act : State → Nat → State × Option Ans)
    (hZ : [.mbx, .cells, .mem, .part, .link, .cal, .pair, .pkg] ⊆ Z) (hact : ∀ u n, Within Z u (act u n).1) (hx : Within Z s₀ s) :
    Within Z s₀ (s.reachBox self c q checks act) := by
  simp only [List.cons_subset] at hZ
  unfold State.reachBox
  (repeat' split) <;> simp_all
@[simp] theorem State.serve_within (s : State) (self : Instr) (c : Cmd) (q : Req) (checks : State → List Check) (act : State → Nat → State × Option Ans)
    (hZ : [.hub, .mbx, .cells, .mem, .part, .link, .cal, .pair, .pkg] ⊆ Z) (hact : ∀ u n, Within Z u (act u n).1) (hx : Within Z s₀ s) :
    Within Z s₀ (s.serve self c q checks act) := by
  simp only [List.cons_subset] at hZ
  unfold State.serve
  dsimp only
  (repeat' split) <;> simp_all
@[simp] theorem State.concludeBr_within (s : State) (c : Cmd) (q : Req) (act : State → Nat → State × Option Ans)
    (hZ : [.mbx, .cells, .mem, .part, .link, .cal, .pair, .pkg] ⊆ Z) (hact : ∀ u n, Within Z u (act u n).1) (hx : Within Z s₀ s) :
    Within Z s₀ (s.concludeBr c q act) := by
  simp only [List.cons_subset] at hZ
  unfold State.concludeBr
  dsimp only
  have h1 := fun o : NMap Outst => Within.trans (s := s₀)
    ((within_mbx { s.mbx with nextReply := s.mbx.nextReply + 1, outst := o } (by simp_all)).mpr hx) (hact _ s.mbx.nextReply)
  split <;> simp_all
@[simp] theorem State.reachBr_within (s : State) (c : Cmd) (q : Req) (act : State → Nat → State × Option Ans)
    (hZ : [.mbx, .cells, .mem, .part, .link, .cal, .pair, .pkg] ⊆ Z) (hact : ∀ u n, Within Z u (act u n).1) (hx : Within Z s₀ s) :
    Within Z s₀ (s.reachBr c q act) := by
  simp only [List.cons_subset] at hZ
  unfold State.reachBr
  split <;> simp_all
@[simp] theorem State.serveBr_within (s : State) (c : Cmd) (q : Req) (act : State → Nat → State × Option Ans)
    (hZ : [.mbx, .cells, .mem, .part, .link, .cal, .pair, .pkg] ⊆ Z) (hact : ∀ u n, Within Z u (act u n).1) (hx : Within Z s₀ s) :
    Within Z s₀ (s.serveBr c q act) := by
  simp only [List.cons_subset] at hZ
  unfold State.serveBr
  dsimp only
  (repeat' split) <;> simp_all
@[simp] theorem State.closeReq_within (s : State) (ep tag : Nat) (hZ : [.part, .link] ⊆ Z) :
    Within Z s₀ (s.closeReq ep tag).1 ↔ Within Z s₀ s := Within.iff hZ rfl (by unfold State.closeReq; split <;> simp)
@[simp] theorem State.answerReq_within (s : State) (ep tag deckle : Nat) (st : Status) (len : Nat) (data : List Line) (aux : Nat) (hZ : [.part, .link] ⊆ Z) :
    Within Z s₀ (s.answerReq ep tag deckle st len data aux) ↔ Within Z s₀ s := Within.iff hZ rfl (by simp [State.answerReq])
@[simp] theorem State.refuseReq_within (s : State) (h : Hdr) (st : Status) (aux : Nat) (hZ : [.link] ⊆ Z) :
    Within Z s₀ (s.refuseReq h st aux) ↔ Within Z s₀ s := Within.iff hZ rfl (by simp [State.refuseReq])
@[simp] theorem State.setJob_within (s : State) (j : Nat) (x : Job) (hZ : [.mem] ⊆ Z) :
    Within Z s₀ (s.setJob j x) ↔ Within Z s₀ s := Within.iff hZ rfl (by simp [State.setJob])
@[simp] theorem State.countDrain_within (s : State) (x : Job) (discard : Bool) (hZ : [.part] ⊆ Z) :
    Within Z s₀ (s.countDrain x discard) ↔ Within Z s₀ s := Within.iff hZ rfl (by simp [State.countDrain])
@[simp] theorem State.finishJob_within (s : State) (j : Nat) (hZ : [.mem, .part, .link] ⊆ Z) :
    Within Z s₀ (s.finishJob j) ↔ Within Z s₀ s := Within.iff hZ rfl (by unfold State.finishJob; (repeat' split) <;> simp)
@[simp] theorem State.finishJobs_within (s : State) (hZ : [.mem, .part, .link] ⊆ Z) :
    Within Z s₀ s.finishJobs ↔ Within Z s₀ s := Within.iff hZ rfl (by simp [State.finishJobs])
@[simp] theorem State.discardOn_within (s : State) (x : Nat) (hZ : [.mem, .part, .link] ⊆ Z) :
    Within Z s₀ (s.discardOn x) ↔ Within Z s₀ s := Within.iff hZ rfl (by
  unfold State.discardOn; dsimp only
  (repeat' split) <;> simp (disch := try (intros; (repeat' split) <;> simp (disch := try simp (disch := try simp)) [within_foldl, within_foldl_fst])) [within_foldl, within_foldl_fst])
@[simp] theorem State.setLode_within (s : State) (i : Nat) (l : Lode) (hZ : [.lode] ⊆ Z) :
    Within Z s₀ (s.setLode i l) ↔ Within Z s₀ s := Within.iff hZ rfl (by simp [State.setLode])
@[simp] theorem State.grantLode_within (s : State) (ep tag deckle addr gstate : Nat) (st : Status) (data : Option Line) (hZ : [.part, .link] ⊆ Z) :
    Within Z s₀ (s.grantLode ep tag deckle addr gstate st data) ↔ Within Z s₀ s := Within.iff hZ rfl (by simp [State.grantLode])
@[simp] theorem State.failLode_within (s : State) (deckle : Nat) (w : LodeWork) (st : Status) (hZ : [.mem, .part, .link] ⊆ Z) :
    Within Z s₀ (s.failLode deckle w st) ↔ Within Z s₀ s := Within.iff hZ rfl (by unfold State.failLode; (repeat' split) <;> simp)
@[simp] theorem State.lodeDown_within (s : State) (i cause ep : Nat) (hZ : [.mbx, .cells, .mem, .part, .lode, .link, .cal, .pair, .pkg] ⊆ Z) (hx : Within Z s₀ s) :
    Within Z s₀ (s.lodeDown i cause ep) := hx.step hZ (by
  unfold State.lodeDown; dsimp only
  (repeat' split) <;> simp (disch := try (intros; (repeat' split) <;> simp (disch := try simp (disch := try simp)) [within_foldl, within_foldl_fst])) [within_foldl, within_foldl_fst])
@[simp] theorem State.lodesDown_within (s : State) (test : Nat → Lode → Bool) (cause ep : Nat) (hZ : [.mbx, .cells, .mem, .part, .lode, .link, .cal, .pair, .pkg] ⊆ Z) (hx : Within Z s₀ s) :
    Within Z s₀ (s.lodesDown test cause ep) := hx.step hZ (within_foldl _ _ (fun a i => by simp) (.refl _ _))
@[simp] theorem State.trimCache_within (s : State) (extra : Nat) (hZ : [.form] ⊆ Z) :
    Within Z s₀ (s.trimCache extra) ↔ Within Z s₀ s := Within.iff hZ rfl (by simp [State.trimCache])
@[simp] theorem State.holdRun_within (s : State) (t : Tier) (first n gen owner : Nat) (hZ : [.grans] ⊆ Z) (hx : Within Z s₀ s) : Within Z s₀ (s.holdRun t first n gen owner) :=
  hx.step hZ ⟨fun x h => by cases x <;> first | rfl | simp at h, s.holdRun_wf t first n gen owner⟩
@[simp] theorem State.retireRun_within (s : State) (t : Tier) (first n : Nat) (ver : Bool) (hZ : [.grans] ⊆ Z) (hx : Within Z s₀ s) : Within Z s₀ (s.retireRun t first n ver) :=
  hx.step hZ ⟨fun x h => by cases x <;> first | rfl | simp at h, s.retireRun_wf t first n ver⟩
@[simp] theorem State.zeroRun_within (s : State) (x : Nat) (e : Extent) (hZ : [.cells, .mem, .grans, .part, .cal] ⊆ Z) (hx : Within Z s₀ s) :
    Within Z s₀ (s.zeroRun x e) := hx.step hZ ⟨fun z hz => by
  unfold State.zeroRun
  dsimp only
  refine (Spot.same_iff ((State.chargeTier_within (Z := [.part, .cal]) _ _ _ _ _ _ (by simp)).mpr (.refl _ _) |>.1 z (by simp_all))).mpr ?_
  cases z <;> first | rfl | simp at hz, s.zeroRun_wf x e⟩
@[simp] theorem State.newExtent_within (s : State) (n : NewExtent) (reply : Option Nat) (hZ : [.grans, .part, .form] ⊆ Z) (hx : Within Z s₀ s) :
    Within Z s₀ (s.newExtent n reply).1 := hx.step hZ (by unfold State.newExtent; simp only [within_self, within_ite, within_ite_fst, within_foldl_iff, within_foldl_fst_iff, within_part, State.holdRun_within, State.trimCache_within, List.cons_subset, List.nil_subset, List.mem_cons, true_or, or_true, false_or, and_true, true_and, reduceCtorEq, implies_true, ite_self])
@[simp] theorem State.migrateEvent_within (s : State) (x : Nat) (e : Extent) (m : Migration) (st : Status) (hZ : [.mbx, .link] ⊆ Z) :
    Within Z s₀ (s.migrateEvent x e m st) ↔ Within Z s₀ s := Within.iff hZ rfl (by simp [State.migrateEvent])
@[simp] theorem State.endMigration_within (s : State) (x : Nat) (st : Status) (hZ : [.mbx, .mem, .grans, .part, .link] ⊆ Z) (hx : Within Z s₀ s) :
    Within Z s₀ (s.endMigration x st) := hx.step hZ (by unfold State.endMigration; split <;> simp)
@[simp] theorem State.revokeOne_within (s : State) (x cause timeoutUs : Nat) (reply : Option Nat) (hZ : [.mbx, .cells, .mem, .grans, .part, .lode, .link, .cal, .pair, .pkg] ⊆ Z) (hx : Within Z s₀ s) :
    Within Z s₀ (s.revokeOne x cause timeoutUs reply) := hx.step hZ (by
  unfold State.revokeOne; dsimp only
  (repeat' split) <;> simp (disch := try (intros; (repeat' split) <;> simp (disch := try simp (disch := try simp)) [within_foldl, within_foldl_fst])) [within_foldl, within_foldl_fst])
@[simp] theorem State.modDraft_within (s : State) (i : Nat) (f : Draft → Draft) (hZ : [.rgn] ⊆ Z) :
    Within Z s₀ (s.modDraft i f) ↔ Within Z s₀ s := Within.iff hZ rfl (by simp [State.modDraft])
@[simp] theorem State.runPublishes_within (s : State) (i : Nat) (ws : List PubWait) (hZ : [.mbx, .cells, .mem, .part, .rgn, .link, .cal, .pair, .pkg] ⊆ Z) (hx : Within Z s₀ s) :
    Within Z s₀ (s.runPublishes i ws) := by
  refine hx.step hZ ?_
  clear hx
  induction ws generalizing s with
  | nil => simp [State.runPublishes]
  | cons w ws ih =>
    have ih' : ∀ u, Within [.mbx, .cells, .mem, .part, .rgn, .link, .cal, .pair, .pkg] s u → Within [.mbx, .cells, .mem, .part, .rgn, .link, .cal, .pair, .pkg] s (u.runPublishes i ws) :=
      fun u h => h.trans (ih u)
    unfold State.runPublishes
    dsimp only
    (repeat' split) <;> first | exact ih' _ (by simp (disch := simp)) | simp
@[simp] theorem State.pumpPublishes_within (s : State) (i : Nat) (hZ : [.mbx, .cells, .mem, .part, .rgn, .link, .cal, .pair, .pkg] ⊆ Z) (hx : Within Z s₀ s) :
    Within Z s₀ (s.pumpPublishes i) := hx.step hZ (by unfold State.pumpPublishes; split <;> simp)
@[simp] theorem State.endDraft_within (s : State) (i cause : Nat) (hZ : [.mbx, .cells, .mem, .grans, .part, .rgn, .lode, .link, .cal, .pair, .pkg] ⊆ Z) (hx : Within Z s₀ s) :
    Within Z s₀ (s.endDraft i cause) := hx.step hZ (by
  unfold State.endDraft; dsimp only
  (repeat' split) <;> simp (disch := try (intros; (repeat' split) <;> simp (disch := try simp (disch := try simp)) [within_foldl, within_foldl_fst])) [within_foldl, within_foldl_fst])
@[simp] theorem State.revokeExtent_within (s : State) (x cause timeoutUs : Nat) (reply : Option Nat) (hZ : [.mbx, .cells, .mem, .grans, .part, .rgn, .lode, .link, .cal, .pair, .pkg] ⊆ Z) (hx : Within Z s₀ s) :
    Within Z s₀ (s.revokeExtent x cause timeoutUs reply) := hx.step hZ (by unfold State.revokeExtent; dsimp only; (repeat' split) <;> simp)
@[simp] theorem State.forget_within (s : State) (x : Nat) (d : Nat) (hZ : [.mem, .xlat] ⊆ Z) :
    Within Z s₀ (s.forget x d) ↔ Within Z s₀ s := Within.iff hZ rfl (by simp [State.forget])
@[simp] theorem State.endRevoke_within (s : State) (x : Nat) (timedOut : Bool) (hZ : [.mbx, .cells, .mem, .grans, .part, .xlat, .link, .cal, .pair, .pkg] ⊆ Z) (hx : Within Z s₀ s) :
    Within Z s₀ (s.endRevoke x timedOut) := hx.step hZ (by
  have h1 : Within [.mbx, .cells, .mem, .grans, .part, .xlat, .link, .cal, .pair, .pkg] s (s.discardOn x) := by simp
  unfold State.endRevoke
  dsimp only
  split
  · simp
  · split
    · simp
    · split
      · refine (State.raise_within _ _ _ _ _ _ (by simp)).mpr (State.settle_within _ _ _ _ (by simp) ?_)
        exact (State.forget_within _ _ _ (by simp)).mpr ((within_part _ (by rfl) (by simp)).mpr (State.retireRun_within _ _ _ _ _ (by simp) h1))
      · refine State.settle_within _ _ _ _ (by simp) ?_
        exact (State.forget_within _ _ _ (by simp)).mpr ((within_part _ (by rfl) (by simp)).mpr (State.retireRun_within _ _ _ _ _ (by simp) h1)))
@[simp] theorem State.retainOne_within (s : State) (i : Nat) (hZ : [.mbx, .cells, .mem, .grans, .part, .rgn, .lode, .link, .cal, .pair, .pkg] ⊆ Z) (hx : Within Z s₀ s) :
    Within Z s₀ (s.retainOne i) := hx.step hZ (by
  have h1 : ∀ (g : Rgn) (xs : List Nat), Within [.mbx, .cells, .mem, .grans, .part, .rgn, .lode, .link, .cal, .pair, .pkg] s
      (xs.foldl (fun a x => a.revokeExtent x 2 1000 none) { s with rgn := g }) := fun g xs =>
    within_foldl _ _ (fun a x => by simp) ((within_rgn g (by simp)).mpr (.refl _ _))
  unfold State.retainOne
  split
  · simp
  · dsimp only
    split
    · split <;> simp
    · split
      · exact (within_rgn _ (by simp)).mpr (h1 _ _)
      · exact h1 _ _)
@[simp] theorem State.checkRetention_within (s : State) (hZ : [.mbx, .cells, .mem, .grans, .part, .rgn, .lode, .link, .cal, .pair, .pkg] ⊆ Z) (hx : Within Z s₀ s) :
    Within Z s₀ s.checkRetention := hx.step hZ (within_foldl _ _ (fun a i => by simp) (.refl _ _))
@[simp] theorem State.startReclaim_within (s : State) (d ep graceEnd : Nat) (reply : Option Nat) (hZ : [.hub, .mbx, .cells, .mem, .grans, .part, .rgn, .lode, .link, .cal, .pair, .pkg] ⊆ Z) (hx : Within Z s₀ s) :
    Within Z s₀ (s.startReclaim d ep graceEnd reply) := hx.step hZ (by
  unfold State.startReclaim
  split
  · simp
  · have h2 : ∀ (xs : List Nat) (u : State), Within [.hub, .mbx, .cells, .mem, .grans, .part, .rgn, .lode, .link, .cal, .pair, .pkg] s u →
        Within [.hub, .mbx, .cells, .mem, .grans, .part, .rgn, .lode, .link, .cal, .pair, .pkg] s (xs.foldl (fun a x => a.revokeExtent x 1 1000 none) u) := fun xs u h =>
      within_foldl _ _ (fun a x => by simp) h
    exact (State.discardHeld_within _ _ (by simp)).mpr (State.lodesDown_within _ _ _ _ (by simp) (State.checkRetention_within _ (by simp)
      ((within_rgn _ (by simp)).mpr (h2 _ _ (by simp))))))
@[simp] theorem State.newKey_within (s : State) (hZ : [.sec] ⊆ Z) :
    Within Z s₀ s.newKey.1 ↔ Within Z s₀ s := Within.iff hZ rfl (by simp [State.newKey])
@[simp] theorem State.dropKey_within (s : State) (k : Nat) (hZ : [.sec] ⊆ Z) :
    Within Z s₀ (s.dropKey k) ↔ Within Z s₀ s := Within.iff hZ rfl (by simp [State.dropKey])
@[simp] theorem deckleCreateAct_within (p : DeckleCreateP) (hint : Nat) (u : State) (r : Nat) (hZ : [.cells, .mem, .grans, .part, .form, .cal, .sec] ⊆ Z) (hx : Within Z s₀ u) :
    Within Z s₀ (deckleCreateAct p hint u r).1 := hx.step hZ (by
  unfold deckleCreateAct
  dsimp only
  refine within_foldl _ _ (fun a ep => by simp) ?_
  have hn : ∀ (v : Part) (x : NewExtent), v.granules = u.newKey.1.part.granules →
      Within [.cells, .mem, .grans, .part, .form, .cal, .sec] u (({ u.newKey.1 with part := v } : State).newExtent x none).1 := fun v x hv =>
    State.newExtent_within _ _ _ (by simp) ((within_part v hv (by simp)).mpr (by simp))
  split
  · exact State.zeroRun_within _ _ _ (by simp) (hn _ _ rfl)
  · exact hn _ _ rfl)
@[simp] theorem deckleQueryAct_within (p : DeckleP) (u : State) (r : Nat) (hZ : [] ⊆ Z) :
    Within Z s₀ (deckleQueryAct p u r).1 ↔ Within Z s₀ u := Within.iff hZ rfl (by unfold deckleQueryAct; split <;> simp)
@[simp] theorem deckleQuotaAct_within (p : QuotaP) (u : State) (r : Nat) (hZ : [.part] ⊆ Z) :
    Within Z s₀ (deckleQuotaAct p u r).1 ↔ Within Z s₀ u := Within.iff hZ rfl (by simp [deckleQuotaAct])
@[simp] theorem State.spill_within (s : State) (d x n : Nat) (hZ : [.mbx, .link] ⊆ Z) :
    Within Z s₀ (s.spill d x n) ↔ Within Z s₀ s := Within.iff hZ rfl (by simp [State.spill])
@[simp] theorem extentAllocAct_within (p : AllocP) (hint : Nat) (u : State) (r : Nat) (hZ : [.mbx, .grans, .part, .form, .link] ⊆ Z) (hx : Within Z s₀ u) :
    Within Z s₀ (extentAllocAct p hint u r).1 := hx.step hZ (by unfold extentAllocAct; split <;> simp)
@[simp] theorem extentFreeAct_within (p : RevokeP) (u : State) (r : Nat) (hZ : [.mbx, .cells, .mem, .grans, .part, .rgn, .lode, .link, .cal, .pair, .pkg] ⊆ Z) (hx : Within Z s₀ u) :
    Within Z s₀ (extentFreeAct p u r).1 := hx.step hZ (by simp [extentFreeAct])
@[simp] theorem extentRevokeAct_within (p : RevokeP) (u : State) (r : Nat) (hZ : [.mbx, .cells, .mem, .grans, .part, .rgn, .lode, .link, .cal, .pair, .pkg] ⊆ Z) (hx : Within Z s₀ u) :
    Within Z s₀ (extentRevokeAct p u r).1 := hx.step hZ (by simp [extentRevokeAct])
@[simp] theorem leaseAct_within (p : LeaseP) (u : State) (r : Nat) (hZ : [.hub, .mbx, .cells, .mem, .grans, .part, .rgn, .lode, .link, .cal, .pair, .pkg] ⊆ Z) (hx : Within Z s₀ u) :
    Within Z s₀ (leaseAct p u r).1 := hx.step hZ (by unfold leaseAct; (repeat' split) <;> simp)
@[simp] theorem State.serveLease_within (s : State) (self : Instr) (q : Req) (p : LeaseP) (hZ : [.hub, .mbx, .cells, .mem, .grans, .part, .rgn, .lode, .link, .cal, .pair, .pkg] ⊆ Z) (hx : Within Z s₀ s) :
    Within Z s₀ (s.serveLease self q p) := hx.step hZ (by simp [State.serveLease])
@[simp] theorem leaseQueryAct_within (p : LeaseP) (u : State) (r : Nat) (hZ : [] ⊆ Z) :
    Within Z s₀ (leaseQueryAct p u r).1 ↔ Within Z s₀ u := Within.iff hZ rfl (by simp [leaseQueryAct])
@[simp] theorem State.acceptLine_within (s : State) (j i : Nat) (x : Job) (l : JobLine) (hZ : [.cells, .mem, .part, .link, .cal, .pair] ⊆ Z) (hx : Within Z s₀ s) :
    Within Z s₀ (s.acceptLine j i x l) := hx.step hZ (by
  unfold State.acceptLine; dsimp only
  (repeat' split) <;> (try simp) <;> (have h1 := Within.of_fst (Z := [.cells, .mem, .part, .link, .cal, .pair]) (s := s) (by assumption) (by simp); simp [h1]))
@[simp] theorem State.acceptLines_within (s : State) (j : Nat) (is : List Nat) (hZ : [.cells, .mem, .part, .link, .cal, .pair] ⊆ Z) (hx : Within Z s₀ s) :
    Within Z s₀ (s.acceptLines j is) := by
  induction is generalizing s with
  | nil => exact hx
  | cons i is ih =>
    unfold State.acceptLines
    (repeat' split) <;> first | exact hx | exact ih _ hx | exact ih _ (by simp_all)
@[simp] theorem State.flipLine_within (s : State) (l : JobLine) (flip : Stored) (hZ : [.cells, .mem] ⊆ Z) (hx : Within Z s₀ s) :
    Within Z s₀ (s.flipLine l flip) := hx.step hZ (by unfold State.flipLine; split <;> simp)
@[simp] theorem State.takeRead_within (s : State) (j i : Nat) (x : Job) (o : RdOut) (hZ : [.mem] ⊆ Z) :
    Within Z s₀ (s.takeRead j i x o) ↔ Within Z s₀ s := Within.iff hZ rfl (by cases o <;> simp [State.takeRead])
@[simp] theorem extentMigrateAct_within (p : MigrateP) (hint : Nat) (u : State) (r : Nat) (hZ : [.mem, .grans, .part, .form] ⊆ Z) (hx : Within Z s₀ u) :
    Within Z s₀ (extentMigrateAct p hint u r).1 := hx.step hZ (by unfold extentMigrateAct; (repeat' split) <;> simp only [within_self, within_ite, within_ite_fst, within_foldl_iff, within_foldl_fst_iff, within_mem, State.holdRun_within, State.trimCache_within, List.cons_subset, List.nil_subset, List.mem_cons, true_or, or_true, false_or, and_true, true_and, reduceCtorEq, implies_true, ite_self])
@[simp] theorem extentMigrateCancelAct_within (p : MigrateP) (u : State) (r : Nat) (hZ : [.mbx, .mem, .grans, .part, .link] ⊆ Z) (hx : Within Z s₀ u) :
    Within Z s₀ (extentMigrateCancelAct p u r).1 := hx.step hZ (by unfold extentMigrateCancelAct; split <;> simp)
@[simp] theorem State.copyLine_within (s : State) (src dst : LineRef) (hZ : [.cells, .mem, .part, .link, .cal, .pair] ⊆ Z) (hx : Within Z s₀ s) :
    Within Z s₀ (s.copyLine src dst).1 := hx.step hZ (by
  have h : Within [.cells, .mem, .part, .link, .cal, .pair] s (s.readLineN src 8).1 := by simp
  unfold State.copyLine
  generalize s.readLineN src 8 = y at h ⊢
  obtain ⟨s1, o, n⟩ := y
  cases o with
  | data l => simp_all
  | fail st => cases st <;> first | exact h | (dsimp only; split <;> simp_all)
  | recon b => exact h
  | wait => exact h)
@[simp] theorem State.copyAll_within (s : State) (x : Nat) (e : Extent) (t : Tier) (first gen : Nat) (mk : Nat → LineRef) (hZ : [.cells, .mem, .grans, .part, .link, .cal, .pair] ⊆ Z) (hx : Within Z s₀ s) :
    Within Z s₀ (s.copyAll x e t first gen mk).1 := hx.step hZ ⟨fun z hz => by
  unfold State.copyAll
  dsimp only
  refine (Spot.same_iff ((within_foldl_fst (Z := [.cells, .mem, .grans, .part, .link, .cal, .pair]) _ _ _ (fun a i => by simp) (.refl _ _)).1 z hz)).mpr ?_
  refine (Spot.same_iff ((State.chargeTier_within (Z := [.part, .cal]) _ _ _ _ _ _ (by simp)).mpr
    ((State.chargeTier_within _ _ _ _ _ _ (by simp)).mpr (.refl _ _)) |>.1 z (by simp_all))).mpr ?_
  cases z <;> first | rfl | simp at hz, s.copyAll_wf x e t first gen mk⟩
@[simp] theorem State.gateLate_within (s : State) (h : Hdr) (e : Endpoint) (f : PktForm) (hZ : [.part, .cal] ⊆ Z) :
    Within Z s₀ (s.gateLate h e f).1 ↔ Within Z s₀ s := Within.iff hZ rfl (by unfold State.gateLate; dsimp only; (repeat' split) <;> simp)
@[simp] theorem State.gate_within (s : State) (h : Hdr) (vc : Nat) (f : PktForm) (boot : Option Status) (hZ : [.part, .cal] ⊆ Z) :
    Within Z s₀ (s.gate h vc f boot).1 ↔ Within Z s₀ s := Within.iff hZ rfl (by unfold State.gate; (repeat' split) <;> simp)
@[simp] theorem State.dropPkt_within (s : State) (h : Hdr) (hZ : [.link] ⊆ Z) :
    Within Z s₀ (s.dropPkt h) ↔ Within Z s₀ s := Within.iff hZ rfl (by simp [State.dropPkt])
@[simp] theorem State.openReq_within (s : State) (h : Hdr) (queue : Nat) (large : Bool) (hZ : [.part] ⊆ Z) :
    Within Z s₀ (s.openReq h queue large) ↔ Within Z s₀ s := Within.iff hZ rfl (by simp [State.openReq])
@[simp] theorem State.ingress_within (s : State) (h : Hdr) (f : PktForm) (go : State → Bool → State) (boot : Option Status)
    (hZ : [.part, .link, .cal] ⊆ Z) (hgo : ∀ u y, Within Z u (go u y)) (hx : Within Z s₀ s) : Within Z s₀ (s.ingress h f go boot) := by
  have h1 : Within Z s₀ (s.gate h 0 f boot).1 := by simp_all
  unfold State.ingress
  dsimp only
  split
  · simp_all
  · simp_all
  · exact Within.trans (by simp_all) (hgo _ _)
@[simp] theorem State.atHome_within (s : State) (r : LineRef) (ep tag addr : Nat) (req : LodeReq) (hZ : [.lode] ⊆ Z) :
    Within Z s₀ (s.atHome r ep tag addr req) ↔ Within Z s₀ s := Within.iff hZ rfl (by unfold State.atHome; split <;> simp)
@[simp] theorem State.newJob_within (s : State) (h : Hdr) (yellow : Bool) (kind : JobKind) (addr : Nat) (ls : List (LineRef × Line × BitVec 64)) (hZ : [.mem, .lode] ⊆ Z) :
    Within Z s₀ (s.newJob h yellow kind addr ls).1 ↔ Within Z s₀ s := Within.iff hZ rfl (by simp [State.newJob])
@[simp] theorem State.failTrans_within (s : State) (h : Hdr) (t : Trans) (hZ : [.part, .link] ⊆ Z) :
    Within Z s₀ (s.failTrans h t) ↔ Within Z s₀ s := Within.iff hZ rfl (by unfold State.failTrans; split <;> simp)
@[simp] theorem State.modLode_within (s : State) (i : Nat) (f : Lode → Lode) (hZ : [.lode] ⊆ Z) :
    Within Z s₀ (s.modLode i f) ↔ Within Z s₀ s := Within.iff hZ rfl (by simp [State.modLode])
@[simp] theorem State.sendSnoops_within (s : State) (l : Lode) (addr : Nat) (xs : List (Nat × Option Nat)) (hZ : [.lode, .link] ⊆ Z) :
    Within Z s₀ (s.sendSnoops l addr xs).1 ↔ Within Z s₀ s := Within.iff hZ rfl (by
  induction xs generalizing s with
  | nil => simp [State.sendSnoops]
  | cons x xs ih =>
    unfold State.sendSnoops
    split
    · exact ih s
    · refine Within.trans ?_ (ih _)
      simp)
@[simp] theorem State.leaveHome_within (s : State) (i : Nat) (w : LodeWork) (d : Option DirState) (hZ : [.lode] ⊆ Z) :
    Within Z s₀ (s.leaveHome i w d) ↔ Within Z s₀ s := Within.iff hZ rfl (by simp [State.leaveHome])
@[simp] theorem State.wroteHome_within (s : State) (i : Nat) (w : LodeWork) (d : Option DirState) (m : Option Nat) (hZ : [.lode] ⊆ Z) :
    Within Z s₀ (s.wroteHome i w d m) ↔ Within Z s₀ s := Within.iff hZ rfl (by unfold State.wroteHome; split <;> simp)
@[simp] theorem State.completeHome_within (s : State) (i : Nat) (l : Lode) (w : LodeWork) (hZ : [.cells, .mem, .part, .lode, .link, .cal, .pair] ⊆ Z) (hx : Within Z s₀ s) :
    Within Z s₀ (s.completeHome i l w) := hx.step hZ (by
  unfold State.completeHome; dsimp only
  (repeat' split) <;> simp (disch := try (intros; (repeat' split) <;> simp (disch := try simp (disch := try simp)) [within_foldl, within_foldl_fst])) [within_foldl, within_foldl_fst])
@[simp] theorem State.startHome_within (s : State) (i : Nat) (l : Lode) (w : LodeWork) (hZ : [.cells, .mem, .part, .lode, .link, .cal, .pair] ⊆ Z) (hx : Within Z s₀ s) :
    Within Z s₀ (s.startHome i l w) := hx.step hZ (by
  unfold State.startHome; dsimp only
  (repeat' split) <;> simp (disch := try (intros; (repeat' split) <;> simp (disch := try simp (disch := try simp)) [within_foldl, within_foldl_fst])) [within_foldl, within_foldl_fst])
@[simp] theorem State.ackHome_within (s : State) (i : Nat) (hZ : [.part, .lode, .link] ⊆ Z) :
    Within Z s₀ (s.ackHome i) ↔ Within Z s₀ s := Within.iff hZ rfl (by
  unfold State.ackHome; dsimp only
  (repeat' split) <;> simp (disch := try (intros; (repeat' split) <;> simp (disch := try simp (disch := try simp)) [within_foldl, within_foldl_fst])) [within_foldl, within_foldl_fst])
@[simp] theorem State.runHome_within (s : State) (i n : Nat) (hZ : [.cells, .mem, .part, .lode, .link, .cal, .pair] ⊆ Z) (hx : Within Z s₀ s) :
    Within Z s₀ (s.runHome i n) := by
  induction n generalizing s with
  | zero => exact hx
  | succ n ih =>
    unfold State.runHome
    (repeat' split) <;> first | exact hx | exact ih _ (by simp_all)
@[simp] theorem State.pumpLode_within (s : State) (i : Nat) (hZ : [.cells, .mem, .part, .lode, .link, .cal, .pair] ⊆ Z) (hx : Within Z s₀ s) :
    Within Z s₀ (s.pumpLode i) := hx.step hZ (by
  unfold State.pumpLode; dsimp only
  (repeat' split) <;> simp (disch := try (intros; (repeat' split) <;> simp (disch := try simp (disch := try simp)) [within_foldl, within_foldl_fst])) [within_foldl, within_foldl_fst])
@[simp] theorem State.pumpLodes_within (s : State) (hZ : [.cells, .mem, .part, .lode, .link, .cal, .pair] ⊆ Z) (hx : Within Z s₀ s) :
    Within Z s₀ s.pumpLodes := hx.step hZ (within_foldl _ _ (fun a i => by simp) (.refl _ _))
@[simp] theorem State.refuseLode_within (s : State) (h : Hdr) (addr : Nat) (st : Status) (hZ : [.link] ⊆ Z) :
    Within Z s₀ (s.refuseLode h addr st) ↔ Within Z s₀ s := Within.iff hZ rfl (by simp [State.refuseLode])
@[simp] theorem State.lodeRequest_within (s : State) (h : Hdr) (x : LodeExt) (len : Nat) (acc : List Access) (req : LodeReq) (hZ : [.cells, .mem, .part, .lode, .link, .cal, .pair] ⊆ Z) (hx : Within Z s₀ s) :
    Within Z s₀ (s.lodeRequest h x len acc req) := hx.step hZ (by unfold State.lodeRequest; dsimp only; (repeat' split) <;> simp)
@[simp] theorem lodeCreateAct_within (p : LodeP) (u : State) (r : Nat) (hZ : [.lode] ⊆ Z) :
    Within Z s₀ (lodeCreateAct p u r).1 ↔ Within Z s₀ u := Within.iff hZ rfl (by simp [lodeCreateAct])
@[simp] theorem State.dropLode_within (s : State) (i : Nat) (hZ : [.lode] ⊆ Z) :
    Within Z s₀ (s.dropLode i) ↔ Within Z s₀ s := Within.iff hZ rfl (by simp [State.dropLode])
@[simp] theorem lodeDeleteAct_within (p : LodeP) (u : State) (r : Nat) (hZ : [.lode] ⊆ Z) :
    Within Z s₀ (lodeDeleteAct p u r).1 ↔ Within Z s₀ u := Within.iff hZ rfl (by simp [lodeDeleteAct])
@[simp] theorem lodeJoinAct_within (p : LodeMemP) (u : State) (r : Nat) (hZ : [.lode] ⊆ Z) :
    Within Z s₀ (lodeJoinAct p u r).1 ↔ Within Z s₀ u := Within.iff hZ rfl (by unfold lodeJoinAct; split <;> simp)
@[simp] theorem State.recallAll_within (s : State) (i ep : Nat) (hZ : [.cells, .mem, .part, .lode, .link, .cal, .pair] ⊆ Z) (hx : Within Z s₀ s) :
    Within Z s₀ (s.recallAll i ep) := hx.step hZ (by unfold State.recallAll; (repeat' split) <;> simp)
@[simp] theorem lodeLeaveAct_within (p : LodeMemP) (u : State) (r : Nat) (hZ : [.cells, .mem, .part, .lode, .link, .cal, .pair] ⊆ Z) (hx : Within Z s₀ u) :
    Within Z s₀ (lodeLeaveAct p u r).1 := hx.step hZ (by unfold lodeLeaveAct; split <;> simp)
@[simp] theorem salvageCopyAct_within (p : SalvageP) (rearm : Bool) (u : State) (r : Nat) (hZ : [.lode] ⊆ Z) :
    Within Z s₀ (salvageCopyAct p rearm u r).1 ↔ Within Z s₀ u := Within.iff hZ rfl (by simp [salvageCopyAct])
@[simp] theorem State.salvageCopy_within (s : State) (self : Instr) (q : Req) (p : SalvageP) (rearm : Bool) (hZ : [.hub, .mbx, .cells, .mem, .part, .lode, .link, .cal, .pair, .pkg] ⊆ Z) (hx : Within Z s₀ s) :
    Within Z s₀ (s.salvageCopy self q p rearm) := hx.step hZ (by simp [State.salvageCopy])
@[simp] theorem lodeSalvageRearmAct_within (p : SalvageP) (u : State) (r : Nat) (hZ : [.lode] ⊆ Z) :
    Within Z s₀ (lodeSalvageRearmAct p u r).1 ↔ Within Z s₀ u := Within.iff hZ rfl (by simp [lodeSalvageRearmAct])
@[simp] theorem lodeSalvageDeleteAct_within (p : SalvageP) (u : State) (r : Nat) (hZ : [.lode] ⊆ Z) :
    Within Z s₀ (lodeSalvageDeleteAct p u r).1 ↔ Within Z s₀ u := Within.iff hZ rfl (by simp [lodeSalvageDeleteAct])
@[simp] theorem State.copyLode_within (s : State) (l : Lode) (e : Extent) (x off : Nat) (hZ : [.cells, .mem, .part, .link, .cal, .pair] ⊆ Z) (hx : Within Z s₀ s) :
    Within Z s₀ (s.copyLode l e x off) := hx.step hZ (by
  unfold State.copyLode
  split
  · simp
  · exact within_foldl _ _ (fun a n => by simp) (.refl _ _))
@[simp] theorem State.putWindow_within (s : State) (i : Nat) (data : Line) (mask : BitVec 64) (hZ : [.cells, .mem] ⊆ Z) (hx : Within Z s₀ s) :
    Within Z s₀ (s.putWindow i data mask) := hx.step hZ (by simp [State.putWindow])
@[simp] theorem State.windowWrite_within (s : State) (h : Hdr) (m : MemExt) (data : List Line) (off : Nat) (hZ : [.hub, .cells, .mem, .part, .link] ⊆ Z) (hx : Within Z s₀ s) :
    Within Z s₀ (s.windowWrite h m data off) := hx.step hZ (by
  unfold State.windowWrite; dsimp only
  (repeat' split) <;> simp (disch := try (intros; (repeat' split) <;> simp (disch := try simp (disch := try simp)) [within_foldl, within_foldl_fst])) [within_foldl, within_foldl_fst])
@[simp] theorem State.serveVersion_within (s : State) (h : Hdr) (m : MemExt) (y : Bool) (hZ : [.mem, .part, .lode, .link] ⊆ Z) :
    Within Z s₀ (s.serveVersion h m y) ↔ Within Z s₀ s := Within.iff hZ rfl (by unfold State.serveVersion; (repeat' split) <;> simp)
@[simp] theorem State.serveRd_within (s : State) (h : Hdr) (m : MemExt) (y : Bool) (hZ : [.cells, .mem, .part, .lode, .xlat, .link, .cal, .pair] ⊆ Z) (hx : Within Z s₀ s) :
    Within Z s₀ (s.serveRd h m y) := hx.step hZ (by
  unfold State.serveRd; dsimp only
  (repeat' split) <;> simp (disch := try (intros; (repeat' split) <;> simp (disch := try simp (disch := try simp)) [within_foldl, within_foldl_fst])) [within_foldl, within_foldl_fst])
@[simp] theorem State.serveWr_within (s : State) (h : Hdr) (m : MemExt) (data : List Line) (y : Bool) (hZ : [.hub, .cells, .mem, .part, .lode, .xlat, .link, .cal, .pair] ⊆ Z) (hx : Within Z s₀ s) :
    Within Z s₀ (s.serveWr h m data y) := hx.step hZ (by
  unfold State.serveWr; dsimp only
  (repeat' split) <;> simp (disch := try (intros; (repeat' split) <;> simp (disch := try simp (disch := try simp)) [within_foldl, within_foldl_fst])) [within_foldl, within_foldl_fst])
@[simp] theorem State.serveAtom_within (s : State) (h : Hdr) (m : MemExt) (a b : BitVec 128) (y : Bool) (hZ : [.cells, .mem, .part, .lode, .xlat, .link, .cal, .pair] ⊆ Z) (hx : Within Z s₀ s) :
    Within Z s₀ (s.serveAtom h m a b y) := hx.step hZ (by
  unfold State.serveAtom; dsimp only
  (repeat' split) <;> simp (disch := try (intros; (repeat' split) <;> simp (disch := try simp (disch := try simp)) [within_foldl, within_foldl_fst])) [within_foldl, within_foldl_fst])
@[simp] theorem State.endFence_within (s : State) (ep tag : Nat) (hZ : [.part, .link] ⊆ Z) :
    Within Z s₀ (s.endFence ep tag) ↔ Within Z s₀ s := Within.iff hZ rfl (by unfold State.endFence; split <;> simp)
@[simp] theorem State.peerAnswered_within (s : State) (p identity : Nat) (ep : Option Nat) (hZ : [.mbx, .link, .pkg] ⊆ Z) :
    Within Z s₀ (s.peerAnswered p identity ep) ↔ Within Z s₀ s := Within.iff hZ rfl (by simp [State.peerAnswered])
end Sys2Proof.Machine
end

section
namespace Sys2Proof.Machine
variable {Z : List Spot} {s₀ : State}
@[simp] theorem State.answerClaim_within (s : State) (p identity ep : Nat) (st : Status) (hZ : [.mbx, .link, .pkg] ⊆ Z) :
    Within Z s₀ (s.answerClaim p identity ep st) ↔ Within Z s₀ s := Within.iff hZ rfl (by simp [State.answerClaim])
@[simp] theorem State.serveClaim_within (s : State) (p identity : Nat) (hZ : [.mbx, .part, .link, .pair, .pkg] ⊆ Z) :
    Within Z s₀ (s.serveClaim p identity) ↔ Within Z s₀ s := Within.iff hZ rfl (by unfold State.serveClaim; (repeat' split) <;> simp)
@[simp] theorem State.readImages_within (s : State) (caller : Nat) (es : List PageEntry) (i : Nat) (t : NMap XTable) (hZ : [.cells, .mem, .part, .link, .cal, .pair] ⊆ Z) (hx : Within Z s₀ s) :
    Within Z s₀ (s.readImages caller es i t).1 := by
  induction es generalizing s i t with
  | nil => exact hx
  | cons e es ih =>
    unfold State.readImages
    split
    · exact ih _ _ _ hx
    · have h1 := State.readBytes_within s caller e.imagePva (tableBytes e.level) hZ hx
      split
      · next e1 => exact ih _ _ _ (.of_fst e1 h1)
      · next e1 => exact .of_fst e1 h1
theorem State.growStore_within (s : State) (d hint n : Nat) (hZ : [.grans, .part] ⊆ Z) (hx : Within Z s₀ s) {u : State}
    (e : s.growStore d hint n = .ok u) : Within Z s₀ u := by
  induction n generalizing s hint with
  | zero => cases e; exact hx
  | succ n ih =>
    unfold State.growStore at e
    split at e
    · cases e
    · refine ih _ _ ?_ e
      simp_all
@[simp] theorem State.switchMigration_within (s : State) (x : Nat) (hZ : [.mem, .part] ⊆ Z) :
    Within Z s₀ (s.switchMigration x) ↔ Within Z s₀ s := Within.iff hZ rfl (by unfold State.switchMigration; split <;> simp)
@[simp] theorem State.finishSync_within (s : State) (d : Nat) (hZ : [.mbx, .cells, .mem, .grans, .part, .xlat, .link, .cal, .pair, .pkg] ⊆ Z) (hx : Within Z s₀ s) :
    Within Z s₀ (s.finishSync d) := hx.step hZ (by
  unfold State.finishSync
  split
  · simp
  · split
    · simp
    · exact State.settle_within _ _ _ _ (by simp) (within_foldl _ _ (fun a r => by simp) (by simp)))
@[simp] theorem State.sync_within (s : State) (q : Req) (p : SyncP) (hint reply : Nat) (hZ : [.mbx, .cells, .mem, .grans, .part, .xlat, .link, .cal, .pair, .pkg] ⊆ Z) (hx : Within Z s₀ s) :
    Within Z s₀ (s.sync q p hint reply).1 := hx.step hZ (by
  have h0 : Within [.mbx, .cells, .mem, .grans, .part, .xlat, .link, .cal, .pair, .pkg] s (s.finishSync p.deckle) := by simp
  unfold State.sync
  extract_lets s0
  split
  · exact h0
  · next k _ =>
    split
    · exact h0
    · have h1 := State.readImages_within _ q.deckle p.entries 0 k.tables (by simp) h0
      split
      · next e1 => exact .of_fst e1 h1
      · next s1 t e1 =>
        have h2 : Within [.mbx, .cells, .mem, .grans, .part, .xlat, .link, .cal, .pair, .pkg] s s1 := .of_fst e1 h1
        extract_lets c
        split
        · exact h2
        · split
          · exact h2
          · split
            · exact h2
            · next s2 e2 =>
              have h3 := State.growStore_within _ _ _ _ (by simp) h2 e2
              exact within_foldl _ _ (fun a m => by simp) ((State.modDeckle_within _ _ _ (by simp)).mpr h3))
@[simp] theorem tableSyncAct_within (q : Req) (p : SyncP) (hint : Nat) (u : State) (r : Nat) (hZ : [.mbx, .cells, .mem, .grans, .part, .xlat, .link, .cal, .pair, .pkg] ⊆ Z) (hx : Within Z s₀ u) :
    Within Z s₀ (tableSyncAct q p hint u r).1 := hx.step hZ (by simp [tableSyncAct])
@[simp] theorem tableReadbackAct_within (p : ReadbackP) (u : State) (r : Nat) (hZ : [] ⊆ Z) :
    Within Z s₀ (tableReadbackAct p u r).1 ↔ Within Z s₀ u := Within.iff hZ rfl (by unfold tableReadbackAct; split <;> simp)
@[simp] theorem State.joinFault_within (s : State) (d pva cause level : Nat) (write : Bool) (w : Waiter) (other : Nat) (hZ : [.mbx, .xlat, .link] ⊆ Z) :
    Within Z s₀ (s.joinFault d pva cause level write w other).1 ↔ Within Z s₀ s := Within.iff hZ rfl (by unfold State.joinFault; split <;> simp)
@[simp] theorem State.leaveFaults_within (s : State) (test : Waiter → Bool) (hZ : [.xlat] ⊆ Z) :
    Within Z s₀ (s.leaveFaults test) ↔ Within Z s₀ s := Within.iff hZ rfl (by simp [State.leaveFaults])
@[simp] theorem State.countStopped_within (s : State) (d : Nat) (lines : List Nat) (hZ : [.part] ⊆ Z) :
    Within Z s₀ (s.countStopped d lines) ↔ Within Z s₀ s := Within.iff hZ rfl (by simp [State.countStopped])
@[simp] theorem State.setEngine_within (s : State) (c e : Nat) (x : Engine) (hZ : [.eng] ⊆ Z) :
    Within Z s₀ (s.setEngine c e x) ↔ Within Z s₀ s := Within.iff hZ rfl (by simp [State.setEngine])
@[simp] theorem State.modCore_within (s : State) (c : Nat) (f : Core → Core) (hZ : [.eng] ⊆ Z) :
    Within Z s₀ (s.modCore c f) ↔ Within Z s₀ s := Within.iff hZ rfl (by simp [State.modCore])
@[simp] theorem State.modWork_within (s : State) (w : Nat) (f : Work → Work) (hZ : [.eng] ⊆ Z) :
    Within Z s₀ (s.modWork w f) ↔ Within Z s₀ s := Within.iff hZ rfl (by simp [State.modWork])
@[simp] theorem State.mirrorItem_within (s : State) (i : Option ItemRec) (ended : Bool) (hZ : [.link, .pair] ⊆ Z) :
    Within Z s₀ (s.mirrorItem i ended) ↔ Within Z s₀ s := Within.iff hZ rfl (by unfold State.mirrorItem; split <;> simp)
@[simp] theorem State.addWork_within (s : State) (w : Work) (hZ : [.eng, .link, .pair] ⊆ Z) :
    Within Z s₀ (s.addWork w).1 ↔ Within Z s₀ s := Within.iff hZ rfl (by simp [State.addWork])
@[simp] theorem State.stopWork_within (s : State) (w : Nat) (st : Status) (detail : Nat) (hZ : [.xlat, .eng] ⊆ Z) :
    Within Z s₀ (s.stopWork w st detail) ↔ Within Z s₀ s := Within.iff hZ rfl (by unfold State.stopWork; split <;> simp)
@[simp] theorem State.measure_within (s : State) (hZ : [.free] ⊆ Z) :
    Within Z s₀ s.measure.2 ↔ Within Z s₀ s := Within.iff hZ rfl (by simp [State.measure])
@[simp] theorem State.settleEnergy_within (s : State) (d : Nat) (yellow : Bool) (est nj : Nat) (hZ : [.mbx, .cells, .mem, .part, .link, .cal, .pair, .pkg] ⊆ Z) (hx : Within Z s₀ s) :
    Within Z s₀ (s.settleEnergy d yellow est nj) := hx.step hZ (by simp [State.settleEnergy])
@[simp] theorem State.sendCpl_within (s : State) (ep d cls queue : Nat) (body : Nat) (hZ : [.mbx, .link] ⊆ Z) :
    Within Z s₀ (s.sendCpl ep d cls queue body) ↔ Within Z s₀ s := Within.iff hZ rfl (by simp [State.sendCpl])
@[simp] theorem State.refuseWork_within (s : State) (h : Hdr) (kind : Nat) (ctag : Nat) (st : Status) (detail : Nat) (hZ : [.mbx, .link] ⊆ Z) :
    Within Z s₀ (s.refuseWork h kind ctag st detail) ↔ Within Z s₀ s := Within.iff hZ rfl (by simp [State.refuseWork])
@[simp] theorem State.workGate_within (s : State) (h : Hdr) (kind ctag len : Nat) (go : State → Nat → Bool → State)
    (no : State → Status → State) (hZ : [.part, .link, .cal] ⊆ Z) (hgo : ∀ u q y, Within Z u (go u q y))
    (hno : ∀ u st, Within Z u (no u st)) (hx : Within Z s₀ s) : Within Z s₀ (s.workGate h kind ctag len go no) := by
  have h1 : Within Z s₀ (s.gate h 4 { ok := h.len == len, bytes := some h.len }).1 := by simp_all
  unfold State.workGate
  dsimp only
  split
  · simp_all
  · exact Within.trans (by simp_all) (hno _ _)
  · exact Within.trans (by simp_all) (hgo _ _ _)
@[simp] theorem State.freeWork_within (s : State) (w : Nat) (hZ : [.eng] ⊆ Z) :
    Within Z s₀ (s.freeWork w) ↔ Within Z s₀ s := Within.iff hZ rfl (by simp [State.freeWork])
@[simp] theorem State.dropKernels_within (s : State) (hZ : [.eng] ⊆ Z) :
    Within Z s₀ s.dropKernels ↔ Within Z s₀ s := Within.iff hZ rfl (by simp [State.dropKernels])
@[simp] theorem State.startEngines_within (s : State) (w d c n : Nat) (init : Engine → Engine) (hZ : [.eng] ⊆ Z) :
    Within Z s₀ (s.startEngines w d c n init) ↔ Within Z s₀ s := Within.iff hZ rfl (by simp [State.startEngines])
@[simp] theorem State.startWindows_within (s : State) (w d c n : Nat) (hZ : [.eng] ⊆ Z) :
    Within Z s₀ (s.startWindows w d c n) ↔ Within Z s₀ s := Within.iff hZ rfl (by simp [State.startWindows])
@[simp] theorem State.countStop_within (s : State) (xs : List Nat) (hZ : [.part] ⊆ Z) :
    Within Z s₀ (s.countStop xs) ↔ Within Z s₀ s := Within.iff hZ rfl (by simp [State.countStop])
@[simp] theorem State.tileStart_within (s : State) (w d : Nat) (u : Waiter) (src dst : List Nat) (hZ : [.mbx, .part, .xlat, .eng, .link] ⊆ Z) :
    Within Z s₀ (s.tileStart w d u src dst).1 ↔ Within Z s₀ s := Within.iff hZ rfl (by
  unfold State.tileStart; dsimp only
  (repeat' split) <;> (try simp) <;> (have h1 := Within.of_fst (Z := [.mbx, .part, .xlat, .eng, .link]) (s := s) (by assumption) (by simp); simp [h1]))
@[simp] theorem State.readTile_within (s : State) (refs : List LineRef) (cls : Nat) (hZ : [.cells, .mem, .part, .link, .cal, .pair] ⊆ Z) (hx : Within Z s₀ s) :
    Within Z s₀ (s.readTile refs cls).1 := hx.step hZ (by simp [State.readTile])
@[simp] theorem State.writeTile_within (s : State) (refs : List LineRef) (data : List Line) (cls : Nat) (hZ : [.cells, .mem, .part, .link, .cal, .pair] ⊆ Z) (hx : Within Z s₀ s) :
    Within Z s₀ (s.writeTile refs data cls).1 := hx.step hZ
  (within_foldl_fst _ _ _ (fun a x => by simp) (within_foldl _ _ (fun a t => by simp) (.refl _ _)))
@[simp] theorem State.chargeBundle_within (s : State) (d cls : Nat) (b : BitVec 128) (hZ : [.part, .cal] ⊆ Z) :
    Within Z s₀ (s.chargeBundle d cls b) ↔ Within Z s₀ s := Within.iff hZ rfl (by simp [State.chargeBundle])
@[simp] theorem State.loadKernel_within (s : State) (p : KernelP) (hZ : [.cells, .mem, .part, .eng, .link, .cal, .pair] ⊆ Z) (hx : Within Z s₀ s) :
    Within Z s₀ (s.loadKernel p).1 := hx.step hZ (by
  have h1 := State.readBytes_within s p.deckle p.imagePva 512 (Z := [.cells, .mem, .part, .eng, .link, .cal, .pair]) (by simp) (.refl _ _)
  unfold State.loadKernel
  extract_lets bad
  split
  · exact .refl _ _
  · split
    · next s1 h e1 =>
      have h2 : Within [.cells, .mem, .part, .eng, .link, .cal, .pair] s s1 := .of_fst e1 h1
      have h3 := State.readBytes_within s1 p.deckle (p.imagePva + 512) (p.imageLen - 512) (by simp) h2
      split
      · exact h2
      · split
        · exact h2
        · split
          · next s2 body e2 =>
            have h4 : Within [.cells, .mem, .part, .eng, .link, .cal, .pair] s s2 := .of_fst e2 h3
            extract_lets n code k
            split
            · exact h4
            · split
              · exact h4
              · split
                · exact h4
                · exact (within_eng _ (by simp)).mpr h4
          · next e2 => exact .of_fst e2 h3
    · next e1 => exact .of_fst e1 h1)
@[simp] theorem kernelLoadAct_within (p : KernelP) (u : State) (r : Nat) (hZ : [.cells, .mem, .part, .eng, .link, .cal, .pair] ⊆ Z) (hx : Within Z s₀ u) :
    Within Z s₀ (kernelLoadAct p u r).1 := hx.step hZ (by simp [kernelLoadAct])
@[simp] theorem kernelUnloadAct_within (p : KernelP) (u : State) (r : Nat) (hZ : [.eng] ⊆ Z) :
    Within Z s₀ (kernelUnloadAct p u r).1 ↔ Within Z s₀ u := Within.iff hZ rfl (by simp [kernelUnloadAct])
@[simp] theorem State.admitWork_within (s : State) (h : Hdr) (kind : Nat) (w : Work) (hZ : [.mbx, .part, .eng, .link, .pair] ⊆ Z) :
    Within Z s₀ (s.admitWork h kind w).1 ↔ Within Z s₀ s := Within.iff hZ rfl (by
  unfold State.admitWork; dsimp only
  (repeat' split) <;> (try simp) <;> (have h1 := Within.of_fst (Z := [.mbx, .part, .eng, .link, .pair]) (s := s) (by assumption) (by simp); simp [h1]))
@[simp] theorem State.admitLaunch_within (s : State) (h : Hdr) (b : LaunchB) (queue : Nat) (hZ : [.mbx, .part, .eng, .link, .pair] ⊆ Z) :
    Within Z s₀ (s.admitLaunch h b queue) ↔ Within Z s₀ s := Within.iff hZ rfl (by unfold State.admitLaunch; (repeat' split) <;> simp)
@[simp] theorem State.startWork_within (s : State) (w : Nat) (x : Work) (hZ : [.eng] ⊆ Z) :
    Within Z s₀ (s.startWork w x) ↔ Within Z s₀ s := Within.iff hZ rfl (by simp [State.startWork])
@[simp] theorem State.modSlot_within (s : State) (c e slot : Nat) (f : Stream → Stream) (hZ : [.eng] ⊆ Z) :
    Within Z s₀ (s.modSlot c e slot f) ↔ Within Z s₀ s := Within.iff hZ rfl (by simp [State.modSlot])
@[simp] theorem State.walkStream_within (s : State) (c e slot : Nat) (hZ : [.mbx, .part, .xlat, .eng, .link] ⊆ Z) :
    Within Z s₀ (s.walkStream c e slot) ↔ Within Z s₀ s := Within.iff hZ rfl (by unfold State.walkStream; dsimp only; (repeat' split) <;> simp)
@[simp] theorem State.landed_within (s : State) (c e slot w : Nat) (mseq : Option Nat) (hZ : [.eng] ⊆ Z) :
    Within Z s₀ (s.landed c e slot w mseq) ↔ Within Z s₀ s := Within.iff hZ rfl (by simp [State.landed])
@[simp] theorem State.landCore_within (s : State) (c e slot w : Nat) (st : Stream) (t : List Piece) (hZ : [.free, .xlat, .eng] ⊆ Z) :
    Within Z s₀ (s.landCore c e slot w st t) ↔ Within Z s₀ s := Within.iff hZ rfl (by simp [State.landCore])
@[simp] theorem State.landTile_within (s : State) (c e slot w : Nat) (k : Work) (st : Stream) (t : List Piece) (refs : List LineRef) (hZ : [.free, .cells, .mem, .part, .xlat, .eng, .link, .cal, .pair] ⊆ Z) (hx : Within Z s₀ s) :
    Within Z s₀ (s.landTile c e slot w k st t refs) := hx.step hZ (by
  unfold State.landTile; dsimp only
  (repeat' split) <;> (try simp) <;> (have h1 := Within.of_fst (Z := [.free, .cells, .mem, .part, .xlat, .eng, .link, .cal, .pair]) (s := s) (by assumption) (by simp); simp [h1]))
@[simp] theorem State.readSide_within (s : State) (w : Nat) (x : Work) (u : Waiter) (lines : List Nat) (hZ : [.mbx, .cells, .mem, .part, .xlat, .eng, .link, .cal, .pair] ⊆ Z) (hx : Within Z s₀ s) :
    Within Z s₀ (s.readSide w x u lines).1 := hx.step hZ (by
  have h1 : Within [.mbx, .cells, .mem, .part, .xlat, .eng, .link, .cal, .pair] s (s.tileStart w x.deckle u lines []).1 := by simp
  unfold State.readSide
  split
  · next s1 r _ e1 =>
    have h2 := State.readTile_within s1 r.1 x.cls (by simp) (.of_fst e1 h1)
    split
    · next e2 => exact .of_fst e2 h2
    · next e2 => exact (State.stopWork_within _ _ _ _ (by simp)).mpr (.of_fst e2 h2)
    · next e2 => exact .of_fst e2 h2
  · next e1 => exact .of_fst e1 h1)
@[simp] theorem State.moveTile_within (s : State) (w : Nat) (x : Work) (u : Waiter) (src dst : List Nat) (f : List Line → List Line) (hZ : [.mbx, .cells, .mem, .part, .xlat, .eng, .link, .cal, .pair] ⊆ Z) (hx : Within Z s₀ s) :
    Within Z s₀ (s.moveTile w x u src dst f).1 := hx.step hZ (by
  have h1 : Within [.mbx, .cells, .mem, .part, .xlat, .eng, .link, .cal, .pair] s (s.tileStart w x.deckle u src dst).1 := by simp
  unfold State.moveTile
  split
  · next s1 r _ e1 =>
    have h2 := State.readTile_within s1 r.1 x.cls (by simp) (.of_fst e1 h1)
    split
    · exact .of_fst e1 h1
    · split
      · next e2 => exact (State.modWork_within _ _ _ (by simp)).mpr (State.writeTile_within _ _ _ _ (by simp) (.of_fst e2 h2))
      · next e2 => exact (State.stopWork_within _ _ _ _ (by simp)).mpr (.of_fst e2 h2)
      · next e2 => exact .of_fst e2 h2
  · next e1 => exact .of_fst e1 h1)
@[simp] theorem State.gatherRows_within (s : State) (w : Nat) (u : Waiter) (a n : Nat) (hZ : [.mbx, .cells, .mem, .part, .xlat, .eng, .link, .cal, .pair] ⊆ Z) (hx : Within Z s₀ s) :
    Within Z s₀ (s.gatherRows w u a n) := by
  have hs := List.cons_subset.mp hZ
  induction n generalizing s with
  | zero => exact hx
  | succ n ih =>
    unfold State.gatherRows
    split
    · exact hx
    · next x _ =>
      have h1 := State.readSide_within s w x u (bytesLines (bitsOf a 119 64 + 4 * x.pos) 4) hZ hx
      dsimp only
      split
      · next e1 => exact .of_fst e1 h1
      · next s1 ls e1 =>
        have h2 : Within Z s₀ s1 := .of_fst e1 h1
        split
        · exact ih _ ((State.modWork_within _ _ _ (by simp_all)).mpr h2)
        · have h3 := fun src dst => State.moveTile_within s1 w x u src dst id hZ h2
          split
          · exact ih _ (h3 _ _)
          · exact h3 _ _
@[simp] theorem State.convertRun_within (s : State) (w : Nat) (u : Waiter) (a n : Nat) (hZ : [.mbx, .cells, .mem, .part, .xlat, .eng, .link, .cal, .pair] ⊆ Z) (hx : Within Z s₀ s) :
    Within Z s₀ (s.convertRun w u a n) := by
  induction n generalizing s with
  | zero => exact hx
  | succ n ih =>
    unfold State.convertRun
    split
    · exact hx
    · next x _ =>
      have h1 := fun src dst f => State.moveTile_within s w x u src dst f hZ hx
      dsimp only
      split
      · exact ih _ ((State.setEngine_within _ _ _ _ (by simp_all)).mpr (h1 _ _ _))
      · exact h1 _ _ _
@[simp] theorem State.runBuiltin_within (s : State) (w : Nat) (x : Work) (b : LaunchB) (hZ : [.mbx, .cells, .mem, .part, .xlat, .eng, .link, .cal, .pair] ⊆ Z) (hx : Within Z s₀ s) :
    Within Z s₀ (s.runBuiltin w x b) := hx.step hZ (by unfold State.runBuiltin; (repeat' split) <;> simp)
@[simp] theorem State.closeWork_within (s : State) (w : Nat) (x : Work) (nj : Nat) (hZ : [.mbx, .cells, .mem, .part, .eng, .link, .cal, .pair, .pkg] ⊆ Z) (hx : Within Z s₀ s) :
    Within Z s₀ (s.closeWork w x nj) := hx.step hZ (by simp [State.closeWork])
@[simp] theorem State.endWork_within (s : State) (w : Nat) (x : Work) (nj : Nat) (body : Nat) (hZ : [.mbx, .cells, .mem, .part, .eng, .link, .cal, .pair, .pkg] ⊆ Z) (hx : Within Z s₀ s) :
    Within Z s₀ (s.endWork w x nj body) := hx.step hZ (by simp [State.endWork])
@[simp] theorem State.finishWork_within (s : State) (w : Nat) (x : Work) (nj body : Nat) (hZ : [.mbx, .cells, .mem, .part, .eng, .link, .cal, .pair, .pkg] ⊆ Z) (hx : Within Z s₀ s) :
    Within Z s₀ (s.finishWork w x nj body) := hx.step hZ (by simp [State.finishWork])
@[simp] theorem State.endLaunch_within (s : State) (w : Nat) (x : Work) (b : LaunchB) (hZ : [.free, .mbx, .cells, .mem, .part, .eng, .link, .cal, .pair, .pkg] ⊆ Z) (hx : Within Z s₀ s) :
    Within Z s₀ (s.endLaunch w x b) := hx.step hZ (by unfold State.endLaunch; split <;> simp)
@[simp] theorem State.wantPart_within (s : State) (p : CachePart) (hZ : [.form] ⊆ Z) :
    Within Z s₀ (s.wantPart p) ↔ Within Z s₀ s := Within.iff hZ rfl (by simp [State.wantPart])
@[simp] theorem State.wantFor_within (s : State) (d : Nat) (b : FormBind) (f : FormProg) (hZ : [.form] ⊆ Z) :
    Within Z s₀ (s.wantFor d b f) ↔ Within Z s₀ s := Within.iff hZ rfl (by unfold State.wantFor; split <;> simp)
@[simp] theorem State.formRead_within (s : State) (owner payer cls : Nat) (lines : List Nat) (hZ : [.cells, .mem, .part, .link, .cal, .pair] ⊆ Z) (hx : Within Z s₀ s) :
    Within Z s₀ (s.formRead owner payer cls lines).1 := hx.step hZ (by
  unfold State.formRead; dsimp only
  (repeat' split) <;> (try simp) <;> (have h1 := Within.of_fst (Z := [.cells, .mem, .part, .link, .cal, .pair]) (s := s) (by assumption) (by simp); simp [h1]))
@[simp] theorem State.commitMap_within (s : State) (p : MapP) (hZ : [.form, .pkg] ⊆ Z) :
    Within Z s₀ (s.commitMap p).1 ↔ Within Z s₀ s := Within.iff hZ rfl (by simp [State.commitMap])
@[simp] theorem mapDefineAct_within (p : MapP) (u : State) (r : Nat) (hZ : [.form, .pkg] ⊆ Z) :
    Within Z s₀ (mapDefineAct p u r).1 ↔ Within Z s₀ u := Within.iff hZ rfl (by simp [mapDefineAct])
@[simp] theorem mapReplaceAct_within (p : MapP) (u : State) (r : Nat) (hZ : [.form, .pkg] ⊆ Z) :
    Within Z s₀ (mapReplaceAct p u r).1 ↔ Within Z s₀ u := Within.iff hZ rfl (by simp [mapReplaceAct])
@[simp] theorem State.endParts_within (s : State) (test : CachePart → Bool) (hZ : [.form] ⊆ Z) :
    Within Z s₀ (s.endParts test) ↔ Within Z s₀ s := Within.iff hZ rfl (by simp [State.endParts])
@[simp] theorem State.endAdapters_within (s : State) (test : Adapter → Bool) (hZ : [.mbx, .cells, .mem, .part, .form, .link, .cal, .pair, .pkg] ⊆ Z) (hx : Within Z s₀ s) :
    Within Z s₀ (s.endAdapters test) := hx.step hZ
  ((State.endParts_within _ _ (by simp)).mpr (within_foldl _ _ (fun a x => by simp) (by simp)))
@[simp] theorem State.retireMap_within (s : State) (uid : Nat) (hZ : [.mbx, .cells, .mem, .part, .form, .link, .cal, .pair, .pkg] ⊆ Z) (hx : Within Z s₀ s) :
    Within Z s₀ (s.retireMap uid) := hx.step hZ (by simp [State.retireMap])
@[simp] theorem mapRetireAct_within (p : MapRetireP) (u : State) (r : Nat) (hZ : [.mbx, .cells, .mem, .part, .form, .link, .cal, .pair, .pkg] ⊆ Z) (hx : Within Z s₀ u) :
    Within Z s₀ (mapRetireAct p u r).1 := hx.step hZ (by simp [mapRetireAct])
@[simp] theorem State.registerAdapter_within (s : State) (p : AdapterP) (hZ : [.cells, .mem, .part, .form, .link, .cal, .pair] ⊆ Z) (hx : Within Z s₀ s) :
    Within Z s₀ (s.registerAdapter p).1 := hx.step hZ (by
  unfold State.registerAdapter; dsimp only
  (repeat' split) <;> (try simp) <;> (have h1 := Within.of_fst (Z := [.cells, .mem, .part, .form, .link, .cal, .pair]) (s := s) (by assumption) (by simp); simp [h1]))
@[simp] theorem adapterRegisterAct_within (p : AdapterP) (u : State) (r : Nat) (hZ : [.cells, .mem, .part, .form, .link, .cal, .pair] ⊆ Z) (hx : Within Z s₀ u) :
    Within Z s₀ (adapterRegisterAct p u r).1 := hx.step hZ (by simp [adapterRegisterAct])
@[simp] theorem adapterUnregisterAct_within (p : AdapterP) (u : State) (r : Nat) (hZ : [.mbx, .cells, .mem, .part, .form, .link, .cal, .pair, .pkg] ⊆ Z) (hx : Within Z s₀ u) :
    Within Z s₀ (adapterUnregisterAct p u r).1 := hx.step hZ (by simp [adapterUnregisterAct])
@[simp] theorem State.modAdapters_within (s : State) (test : Adapter → Bool) (f : Adapter → Adapter) (hZ : [.form] ⊆ Z) :
    Within Z s₀ (s.modAdapters test f) ↔ Within Z s₀ s := Within.iff hZ rfl (by simp [State.modAdapters])
@[simp] theorem adapterPinAct_within (p : AdapterP) (u : State) (r : Nat) (hZ : [.mbx, .cells, .mem, .part, .form, .link, .cal, .pair, .pkg] ⊆ Z) (hx : Within Z s₀ u) :
    Within Z s₀ (adapterPinAct p u r).1 := hx.step hZ (by
  unfold adapterPinAct; dsimp only
  (repeat' split) <;> simp (disch := try (intros; (repeat' split) <;> simp (disch := try simp (disch := try simp)) [within_foldl, within_foldl_fst])) [within_foldl, within_foldl_fst])
@[simp] theorem adapterUnpinAct_within (p : AdapterP) (u : State) (r : Nat) (hZ : [.mbx, .cells, .mem, .part, .form, .link, .cal, .pair, .pkg] ⊆ Z) (hx : Within Z s₀ u) :
    Within Z s₀ (adapterUnpinAct p u r).1 := hx.step hZ (by simp [adapterUnpinAct])
@[simp] theorem State.answerPins_within (s : State) (hZ : [.mbx, .cells, .mem, .part, .form, .link, .cal, .pair, .pkg] ⊆ Z) (hx : Within Z s₀ s) :
    Within Z s₀ s.answerPins := hx.step hZ (within_foldl _ _ (fun b a => by simp) (.refl _ _))
@[simp] theorem State.failPart_within (s : State) (p : CachePart) (st : Status) (hZ : [.mbx, .cells, .mem, .part, .eng, .form, .couch, .link, .cal, .pair, .pkg] ⊆ Z) (hx : Within Z s₀ s) :
    Within Z s₀ (s.failPart p st) := hx.step hZ (within_foldl _ _ (fun b a => by simp)
  ((within_form_eng_couch _ _ _ (by simp)).mpr (.refl _ _)))
@[simp] theorem State.serveRdf_within (s : State) (h : Hdr) (f : FormProg) (hZ : [.mbx, .part, .eng, .form, .link, .cal, .pair] ⊆ Z) :
    Within Z s₀ (s.serveRdf h f) ↔ Within Z s₀ s := Within.iff hZ rfl (by
  unfold State.serveRdf
  split
  · simp
  · split
    · next s1 _ e1 =>
      have h1 : Within [.mbx, .part, .eng, .form, .link, .cal, .pair] s s1 := .of_fst e1 (by simp)
      simp [h1]
    · next s1 q _ e1 =>
      have h1 : Within [.mbx, .part, .eng, .form, .link, .cal, .pair] s s1 := .of_fst e1 (by simp)
      dsimp only
      split
      · next e2 => exact (State.answerReq_within _ _ _ _ _ _ _ _ (by simp)).mpr (.of_fst e2 ((State.admitEnergy_within _ _ _ (by simp)).mpr ((within_part _ (by rfl) (by simp)).mpr h1)))
      · next e2 => exact (State.wantFor_within _ _ _ _ (by simp)).mpr ((State.addWork_within _ _ (by simp)).mpr (.of_fst e2 ((State.admitEnergy_within _ _ _ (by simp)).mpr ((within_part _ (by rfl) (by simp)).mpr h1))))
      · next e2 => exact (State.wantFor_within _ _ _ _ (by simp)).mpr ((State.addWork_within _ _ (by simp)).mpr (.of_fst e2 ((State.admitEnergy_within _ _ _ (by simp)).mpr ((within_part _ (by rfl) (by simp)).mpr h1)))))
@[simp] theorem State.endRdf_within (s : State) (w : Nat) (x : Work) (tag : Nat) (st : Status) (hZ : [.free, .mbx, .cells, .mem, .part, .eng, .form, .link, .cal, .pair, .pkg] ⊆ Z) (hx : Within Z s₀ s) :
    Within Z s₀ (s.endRdf w x tag st) := hx.step hZ (by simp [State.endRdf])
@[simp] theorem State.sendFormed_within (s : State) (x : Work) (tag at_ len bytes : Nat) (hZ : [.link] ⊆ Z) :
    Within Z s₀ (s.sendFormed x tag at_ len bytes) ↔ Within Z s₀ s := Within.iff hZ rfl (by simp [State.sendFormed])
@[simp] theorem State.chargeForm_within (s : State) (d cls : Nat) (b : FormBind) (f : FormProg) (t : Nat) (hZ : [.part, .cal] ⊆ Z) :
    Within Z s₀ (s.chargeForm d cls b f t) ↔ Within Z s₀ s := Within.iff hZ rfl (by unfold State.chargeForm; (repeat' split) <;> simp)
@[simp] theorem State.formNext_within (s : State) (d cls : Nat) (b : FormBind) (f : FormProg) (t : Nat) (hZ : [.free, .cells, .mem, .part, .form, .link, .cal, .pair] ⊆ Z) (hx : Within Z s₀ s) :
    Within Z s₀ (s.formNext d cls b f t).1 := hx.step hZ (by
  unfold State.formNext; dsimp only
  (repeat' split) <;> (try simp) <;> (have h1 := Within.of_fst (Z := [.free, .cells, .mem, .part, .form, .link, .cal, .pair]) (s := s) (by assumption) (by simp); simp [h1]))
@[simp] theorem State.commitIndex_within (s : State) (p : IndexP) (i : Nat) (hZ : [.retr] ⊆ Z) :
    Within Z s₀ (s.commitIndex p i).1 ↔ Within Z s₀ s := Within.iff hZ rfl (by simp [State.commitIndex])
@[simp] theorem indexDefineAct_within (p : IndexP) (u : State) (r : Nat) (hZ : [.retr] ⊆ Z) :
    Within Z s₀ (indexDefineAct p u r).1 ↔ Within Z s₀ u := Within.iff hZ rfl (by simp [indexDefineAct])
@[simp] theorem indexReplaceAct_within (p : IndexP) (u : State) (r : Nat) (hZ : [.retr] ⊆ Z) :
    Within Z s₀ (indexReplaceAct p u r).1 ↔ Within Z s₀ u := Within.iff hZ rfl (by simp [indexReplaceAct])
@[simp] theorem indexRetireAct_within (p : IndexP) (u : State) (r : Nat) (hZ : [.retr] ⊆ Z) :
    Within Z s₀ (indexRetireAct p u r).1 ↔ Within Z s₀ u := Within.iff hZ rfl (by simp [indexRetireAct])
@[simp] theorem State.readFor_within (s : State) (d payer cls : Nat) (lines : List Nat) (hZ : [.cells, .mem, .part, .link, .cal, .pair] ⊆ Z) (hx : Within Z s₀ s) :
    Within Z s₀ (s.readFor d payer cls lines).1 := hx.step hZ (by
  unfold State.readFor; dsimp only
  (repeat' split) <;> (try simp) <;> (have h1 := Within.of_fst (Z := [.cells, .mem, .part, .link, .cal, .pair]) (s := s) (by assumption) (by simp); simp [h1]))
@[simp] theorem State.pushOut_within (s : State) (x : Work) (addr : Nat) (ls : List Line) (hZ : [.couch, .link] ⊆ Z) :
    Within Z s₀ (s.pushOut x addr ls) ↔ Within Z s₀ s := Within.iff hZ rfl (by simp [State.pushOut])
@[simp] theorem State.putOut_within (s : State) (w : Nat) (x : Work) (pva : Bool) (addr : Nat) (ls : List Line) (hZ : [.mbx, .cells, .mem, .part, .xlat, .eng, .couch, .link, .cal, .pair] ⊆ Z) (hx : Within Z s₀ s) :
    Within Z s₀ (s.putOut w x pva addr ls).1 := hx.step hZ (by
  unfold State.putOut; dsimp only
  (repeat' split) <;> (try simp) <;> (have h1 := Within.of_fst (Z := [.mbx, .cells, .mem, .part, .xlat, .eng, .couch, .link, .cal, .pair]) (s := s) (by assumption) (by simp); simp [h1]))
@[simp] theorem State.bytesFor_within (s : State) (d : Nat) (x : Work) (pva n : Nat) (hZ : [.cells, .mem, .part, .link, .cal, .pair] ⊆ Z) (hx : Within Z s₀ s) :
    Within Z s₀ (s.bytesFor d x pva n).1 := hx.step hZ (by
  unfold State.bytesFor
  split <;> exact Within.of_fst (by assumption) (by simp))
@[simp] theorem State.scanRows_within (s : State) (x : Work) (b : IndexB) (n : Nat) (qs : List (Nat × Nat)) (elig : Nat) (rs : List Nat) (sc : Scan) (hZ : [.cells, .mem, .part, .link, .cal, .pair] ⊆ Z) (hx : Within Z s₀ s) :
    Within Z s₀ (s.scanRows x b n qs elig rs sc).1 := by
  induction rs generalizing s sc with
  | nil => exact hx
  | cons i rs ih =>
    have h1 := State.readFor_within s b.deckle x.deckle x.cls (b.rowLines i) hZ hx
    unfold State.scanRows
    split
    · next e1 =>
      split
      · exact ih _ _ (.of_fst e1 h1)
      · exact ih _ _ (.of_fst e1 h1)
    · next e1 => exact .of_fst e1 h1
@[simp] theorem State.filterBits_within (s : State) (d : Nat) (x : Work) (pva : Option Nat) (rows : Nat) (hZ : [.cells, .mem, .part, .link, .cal, .pair] ⊆ Z) (hx : Within Z s₀ s) :
    Within Z s₀ (s.filterBits d x pva rows).1 := hx.step hZ (by unfold State.filterBits; split <;> simp)
@[simp] theorem State.readQueries_within (s : State) (x : Work) (b : IndexB) (q qpva spva : Nat) (hZ : [.cells, .mem, .part, .link, .cal, .pair] ⊆ Z) (hx : Within Z s₀ s) :
    Within Z s₀ (s.readQueries x b q qpva spva).1 := hx.step hZ (by
  unfold State.readQueries
  extract_lets p
  split
  · next e1 => exact .of_fst e1 (by simp)
  · next s1 v e1 =>
    have h1 : Within [.cells, .mem, .part, .link, .cal, .pair] s s1 := .of_fst e1 (by simp)
    dsimp only
    have h2 : Within [.cells, .mem, .part, .link, .cal, .pair] s (if spva = 0 then (s1, Except.ok 0) else s1.bytesFor x.deckle x spva (4 * q)).1 := by
      split
      · exact h1
      · exact State.bytesFor_within _ _ _ _ _ (by simp) h1
    split <;> next e2 => exact .of_fst e2 h2)
@[simp] theorem State.scanFirst_within (s : State) (x : Work) (t : TopkB) (b : IndexB) (hZ : [.cells, .mem, .part, .link, .cal, .pair] ⊆ Z) (hx : Within Z s₀ s) :
    Within Z s₀ (s.scanFirst x t b).1 := hx.step hZ (by
  have h1 : Within [.cells, .mem, .part, .link, .cal, .pair] s (s.readQueries x b t.q t.queryPva t.qscalePva).1 := by simp
  unfold State.scanFirst
  split
  · next e1 => exact .of_fst e1 h1
  · next s1 _ e1 =>
    have h2 := State.filterBits_within s1 b.deckle x b.filter b.rows (by simp) (.of_fst e1 h1)
    split
    · next e2 => exact .of_fst e2 h2
    · next s2 _ e2 =>
      have h3 := State.filterBits_within s2 x.deckle x (if t.filterPva = 0 then none else some t.filterPva) b.rows (by simp) (.of_fst e2 h2)
      split
      · next e3 => exact .of_fst e3 h3
      · next e3 => exact State.scanRows_within _ _ _ _ _ _ _ _ (by simp) (.of_fst e3 h3))
@[simp] theorem State.readCands_within (s : State) (x : Work) (b : IndexB) (rs : List Nat) (acc : List (Nat × Nat)) (hZ : [.cells, .mem, .part, .link, .cal, .pair] ⊆ Z) (hx : Within Z s₀ s) :
    Within Z s₀ (s.readCands x b rs acc).1 := by
  induction rs generalizing s acc with
  | nil => exact hx
  | cons i rs ih =>
    have h1 := State.readFor_within s b.deckle x.deckle x.cls (b.rowLines i) hZ hx
    unfold State.readCands
    split
    · next e1 => exact ih _ _ (.of_fst e1 h1)
    · next e1 => exact .of_fst e1 h1
@[simp] theorem State.rescoreAll_within (s : State) (x : Work) (t : TopkB) (b : IndexB) (sc : Scan) (hZ : [.cells, .mem, .part, .link, .cal, .pair] ⊆ Z) (hx : Within Z s₀ s) :
    Within Z s₀ (s.rescoreAll x t b sc).1 := hx.step hZ (by
  have h1 : Within [.cells, .mem, .part, .link, .cal, .pair] s (s.readQueries x b t.q t.rqueryPva t.rqscalePva).1 := by simp
  unfold State.rescoreAll
  split
  · next e1 => exact .of_fst e1 h1
  · next s1 _ e1 =>
    have h2 := fun rows => State.readCands_within s1 x b rows [] (by simp) (.of_fst e1 h1)
    extract_lets rows
    split
    · next e2 => exact .of_fst e2 (h2 rows)
    · next e2 => exact .of_fst e2 (h2 rows))
@[simp] theorem State.refuseTopk_within (s : State) (h : Hdr) (t : TopkB) (st : Status) (detail : Nat) (hZ : [.mbx, .link] ⊆ Z) :
    Within Z s₀ (s.refuseTopk h t st detail) ↔ Within Z s₀ s := Within.iff hZ rfl (by simp [State.refuseTopk])
@[simp] theorem State.admitTopk_within (s : State) (h : Hdr) (t : TopkB) (queue : Nat) (hZ : [.mbx, .part, .eng, .link, .pair] ⊆ Z) :
    Within Z s₀ (s.admitTopk h t queue) ↔ Within Z s₀ s := Within.iff hZ rfl (by
  unfold State.admitTopk; dsimp only
  (repeat' split) <;> (try simp) <;> (have h1 := Within.of_fst (Z := [.mbx, .part, .eng, .link, .pair]) (s := s) (by assumption) (by simp); simp [h1]))
@[simp] theorem State.endTopk_within (s : State) (w : Nat) (x : Work) (sc : Scan) (cands : Nat) (hZ : [.free, .mbx, .cells, .mem, .part, .eng, .link, .cal, .pair, .pkg] ⊆ Z) (hx : Within Z s₀ s) :
    Within Z s₀ (s.endTopk w x sc cands) := hx.step hZ (by unfold State.endTopk; dsimp only; (repeat' split) <;> simp)
@[simp] theorem State.chargeScores_within (s : State) (x : Work) (b : IndexB) (pairs : Nat) (hZ : [.part, .cal] ⊆ Z) :
    Within Z s₀ (s.chargeScores x b pairs) ↔ Within Z s₀ s := Within.iff hZ rfl (by simp [State.chargeScores])
@[simp] theorem State.runTopk_within (s : State) (x : Work) (t : TopkB) (b : IndexB) (r : Option IndexB) (hZ : [.cells, .mem, .part, .link, .cal, .pair] ⊆ Z) (hx : Within Z s₀ s) :
    Within Z s₀ (s.runTopk x t b r).1 := hx.step hZ (by
  have h1 : Within [.cells, .mem, .part, .link, .cal, .pair] s (s.scanFirst x t b).1 := by simp
  unfold State.runTopk
  split
  · next e1 =>
    split
    · exact State.rescoreAll_within _ _ _ _ _ (by simp) (.of_fst e1 h1)
    · exact .of_fst e1 h1
  · next e1 => exact .of_fst e1 h1)
theorem State.growCtx_within (s : State) (d hint n : Nat) (hZ : [.grans, .part] ⊆ Z) (hx : Within Z s₀ s) {u : State}
    (e : s.growCtx d hint n = .ok u) : Within Z s₀ u := by
  induction n generalizing s hint with
  | zero => cases e; exact hx
  | succ n ih =>
    unfold State.growCtx at e
    split at e
    · cases e
    · refine ih _ _ ?_ e
      simp_all
@[simp] theorem State.dropCtx_within (s : State) (d : Nat) (hZ : [.grans, .part] ⊆ Z) (hx : Within Z s₀ s) :
    Within Z s₀ (s.dropCtx d) := hx.step hZ (by
  unfold State.dropCtx
  split
  · split
    · exact within_foldl _ _ (fun a r => by simp) (by simp)
    · simp
  · simp)
@[simp] theorem State.setSpill_within (s : State) (n : Nat) (hZ : [.eng] ⊆ Z) :
    Within Z s₀ (s.setSpill n) ↔ Within Z s₀ s := Within.iff hZ rfl (by simp [State.setSpill])
theorem State.setMaxSeq_within (s : State) (d n hint : Nat) (hZ : [.grans, .part] ⊆ Z) (hx : Within Z s₀ s) {u : State}
    (e : s.setMaxSeq d n hint = .ok u) : Within Z s₀ u := by
  unfold State.setMaxSeq at e
  dsimp only at e
  split at e
  · cases e
  · next s1 e1 =>
    have h1 := State.growCtx_within _ _ _ _ hZ hx e1
    split at e
    · cases e
    · cases e
      simp_all
@[simp] theorem attnPoolSetAct_within (p : PoolSetP) (hint : Nat) (u : State) (r : Nat) (hZ : [.grans, .part, .eng] ⊆ Z) (hx : Within Z s₀ u) :
    Within Z s₀ (attnPoolSetAct p hint u r).1 := hx.step hZ (by
  unfold attnPoolSetAct
  split
  · simp
  · next s1 e1 =>
    have h1 : Within [.grans, .part, .eng] u s1 := by
      split at e1
      · exact State.setMaxSeq_within _ _ _ _ (by simp) (.refl _ _) e1
      · cases e1; simp
    split <;> simp [h1])
@[simp] theorem State.touchCtx_within (s : State) (seq : Nat) (hZ : [.eng] ⊆ Z) :
    Within Z s₀ (s.touchCtx seq) ↔ Within Z s₀ s := Within.iff hZ rfl (by unfold State.touchCtx; split <;> simp)
end Sys2Proof.Machine
end

section
namespace Sys2Proof.Machine
variable {Z : List Spot} {s₀ : State}
@[simp] theorem State.refuseAttn_within (s : State) (h : Hdr) (kind ctag seq cplEp : Nat) (st : Status) (detail : Nat) (hZ : [.mbx, .link] ⊆ Z) :
    Within Z s₀ (s.refuseAttn h kind ctag seq cplEp st detail) ↔ Within Z s₀ s := Within.iff hZ rfl (by simp [State.refuseAttn])
@[simp] theorem State.endAttn_within (old s : State) (w : Nat) (x : Work) (st : Status) (detail seq tiles attended vstat : Nat) (hZ : [.free, .mbx, .cells, .mem, .part, .eng, .link, .cal, .pair, .pkg] ⊆ Z) (hx : Within Z s₀ s) :
    Within Z s₀ (old.endAttn s w x st detail seq tiles attended vstat) := hx.step hZ (by
  unfold State.endAttn
  extract_lets m run e body
  have h1 : Within [.free, .mbx, .cells, .mem, .part, .eng, .link, .cal, .pair, .pkg] s m.1 := by simp [m]
  have h2 : Within [.free, .mbx, .cells, .mem, .part, .eng, .link, .cal, .pair, .pkg] s e.2 := by
    unfold e
    split
    · simp [h1]
    · exact h1
  exact State.finishWork_within _ _ _ _ _ (by simp) h2)
@[simp] theorem State.modSeq_within (s : State) (q : Nat) (f : SeqCtx → SeqCtx) (hZ : [.attn] ⊆ Z) :
    Within Z s₀ (s.modSeq q f) ↔ Within Z s₀ s := Within.iff hZ rfl (by simp [State.modSeq])
@[simp] theorem State.runAttn_within (s : State) (w : Nat) (x : Work) (hZ : [.free, .mbx, .cells, .mem, .grans, .part, .eng, .attn, .link, .cal, .pair, .pkg] ⊆ Z) (hx : Within Z s₀ s) :
    Within Z s₀ (s.runAttn w x) := hx.step hZ (by
  unfold State.runAttn
  split
  · split <;> (try dsimp only) <;> refine State.endAttn_within _ _ _ _ _ _ _ _ _ _ (by simp) ?_ <;> simp
  · split
    · simp
    · dsimp only
      (repeat' split) <;> refine State.endAttn_within _ _ _ _ _ _ _ _ _ _ (by simp) ?_
      · simp
      · simp
      · exact State.dropCtx_within _ _ (by simp) ((within_attn _ (by simp)).mpr ((State.modCore_within _ _ _ (by simp)).mpr (.refl _ _)))
  · simp)
@[simp] theorem State.pumpAttn_within (s : State) (hZ : [.free, .mbx, .cells, .mem, .grans, .part, .eng, .attn, .link, .cal, .pair, .pkg] ⊆ Z) (hx : Within Z s₀ s) :
    Within Z s₀ s.pumpAttn := hx.step hZ (by
  unfold State.pumpAttn; dsimp only
  (repeat' split) <;> simp (disch := try (intros; (repeat' split) <;> simp (disch := try simp (disch := try simp)) [within_foldl, within_foldl_fst])) [within_foldl, within_foldl_fst])
@[simp] theorem State.pumpReady_within (s : State) (hZ : [.free, .mbx, .cells, .mem, .grans, .part, .eng, .attn, .link, .cal, .pair, .pkg] ⊆ Z) (hx : Within Z s₀ s) :
    Within Z s₀ s.pumpReady := hx.step hZ (State.pumpAttn_within _ (by simp)
  (within_foldl _ _ (fun a w => by (repeat' split) <;> simp) (.refl _ _)))
@[simp] theorem State.admitAttn_within (s : State) (h : Hdr) (queue : Nat) (body : WorkBody) (cplEp ctag : Nat) (fields aligned : Bool) (cores : List Nat) (engines capNs est : Nat) (hZ : [.free, .mbx, .cells, .mem, .grans, .part, .eng, .attn, .link, .cal, .pair, .pkg] ⊆ Z) (hx : Within Z s₀ s) :
    Within Z s₀ (s.admitAttn h queue body cplEp ctag fields aligned cores engines capNs est) := hx.step hZ (by
  unfold State.admitAttn; dsimp only
  (repeat' split) <;> (try simp) <;> (have h1 := Within.of_fst (Z := [.free, .mbx, .cells, .mem, .grans, .part, .eng, .attn, .link, .cal, .pair, .pkg]) (s := s) (by assumption) (by simp); simp [h1]))
@[simp] theorem State.attnGate_within (s : State) (h : Hdr) (kind ctag seq cplEp len : Nat) (go : State → Nat → State)
    (hZ : [.mbx, .part, .link, .cal] ⊆ Z) (hgo : ∀ u q, Within Z u (go u q)) (hx : Within Z s₀ s) :
    Within Z s₀ (s.attnGate h kind ctag seq cplEp len go) :=
  State.workGate_within _ _ _ _ _ _ _ (List.Subset.trans (by simp) hZ) (fun u q _ => hgo u q)
    (fun u st => (State.refuseAttn_within u h kind ctag seq cplEp st 0 (List.Subset.trans (by simp) hZ)).mpr (.refl _ _)) hx
@[simp] theorem State.attnCloseOp_within (s : State) (h : Hdr) (b : AttnCloseB) (op : Nat) (hZ : [.free, .mbx, .cells, .mem, .grans, .part, .eng, .attn, .link, .cal, .pair, .pkg] ⊆ Z) (hx : Within Z s₀ s) :
    Within Z s₀ (s.attnCloseOp h b op) := hx.step hZ (by simp [State.attnCloseOp])
@[simp] theorem State.readEntries_within (s : State) (x : Work) (c : AttnOpenB) (layer : Nat) (ps : List (Nat × Nat)) (acc : NMap Nat) (hZ : [.cells, .mem, .part, .link, .cal, .pair] ⊆ Z) (hx : Within Z s₀ s) :
    Within Z s₀ (s.readEntries x c layer ps acc).1 := by
  induction ps generalizing s acc with
  | nil => exact hx
  | cons pg ps ih =>
    have h1 := State.readFor_within s x.deckle x.deckle x.cls [entryPva c layer pg.1 pg.2 / 64] hZ hx
    unfold State.readEntries
    dsimp only
    split
    · next s1 ls e =>
      have h2 : Within Z s₀ s1 := .of_fst e h1
      split
      · exact ih _ _ h2
      · exact h2
    all_goals next e => exact .of_fst e h1
@[simp] theorem State.mergeInto_within (s : State) (cls : Nat) (ls : List (LineRef × Line × BitVec 64)) (m : Nat) (hZ : [.cells, .mem, .part, .link, .cal, .pair] ⊆ Z) (hx : Within Z s₀ s) :
    Within Z s₀ (s.mergeInto cls ls m).1 := by
  induction ls generalizing s m with
  | nil => exact hx
  | cons l ls ih =>
    obtain ⟨r, d, k⟩ := l
    have h1 : Within Z s₀ ((s.closeAsmOf r.tier r.line).writeLine r d k false { fw := true, cls := cls }).1 :=
      State.writeLine_within _ _ _ _ _ _ hZ (State.closeAsmOf_within _ _ _ hZ hx)
    unfold State.mergeInto
    split
    · next s1 q e => exact ih _ _ (.of_fst e h1)
    all_goals next e => exact .of_fst e h1
@[simp] theorem State.copyTokens_within (s : State) (x : Work) (c : SeqCtx) (b : AttnAppendB) (es : NMap Nat) (hZ : [.cells, .mem, .part, .link, .cal, .pair] ⊆ Z) (hx : Within Z s₀ s) :
    Within Z s₀ (s.copyTokens x c b es).1 := hx.step hZ (by
  unfold State.copyTokens
  extract_lets n
  have h1 : Within [.cells, .mem, .part, .link, .cal, .pair] s (s.readFor x.deckle x.deckle x.cls (lineRun b.srcPva (cdiv n 64))).1 := by simp
  split
  · next s1 src e1 =>
    have h2 : Within [.cells, .mem, .part, .link, .cal, .pair] s s1 := .of_fst e1 h1
    dsimp only
    (repeat' split) <;> simp [h2]
  all_goals next e1 => exact .of_fst e1 h1)
@[simp] theorem State.runAppend_within (s : State) (x : Work) (c : SeqCtx) (b : AttnAppendB) (hZ : [.cells, .mem, .part, .link, .cal, .pair] ⊆ Z) (hx : Within Z s₀ s) :
    Within Z s₀ (s.runAppend x c b).1 := hx.step hZ (by
  unfold State.runAppend
  extract_lets v ps
  have h1 : Within [.cells, .mem, .part, .link, .cal, .pair] s (s.readEntries x c.cfg b.layer ps []).1 := by simp
  split
  · next s1 es e1 =>
    have h2 : Within [.cells, .mem, .part, .link, .cal, .pair] s s1 := .of_fst e1 h1
    split <;> simp [h2]
  all_goals next e1 => exact .of_fst e1 h1)
@[simp] theorem State.faultWait_within (s : State) (w : Nat) (x : Work) (lines : List Nat) (wr : Bool) (hZ : [.mbx, .part, .xlat, .eng, .link] ⊆ Z) :
    Within Z s₀ (s.faultWait w x lines wr) ↔ Within Z s₀ s := Within.iff hZ rfl (by simp [State.faultWait])
@[simp] theorem State.readTokens_within (s : State) (x : Work) (lines : List (Nat × Nat)) (acc : List (Nat × Line)) (hZ : [.cells, .mem, .part, .link, .cal, .pair] ⊆ Z) (hx : Within Z s₀ s) :
    Within Z s₀ (s.readTokens x lines acc).1 := by
  induction lines generalizing s acc with
  | nil => exact hx
  | cons l ls ih =>
    obtain ⟨l, i⟩ := l
    have h1 := State.readFor_within s x.deckle x.deckle x.cls [l] hZ hx
    unfold State.readTokens
    split
    · next e => exact ih _ _ (.of_fst e h1)
    all_goals next e => exact .of_fst e h1
@[simp] theorem State.stepQueries_within (s : State) (x : Work) (c : AttnOpenB) (b : AttnStepB) (hZ : [.cells, .mem, .part, .link, .cal, .pair] ⊆ Z) (hx : Within Z s₀ s) :
    Within Z s₀ (s.stepQueries x c b).1 := hx.step hZ (by
  have h1 := State.readFor_within s x.deckle x.deckle x.cls (lineRun b.queryPva (cdiv (queryBytes c b) 64)) (Z := [.cells, .mem, .part, .link, .cal, .pair]) (by simp) (.refl _ _)
  unfold State.stepQueries
  split
  · simp
  · split <;> next e => exact .of_fst e h1)
@[simp] theorem State.runStep_within (s : State) (x : Work) (c : SeqCtx) (b : AttnStepB) (hZ : [.cells, .mem, .part, .link, .cal, .pair] ⊆ Z) (hx : Within Z s₀ s) :
    Within Z s₀ (s.runStep x c b).1 := hx.step hZ (by
  unfold State.runStep
  extract_lets v js
  have h1 : Within [.cells, .mem, .part, .link, .cal, .pair] s (s.stepQueries x c.cfg b).1 := by simp
  split
  · next s1 qs e1 =>
    have h2 := State.readEntries_within s1 x c.cfg b.layer (pagesWith c.cfg js) [] (by simp) (.of_fst e1 h1)
    split
    · next s2 es e2 =>
      have h3 := State.readTokens_within s2 x (tokenLines c.cfg es js) [] (by simp) (.of_fst e2 h2)
      split
      · next s3 data e3 =>
        exact (State.charge_within _ _ _ _ _ (by simp)).mpr ((State.charge_within _ _ _ _ _ (by simp)).mpr (.of_fst e3 h3))
      all_goals next e3 => exact .of_fst e3 h3
    all_goals next e2 => exact .of_fst e2 h2
  all_goals next e1 => exact .of_fst e1 h1)
@[simp] theorem State.setChan_within (s : State) (core ch : Nat) (c : Channel) (hZ : [.couch] ⊆ Z) :
    Within Z s₀ (s.setChan core ch c) ↔ Within Z s₀ s := Within.iff hZ rfl (by simp [State.setChan])
@[simp] theorem State.modChain_within (s : State) (core ch : Nat) (f : Chain → Chain) (hZ : [.couch] ⊆ Z) :
    Within Z s₀ (s.modChain core ch f) ↔ Within Z s₀ s := Within.iff hZ rfl (by simp [State.modChain])
@[simp] theorem State.modRun_within (s : State) (core ch : Nat) (f : DescRun → DescRun) (hZ : [.couch] ⊆ Z) :
    Within Z s₀ (s.modRun core ch f) ↔ Within Z s₀ s := Within.iff hZ rfl (by simp [State.modRun])
@[simp] theorem State.setTile_within (s : State) (core ch t : Nat) (x : Option TileState) (hZ : [.couch] ⊆ Z) :
    Within Z s₀ (s.setTile core ch t x) ↔ Within Z s₀ s := Within.iff hZ rfl (by simp [State.setTile])
@[simp] theorem State.chainCpl_within (s : State) (core ch : Nat) (k : Chain) (st : Status) (halted : Bool) (detail : Nat) (hZ : [.mbx, .link, .pair] ⊆ Z) :
    Within Z s₀ (s.chainCpl core ch k st halted detail) ↔ Within Z s₀ s := Within.iff hZ rfl (by simp [State.chainCpl])
@[simp] theorem State.endChain_within (s : State) (core ch : Nat) (st : Status) (halted : Bool) (detail : Nat) (hZ : [.mbx, .couch, .link, .pair] ⊆ Z) :
    Within Z s₀ (s.endChain core ch st halted detail) ↔ Within Z s₀ s := Within.iff hZ rfl (by unfold State.endChain; dsimp only; (repeat' split) <;> simp)
@[simp] theorem State.writeBack_within (s : State) (d pva : Nat) (st : Status) (bad : Bool) (retries tiles : Nat) (hZ : [.cells, .mem, .part, .link, .cal, .pair] ⊆ Z) (hx : Within Z s₀ s) :
    Within Z s₀ (s.writeBack d pva st bad retries tiles).1 := hx.step hZ (by
  unfold State.writeBack; dsimp only
  (repeat' split) <;> (try simp) <;> (have h1 := Within.of_fst (Z := [.cells, .mem, .part, .link, .cal, .pair]) (s := s) (by assumption) (by simp); simp [h1]))
@[simp] theorem State.closeDesc_within (s : State) (core ch : Nat) (st : Status) (bad : Bool) (detail : Nat) (hZ : [.free, .mbx, .cells, .mem, .part, .xlat, .eng, .couch, .link, .cal, .pair, .pkg] ⊆ Z) (hx : Within Z s₀ s) :
    Within Z s₀ (s.closeDesc core ch st bad detail).1 := hx.step hZ (by
  unfold State.closeDesc; dsimp only
  (repeat' split) <;> simp (disch := try (intros; (repeat' split) <;> simp (disch := try simp (disch := try simp)) [within_foldl, within_foldl_fst])) [within_foldl, within_foldl_fst])
@[simp] theorem State.endDesc_within (s : State) (core ch : Nat) (st : Status) (bad : Bool) (detail : Nat) (hZ : [.free, .mbx, .cells, .mem, .part, .xlat, .eng, .form, .couch, .link, .cal, .pair, .pkg] ⊆ Z) (hx : Within Z s₀ s) :
    Within Z s₀ (s.endDesc core ch st bad detail) := hx.step hZ (by unfold State.endDesc; split <;> simp)
@[simp] theorem State.stopChain_within (s : State) (core ch : Nat) (st : Status) (hZ : [.free, .mbx, .cells, .mem, .part, .xlat, .eng, .couch, .link, .cal, .pair, .pkg] ⊆ Z) (hx : Within Z s₀ s) :
    Within Z s₀ (s.stopChain core ch st) := hx.step hZ (by simp [State.stopChain])
@[simp] theorem State.stopChains_within (s : State) (test : Chain → Bool) (only : Option Nat) (st : Status) (hZ : [.free, .mbx, .cells, .mem, .part, .xlat, .eng, .couch, .link, .cal, .pair, .pkg] ⊆ Z) (hx : Within Z s₀ s) :
    Within Z s₀ (s.stopChains test only st).1 := hx.step hZ (by
  unfold State.stopChains; dsimp only
  (repeat' split) <;> simp (disch := try (intros; (repeat' split) <;> simp (disch := try simp (disch := try simp)) [within_foldl, within_foldl_fst])) [within_foldl, within_foldl_fst])
@[simp] theorem State.refuseCouch_within (s : State) (h : Hdr) (ctag : Nat) (st : Status) (detail : Nat) (hZ : [.mbx, .link] ⊆ Z) :
    Within Z s₀ (s.refuseCouch h ctag st detail) ↔ Within Z s₀ s := Within.iff hZ rfl (by simp [State.refuseCouch])
@[simp] theorem State.admitCouch_within (s : State) (h : Hdr) (b : CouchB) (queue : Nat) (hZ : [.mbx, .couch, .link, .pair] ⊆ Z) :
    Within Z s₀ (s.admitCouch h b queue) ↔ Within Z s₀ s := Within.iff hZ rfl (by unfold State.admitCouch; dsimp only; (repeat' split) <;> simp)
@[simp] theorem State.descCheck_within (s : State) (deckle : Nat) (d : Desc) (inl : Bool) (hZ : [.cells, .mem, .part, .link, .cal, .pair] ⊆ Z) (hx : Within Z s₀ s) :
    Within Z s₀ (s.descCheck deckle d inl).1 := hx.step hZ (by
  unfold State.descCheck
  split
  · simp
  · extract_lets f
    have h1 : Within [.cells, .mem, .part, .link, .cal, .pair] s f.1 := by
      unfold f
      split
      · simp
      · have h2 : Within [.cells, .mem, .part, .link, .cal, .pair] s (s.readBytes deckle d.srcAddr 64).1 := by simp
        split
        · next e =>
          dsimp only
          split <;> exact .of_fst e h2
        · next e => exact .of_fst e h2
    clear_value f
    obtain ⟨s1, e | b⟩ := f
    · exact h1
    · dsimp only
      (repeat' split) <;> exact h1)
@[simp] theorem State.startDesc_within (s : State) (core ch : Nat) (k : Chain) (d : Desc) (pva : Option Nat) (hZ : [.free, .mbx, .cells, .mem, .part, .xlat, .eng, .form, .couch, .link, .cal, .pair, .pkg] ⊆ Z) (hx : Within Z s₀ s) :
    Within Z s₀ (s.startDesc core ch k d pva) := hx.step hZ (by
  have h1 : Within [.free, .mbx, .cells, .mem, .part, .xlat, .eng, .form, .couch, .link, .cal, .pair, .pkg] s (s.descCheck k.deckle d pva.isNone).1 := by simp
  unfold State.startDesc
  extract_lets put
  split
  · next s1 _ e1 =>
    exact State.endDesc_within _ _ _ _ _ _ (by simp) ((State.modChain_within _ _ _ _ (by simp)).mpr (.of_fst e1 h1))
  · next s1 f e1 =>
    have h2 : ∀ est, Within [.free, .mbx, .cells, .mem, .part, .xlat, .eng, .form, .couch, .link, .cal, .pair, .pkg] s (s1.admitEnergy k.deckle est).1 :=
      fun est => (State.admitEnergy_within _ _ _ (by simp)).mpr (.of_fst e1 h1)
    split
    · next s2 y e2 =>
      have h3 : ∀ r, Within [.free, .mbx, .cells, .mem, .part, .xlat, .eng, .form, .couch, .link, .cal, .pair, .pkg] s (put s2 r) := fun r => (State.modChain_within _ _ _ _ (by simp)).mpr (.of_fst e2 (h2 _))
      dsimp only
      split
      · exact (State.wantFor_within _ _ _ _ (by simp)).mpr (h3 _)
      · exact h3 _
    · simp)
@[simp] theorem State.tileError_within (s : State) (core ch : Nat) (st : Status) (detail : Nat) (hZ : [.free, .mbx, .cells, .mem, .part, .xlat, .eng, .form, .couch, .link, .cal, .pair, .pkg] ⊆ Z) (hx : Within Z s₀ s) :
    Within Z s₀ (s.tileError core ch st detail) := hx.step hZ (by simp [State.tileError])
@[simp] theorem State.tileTransient_within (s : State) (core ch t : Nat) (st : Status) (hZ : [.free, .mbx, .cells, .mem, .part, .xlat, .eng, .form, .couch, .link, .cal, .pair, .pkg] ⊆ Z) (hx : Within Z s₀ s) :
    Within Z s₀ (s.tileTransient core ch t st) := hx.step hZ (by unfold State.tileTransient; split <;> simp)
@[simp] theorem State.openStatus_within (s : State) (hZ : [.free] ⊆ Z) :
    Within Z s₀ s.openStatus.1 ↔ Within Z s₀ s := Within.iff hZ rfl (by simp [State.openStatus])
@[simp] theorem State.walkTile_within (s : State) (core ch t : Nat) (hZ : [.free, .mbx, .cells, .mem, .part, .xlat, .eng, .form, .couch, .link, .cal, .pair, .pkg] ⊆ Z) (hx : Within Z s₀ s) :
    Within Z s₀ (s.walkTile core ch t) := hx.step hZ (by
  unfold State.walkTile; dsimp only
  (repeat' split) <;> (try simp) <;> (have h1 := Within.of_fst (Z := [.free, .mbx, .cells, .mem, .part, .xlat, .eng, .form, .couch, .link, .cal, .pair, .pkg]) (s := s) (by assumption) (by simp); simp [h1]))
@[simp] theorem State.issueTo_within (s : State) (core ch t n : Nat) (hZ : [.free, .mbx, .cells, .mem, .part, .xlat, .eng, .form, .couch, .link, .cal, .pair, .pkg] ⊆ Z) (hx : Within Z s₀ s) :
    Within Z s₀ (s.issueTo core ch t n) := by
  induction n generalizing s with
  | zero => exact hx
  | succ n ih =>
    unfold State.issueTo
    split
    · exact hx
    · split
      · exact hx
      · exact ih _ (hx.step hZ (by simp))
@[simp] theorem State.settleDesc_within (s : State) (core ch : Nat) (hZ : [.free, .mbx, .cells, .mem, .part, .xlat, .eng, .form, .couch, .link, .cal, .pair, .pkg] ⊆ Z) (hx : Within Z s₀ s) :
    Within Z s₀ (s.settleDesc core ch) := hx.step hZ (by unfold State.settleDesc; split <;> simp)
@[simp] theorem State.landCouch_within (s : State) (core ch t : Nat) (mseq : Option Nat) (last : List Nat) (hZ : [.free, .mbx, .cells, .mem, .part, .xlat, .eng, .form, .couch, .link, .cal, .pair, .pkg] ⊆ Z) (hx : Within Z s₀ s) :
    Within Z s₀ (s.landCouch core ch t mseq last) := hx.step hZ (by unfold State.landCouch; split <;> simp)
@[simp] theorem State.pushTile_within (s : State) (core ch t : Nat) (k : Chain) (r : DescRun) (data : List Line) (hZ : [.free, .mbx, .cells, .mem, .part, .xlat, .eng, .form, .couch, .link, .cal, .pair, .pkg] ⊆ Z) (hx : Within Z s₀ s) :
    Within Z s₀ (s.pushTile core ch t k r data) := hx.step hZ (by simp [State.pushTile])
@[simp] theorem State.deliverTile_within (s : State) (core ch t : Nat) (k : Chain) (r : DescRun) (src dst : List LineRef) (data : List Line) (hZ : [.free, .mbx, .cells, .mem, .part, .xlat, .eng, .form, .couch, .link, .cal, .pair, .pkg] ⊆ Z) (hx : Within Z s₀ s) :
    Within Z s₀ (s.deliverTile core ch t k r src dst data) := hx.step hZ (by
  unfold State.deliverTile; dsimp only
  (repeat' split) <;> simp (disch := try (intros; (repeat' split) <;> simp (disch := try simp (disch := try simp)) [within_foldl, within_foldl_fst])) [within_foldl, within_foldl_fst])
@[simp] theorem State.remoteReads_within (s : State) (core ch t : Nat) (k : Chain) (r : DescRun) (hZ : [.free, .mbx, .cells, .mem, .part, .xlat, .eng, .form, .couch, .link, .cal, .pair, .pkg] ⊆ Z) (hx : Within Z s₀ s) :
    Within Z s₀ (s.remoteReads core ch t k r) := hx.step hZ (by unfold State.remoteReads; split <;> simp)
@[simp] theorem State.moveCouch_within (s : State) (core ch t : Nat) (k : Chain) (r : DescRun) (src dst : List LineRef) (hZ : [.free, .mbx, .cells, .mem, .part, .xlat, .eng, .form, .couch, .link, .cal, .pair, .pkg] ⊆ Z) (hx : Within Z s₀ s) :
    Within Z s₀ (s.moveCouch core ch t k r src dst) := hx.step hZ (by
  unfold State.moveCouch
  split
  · have h1 : Within [.free, .mbx, .cells, .mem, .part, .xlat, .eng, .form, .couch, .link, .cal, .pair, .pkg] s (s.readTile src k.cls).1 := by simp
    split
    · next e => exact State.deliverTile_within _ _ _ _ _ _ _ _ _ (by simp) (.of_fst e h1)
    · next e => exact State.tileError_within _ _ _ _ _ (by simp) (.of_fst e h1)
    · next e => exact .of_fst e h1
  · simp
  · split
    · next p b _ _ =>
      have h1 : Within [.free, .mbx, .cells, .mem, .part, .xlat, .eng, .form, .couch, .link, .cal, .pair, .pkg] s (s.formNext k.deckle k.cls b p t).1 := by simp
      split
      · simp
      · split
        · next e => exact State.deliverTile_within _ _ _ _ _ _ _ _ _ (by simp) (.of_fst e h1)
        · next e => exact State.tileError_within _ _ _ _ _ (by simp) (.of_fst e h1)
        · next e => exact .of_fst e h1
    · simp)
@[simp] theorem State.pumpCouch_within (s : State) (hZ : [.free, .mbx, .cells, .mem, .part, .xlat, .eng, .form, .couch, .link, .cal, .pair, .pkg] ⊆ Z) (hx : Within Z s₀ s) :
    Within Z s₀ s.pumpCouch := hx.step hZ (within_foldl _ _ (fun a k => by simp) (.refl _ _))
@[simp] theorem State.closeFault_within (s : State) (f : Nat) (hZ : [.xlat] ⊆ Z) :
    Within Z s₀ (s.closeFault f) ↔ Within Z s₀ s := Within.iff hZ rfl (by simp [State.closeFault])
@[simp] theorem State.resumeWaiter_within (s : State) (f : Nat) (w : Waiter) (hZ : [.free, .mbx, .cells, .mem, .part, .xlat, .eng, .form, .couch, .link, .cal, .pair, .pkg] ⊆ Z) (hx : Within Z s₀ s) :
    Within Z s₀ (s.resumeWaiter f w) := hx.step hZ (by unfold State.resumeWaiter; (repeat' split) <;> simp)
@[simp] theorem State.abortWaiter_within (s : State) (f : Nat) (w : Waiter) (hZ : [.free, .mbx, .cells, .mem, .part, .xlat, .eng, .form, .couch, .link, .cal, .pair, .pkg] ⊆ Z) (hx : Within Z s₀ s) :
    Within Z s₀ (s.abortWaiter f w) := hx.step hZ (by unfold State.abortWaiter; (repeat' split) <;> simp)
@[simp] theorem State.closeWith_within (s : State) (i : Nat) (r : FaultRec) (f : State → Waiter → State) (hZ : [.xlat] ⊆ Z) (hf : ∀ u w, Within Z u (f u w)) (hx : Within Z s₀ s) :
    Within Z s₀ (s.closeWith i r f) := within_foldl _ _ hf (by simp_all)
@[simp] theorem faultResumeAct_within (p : FaultP) (u : State) (r : Nat) (hZ : [.free, .mbx, .cells, .mem, .part, .xlat, .eng, .form, .couch, .link, .cal, .pair, .pkg] ⊆ Z) (hx : Within Z s₀ u) :
    Within Z s₀ (faultResumeAct p u r).1 := hx.step hZ (by unfold faultResumeAct; split <;> simp)
@[simp] theorem faultAbortAct_within (p : FaultP) (u : State) (r : Nat) (hZ : [.free, .mbx, .cells, .mem, .part, .xlat, .eng, .form, .couch, .link, .cal, .pair, .pkg] ⊆ Z) (hx : Within Z s₀ u) :
    Within Z s₀ (faultAbortAct p u r).1 := hx.step hZ (by unfold faultAbortAct; split <;> simp)
@[simp] theorem State.endStopped_within (s : State) (w : Nat) (hZ : [.free, .mbx, .cells, .mem, .part, .eng, .form, .link, .cal, .pair, .pkg] ⊆ Z) (hx : Within Z s₀ s) :
    Within Z s₀ (s.endStopped w) := hx.step hZ (by unfold State.endStopped; (repeat' split) <;> simp)
@[simp] theorem State.stopItem_within (s : State) (w : Nat) (st : Status) (hZ : [.free, .mbx, .cells, .mem, .part, .xlat, .eng, .form, .link, .cal, .pair, .pkg] ⊆ Z) (hx : Within Z s₀ s) :
    Within Z s₀ (s.stopItem w st) := hx.step hZ (by unfold State.stopItem; split <;> simp)
@[simp] theorem State.stopItems_within (s : State) (test : Work → Bool) (st : Status) (hZ : [.free, .mbx, .cells, .mem, .grans, .part, .xlat, .eng, .attn, .form, .link, .cal, .pair, .pkg] ⊆ Z) (hx : Within Z s₀ s) :
    Within Z s₀ (s.stopItems test st).1 := hx.step hZ (by
  unfold State.stopItems; dsimp only
  (repeat' split) <;> simp (disch := try (intros; (repeat' split) <;> simp (disch := try simp (disch := try simp)) [within_foldl, within_foldl_fst])) [within_foldl, within_foldl_fst])
@[simp] theorem State.reopenWindow_within (s : State) (st : Status) (hZ : [.hub] ⊆ Z) :
    Within Z s₀ (s.reopenWindow st) ↔ Within Z s₀ s := Within.iff hZ rfl (by simp [State.reopenWindow])
@[simp] theorem State.bootActivate_within (s : State) (q : Req) (p : FwP) (r : Nat) (hZ : [.hub] ⊆ Z) :
    Within Z s₀ (s.bootActivate q p r).1 ↔ Within Z s₀ s := Within.iff hZ rfl (by simp [State.bootActivate])
@[simp] theorem State.startFirmware_within (s : State) (i : Image) (fill : Bool) (hZ : [.hub, .mbx, .part, .sec, .pkg] ⊆ Z) :
    Within Z s₀ (s.startFirmware i fill) ↔ Within Z s₀ s := Within.iff hZ rfl (by
  unfold State.startFirmware
  extract_lets k d s1 hub mbx part s2 s3
  have h1 : Within [.hub, .mbx, .part, .sec, .pkg] s s1 := by simp [s1, k]
  have h2 : Within [.hub, .mbx, .part, .sec, .pkg] s s2 := (within_part_mbx_hub _ _ _ (by rfl) (by simp)).mpr h1
  refine (State.setPhase_within _ _ (by simp)).mpr ?_
  unfold s3
  split
  · exact (State.setLease_within _ _ _ _ (by simp)).mpr h2
  · exact h2)
@[simp] theorem State.closeSession_within (s : State) (hZ : [.sec] ⊆ Z) :
    Within Z s₀ s.closeSession ↔ Within Z s₀ s := Within.iff hZ rfl (by simp [State.closeSession])
@[simp] theorem State.startActivation_within (s : State) (reply : Option Nat) (hZ : [.hub, .sec, .pkg] ⊆ Z) :
    Within Z s₀ (s.startActivation reply) ↔ Within Z s₀ s := Within.iff hZ rfl (by unfold State.startActivation; (repeat' split) <;> simp only [within_self, within_ite, within_ite_fst, within_foldl_iff, within_foldl_fst_iff, within_hub, State.closeSession_within, State.setPhase_within, List.cons_subset, List.nil_subset, List.mem_cons, true_or, or_true, false_or, and_true, true_and, reduceCtorEq, implies_true, ite_self])
@[simp] theorem State.liveActivate_within (s : State) (p : FwP) (r : Nat) (hZ : [.hub, .sec, .pkg] ⊆ Z) :
    Within Z s₀ (s.liveActivate p r).1 ↔ Within Z s₀ s := Within.iff hZ rfl (by simp [State.liveActivate])
@[simp] theorem fwActivateAct_within (q : Req) (p : FwP) (u : State) (r : Nat) (hZ : [.hub, .sec, .pkg] ⊆ Z) :
    Within Z s₀ (fwActivateAct q p u r).1 ↔ Within Z s₀ u := Within.iff hZ rfl (by simp [fwActivateAct])
@[simp] theorem State.fwActivate_within (s : State) (self : Instr) (q : Req) (p : FwP) (hZ : [.hub, .mbx, .cells, .mem, .part, .link, .cal, .pair, .sec, .pkg] ⊆ Z) (hx : Within Z s₀ s) :
    Within Z s₀ (s.fwActivate self q p) := hx.step hZ (by simp [State.fwActivate])
@[simp] theorem State.stage_within (s : State) (p : FwP) (hZ : [.hub, .cells, .mem, .part, .link, .cal, .pair] ⊆ Z) (hx : Within Z s₀ s) :
    Within Z s₀ (s.stage p).1 := hx.step hZ (by
  have h1 : Within [.hub, .cells, .mem, .part, .link, .cal, .pair] s (s.readBytes 0 p.imagePva 4096).1 := by simp
  unfold State.stage
  extract_lets put
  have hput : ∀ u i st d, Within [.hub, .cells, .mem, .part, .link, .cal, .pair] s u → Within [.hub, .cells, .mem, .part, .link, .cal, .pair] s (put u i st d).1 :=
    fun u i st d h => (within_hub _ (by simp)).mpr h
  split
  · next s1 _ e1 =>
    have h2 : Within [.hub, .cells, .mem, .part, .link, .cal, .pair] s s1 := .of_fst e1 h1
    split
    · exact hput _ _ _ _ h2
    · have h3 := State.readBytes_within s1 0 (p.imagePva + 4096) (p.imageLen - 4096) (by simp) h2
      split
      · next s2 _ e2 =>
        have h4 : Within [.hub, .cells, .mem, .part, .link, .cal, .pair] s s2 := .of_fst e2 h3
        split <;> exact hput _ _ _ _ h4
      · next e2 => exact hput _ _ _ _ (.of_fst e2 h3)
  · next e1 => exact hput _ _ _ _ (.of_fst e1 h1))
@[simp] theorem fwStageAct_within (p : FwP) (u : State) (r : Nat) (hZ : [.hub, .cells, .mem, .part, .link, .cal, .pair] ⊆ Z) (hx : Within Z s₀ u) :
    Within Z s₀ (fwStageAct p u r).1 := hx.step hZ (by simp [fwStageAct])
@[simp] theorem fwStatusAct_within (u : State) (r : Nat) (hZ : [] ⊆ Z) :
    Within Z s₀ (fwStatusAct u r).1 ↔ Within Z s₀ u := Within.iff hZ rfl (by simp [fwStatusAct])
@[simp] theorem State.dropActivation_within (s : State) (detail : Nat) (hZ : [.hub, .mbx, .cells, .mem, .part, .link, .cal, .pair, .pkg] ⊆ Z) (hx : Within Z s₀ s) :
    Within Z s₀ (s.dropActivation detail) := hx.step hZ (by unfold State.dropActivation; split <;> simp)
@[simp] theorem deviceQueryAct_within (q : Req) (u : State) (r : Nat) (hZ : [] ⊆ Z) :
    Within Z s₀ (deviceQueryAct q u r).1 ↔ Within Z s₀ u := Within.iff hZ rfl (by simp [deviceQueryAct])
@[simp] theorem State.setProfile_within (s : State) (bulk : Bool) (hZ : [.free, .hub, .mbx, .part, .link, .cal, .pair, .pkg] ⊆ Z) :
    Within Z s₀ (s.setProfile bulk) ↔ Within Z s₀ s := Within.iff hZ rfl (by simp [State.setProfile])
@[simp] theorem configureAct_within (p : DevCfgP) (u : State) (r : Nat) (hZ : [.free, .hub, .mbx, .part, .link, .cal, .pair, .pkg] ⊆ Z) :
    Within Z s₀ (configureAct p u r).1 ↔ Within Z s₀ u := Within.iff hZ rfl (by simp [configureAct])
@[simp] theorem State.configure_within (s : State) (self : Instr) (q : Req) (p : DevCfgP) (hZ : [.free, .hub, .mbx, .cells, .mem, .part, .link, .cal, .pair, .pkg] ⊆ Z) (hx : Within Z s₀ s) :
    Within Z s₀ (s.configure self q p) := hx.step hZ (by simp [State.configure])
@[simp] theorem driverAttachAttestOnlyAct_within (q : Req) (p : AttachP) (u : State) (r : Nat) (hZ : [] ⊆ Z) :
    Within Z s₀ (driverAttachAttestOnlyAct q p u r).1 ↔ Within Z s₀ u := Within.iff hZ rfl (by simp [driverAttachAttestOnlyAct])
@[simp] theorem State.adoptLease_within (s : State) (ep : Nat) (hZ : [.part] ⊆ Z) :
    Within Z s₀ (s.adoptLease ep) ↔ Within Z s₀ s := Within.iff hZ rfl (by simp [State.adoptLease])
@[simp] theorem driverAttachAdoptAct_within (q : Req) (p : AttachP) (u : State) (r : Nat) (hZ : [.hub, .mbx, .part, .link] ⊆ Z) :
    Within Z s₀ (driverAttachAdoptAct q p u r).1 ↔ Within Z s₀ u := Within.iff hZ rfl (by unfold driverAttachAdoptAct; simp only [within_self, within_ite, within_ite_fst, within_foldl_iff, within_foldl_fst_iff, within_hub, State.adoptLease_within, State.raise_within, State.setEvEp_within, List.cons_subset, List.nil_subset, List.mem_cons, true_or, or_true, false_or, and_true, true_and, reduceCtorEq, implies_true, ite_self])
@[simp] theorem State.loseDriver_within (s : State) (hZ : [.hub, .mbx, .link] ⊆ Z) :
    Within Z s₀ s.loseDriver ↔ Within Z s₀ s := Within.iff hZ rfl (by simp [State.loseDriver])
@[simp] theorem driverDetachAct_within (u : State) (r : Nat) (hZ : [.hub, .mbx, .link] ⊆ Z) :
    Within Z s₀ (driverDetachAct u r).1 ↔ Within Z s₀ u := Within.iff hZ rfl (by simp [driverDetachAct])
@[simp] theorem State.stopHub_within (s : State) (p : Phase) (hZ : [.hub, .mbx, .cells, .mem, .part, .link, .cal, .pair, .pkg] ⊆ Z) (hx : Within Z s₀ s) :
    Within Z s₀ (s.stopHub p) := hx.step hZ (by simp [State.stopHub])
@[simp] theorem State.writeDump_within (s : State) (hZ : [.free, .hub] ⊆ Z) :
    Within Z s₀ s.writeDump ↔ Within Z s₀ s := Within.iff hZ rfl (by simp [State.writeDump])
@[simp] theorem State.raiseBr_within (s : State) (code ibi params : Nat) (hZ : [.mbx, .link] ⊆ Z) :
    Within Z s₀ (s.raiseBr code ibi params) ↔ Within Z s₀ s := Within.iff hZ rfl (by unfold State.raiseBr; simp only [within_self, within_ite, within_ite_fst, within_foldl_iff, within_foldl_fst_iff, within_mbx, State.pumpRingIf_within, State.raise_within, List.cons_subset, List.nil_subset, List.mem_cons, true_or, or_true, false_or, and_true, true_and, reduceCtorEq, implies_true, ite_self])
@[simp] theorem State.thaw_within (s : State) (d : Nat) (hZ : [.hub, .part, .xlat] ⊆ Z) :
    Within Z s₀ (s.thaw d) ↔ Within Z s₀ s := Within.iff hZ rfl (by simp [State.thaw])
@[simp] theorem State.abortWaiting_within (s : State) (hZ : [.mbx, .cells, .mem, .part, .link, .cal, .pair, .pkg] ⊆ Z) (hx : Within Z s₀ s) :
    Within Z s₀ s.abortWaiting := hx.step hZ (by
  unfold State.abortWaiting; dsimp only
  (repeat' split) <;> simp (disch := try (intros; (repeat' split) <;> simp (disch := try simp (disch := try simp)) [within_foldl, within_foldl_fst])) [within_foldl, within_foldl_fst])
@[simp] theorem State.answerCommitted_within (s : State) (hZ : [.mbx, .cells, .mem, .part, .link, .cal, .pair, .pkg] ⊆ Z) (hx : Within Z s₀ s) :
    Within Z s₀ s.answerCommitted := hx.step hZ (within_foldl _ _ (fun a r => by (repeat' split) <;> simp) (.refl _ _))
@[simp] theorem State.pumpRings_within (s : State) (hZ : [.mbx, .link] ⊆ Z) :
    Within Z s₀ s.pumpRings ↔ Within Z s₀ s := Within.iff hZ rfl (by simp [State.pumpRings])
@[simp] theorem State.raiseReady_within (s : State) (hZ : [.mbx, .link, .pkg] ⊆ Z) :
    Within Z s₀ s.raiseReady ↔ Within Z s₀ s := Within.iff hZ rfl (by unfold State.raiseReady; simp only [within_self, within_ite, within_ite_fst, within_foldl_iff, within_foldl_fst_iff, within_pkg, State.announce_within, State.raise_within, List.cons_subset, List.nil_subset, List.mem_cons, true_or, or_true, false_or, and_true, true_and, reduceCtorEq, implies_true, ite_self])
@[simp] theorem brStatusAct_within (u : State) (r : Nat) (hZ : [] ⊆ Z) :
    Within Z s₀ (brStatusAct u r).1 ↔ Within Z s₀ u := Within.iff hZ rfl (by simp [brStatusAct])
@[simp] theorem brDumpAct_within (p : BrP) (u : State) (r : Nat) (hZ : [.free, .hub] ⊆ Z) :
    Within Z s₀ (brDumpAct p u r).1 ↔ Within Z s₀ u := Within.iff hZ rfl (by simp [brDumpAct])
@[simp] theorem brDumpReadAct_within (p : BrP) (u : State) (r : Nat) (hZ : [] ⊆ Z) :
    Within Z s₀ (brDumpReadAct p u r).1 ↔ Within Z s₀ u := Within.iff hZ rfl (by simp [brDumpReadAct])
@[simp] theorem brDumpClearAct_within (p : BrP) (u : State) (r : Nat) (hZ : [.hub] ⊆ Z) :
    Within Z s₀ (brDumpClearAct p u r).1 ↔ Within Z s₀ u := Within.iff hZ rfl (by simp [brDumpClearAct])
@[simp] theorem State.destroyKeys_within (s : State) (hZ : [.hub, .mbx, .part, .link, .pair, .sec] ⊆ Z) :
    Within Z s₀ s.destroyKeys ↔ Within Z s₀ s := Within.iff hZ rfl (by simp [State.destroyKeys])
@[simp] theorem State.zeroise_within (s : State) (hZ : [.hub, .mbx, .cells, .mem, .part, .link, .cal, .pair, .sec, .pkg] ⊆ Z) (hx : Within Z s₀ s) :
    Within Z s₀ s.zeroise := hx.step hZ (by
  unfold State.zeroise; dsimp only
  (repeat' split) <;> simp (disch := try (intros; (repeat' split) <;> simp (disch := try simp (disch := try simp)) [within_foldl, within_foldl_fst])) [within_foldl, within_foldl_fst])
@[simp] theorem brZeroiseAct_within (p : BrP) (u : State) (r : Nat) (hZ : [.hub, .mbx, .cells, .mem, .part, .link, .cal, .pair, .sec, .pkg] ⊆ Z) (hx : Within Z s₀ u) :
    Within Z s₀ (brZeroiseAct p u r).1 := hx.step hZ (by simp [brZeroiseAct])
@[simp] theorem brResetHubAct_within (p : BrP) (u : State) (r : Nat) (hZ : [.hub, .mbx, .cells, .mem, .part, .link, .cal, .pair, .pkg] ⊆ Z) (hx : Within Z s₀ u) :
    Within Z s₀ (brResetHubAct p u r).1 := hx.step hZ (by unfold brResetHubAct; (repeat' split) <;> simp)
@[simp] theorem State.wiped_within (s : State) (hZ : [.hub, .mbx, .cells, .mem, .grans, .part, .rgn, .lode, .xlat, .eng, .attn, .form, .retr, .couch, .link, .cal, .laid, .pair, .sec, .pkg] ⊆ Z) (hx : Within Z s₀ s) :
    Within Z s₀ s.wiped := hx.step hZ ⟨fun x h => by cases x <;> first | rfl | simp at h, fun _ => reset_memory_wf⟩
@[simp] theorem State.warmed_within (s : State) (cause : Nat) (hZ : [.hub, .mbx, .cells, .mem, .grans, .part, .rgn, .lode, .xlat, .eng, .attn, .form, .retr, .couch, .link, .cal, .laid, .pair, .sec, .pkg] ⊆ Z) (hx : Within Z s₀ s) :
    Within Z s₀ (s.warmed cause) := hx.step hZ (by simp [State.warmed])
@[simp] theorem State.answerReset_within (s : State) (q : Req) (code accepted : Nat) (a : Ans) (hZ : [.hub, .mbx, .cells, .mem, .grans, .part, .rgn, .lode, .xlat, .eng, .attn, .form, .retr, .couch, .link, .cal, .laid, .pair, .sec, .pkg] ⊆ Z) (hx : Within Z s₀ s) :
    Within Z s₀ (s.answerReset q code accepted a) := hx.step hZ (by simp [State.answerReset])
@[simp] theorem brResetDeviceAct_within (p : BrP) (u : State) (r : Nat) (hZ : [] ⊆ Z) :
    Within Z s₀ (brResetDeviceAct p u r).1 ↔ Within Z s₀ u := Within.iff hZ rfl (by simp [brResetDeviceAct])
@[simp] theorem State.listPoison_within (s : State) (p : Poison) (hZ : [.mem] ⊆ Z) :
    Within Z s₀ (s.listPoison p) ↔ Within Z s₀ s := Within.iff hZ rfl (by simp [State.listPoison])
@[simp] theorem State.rewriteLine_within (s : State) (t : Tier) (line : Nat) (hZ : [.cells, .mem] ⊆ Z) (hx : Within Z s₀ s) :
    Within Z s₀ (s.rewriteLine t line) := hx.step hZ (by unfold State.rewriteLine; split <;> simp)
@[simp] theorem State.scrubOwned_within (s : State) (r : LineRef) (rewrite : Bool) (addr : Nat) (y : Tally) (hZ : [.cells, .mem, .part, .link, .cal, .pair] ⊆ Z) (hx : Within Z s₀ s) :
    Within Z s₀ (s.scrubOwned r rewrite addr y).1 := hx.step hZ (by simp [State.scrubOwned])
@[simp] theorem State.scrubFree_within (s : State) (t : Tier) (line : Nat) (rewrite : Bool) (addr : Nat) (y : Tally) (hZ : [.cells, .mem, .cal] ⊆ Z) (hx : Within Z s₀ s) :
    Within Z s₀ (s.scrubFree t line rewrite addr y).1 := hx.step hZ (by unfold State.scrubFree; dsimp only; (repeat' split) <;> simp)
@[simp] theorem State.scrubParity_within (s : State) (t : Tier) (line : Nat) (rewrite : Bool) (y : Tally) (hZ : [.mem] ⊆ Z) :
    Within Z s₀ (s.scrubParity t line rewrite y).1 ↔ Within Z s₀ s := Within.iff hZ rfl (by unfold State.scrubParity; dsimp only; (repeat' split) <;> simp)
@[simp] theorem State.scrubPhys_within (s : State) (t : Tier) (p : ScrubP) (hZ : [.cells, .mem, .part, .link, .cal, .pair] ⊆ Z) (hx : Within Z s₀ s) :
    Within Z s₀ (s.scrubPhys t p).1 := hx.step hZ (by
  unfold State.scrubPhys; dsimp only
  (repeat' split) <;> simp (disch := try (intros; (repeat' split) <;> simp (disch := try simp (disch := try simp)) [within_foldl, within_foldl_fst])) [within_foldl, within_foldl_fst])
end Sys2Proof.Machine
end

section
namespace Sys2Proof.Machine
variable {Z : List Spot} {s₀ : State}
@[simp] theorem State.scrubPva_within (s : State) (p : ScrubP) (hZ : [.cells, .mem, .part, .link, .cal, .pair] ⊆ Z) (hx : Within Z s₀ s) :
    Within Z s₀ (s.scrubPva p).1 := hx.step hZ (by
  unfold State.scrubPva
  refine within_foldl_fst _ _ _ (fun a page => ?_) (.refl _ _)
  dsimp only
  split
  · exact within_foldl_fst _ _ _ (fun b x => by simp) (.refl _ _)
  · simp)
@[simp] theorem State.scrubbedRange_within (s : State) (t : Tier) (p : ScrubP) (hZ : [.mem] ⊆ Z) :
    Within Z s₀ (s.scrubbedRange t p) ↔ Within Z s₀ s := Within.iff hZ rfl (by simp [State.scrubbedRange])
@[simp] theorem scrubAct_within (p : ScrubP) (u : State) (r : Nat) (hZ : [.mem] ⊆ Z) :
    Within Z s₀ (scrubAct p u r).1 ↔ Within Z s₀ u := Within.iff hZ rfl (by simp [scrubAct])
@[simp] theorem injectAct_within (p : InjectP) (u : State) (r : Nat) (hZ : [.mem] ⊆ Z) :
    Within Z s₀ (injectAct p u r).1 ↔ Within Z s₀ u := Within.iff hZ rfl (by simp [injectAct])
@[simp] theorem injectCancelAct_within (p : InjectP) (u : State) (r : Nat) (hZ : [.mem] ⊆ Z) :
    Within Z s₀ (injectCancelAct p u r).1 ↔ Within Z s₀ u := Within.iff hZ rfl (by simp [injectCancelAct])
@[simp] theorem ceConfigSetAct_within (p : CeP) (u : State) (r : Nat) (hZ : [.mem] ⊆ Z) :
    Within Z s₀ (ceConfigSetAct p u r).1 ↔ Within Z s₀ u := Within.iff hZ rfl (by simp [ceConfigSetAct])
@[simp] theorem ceConfigFailOutAct_within (p : CeP) (u : State) (r : Nat) (hZ : [.mem] ⊆ Z) :
    Within Z s₀ (ceConfigFailOutAct p u r).1 ↔ Within Z s₀ u := Within.iff hZ rfl (by simp [ceConfigFailOutAct])
@[simp] theorem rebuildStatusAct_within (u : State) (r : Nat) (hZ : [] ⊆ Z) :
    Within Z s₀ (rebuildStatusAct u r).1 ↔ Within Z s₀ u := Within.iff hZ rfl (by simp [rebuildStatusAct])
@[simp] theorem State.rebuildLine_within (s : State) (g : Nat) (line : Nat) (hZ : [.cells, .mem] ⊆ Z) (hx : Within Z s₀ s) :
    Within Z s₀ (s.rebuildLine g line) := hx.step hZ (by unfold State.rebuildLine; dsimp only; (repeat' split) <;> simp)
@[simp] theorem State.reparity_within (s : State) (g : Nat) (test : Place → Bool) (hZ : [.mem] ⊆ Z) :
    Within Z s₀ (s.reparity g test) ↔ Within Z s₀ s := Within.iff hZ rfl (by simp [State.reparity])
@[simp] theorem poisonListAct_within (p : PoisonP) (u : State) (r : Nat) (hZ : [] ⊆ Z) :
    Within Z s₀ (poisonListAct p u r).1 ↔ Within Z s₀ u := Within.iff hZ rfl (by simp [poisonListAct])
@[simp] theorem State.raiseLog_within (s : State) (r : LogRec) (lost : Nat) (hZ : [.mbx, .mem, .link] ⊆ Z) :
    Within Z s₀ (s.raiseLog r lost).1 ↔ Within Z s₀ s := Within.iff hZ rfl (by unfold State.raiseLog; split <;> simp)
@[simp] theorem attestAct_within (q : Req) (p : AttestP) (u : State) (r : Nat) (hZ : [.mbx, .cells, .mem, .part, .link, .cal, .pair, .pkg] ⊆ Z) (hx : Within Z s₀ u) :
    Within Z s₀ (attestAct q p u r).1 := hx.step hZ (by simp [attestAct])
@[simp] theorem keyRotateDeckleKeyAct_within (p : KeyP) (u : State) (r : Nat) (hZ : [.part, .sec] ⊆ Z) :
    Within Z s₀ (keyRotateDeckleKeyAct p u r).1 ↔ Within Z s₀ u := Within.iff hZ rfl (by simp [keyRotateDeckleKeyAct])
@[simp] theorem State.sweepLine_within (s : State) (r : LineRef) (hZ : [.cells, .mem, .part, .link, .cal, .pair] ⊆ Z) (hx : Within Z s₀ s) :
    Within Z s₀ (s.sweepLine r).1 := hx.step hZ (by
  have h1 : Within [.cells, .mem, .part, .link, .cal, .pair] s (s.readLineN r).1 := by simp
  unfold State.sweepLine
  generalize s.readLineN r = y at h1 ⊢
  obtain ⟨s1, o, n⟩ := y
  cases o with
  | data l => exact State.writeWhole_within _ _ _ _ _ (by simp) h1
  | fail st =>
    cases st with
    | uncorrectable =>
      dsimp only at h1 ⊢
      split
      · exact State.storeCell_within _ _ _ _ _ (by simp) h1
      · exact h1
    | _ => exact h1
  | recon _ => exact h1
  | wait => exact h1)
@[simp] theorem State.sweepZero_within (s : State) (d oldKey : Nat) (hZ : [.cells, .mem, .grans, .part] ⊆ Z) (hx : Within Z s₀ s) :
    Within Z s₀ (s.sweepZero d oldKey).1 := hx.step hZ ⟨fun x h => by cases x <;> first | rfl | simp at h, s.sweepZero_wf d oldKey⟩
@[simp] theorem linkRekeyAct_within (p : KeyP) (u : State) (r : Nat) (hZ : [.free, .link] ⊆ Z) :
    Within Z s₀ (linkRekeyAct p u r).1 ↔ Within Z s₀ u := Within.iff hZ rfl (by simp [linkRekeyAct])
@[simp] theorem trustAddAct_within (p : KeyP) (u : State) (r : Nat) (hZ : [.link] ⊆ Z) :
    Within Z s₀ (trustAddAct p u r).1 ↔ Within Z s₀ u := Within.iff hZ rfl (by simp [trustAddAct])
@[simp] theorem trustRemoveAct_within (p : KeyP) (u : State) (r : Nat) (hZ : [.link] ⊆ Z) :
    Within Z s₀ (trustRemoveAct p u r).1 ↔ Within Z s₀ u := Within.iff hZ rfl (by simp [trustRemoveAct])
@[simp] theorem trustPolicyAct_within (p : KeyP) (u : State) (r : Nat) (hZ : [.link] ⊆ Z) :
    Within Z s₀ (trustPolicyAct p u r).1 ↔ Within Z s₀ u := Within.iff hZ rfl (by simp [trustPolicyAct])
@[simp] theorem operatorKernelKeyAct_within (p : KeyP) (u : State) (r : Nat) (hZ : [.sec] ⊆ Z) :
    Within Z s₀ (operatorKernelKeyAct p u r).1 ↔ Within Z s₀ u := Within.iff hZ rfl (by simp [operatorKernelKeyAct])
@[simp] theorem raiseSecAct_within (u : State) (r : Nat) (hZ : [.board] ⊆ Z) :
    Within Z s₀ (raiseSecAct u r).1 ↔ Within Z s₀ u := Within.iff hZ rfl (by simp [raiseSecAct])
@[simp] theorem State.openSession_within (s : State) (ms : Nat) (jtag : Bool) (hZ : [.mbx, .link, .sec] ⊆ Z) :
    Within Z s₀ (s.openSession ms jtag) ↔ Within Z s₀ s := Within.iff hZ rfl (by simp [State.openSession])
@[simp] theorem debugOpenAct_within (p : DebugP) (u : State) (r : Nat) (hZ : [.mbx, .link, .sec] ⊆ Z) :
    Within Z s₀ (debugOpenAct p u r).1 ↔ Within Z s₀ u := Within.iff hZ rfl (by simp [debugOpenAct])
@[simp] theorem State.debugBytes_within (s : State) (p : DebugP) (hZ : [.cells, .mem, .part, .link, .cal, .pair] ⊆ Z) (hx : Within Z s₀ s) :
    Within Z s₀ (s.debugBytes p).1 := hx.step hZ (by
  unfold State.debugBytes
  split
  · simp
  · split
    · split
      · next refs _ =>
        have h1 : Within [.cells, .mem, .part, .link, .cal, .pair] s (s.readLines (refs.map fun r => { r with payer := some 4096 }) 0).1 := by simp
        split <;> next e => exact .of_fst e h1
      · simp
      · simp
    · simp)
@[simp] theorem debugReadAct_within (p : DebugP) (u : State) (r : Nat) (hZ : [.free, .cells, .mem, .part, .link, .cal, .pair] ⊆ Z) (hx : Within Z s₀ u) :
    Within Z s₀ (debugReadAct p u r).1 := hx.step hZ (by
  unfold debugReadAct; dsimp only
  (repeat' split) <;> (try simp) <;> (have h1 := Within.of_fst (Z := [.free, .cells, .mem, .part, .link, .cal, .pair]) (s := u) (by assumption) (by simp); simp [h1]))
@[simp] theorem debugCloseAct_within (u : State) (r : Nat) (hZ : [.sec] ⊆ Z) :
    Within Z s₀ (debugCloseAct u r).1 ↔ Within Z s₀ u := Within.iff hZ rfl (by simp [debugCloseAct])
@[simp] theorem State.endTenant_within (s : State) (d : Nat) (hZ : [.mbx, .cells, .mem, .grans, .part, .rgn, .lode, .xlat, .eng, .attn, .form, .retr, .link, .cal, .pair, .pkg] ⊆ Z) (hx : Within Z s₀ s) :
    Within Z s₀ (s.endTenant d) := hx.step hZ (by
  unfold State.endTenant
  extract_lets mine drafts s1 s2 grant rgn retr attn xlat eng s3
  have h1 : Within [.mbx, .cells, .mem, .grans, .part, .rgn, .lode, .xlat, .eng, .attn, .form, .retr, .link, .cal, .pair, .pkg] s s1 := within_foldl _ _ (fun a i => by simp) (.refl _ _)
  have h2 : Within [.mbx, .cells, .mem, .grans, .part, .rgn, .lode, .xlat, .eng, .attn, .form, .retr, .link, .cal, .pair, .pkg] s s2 := within_foldl _ _ (fun a m => by simp) h1
  have h3 : Within [.mbx, .cells, .mem, .grans, .part, .rgn, .lode, .xlat, .eng, .attn, .form, .retr, .link, .cal, .pair, .pkg] s s3 := (within_rgn_retr_attn_xlat_eng _ _ _ _ _ (by simp)).mpr h2
  simp [h3])
@[simp] theorem State.endLeases_within (s : State) (d : Nat) (hZ : [.hub, .mbx, .cells, .mem, .part, .link, .cal, .pair, .pkg] ⊆ Z) (hx : Within Z s₀ s) :
    Within Z s₀ (s.endLeases d) := hx.step hZ (by
  unfold State.endLeases
  extract_lets eps rcs s1 part s2
  have h1 : Within [.hub, .mbx, .cells, .mem, .part, .link, .cal, .pair, .pkg] s s1 := within_foldl _ _ (fun a r => by simp) (.refl _ _)
  have h2 : Within [.hub, .mbx, .cells, .mem, .part, .link, .cal, .pair, .pkg] s s2 := (within_part _ (by rfl) (by simp)).mpr h1
  exact within_foldl _ _ (fun a e => by simp) ((State.discardHeld_within _ _ (by simp)).mpr h2))
@[simp] theorem deckleDissolveAct_within (p : DeckleP) (u : State) (r : Nat) (hZ : [.free, .hub, .mbx, .cells, .mem, .grans, .part, .rgn, .lode, .xlat, .eng, .attn, .form, .retr, .couch, .link, .cal, .pair, .pkg] ⊆ Z) (hx : Within Z s₀ u) :
    Within Z s₀ (deckleDissolveAct p u r).1 := hx.step hZ (by
  unfold deckleDissolveAct
  extract_lets d exts bytes x s1 a b s2 s3
  have h1 : Within [.free, .hub, .mbx, .cells, .mem, .grans, .part, .rgn, .lode, .xlat, .eng, .attn, .form, .retr, .couch, .link, .cal, .pair, .pkg] u s1 := by simp [s1]
  have h2 : Within [.free, .hub, .mbx, .cells, .mem, .grans, .part, .rgn, .lode, .xlat, .eng, .attn, .form, .retr, .couch, .link, .cal, .pair, .pkg] u a.1 := State.stopItems_within _ _ _ (by simp) h1
  have h3 : Within [.free, .hub, .mbx, .cells, .mem, .grans, .part, .rgn, .lode, .xlat, .eng, .attn, .form, .retr, .couch, .link, .cal, .pair, .pkg] u b.1 := State.stopChains_within _ _ _ _ (by simp) h2
  have h4 : Within [.free, .hub, .mbx, .cells, .mem, .grans, .part, .rgn, .lode, .xlat, .eng, .attn, .form, .retr, .couch, .link, .cal, .pair, .pkg] u s2 := within_foldl _ _ (fun a i => by simp) h3
  have h5 : Within [.free, .hub, .mbx, .cells, .mem, .grans, .part, .rgn, .lode, .xlat, .eng, .attn, .form, .retr, .couch, .link, .cal, .pair, .pkg] u s3 := State.endTenant_within _ _ (by simp) (State.lodesDown_within _ _ _ _ (by simp) h4)
  simp [h5])
@[simp] theorem State.trip_within (s : State) (thermal : Bool) (cause sensor rail value : Nat) (hZ : [.hub, .mbx, .link, .sec, .pkg] ⊆ Z) :
    Within Z s₀ (s.trip thermal cause sensor rail value) ↔ Within Z s₀ s := Within.iff hZ rfl (by simp [State.trip])
@[simp] theorem State.groupReady_within (s : State) (g fn index : Nat) (untrained : List Nat) (hZ : [.mbx, .mem, .link, .pkg] ⊆ Z) :
    Within Z s₀ (s.groupReady g fn index untrained) ↔ Within Z s₀ s := Within.iff hZ rfl (by unfold State.groupReady; dsimp only; (repeat' split) <;> simp)
@[simp] theorem State.tap_within (s : State) (i : TapIr) (driving hiZ : Bool) (len value : Nat) (hZ : [.pkg] ⊆ Z) :
    Within Z s₀ (s.tap i driving hiZ len value) ↔ Within Z s₀ s := Within.iff hZ rfl (by simp [State.tap])
@[simp] theorem State.tapBypass_within (s : State) (i : TapIr) (driving hiZ : Bool) (hZ : [.pkg] ⊆ Z) :
    Within Z s₀ (s.tapBypass i driving hiZ) ↔ Within Z s₀ s := Within.iff hZ rfl (by simp [State.tapBypass])
@[simp] theorem State.modTable_within (s : State) (slot : Nat) (f : LaidTable → LaidTable) (hZ : [.laid] ⊆ Z) :
    Within Z s₀ (s.modTable slot f) ↔ Within Z s₀ s := Within.iff hZ rfl (by simp [State.modTable])
@[simp] theorem State.modEntry_within (s : State) (slot i : Nat) (f : LaidRun → LaidRun) (hZ : [.laid] ⊆ Z) :
    Within Z s₀ (s.modEntry slot i f) ↔ Within Z s₀ s := Within.iff hZ rfl (by simp [State.modEntry])
@[simp] theorem State.degrade_within (s : State) (slot i reason : Nat) (hZ : [.mbx, .link, .laid] ⊆ Z) :
    Within Z s₀ (s.degrade slot i reason) ↔ Within Z s₀ s := Within.iff hZ rfl (by unfold State.degrade; (repeat' split) <;> simp)
@[simp] theorem State.shedTable_within (s : State) (slot budgetMw : Nat) (cap : Bool) (n : Nat) (hZ : [.mbx, .link, .laid] ⊆ Z) :
    Within Z s₀ (s.shedTable slot budgetMw cap n).1 ↔ Within Z s₀ s := by
  induction n generalizing s with
  | zero => simp [State.shedTable]
  | succ n ih =>
    unfold State.shedTable
    (repeat' split) <;> simp_all
@[simp] theorem State.shedLaid_within (s : State) (budgetMw : Nat) (cap : Bool) (hZ : [.mbx, .link, .laid] ⊆ Z) :
    Within Z s₀ (s.shedLaid budgetMw cap).1 ↔ Within Z s₀ s := Within.iff hZ rfl (within_foldl_fst _ _ _ (fun a i => by simp) (.refl _ _))
@[simp] theorem State.unshedTable_within (s : State) (slot budgetMw n : Nat) (hZ : [.laid] ⊆ Z) :
    Within Z s₀ (s.unshedTable slot budgetMw n) ↔ Within Z s₀ s := by
  induction n generalizing s with
  | zero => simp [State.unshedTable]
  | succ n ih =>
    unfold State.unshedTable
    dsimp only
    (repeat' split) <;> simp_all
@[simp] theorem State.unshedLaid_within (s : State) (budgetMw : Nat) (hZ : [.laid] ⊆ Z) :
    Within Z s₀ (s.unshedLaid budgetMw) ↔ Within Z s₀ s := Within.iff hZ rfl (within_foldl _ _ (fun a i => by simp) (.refl _ _))
@[simp] theorem queueMapMapAct_within (p : QueueMapP) (u : State) (r : Nat) (hZ : [.part] ⊆ Z) :
    Within Z s₀ (queueMapMapAct p u r).1 ↔ Within Z s₀ u := Within.iff hZ rfl (by simp [queueMapMapAct])
@[simp] theorem queueMapWeightAct_within (p : QueueMapP) (u : State) (r : Nat) (hZ : [.cal] ⊆ Z) :
    Within Z s₀ (queueMapWeightAct p u r).1 ↔ Within Z s₀ u := Within.iff hZ rfl (by simp [queueMapWeightAct])
@[simp] theorem shaperSetAct_within (p : BucketP) (u : State) (r : Nat) (hZ : [.part, .cal] ⊆ Z) :
    Within Z s₀ (shaperSetAct p u r).1 ↔ Within Z s₀ u := Within.iff hZ rfl (by simp [shaperSetAct])
@[simp] theorem policerSetAct_within (p : BucketP) (u : State) (r : Nat) (hZ : [.part, .cal] ⊆ Z) :
    Within Z s₀ (policerSetAct p u r).1 ↔ Within Z s₀ u := Within.iff hZ rfl (by simp [policerSetAct])
@[simp] theorem State.admitWaiting_within (s : State) (w : Nat) (yellow : Bool) (hZ : [.free, .mbx, .cells, .mem, .grans, .part, .eng, .attn, .link, .cal, .pair, .pkg] ⊆ Z) (hx : Within Z s₀ s) :
    Within Z s₀ (s.admitWaiting w yellow) := hx.step hZ (by simp [State.admitWaiting])
@[simp] theorem energySetAct_within (p : EnergyP) (u : State) (r : Nat) (hZ : [.free, .mbx, .cells, .mem, .grans, .part, .eng, .attn, .link, .cal, .pair, .pkg] ⊆ Z) (hx : Within Z s₀ u) :
    Within Z s₀ (energySetAct p u r).1 := hx.step hZ (by
  unfold energySetAct
  extract_lets b s1
  have h1 : Within [.free, .mbx, .cells, .mem, .grans, .part, .eng, .attn, .link, .cal, .pair, .pkg] u s1 := by simp [s1]
  dsimp only
  split
  · exact h1
  · exact within_foldl _ _ (fun a w => by simp) h1)
@[simp] theorem energyReadAct_within (p : EnergyReadP) (u : State) (r : Nat) (hZ : [] ⊆ Z) :
    Within Z s₀ (energyReadAct p u r).1 ↔ Within Z s₀ u := Within.iff hZ rfl (by simp [energyReadAct])
@[simp] theorem State.setRails_within (s : State) (hZ : [.pkg] ⊆ Z) :
    Within Z s₀ s.setRails ↔ Within Z s₀ s := Within.iff hZ rfl (by simp [State.setRails])
@[simp] theorem State.floorClocks_within (s : State) (hZ : [.eng, .pkg] ⊆ Z) :
    Within Z s₀ s.floorClocks ↔ Within Z s₀ s := Within.iff hZ rfl (by simp [State.floorClocks])
@[simp] theorem powerCapAct_within (p : PowerCapP) (u : State) (r : Nat) (hZ : [.mbx, .link, .cal, .laid] ⊆ Z) :
    Within Z s₀ (powerCapAct p u r).1 ↔ Within Z s₀ u := Within.iff hZ rfl (by unfold powerCapAct; dsimp only; (repeat' split) <;> simp)
@[simp] theorem State.beginEmergency_within (s : State) (cause : Nat) (hZ : [.mbx, .eng, .link, .cal, .laid, .pkg] ⊆ Z) :
    Within Z s₀ (s.beginEmergency cause) ↔ Within Z s₀ s := Within.iff hZ rfl (by simp [State.beginEmergency])
@[simp] theorem State.endEmergency_within (s : State) (e : Emergency) (hZ : [.hub, .mbx, .link, .cal, .sec, .pkg] ⊆ Z) :
    Within Z s₀ (s.endEmergency e) ↔ Within Z s₀ s := Within.iff hZ rfl (by simp [State.endEmergency])
@[simp] theorem State.noteCool_within (s : State) (hZ : [.cal] ⊆ Z) :
    Within Z s₀ s.noteCool ↔ Within Z s₀ s := Within.iff hZ rfl (by simp [State.noteCool])
@[simp] theorem State.setRates_within (s : State) (hZ : [.part] ⊆ Z) :
    Within Z s₀ s.setRates ↔ Within Z s₀ s := Within.iff hZ rfl (by simp [State.setRates])
@[simp] theorem State.emergencyTick_within (s : State) (hZ : [.hub, .mbx, .eng, .link, .cal, .laid, .sec, .pkg] ⊆ Z) :
    Within Z s₀ s.emergencyTick ↔ Within Z s₀ s := Within.iff hZ rfl (by unfold State.emergencyTick; dsimp only; (repeat' split) <;> simp)
@[simp] theorem State.setStep_within (s : State) (c : Nat) (hZ : [.mbx, .eng, .link] ⊆ Z) :
    Within Z s₀ (s.setStep c) ↔ Within Z s₀ s := Within.iff hZ rfl (by simp [State.setStep])
@[simp] theorem State.entryForm_within (s : State) (e : LaidEntry) (hZ : [.cells, .mem, .part, .link, .cal, .pair, .pkg] ⊆ Z) (hx : Within Z s₀ s) :
    Within Z s₀ (s.entryForm e).1 := hx.step hZ (by
  unfold State.entryForm; dsimp only
  (repeat' split) <;> (try simp) <;> (have h1 := Within.of_fst (Z := [.cells, .mem, .part, .link, .cal, .pair, .pkg]) (s := s) (by assumption) (by simp); simp [h1]))
@[simp] theorem State.bindLaid_within (s : State) (slot : Nat) (es : List LaidEntry) (hZ : [.cells, .mem, .part, .link, .cal, .pair, .pkg] ⊆ Z) (hx : Within Z s₀ s) :
    Within Z s₀ (s.bindLaid slot es).1 := hx.step hZ (by
  refine within_foldl_fst _ _ _ (fun a x => ?_) (.refl _ _)
  split
  · simp
  · split
    · simp
    · have h1 : Within [.cells, .mem, .part, .link, .cal, .pair, .pkg] a.1 (a.1.entryForm x.1).1 := by simp
      dsimp only
      split
      · next e => split <;> exact .of_fst e h1
      · next e => exact .of_fst e h1)
@[simp] theorem State.loadLaid_within (s : State) (p : LaidLoadP) (hZ : [.cells, .mem, .part, .link, .cal, .laid, .pair, .pkg] ⊆ Z) (hx : Within Z s₀ s) :
    Within Z s₀ (s.loadLaid p).1 := hx.step hZ (by
  have h1 := State.readBytes_within s 0 p.imagePva p.imageLen (Z := [.cells, .mem, .part, .link, .cal, .laid, .pair, .pkg]) (by simp) (.refl _ _)
  unfold State.loadLaid
  split
  · simp
  · split
    · next s1 img e1 =>
      have h2 : Within [.cells, .mem, .part, .link, .cal, .laid, .pair, .pkg] s s1 := .of_fst e1 h1
      dsimp only
      split
      · exact h2
      · have h3 := fun es => State.bindLaid_within s1 p.slot es (by simp) h2
        split
        · next e2 => exact .of_fst e2 (h3 _)
        · next s2 forms e2 =>
          have h4 : Within [.cells, .mem, .part, .link, .cal, .laid, .pair, .pkg] s s2 := .of_fst e2 (h3 _)
          split
          · exact h4
          · split
            · exact h4
            · exact (within_laid _ (by simp)).mpr h4
    · next e1 => exact .of_fst e1 h1)
@[simp] theorem laidLoadAct_within (p : LaidLoadP) (u : State) (r : Nat) (hZ : [.cells, .mem, .part, .link, .cal, .laid, .pair, .pkg] ⊆ Z) (hx : Within Z s₀ u) :
    Within Z s₀ (laidLoadAct p u r).1 := hx.step hZ (by simp [laidLoadAct])
@[simp] theorem State.slip_within (s : State) (slot i reason outcome late : Nat) (hZ : [.link, .laid] ⊆ Z) :
    Within Z s₀ (s.slip slot i reason outcome late) ↔ Within Z s₀ s := Within.iff hZ rfl (by unfold State.slip; (repeat' split) <;> simp)
@[simp] theorem State.laidTile_within (s : State) (t : LaidTable) (i : Nat) (e : LaidEntry) (off : Nat) (hZ : [.free, .cells, .mem, .part, .form, .link, .cal, .pair] ⊆ Z) (hx : Within Z s₀ s) :
    Within Z s₀ (s.laidTile t i e off).1 := hx.step hZ (by
  unfold State.laidTile; dsimp only
  (repeat' split) <;> (try simp) <;> (have h1 := Within.of_fst (Z := [.free, .cells, .mem, .part, .form, .link, .cal, .pair]) (s := s) (by assumption) (by simp); simp [h1]))
@[simp] theorem State.sendLaid_within (s : State) (e : LaidEntry) (off n bytes : Nat) (hZ : [.link] ⊆ Z) :
    Within Z s₀ (s.sendLaid e off n bytes) ↔ Within Z s₀ s := Within.iff hZ rfl (by simp [State.sendLaid])
@[simp] theorem State.endTransfer_within (s : State) (slot i reason : Nat) (e : LaidEntry) (hZ : [.link, .laid] ⊆ Z) :
    Within Z s₀ (s.endTransfer slot i reason e) ↔ Within Z s₀ s := Within.iff hZ rfl (by simp [State.endTransfer])
@[simp] theorem State.nextTile_within (s : State) (slot i : Nat) (t : LaidTable) (e : LaidEntry) (left : Nat) (hZ : [.free, .cells, .mem, .part, .form, .link, .cal, .laid, .pair] ⊆ Z) (hx : Within Z s₀ s) :
    Within Z s₀ (s.nextTile slot i t e left) := hx.step hZ (by
  have h1 : Within [.free, .cells, .mem, .part, .form, .link, .cal, .laid, .pair] s (s.laidTile t i e (e.length - left)).1 := by simp
  unfold State.nextTile
  split
  · next e1 => exact .of_fst e1 h1
  · next e1 => exact (State.endTransfer_within _ _ _ _ _ (by simp)).mpr (.of_fst e1 h1)
  · next e1 => exact (State.modEntry_within _ _ _ _ (by simp)).mpr ((State.sendLaid_within _ _ _ _ _ (by simp)).mpr (.of_fst e1 h1)))
@[simp] theorem State.skipSlot_within (s : State) (slot i reason : Nat) (hZ : [.link, .laid] ⊆ Z) :
    Within Z s₀ (s.skipSlot slot i reason) ↔ Within Z s₀ s := Within.iff hZ rfl (by simp [State.skipSlot])
@[simp] theorem State.finishTransfer_within (s : State) (slot i : Nat) (t : LaidTable) (e : LaidEntry) (hZ : [.link, .laid] ⊆ Z) :
    Within Z s₀ (s.finishTransfer slot i t e) ↔ Within Z s₀ s := Within.iff hZ rfl (by simp [State.finishTransfer])
@[simp] theorem State.sendRest_within (s : State) (slot i n : Nat) (hZ : [.free, .cells, .mem, .part, .form, .link, .cal, .laid, .pair] ⊆ Z) (hx : Within Z s₀ s) :
    Within Z s₀ (s.sendRest slot i n) := by
  induction n generalizing s with
  | zero => exact hx
  | succ n ih =>
    unfold State.sendRest
    split
    · exact hx
    · split
      · exact hx
      · exact hx.step hZ (by simp)
      · exact ih _ (hx.step hZ (by simp))
@[simp] theorem State.finishTransfers_within (s : State) (slot : Nat) (hZ : [.free, .cells, .mem, .part, .form, .link, .cal, .laid, .pair] ⊆ Z) (hx : Within Z s₀ s) :
    Within Z s₀ (s.finishTransfers slot) := hx.step hZ (by
  unfold State.finishTransfers
  split
  · simp
  · exact within_foldl _ _ (fun a i => by simp) (.refl _ _))
@[simp] theorem State.setReserved_within (s : State) (hZ : [.eng] ⊆ Z) :
    Within Z s₀ s.setReserved ↔ Within Z s₀ s := Within.iff hZ rfl (by simp [State.setReserved])
@[simp] theorem State.endTable_within (s : State) (hZ : [.free, .cells, .mem, .part, .eng, .form, .link, .cal, .laid, .pair] ⊆ Z) (hx : Within Z s₀ s) :
    Within Z s₀ s.endTable := hx.step hZ (by unfold State.endTable; split <;> simp)
@[simp] theorem State.startTable_within (s : State) (hZ : [.free, .cells, .mem, .part, .eng, .form, .link, .cal, .laid, .pair] ⊆ Z) (hx : Within Z s₀ s) :
    Within Z s₀ s.startTable := hx.step hZ (by unfold State.startTable; split <;> simp)
@[simp] theorem State.entryBoundary_within (s : State) (slot i : Nat) (hZ : [.mbx, .link, .laid] ⊆ Z) :
    Within Z s₀ (s.entryBoundary slot i) ↔ Within Z s₀ s := Within.iff hZ rfl (by unfold State.entryBoundary; dsimp only; (repeat' split) <;> simp)
@[simp] theorem State.cycleEnd_within (s : State) (hZ : [.free, .mbx, .cells, .mem, .part, .eng, .form, .link, .cal, .laid, .pair] ⊆ Z) (hx : Within Z s₀ s) :
    Within Z s₀ s.cycleEnd := hx.step hZ (by
  unfold State.cycleEnd
  split
  · simp
  · next slot t _ =>
    extract_lets s1 s2
    have h1 : Within [.free, .mbx, .cells, .mem, .part, .eng, .form, .link, .cal, .laid, .pair] s s1 := within_foldl _ _ (fun a i => by simp) (.refl _ _)
    have h2 : Within [.free, .mbx, .cells, .mem, .part, .eng, .form, .link, .cal, .laid, .pair] s s2 :=
      (State.setReserved_within _ (by simp)).mpr ((State.modTable_within _ _ _ (by simp)).mpr h1)
    (repeat' split) <;> simp [h2])
@[simp] theorem State.skipDue_within (s : State) (ns : Nat) (hZ : [.link, .laid] ⊆ Z) :
    Within Z s₀ (s.skipDue ns) ↔ Within Z s₀ s := Within.iff hZ rfl (by
  unfold State.skipDue
  split
  · simp
  · exact within_foldl _ _ (fun a i => by (repeat' split) <;> simp) (.refl _ _))
@[simp] theorem State.jumpLaid_within (s : State) (ns n : Nat) (hZ : [.free, .mbx, .cells, .mem, .part, .eng, .form, .link, .cal, .laid, .pair] ⊆ Z) (hx : Within Z s₀ s) :
    Within Z s₀ (s.jumpLaid ns n) := by
  induction n generalizing s with
  | zero => exact hx
  | succ n ih =>
    have h1 : Within Z s₀ (s.skipDue ns) := hx.step hZ (by simp)
    have h2 : Within Z s₀ (s.skipDue ns).startTable := h1.step hZ (by simp)
    have h3 : Within Z s₀ (s.skipDue ns).cycleEnd := h1.step hZ (by simp)
    unfold State.jumpLaid
    dsimp only
    (repeat' split) <;> first | exact h1 | exact ih _ h2 | exact ih _ h3
@[simp] theorem State.stepTime_within (s : State) (v : Nat) (hZ : [.free, .mbx, .cells, .mem, .part, .eng, .form, .link, .cal, .laid, .pair] ⊆ Z) (hx : Within Z s₀ s) :
    Within Z s₀ (s.stepTime v) := hx.step hZ (by
  unfold State.stepTime
  dsimp only
  split
  · exact State.jumpLaid_within _ _ _ (by simp) ((within_laid _ (by simp)).mpr (.refl _ _))
  · simp)
@[simp] theorem State.acceptSync_within (s : State) (port hops v : Nat) (hZ : [.free, .mbx, .cells, .mem, .part, .eng, .form, .link, .cal, .laid, .pair] ⊆ Z) (hx : Within Z s₀ s) :
    Within Z s₀ (s.acceptSync port hops v) := hx.step hZ (by unfold State.acceptSync; dsimp only; (repeat' split) <;> simp)
@[simp] theorem timeStatusAct_within (u : State) (r : Nat) (hZ : [] ⊆ Z) :
    Within Z s₀ (timeStatusAct u r).1 ↔ Within Z s₀ u := Within.iff hZ rfl (by simp [timeStatusAct])
@[simp] theorem timeMasterSetAct_within (p : TimeMasterP) (u : State) (r : Nat) (hZ : [.laid] ⊆ Z) :
    Within Z s₀ (timeMasterSetAct p u r).1 ↔ Within Z s₀ u := Within.iff hZ rfl (by simp [timeMasterSetAct])
@[simp] theorem laidActivateAct_within (p : LaidActP) (u : State) (r : Nat) (hZ : [.laid] ⊆ Z) :
    Within Z s₀ (laidActivateAct p u r).1 ↔ Within Z s₀ u := Within.iff hZ rfl (by unfold laidActivateAct; dsimp only; (repeat' split) <;> simp)
@[simp] theorem laidStopAct_within (p : LaidActP) (u : State) (r : Nat) (hZ : [.laid] ⊆ Z) :
    Within Z s₀ (laidStopAct p u r).1 ↔ Within Z s₀ u := Within.iff hZ rfl (by simp [laidStopAct])
@[simp] theorem laidCancelAct_within (u : State) (r : Nat) (hZ : [.laid] ⊆ Z) :
    Within Z s₀ (laidCancelAct u r).1 ↔ Within Z s₀ u := Within.iff hZ rfl (by unfold laidCancelAct; split <;> simp)
@[simp] theorem laidStatusAct_within (p : LaidStatusP) (u : State) (r : Nat) (hZ : [] ⊆ Z) :
    Within Z s₀ (laidStatusAct p u r).1 ↔ Within Z s₀ u := Within.iff hZ rfl (by unfold laidStatusAct; split <;> simp)
@[simp] theorem State.countInbound_within (s : State) (h : Hdr) (m : MemExt) (hZ : [.laid] ⊆ Z) :
    Within Z s₀ (s.countInbound h m) ↔ Within Z s₀ s := Within.iff hZ rfl (by unfold State.countInbound; (repeat' split) <;> simp)
@[simp] theorem State.sendBypass_within (s : State) (p : Nat) (hZ : [.link] ⊆ Z) :
    Within Z s₀ (s.sendBypass p) ↔ Within Z s₀ s := Within.iff hZ rfl (by unfold State.sendBypass; dsimp only; (repeat' split) <;> simp)
@[simp] theorem State.sendReplay_within (s : State) (p : Nat) (hZ : [.link, .cal] ⊆ Z) :
    Within Z s₀ (s.sendReplay p) ↔ Within Z s₀ s := Within.iff hZ rfl (by unfold State.sendReplay; dsimp only; (repeat' split) <;> simp)
@[simp] theorem State.sendNew_within (s : State) (p i : Nat) (e : Egress) (hZ : [.free, .part, .link, .cal] ⊆ Z) :
    Within Z s₀ (s.sendNew p i e) ↔ Within Z s₀ s := Within.iff hZ rfl (by simp [State.sendNew])
@[simp] theorem State.nak_within (s : State) (p : Nat) (hZ : [.link] ⊆ Z) :
    Within Z s₀ (s.nak p) ↔ Within Z s₀ s := Within.iff hZ rfl (by simp [State.nak])
@[simp] theorem State.bnak_within (s : State) (p : Nat) (hZ : [.link] ⊆ Z) :
    Within Z s₀ (s.bnak p) ↔ Within Z s₀ s := Within.iff hZ rfl (by simp [State.bnak])
@[simp] theorem State.mack_within (s : State) (p : Nat) (nak : Bool) (n : Nat) (hZ : [.hub, .mbx, .part, .link, .pair] ⊆ Z) :
    Within Z s₀ (s.mack p nak n) ↔ Within Z s₀ s := Within.iff hZ rfl (by simp [State.mack])
@[simp] theorem State.back_within (s : State) (p : Nat) (nak : Bool) (n : Nat) (hZ : [.hub, .mbx, .part, .link, .pair] ⊆ Z) :
    Within Z s₀ (s.back p nak n) ↔ Within Z s₀ s := Within.iff hZ rfl (by simp [State.back])
@[simp] theorem State.trained_within (s : State) (p : Nat) (hZ : [.free, .hub, .mbx, .part, .link, .pair, .pkg] ⊆ Z) :
    Within Z s₀ (s.trained p) ↔ Within Z s₀ s := Within.iff hZ rfl (by simp [State.trained])
@[simp] theorem State.paramsDone_within (s : State) (p : Nat) (hZ : [.hub, .mbx, .part, .link, .pair] ⊆ Z) :
    Within Z s₀ (s.paramsDone p) ↔ Within Z s₀ s := Within.iff hZ rfl (by unfold State.paramsDone; dsimp only; (repeat' split) <;> simp)
@[simp] theorem State.modPair_within (s : State) (f : Pair → Pair) (hZ : [.pair] ⊆ Z) :
    Within Z s₀ (s.modPair f) ↔ Within Z s₀ s := Within.iff hZ rfl (by simp [State.modPair])
@[simp] theorem State.setPair_within (s : State) (p : PState) (hZ : [.pair] ⊆ Z) :
    Within Z s₀ (s.setPair p) ↔ Within Z s₀ s := Within.iff hZ rfl (by simp [State.setPair])
@[simp] theorem State.takeMir_within (s : State) (port vc bytes : Nat) (ok : Bool) (go : State → State) (hZ : [.link] ⊆ Z)
    (hgo : ∀ u, Within Z u (go u)) (hx : Within Z s₀ s) : Within Z s₀ (s.takeMir port vc bytes ok go) := by
  have h1 : Within Z s₀ (s.freeBuf port vc (cdiv bytes 64)) := hx.step hZ (by simp)
  unfold State.takeMir
  dsimp only
  split
  · exact h1.trans (hgo _)
  · exact h1.step hZ (by simp)
@[simp] theorem State.sendCtrl_within (s : State) (k : MirCtrlKind) (hZ : [.link] ⊆ Z) :
    Within Z s₀ (s.sendCtrl k) ↔ Within Z s₀ s := Within.iff hZ rfl (by unfold State.sendCtrl; split <;> simp)
@[simp] theorem State.sendHb_within (s : State) (hZ : [.link] ⊆ Z) :
    Within Z s₀ s.sendHb ↔ Within Z s₀ s := Within.iff hZ rfl (by simp [State.sendHb])
end Sys2Proof.Machine
end

section
namespace Sys2Proof.Machine
variable {Z : List Spot} {s₀ : State}
@[simp] theorem State.applyLine_within (s : State) (t : Tier) (line : Nat) (l : MirLine) (hZ : [.cells, .mem, .part, .link, .cal, .pair] ⊆ Z) (hx : Within Z s₀ s) :
    Within Z s₀ (s.applyLine t line l) := hx.step hZ (by simp [State.applyLine])
@[simp] theorem State.endRequest_within (s : State) (hZ : [.mem, .pair] ⊆ Z) :
    Within Z s₀ s.endRequest ↔ Within Z s₀ s := Within.iff hZ rfl (by simp [State.endRequest])
@[simp] theorem State.noteReq_within (s : State) (x : MirExt) (lines : List MirLine) (hZ : [.pair] ⊆ Z) :
    Within Z s₀ (s.noteReq x lines) ↔ Within Z s₀ s := Within.iff hZ rfl (by simp [State.noteReq])
@[simp] theorem State.applyGranule_within (s : State) (key : Nat) (x : Option Granule) (hZ : [.cells, .mem, .grans, .part] ⊆ Z) (hx : Within Z s₀ s) :
    Within Z s₀ (s.applyGranule key x) := hx.step hZ ⟨fun y h => by
  unfold State.applyGranule
  extract_lets old zeroed mine s1
  split <;> cases y <;> first | rfl | simp at h, s.applyGranule_wf key x⟩
@[simp] theorem State.applyDeckle_within (s : State) (d : Nat) (x : Option Deckle) (hZ : [.part, .sec] ⊆ Z) :
    Within Z s₀ (s.applyDeckle d x) ↔ Within Z s₀ s := Within.iff hZ rfl (by simp [State.applyDeckle])
@[simp] theorem State.applyEp_within (s : State) (ep : Nat) (x : Option (Nat × Nat)) (hZ : [.part] ⊆ Z) :
    Within Z s₀ (s.applyEp ep x) ↔ Within Z s₀ s := Within.iff hZ rfl (by simp [State.applyEp])
@[simp] theorem State.setIds_within (s : State) (l : List Nat) (hZ : [.part, .rgn, .lode, .eng, .attn, .retr, .sec] ⊆ Z) :
    Within Z s₀ (s.setIds l) ↔ Within Z s₀ s := Within.iff hZ rfl (by simp [State.setIds])
@[simp] theorem State.applyMeta_within (s : State) (r : MetaRec) (hZ : [.cells, .mem, .grans, .part, .rgn, .lode, .eng, .attn, .form, .retr, .link, .laid, .pair, .sec] ⊆ Z) (hx : Within Z s₀ s) :
    Within Z s₀ (s.applyMeta r) := hx.step hZ (by unfold State.applyMeta; split <;> simp)
@[simp] theorem State.applyRec_within (s : State) (m : Msg) (hZ : [.cells, .mem, .grans, .part, .rgn, .lode, .eng, .attn, .form, .retr, .link, .cal, .laid, .pair, .sec] ⊆ Z) (hx : Within Z s₀ s) :
    Within Z s₀ (s.applyRec m) := hx.step hZ (by
  unfold State.applyRec; dsimp only
  (repeat' split) <;> simp (disch := try (intros; (repeat' split) <;> simp (disch := try simp (disch := try simp)) [within_foldl, within_foldl_fst])) [within_foldl, within_foldl_fst])
@[simp] theorem State.applyNext_within (n : Nat) (s : State) (last : Bool) (hZ : [.cells, .mem, .grans, .part, .rgn, .lode, .eng, .attn, .form, .retr, .link, .cal, .laid, .pair, .sec] ⊆ Z) (hx : Within Z s₀ s) :
    Within Z s₀ (State.applyNext n s last).1 := by
  induction n generalizing s last with
  | zero => exact hx
  | succ n ih =>
    unfold State.applyNext
    split
    · exact hx
    · next m _ _ =>
      extract_lets held s1
      have h1 : Within Z s₀ s1 := hx.step hZ (by simp [s1])
      split
      · exact hx
      · exact ih _ _ (h1.step hZ (by simp))
@[simp] theorem State.sendAck_within (s : State) (hZ : [.link, .pair] ⊆ Z) :
    Within Z s₀ s.sendAck ↔ Within Z s₀ s := Within.iff hZ rfl (by unfold State.sendAck; split <;> simp)
@[simp] theorem State.syncReached_within (s : State) (hZ : [.pair] ⊆ Z) :
    Within Z s₀ s.syncReached ↔ Within Z s₀ s := Within.iff hZ rfl (by unfold State.syncReached; split <;> simp)
@[simp] theorem State.applyAll_within (s : State) (hZ : [.cells, .mem, .grans, .part, .rgn, .lode, .eng, .attn, .form, .retr, .link, .cal, .laid, .pair, .sec] ⊆ Z) (hx : Within Z s₀ s) :
    Within Z s₀ s.applyAll := hx.step hZ (by
  unfold State.applyAll
  split
  · simp
  · extract_lets x s1
    have h1 : Within [.cells, .mem, .grans, .part, .rgn, .lode, .eng, .attn, .form, .retr, .link, .cal, .laid, .pair, .sec] s x.1 := by simp [x]
    have h2 : Within [.cells, .mem, .grans, .part, .rgn, .lode, .eng, .attn, .form, .retr, .link, .cal, .laid, .pair, .sec] s s1 := by simp [s1, h1]
    (repeat' split) <;> simp [h2])
@[simp] theorem State.abandon_within (s : State) (keep : Option Nat) (hZ : [.mbx, .mem, .part, .lode, .xlat, .eng, .couch, .link] ⊆ Z) :
    Within Z s₀ (s.abandon keep) ↔ Within Z s₀ s := Within.iff hZ rfl (by
  unfold State.abandon
  extract_lets s1 s2 ls part lode couch xlat mem mbx
  have h1 : Within [.mbx, .mem, .part, .lode, .xlat, .eng, .couch, .link] s s1 := within_foldl _ _ (fun a e => within_foldl _ _ (fun b r => by simp) (.refl _ _)) (.refl _ _)
  have h2 : Within [.mbx, .mem, .part, .lode, .xlat, .eng, .couch, .link] s s2 := within_foldl _ _ (fun a w => by simp) h1
  exact (within_part_lode_couch_xlat_mem_mbx _ _ _ _ _ _ (by rfl) (by rfl) (by simp)).mpr h2)
@[simp] theorem State.stopLaid_within (s : State) (hZ : [.free, .cells, .mem, .part, .eng, .form, .link, .cal, .laid, .pair] ⊆ Z) (hx : Within Z s₀ s) :
    Within Z s₀ s.stopLaid := hx.step hZ (by simp [State.stopLaid])
@[simp] theorem State.fence_within (s : State) (hZ : [.free, .mbx, .cells, .mem, .part, .lode, .xlat, .eng, .form, .couch, .link, .cal, .laid, .pair] ⊆ Z) (hx : Within Z s₀ s) :
    Within Z s₀ s.fence := hx.step hZ (by simp [State.fence])
@[simp] theorem State.dropMeta_false_within (s : State) (hZ : [.mem, .part, .rgn, .lode, .xlat, .eng, .attn, .form, .retr, .link, .laid, .pair] ⊆ Z) : Within Z s₀ (s.dropMeta false) ↔ Within Z s₀ s :=
  Within.iff hZ rfl (.of_same rfl fun x h => by cases x <;> first | rfl | simp at h)
/-- The drop of the granules alone may leave lines listed that read as unlisted ones; forgetting the keys sorts them out. -/
theorem State.forgetKeys_dropMeta_within (s : State) (hZ : [.cells, .mem, .grans, .part, .rgn, .lode, .xlat, .eng, .attn, .form, .retr, .link, .laid, .pair, .sec] ⊆ Z)
    (hx : Within Z s₀ s) : Within Z s₀ (s.dropMeta true).forgetKeys :=
  hx.step hZ ⟨fun x h => by cases x <;> first | rfl | simp at h,
    fun h => State.canon_wf _ (by dsimp only [State.dropMeta]; exact NMap.wf_each ((Memory.wf_iff s).mp h).1 _)⟩
@[simp] theorem State.abortOwn_within (s : State) (hZ : [.mbx, .cells, .mem, .part, .link, .cal, .pair, .pkg] ⊆ Z) (hx : Within Z s₀ s) :
    Within Z s₀ s.abortOwn := hx.step hZ (by
  unfold State.abortOwn; dsimp only
  (repeat' split) <;> simp (disch := try (intros; (repeat' split) <;> simp (disch := try simp (disch := try simp)) [within_foldl, within_foldl_fst])) [within_foldl, within_foldl_fst])
@[simp] theorem State.becomeStandby_within (s : State) (x : MirExt) (hZ : [.free, .hub, .mbx, .cells, .mem, .grans, .part, .rgn, .lode, .xlat, .eng, .attn, .form, .retr, .couch, .link, .cal, .laid, .pair, .sec, .pkg] ⊆ Z) (hx : Within Z s₀ s) :
    Within Z s₀ (s.becomeStandby x) := hx.step hZ (by
  unfold State.becomeStandby
  extract_lets s1 sec hub mbx
  have h1 : Within [.free, .hub, .mbx, .cells, .mem, .grans, .part, .rgn, .lode, .xlat, .eng, .attn, .form, .retr, .couch, .link, .cal, .laid, .pair, .sec, .pkg] s s1 := State.forgetKeys_dropMeta_within _ (by simp) (by simp)
  exact (within_sec_hub_mbx_pair _ _ _ _ (by simp)).mpr h1)
@[simp] theorem State.blank_within (s : State) (hZ : [.mbx, .cells, .mem, .grans, .part, .rgn, .lode, .xlat, .eng, .attn, .form, .retr, .couch, .link, .laid, .pair, .sec] ⊆ Z) (hx : Within Z s₀ s) :
    Within Z s₀ s.blank := hx.step hZ (by
  unfold State.blank
  extract_lets ls es s1 k part sec
  have h1 : Within [.mbx, .cells, .mem, .grans, .part, .rgn, .lode, .xlat, .eng, .attn, .form, .retr, .couch, .link, .laid, .pair, .sec] s s1 := State.forgetKeys_dropMeta_within _ (by simp) (by simp)
  have h2 : Within [.mbx, .cells, .mem, .grans, .part, .rgn, .lode, .xlat, .eng, .attn, .form, .retr, .couch, .link, .laid, .pair, .sec] s k.1 := (State.newKey_within _ (by simp)).mpr h1
  exact (within_part_sec_pair _ _ _ (by rfl) (by simp)).mpr h2)
@[simp] theorem State.wakeReads_within (s : State) (t : Tier) (line : Nat) (hZ : [.mem] ⊆ Z) :
    Within Z s₀ (s.wakeReads t line) ↔ Within Z s₀ s := Within.iff hZ rfl (by simp [State.wakeReads])
@[simp] theorem State.fetchFailed_within (s : State) (t : Tier) (line : Nat) (hZ : [.cells, .mem] ⊆ Z) (hx : Within Z s₀ s) :
    Within Z s₀ (s.fetchFailed t line) := hx.step hZ (by unfold State.fetchFailed; (repeat' split) <;> simp)
@[simp] theorem State.failFetches_within (s : State) (hZ : [.cells, .mem, .pair] ⊆ Z) (hx : Within Z s₀ s) :
    Within Z s₀ s.failFetches := hx.step hZ (by
  unfold State.failFetches; dsimp only
  (repeat' split) <;> simp (disch := try (intros; (repeat' split) <;> simp (disch := try simp (disch := try simp)) [within_foldl, within_foldl_fst])) [within_foldl, within_foldl_fst])
@[simp] theorem State.pumpMir_within (s : State) (hZ : [.free, .mbx, .cells, .mem, .grans, .part, .lode, .xlat, .eng, .attn, .form, .couch, .link, .cal, .pair, .pkg] ⊆ Z) (hx : Within Z s₀ s) :
    Within Z s₀ s.pumpMir := hx.step hZ
  (State.pumpCouch_within _ (by simp) (State.pumpReady_within _ (by simp) (by simp)))
@[simp] theorem State.dirtyRec_within (s : State) (r : MirRec) (hZ : [.part] ⊆ Z) :
    Within Z s₀ (s.dirtyRec r) ↔ Within Z s₀ s := Within.iff hZ rfl (by
  unfold State.dirtyRec
  split
  · exact within_foldl _ _ (fun a i => by split <;> simp) (.refl _ _)
  · simp)
@[simp] theorem State.goSolo_within (s : State) (cause : Nat) (hZ : [.free, .mbx, .cells, .mem, .grans, .part, .lode, .xlat, .eng, .attn, .form, .couch, .link, .cal, .pair, .pkg] ⊆ Z) (hx : Within Z s₀ s) :
    Within Z s₀ (s.goSolo cause) := hx.step hZ (by
  unfold State.goSolo
  extract_lets syncing s1 part s2 s3 s4 s5 s6
  have h1 : Within [.free, .mbx, .cells, .mem, .grans, .part, .lode, .xlat, .eng, .attn, .form, .couch, .link, .cal, .pair, .pkg] s s1 := by simp [s1]
  have h2 : Within [.free, .mbx, .cells, .mem, .grans, .part, .lode, .xlat, .eng, .attn, .form, .couch, .link, .cal, .pair, .pkg] s s2 := by
    unfold s2
    split
    · exact (within_part _ (by rfl) (by simp)).mpr h1
    · exact h1
  have h3 : Within [.free, .mbx, .cells, .mem, .grans, .part, .lode, .xlat, .eng, .attn, .form, .couch, .link, .cal, .pair, .pkg] s s3 := within_foldl _ _ (fun a r => by simp) h2
  have h4 : Within [.free, .mbx, .cells, .mem, .grans, .part, .lode, .xlat, .eng, .attn, .form, .couch, .link, .cal, .pair, .pkg] s s4 := by simp [s4, h3]
  have h5 : Within [.free, .mbx, .cells, .mem, .grans, .part, .lode, .xlat, .eng, .attn, .form, .couch, .link, .cal, .pair, .pkg] s s5 := by simp [s5, h4]
  have h6 : Within [.free, .mbx, .cells, .mem, .grans, .part, .lode, .xlat, .eng, .attn, .form, .couch, .link, .cal, .pair, .pkg] s s6 := by
    unfold s6
    split
    · split <;> simp [h5]
    · exact h5
  simp [h6])
@[simp] theorem State.decideLoss_within (s : State) (cause : Nat) (hZ : [.free, .mbx, .cells, .mem, .grans, .part, .lode, .xlat, .eng, .attn, .form, .couch, .link, .cal, .laid, .pair, .pkg] ⊆ Z) (hx : Within Z s₀ s) :
    Within Z s₀ (s.decideLoss cause) := hx.step hZ (by simp [State.decideLoss])
@[simp] theorem State.startPromotion_within (s : State) (cause : Nat) (hZ : [.pair] ⊆ Z) :
    Within Z s₀ (s.startPromotion cause) ↔ Within Z s₀ s := Within.iff hZ rfl (by simp [State.startPromotion])
@[simp] theorem State.takePromote_within (s : State) (cause : Nat) (hZ : [.pair] ⊆ Z) :
    Within Z s₀ (s.takePromote cause) ↔ Within Z s₀ s := Within.iff hZ rfl (by simp [State.takePromote])
@[simp] theorem State.tryWitnesses_within (s : State) (hZ : [.pair] ⊆ Z) :
    Within Z s₀ s.tryWitnesses ↔ Within Z s₀ s := Within.iff hZ rfl (by simp [State.tryWitnesses])
@[simp] theorem State.settleRequests_within (s : State) (hZ : [.mbx, .cells, .mem, .part, .link, .cal, .pair, .pkg] ⊆ Z) (hx : Within Z s₀ s) :
    Within Z s₀ s.settleRequests.1 := hx.step hZ (by
  unfold State.settleRequests; dsimp only
  (repeat' split) <;> simp (disch := try (intros; (repeat' split) <;> simp (disch := try simp (disch := try simp)) [within_foldl, within_foldl_fst])) [within_foldl, within_foldl_fst])
@[simp] theorem State.settleItems_within (s : State) (hZ : [.free, .mbx, .link, .pair] ⊆ Z) :
    Within Z s₀ s.settleItems ↔ Within Z s₀ s := Within.iff hZ rfl (by simp [State.settleItems])
@[simp] theorem State.settleLink_within (s : State) (hZ : [.link, .pair] ⊆ Z) :
    Within Z s₀ s.settleLink ↔ Within Z s₀ s := Within.iff hZ rfl (by simp [State.settleLink])
@[simp] theorem State.settleDrafts_within (s : State) (hZ : [.mbx, .cells, .mem, .grans, .part, .rgn, .lode, .link, .cal, .pair, .pkg] ⊆ Z) (hx : Within Z s₀ s) :
    Within Z s₀ s.settleDrafts := hx.step hZ (by
  unfold State.settleDrafts; dsimp only
  (repeat' split) <;> simp (disch := try (intros; (repeat' split) <;> simp (disch := try simp (disch := try simp)) [within_foldl, within_foldl_fst])) [within_foldl, within_foldl_fst])
@[simp] theorem State.settleLodes_within (s : State) (hZ : [.mbx, .cells, .mem, .part, .lode, .link, .cal, .pair, .pkg] ⊆ Z) (hx : Within Z s₀ s) :
    Within Z s₀ s.settleLodes := hx.step hZ (by simp [State.settleLodes])
@[simp] theorem State.settleMoves_within (s : State) (hZ : [.mbx, .cells, .mem, .grans, .part, .xlat, .link, .cal, .pair, .pkg] ⊆ Z) (hx : Within Z s₀ s) :
    Within Z s₀ s.settleMoves := hx.step hZ (by
  unfold State.settleMoves; dsimp only
  (repeat' split) <;> simp (disch := try (intros; (repeat' split) <;> simp (disch := try simp (disch := try simp)) [within_foldl, within_foldl_fst])) [within_foldl, within_foldl_fst])
@[simp] theorem State.settleAdapters_within (s : State) (hZ : [.form] ⊆ Z) :
    Within Z s₀ s.settleAdapters ↔ Within Z s₀ s := Within.iff hZ rfl (by
  unfold State.settleAdapters; dsimp only
  (repeat' split) <;> simp (disch := try (intros; (repeat' split) <;> simp (disch := try simp (disch := try simp)) [within_foldl, within_foldl_fst])) [within_foldl, within_foldl_fst])
@[simp] theorem State.settleLaid_within (s : State) (hZ : [.eng, .link, .laid] ⊆ Z) :
    Within Z s₀ s.settleLaid ↔ Within Z s₀ s := Within.iff hZ rfl (by
  unfold State.settleLaid; dsimp only
  (repeat' split) <;> simp (disch := try (intros; (repeat' split) <;> simp (disch := try simp (disch := try simp)) [within_foldl, within_foldl_fst])) [within_foldl, within_foldl_fst])
@[simp] theorem State.takeOver_within (s : State) (force : Bool) (hZ : [.mbx, .cells, .mem, .grans, .part, .rgn, .lode, .xlat, .eng, .form, .link, .cal, .laid, .pair, .pkg] ⊆ Z) (hx : Within Z s₀ s) :
    Within Z s₀ (s.takeOver force) := hx.step hZ (by
  unfold State.takeOver; dsimp only
  (repeat' split) <;> simp (disch := try (intros; (repeat' split) <;> simp (disch := try simp (disch := try simp)) [within_foldl, within_foldl_fst])) [within_foldl, within_foldl_fst])
@[simp] theorem State.roleActive_within (s : State) (cause : Nat) (hZ : [.pair] ⊆ Z) :
    Within Z s₀ (s.roleActive cause) ↔ Within Z s₀ s := Within.iff hZ rfl (by simp [State.roleActive])
@[simp] theorem State.endPromotion_within (s : State) (cause : Nat) (guarantee : Bool) (hZ : [.free, .mbx, .cells, .mem, .grans, .part, .rgn, .lode, .xlat, .eng, .form, .link, .cal, .laid, .pair, .pkg] ⊆ Z) (hx : Within Z s₀ s) :
    Within Z s₀ (s.endPromotion cause guarantee) := hx.step hZ (by
  unfold State.endPromotion; dsimp only
  (repeat' split) <;> simp (disch := try (intros; (repeat' split) <;> simp (disch := try simp (disch := try simp)) [within_foldl, within_foldl_fst])) [within_foldl, within_foldl_fst])
@[simp] theorem pairArmAct_within (p : PairP) (u : State) (r : Nat) (hZ : [.link, .pair] ⊆ Z) :
    Within Z s₀ (pairArmAct p u r).1 ↔ Within Z s₀ u := Within.iff hZ rfl (by simp [pairArmAct])
@[simp] theorem pairFormAct_within (p : PairP) (u : State) (r : Nat) (hZ : [.link, .pair] ⊆ Z) :
    Within Z s₀ (pairFormAct p u r).1 ↔ Within Z s₀ u := Within.iff hZ rfl (by simp [pairFormAct])
@[simp] theorem State.sendAllMeta_within (s : State) (hZ : [.mem, .grans, .part, .rgn, .lode, .xlat, .eng, .attn, .form, .retr, .link, .laid, .pair] ⊆ Z) (hx : Within Z s₀ s) :
    Within Z s₀ s.sendAllMeta := hx.step hZ (by simp [State.sendAllMeta])
@[simp] theorem State.startSync_within (s : State) (again : Bool) (hZ : [.mem, .grans, .part, .rgn, .lode, .xlat, .eng, .attn, .form, .retr, .link, .laid, .pair] ⊆ Z) (hx : Within Z s₀ s) :
    Within Z s₀ (s.startSync again) := hx.step hZ (by simp [State.startSync])
@[simp] theorem State.formed_within (s : State) (hZ : [.mbx, .cells, .mem, .grans, .part, .rgn, .lode, .xlat, .eng, .attn, .form, .retr, .link, .cal, .laid, .pair, .sec, .pkg] ⊆ Z) (hx : Within Z s₀ s) :
    Within Z s₀ s.formed := hx.step hZ (by
  unfold State.formed; dsimp only
  (repeat' split) <;> simp (disch := try (intros; (repeat' split) <;> simp (disch := try simp (disch := try simp)) [within_foldl, within_foldl_fst])) [within_foldl, within_foldl_fst])
@[simp] theorem State.leavePair_within (s : State) (hZ : [.free, .mbx, .cells, .mem, .grans, .part, .lode, .xlat, .eng, .attn, .form, .couch, .link, .cal, .pair, .sec, .pkg] ⊆ Z) (hx : Within Z s₀ s) :
    Within Z s₀ s.leavePair := hx.step hZ (by simp [State.leavePair])
@[simp] theorem pairDissolveAct_within (u : State) (r : Nat) (hZ : [.free, .mbx, .cells, .mem, .grans, .part, .rgn, .lode, .xlat, .eng, .attn, .form, .retr, .couch, .link, .cal, .laid, .pair, .sec, .pkg] ⊆ Z) (hx : Within Z s₀ u) :
    Within Z s₀ (pairDissolveAct u r).1 := hx.step hZ (by
  unfold pairDissolveAct; dsimp only
  (repeat' split) <;> simp (disch := try (intros; (repeat' split) <;> simp (disch := try simp (disch := try simp)) [within_foldl, within_foldl_fst])) [within_foldl, within_foldl_fst])
@[simp] theorem pairStatusAct_within (u : State) (r : Nat) (hZ : [] ⊆ Z) :
    Within Z s₀ (pairStatusAct u r).1 ↔ Within Z s₀ u := Within.iff hZ rfl (by simp [pairStatusAct])
@[simp] theorem healthReportAct_within (u : State) (r : Nat) (hZ : [] ⊆ Z) :
    Within Z s₀ (healthReportAct u r).1 ↔ Within Z s₀ u := Within.iff hZ rfl (by unfold healthReportAct; split <;> simp)
@[simp] theorem State.setGrade_within (s : State) (g : Nat) (hZ : [.mbx, .link, .pair] ⊆ Z) :
    Within Z s₀ (s.setGrade g) ↔ Within Z s₀ s := Within.iff hZ rfl (by simp [State.setGrade])
@[simp] theorem State.patrol_within (s : State) (t : Tier) (hZ : [.cells, .mem, .part, .link, .cal, .pair] ⊆ Z) (hx : Within Z s₀ s) :
    Within Z s₀ (s.patrol t) := hx.step hZ (by
  unfold State.patrol; dsimp only
  (repeat' split) <;> simp (disch := try (intros; (repeat' split) <;> simp (disch := try simp (disch := try simp)) [within_foldl, within_foldl_fst])) [within_foldl, within_foldl_fst])
@[simp] theorem witnessSetAct_within (p : WitnessP) (u : State) (r : Nat) (hZ : [.pair] ⊆ Z) :
    Within Z s₀ (witnessSetAct p u r).1 ↔ Within Z s₀ u := Within.iff hZ rfl (by simp [witnessSetAct])
@[simp] theorem witnessReportAct_within (q : Req) (p : WitnessP) (u : State) (r : Nat) (hZ : [.pair] ⊆ Z) :
    Within Z s₀ (witnessReportAct q p u r).1 ↔ Within Z s₀ u := Within.iff hZ rfl (by simp [witnessReportAct])
@[simp] theorem failoverHandoverAct_within (p : FailoverP) (u : State) (r : Nat) (hZ : [.pair] ⊆ Z) :
    Within Z s₀ (failoverHandoverAct p u r).1 ↔ Within Z s₀ u := Within.iff hZ rfl (by simp [failoverHandoverAct])
@[simp] theorem failoverForceAct_within (u : State) (r : Nat) (hZ : [.pair] ⊆ Z) :
    Within Z s₀ (failoverForceAct u r).1 ↔ Within Z s₀ u := Within.iff hZ rfl (by simp [failoverForceAct])
@[simp] theorem State.handedOver_within (s : State) (x : MirExt) (hZ : [.mbx, .cells, .mem, .grans, .part, .rgn, .lode, .eng, .attn, .form, .retr, .link, .cal, .laid, .pair, .sec, .pkg] ⊆ Z) (hx : Within Z s₀ s) :
    Within Z s₀ (s.handedOver x) := hx.step hZ (by
  unfold State.handedOver
  extract_lets r s1 laid s2
  have h1 : Within [.mbx, .cells, .mem, .grans, .part, .rgn, .lode, .eng, .attn, .form, .retr, .link, .cal, .laid, .pair, .sec, .pkg] s s1 := by simp [s1]
  have h2 : Within [.mbx, .cells, .mem, .grans, .part, .rgn, .lode, .eng, .attn, .form, .retr, .link, .cal, .laid, .pair, .sec, .pkg] s s2 := (within_laid _ (by simp)).mpr h1
  simp [h2])
@[simp] theorem brFailoverOutAct_within (u : State) (r : Nat) (hZ : [.free, .mbx, .cells, .mem, .part, .lode, .xlat, .eng, .form, .couch, .link, .cal, .laid, .pair] ⊆ Z) (hx : Within Z s₀ u) :
    Within Z s₀ (brFailoverOutAct u r).1 := hx.step hZ (by simp [brFailoverOutAct])
@[simp] theorem State.takeRecord_within (s : State) (mseq : Nat) (m : Msg) (hZ : [.cells, .mem, .grans, .part, .rgn, .lode, .eng, .attn, .form, .retr, .link, .cal, .laid, .pair, .sec] ⊆ Z) (hx : Within Z s₀ s) :
    Within Z s₀ (s.takeRecord mseq m) := hx.step hZ (by unfold State.takeRecord; dsimp only; (repeat' split) <;> simp)
@[simp] theorem State.sendCopy_within (s : State) (x : Nat × List MirLine) (hZ : [.link, .pair] ⊆ Z) :
    Within Z s₀ (s.sendCopy x) ↔ Within Z s₀ s := Within.iff hZ rfl (by simp [State.sendCopy])
@[simp] theorem State.sendCopies_within (s : State) (xs : List (Nat × List MirLine)) (hZ : [.link, .pair] ⊆ Z) :
    Within Z s₀ (s.sendCopies xs).1 ↔ Within Z s₀ s := by
  induction xs generalizing s with
  | nil => simp [State.sendCopies]
  | cons x xs ih =>
    unfold State.sendCopies
    split <;> simp_all
@[simp] theorem State.endCopy_within (s : State) (bytes : Nat) (hZ : [.mbx, .part, .link, .pair] ⊆ Z) :
    Within Z s₀ (s.endCopy bytes) ↔ Within Z s₀ s := Within.iff hZ rfl (by simp [State.endCopy])
@[simp] theorem State.hbAtActive_within (s : State) (x : MirExt) (hZ : [.free, .mbx, .cells, .mem, .grans, .part, .rgn, .lode, .xlat, .eng, .attn, .form, .retr, .couch, .link, .cal, .laid, .pair] ⊆ Z) (hx : Within Z s₀ s) :
    Within Z s₀ (s.hbAtActive x) := hx.step hZ (by simp [State.hbAtActive])
@[simp] theorem State.hbAtStandby_within (s : State) (x : MirExt) (hZ : [.pair] ⊆ Z) :
    Within Z s₀ (s.hbAtStandby x) ↔ Within Z s₀ s := Within.iff hZ rfl (by simp [State.hbAtStandby])
@[simp] theorem State.repair_within (s : State) (r : LineRef) (k : Nat) (l : MirLine) (hZ : [.cells, .mem, .part, .cal] ⊆ Z) (hx : Within Z s₀ s) :
    Within Z s₀ (s.repair r k l) := hx.step hZ (by simp [State.repair])
@[simp] theorem regionCreateAct_within (p : RegionP) (u : State) (r : Nat) (hZ : [.rgn] ⊆ Z) :
    Within Z s₀ (regionCreateAct p u r).1 ↔ Within Z s₀ u := Within.iff hZ rfl (by simp [regionCreateAct])
@[simp] theorem regionRetainAct_within (p : RegionP) (u : State) (r : Nat) (hZ : [.rgn] ⊆ Z) :
    Within Z s₀ (regionRetainAct p u r).1 ↔ Within Z s₀ u := Within.iff hZ rfl (by simp [regionRetainAct])
@[simp] theorem regionDeleteAct_within (p : RegionP) (u : State) (r : Nat) (hZ : [.mbx, .cells, .mem, .grans, .part, .rgn, .lode, .link, .cal, .pair, .pkg] ⊆ Z) (hx : Within Z s₀ u) :
    Within Z s₀ (regionDeleteAct p u r).1 := hx.step hZ (by
  unfold regionDeleteAct; dsimp only
  (repeat' split) <;> simp (disch := try (intros; (repeat' split) <;> simp (disch := try simp (disch := try simp)) [within_foldl, within_foldl_fst])) [within_foldl, within_foldl_fst])
theorem State.allocSegs_within (s : State) (r : Region) (holder draft hint : Nat) (ms : List SegMode) (base : List Nat)
    (hZ : [.mbx, .grans, .part, .form, .link] ⊆ Z) (hx : Within Z s₀ s) {y : State × List (SegMode × Nat) × List Nat}
    (e : s.allocSegs r holder draft hint ms base = .ok y) : Within Z s₀ y.1 := by
  induction ms generalizing s hint base y with
  | nil => cases e; exact hx
  | cons m ms ih =>
    unfold State.allocSegs at e
    split at e
    · generalize hz : s.allocSegs r holder draft hint ms (base.drop 1) = z at e
      cases z <;> cases e
      have h1 := ih _ _ _ hx hz
      exact h1
    · split at e
      · cases e
      · dsimp only at e
        generalize hz : State.allocSegs _ r holder draft _ ms (base.drop 1) = z at e
        cases z <;> cases e
        have h1 := fun h => ih _ _ _ h hz
        exact h1 (hx.step hZ (by split <;> simp))
@[simp] theorem regionDraftOpenAct_within (q : Req) (p : DraftP) (hint : Nat) (u : State) (r : Nat) (hZ : [.mbx, .grans, .part, .rgn, .form, .link] ⊆ Z) (hx : Within Z s₀ u) :
    Within Z s₀ (regionDraftOpenAct q p hint u r).1 := hx.step hZ (by
  unfold regionDraftOpenAct
  split
  · simp
  · extract_lets i b
    split
    · simp
    · next s1 segs from_ e1 =>
      have h1 : Within [.mbx, .grans, .part, .rgn, .form, .link] u s1 := State.allocSegs_within _ _ _ _ _ _ _ (by simp) (.refl _ _) e1
      exact (within_rgn _ (by simp)).mpr h1)
@[simp] theorem State.fillSeg_within (s : State) (m : SegMode) (x src : Nat) (hZ : [.cells, .mem, .grans, .part, .link, .cal, .pair] ⊆ Z) (hx : Within Z s₀ s) :
    Within Z s₀ (s.fillSeg m x src) := hx.step hZ (by unfold State.fillSeg; (repeat' split) <;> simp)
@[simp] theorem regionDraftRebaseAct_within (p : DraftP) (u : State) (r : Nat) (hZ : [.rgn] ⊆ Z) :
    Within Z s₀ (regionDraftRebaseAct p u r).1 ↔ Within Z s₀ u := Within.iff hZ rfl (by unfold regionDraftRebaseAct; split <;> simp)
@[simp] theorem regionDraftDiscardAct_within (p : DraftP) (u : State) (r : Nat) (hZ : [.mbx, .cells, .mem, .grans, .part, .rgn, .lode, .link, .cal, .pair, .pkg] ⊆ Z) (hx : Within Z s₀ u) :
    Within Z s₀ (regionDraftDiscardAct p u r).1 := hx.step hZ (by simp [regionDraftDiscardAct])
@[simp] theorem regionPublishAct_within (q : Req) (p : PublishP) (u : State) (r : Nat) (hZ : [.mbx, .cells, .mem, .part, .rgn, .link, .cal, .pair, .pkg] ⊆ Z) (hx : Within Z s₀ u) :
    Within Z s₀ (regionPublishAct q p u r).1 := hx.step hZ (by simp [regionPublishAct])
@[simp] theorem regionOpenAct_within (q : Req) (p : OpenP) (u : State) (r : Nat) (hZ : [.rgn] ⊆ Z) :
    Within Z s₀ (regionOpenAct q p u r).1 ↔ Within Z s₀ u := Within.iff hZ rfl (by unfold regionOpenAct; split <;> simp)
@[simp] theorem regionReopenAct_within (p : OpenP) (u : State) (r : Nat) (hZ : [.mbx, .cells, .mem, .grans, .part, .rgn, .lode, .link, .cal, .pair, .pkg] ⊆ Z) (hx : Within Z s₀ u) :
    Within Z s₀ (regionReopenAct p u r).1 := hx.step hZ (by unfold regionReopenAct; split <;> simp)
@[simp] theorem regionListAct_within (q : Req) (p : OpenP) (u : State) (r : Nat) (hZ : [] ⊆ Z) :
    Within Z s₀ (regionListAct q p u r).1 ↔ Within Z s₀ u := Within.iff hZ rfl (by unfold regionListAct; (repeat' split) <;> simp)
@[simp] theorem regionCloseAct_within (p : OpenP) (u : State) (r : Nat) (hZ : [.mbx, .cells, .mem, .grans, .part, .rgn, .lode, .link, .cal, .pair, .pkg] ⊆ Z) (hx : Within Z s₀ u) :
    Within Z s₀ (regionCloseAct p u r).1 := hx.step hZ (by simp [regionCloseAct])
@[simp] theorem regionGrantAct_within (p : GrantP) (u : State) (r : Nat) (hZ : [.rgn] ⊆ Z) :
    Within Z s₀ (regionGrantAct p u r).1 ↔ Within Z s₀ u := Within.iff hZ rfl (by simp [regionGrantAct])
@[simp] theorem regionWithdrawAct_within (p : GrantP) (u : State) (r : Nat) (hZ : [.mbx, .cells, .mem, .grans, .part, .rgn, .lode, .link, .cal, .pair, .pkg] ⊆ Z) (hx : Within Z s₀ u) :
    Within Z s₀ (regionWithdrawAct p u r).1 := hx.step hZ (by simp [regionWithdrawAct])
end Sys2Proof.Machine
end

section
namespace Sys2Proof.Machine
variable {Z : List Spot} {s₀ : State}
theorem execDeckleCreate_goes (q : Req) (p : DeckleCreateP) (hint : Nat) (s : State) : Goes [.hub, .mbx, .cells, .mem, .grans, .part, .form, .link, .cal, .pair, .sec, .pkg] s (execDeckleCreate q p hint s) := by simp [execDeckleCreate]
theorem execDeckleQuery_goes (q : Req) (p : DeckleP) (s : State) : Goes [.hub, .mbx, .cells, .mem, .part, .link, .cal, .pair, .pkg] s (execDeckleQuery q p s) := by simp [execDeckleQuery]
theorem execDeckleQuota_goes (q : Req) (p : QuotaP) (s : State) : Goes [.hub, .mbx, .cells, .mem, .part, .link, .cal, .pair, .pkg] s (execDeckleQuota q p s) := by simp [execDeckleQuota]
theorem execExtentAlloc_goes (q : Req) (p : AllocP) (hint : Nat) (s : State) : Goes [.hub, .mbx, .cells, .mem, .grans, .part, .form, .link, .cal, .pair, .pkg] s (execExtentAlloc q p hint s) := by simp [execExtentAlloc]
theorem execExtentZeroDone_goes (extent : Nat) (s : State) : Goes [.mbx, .cells, .mem, .grans, .part, .link, .cal, .pair, .pkg] s (execExtentZeroDone extent s) := by unfold execExtentZeroDone; (repeat' split) <;> simp
theorem execExtentFree_goes (q : Req) (p : RevokeP) (s : State) : Goes [.hub, .mbx, .cells, .mem, .grans, .part, .rgn, .lode, .link, .cal, .pair, .pkg] s (execExtentFree q p s) := by simp [execExtentFree]
theorem execExtentRevoke_goes (q : Req) (p : RevokeP) (s : State) : Goes [.hub, .mbx, .cells, .mem, .grans, .part, .rgn, .lode, .link, .cal, .pair, .pkg] s (execExtentRevoke q p s) := by simp [execExtentRevoke]
theorem execRevokeDrainEnd_goes (extent : Nat) (s : State) : Goes [.mbx, .cells, .mem, .grans, .part, .xlat, .link, .cal, .pair, .pkg] s (execRevokeDrainEnd extent s) := by simp [execRevokeDrainEnd]
theorem execRevokeTimeout_goes (extent : Nat) (s : State) : Goes [.now, .mbx, .cells, .mem, .grans, .part, .xlat, .link, .cal, .laid, .pair, .pkg] s (execRevokeTimeout extent s) := by unfold execRevokeTimeout; split <;> simp
/-- What an unlisted line holds depends on a granule's zero stamp alone, and a return leaves the stamp. -/
theorem bgAt_returned (s : State) (k : Nat) (i : Nat) :
    State.bgAt { s with part := { s.part with granules := s.part.granules.upd k fun x => { x with retired := false } } } i = s.bgAt i := by
  simp only [State.bgAt, NMap.find_upd]
  split
  · cases s.part.granules.find (granOf i) <;> rfl
  · rfl
theorem execGranuleReturn_goes (tier : Tier) (granule : Nat) (s : State) : Goes [.now, .grans, .part, .laid] s (execGranuleReturn tier granule s) := by
  unfold execGranuleReturn
  rw [goes_next]
  split
  · next g _ =>
    split
    · have h1 : Within [.now, .grans, .part, .laid] s (s.reach (g.lastHeld + 11000000)) := by simp
      exact h1.trans ⟨fun x h => by cases x <;> first | rfl | simp at h, fun h => by simpa only [Memory.wf, bgAt_returned] using h⟩
    · simp
  · simp
theorem execLeaseGrant_goes (q : Req) (p : LeaseP) (s : State) : Goes [.hub, .mbx, .cells, .mem, .grans, .part, .rgn, .lode, .link, .cal, .pair, .pkg] s (execLeaseGrant q p s) := by simp [execLeaseGrant]
theorem execLeaseRelease_goes (q : Req) (p : LeaseP) (s : State) : Goes [.hub, .mbx, .cells, .mem, .grans, .part, .rgn, .lode, .link, .cal, .pair, .pkg] s (execLeaseRelease q p s) := by simp [execLeaseRelease]
theorem execLeaseQuery_goes (q : Req) (p : LeaseP) (s : State) : Goes [.hub, .mbx, .cells, .mem, .part, .link, .cal, .pair, .pkg] s (execLeaseQuery q p s) := by simp [execLeaseQuery]
theorem execLease_goes (port ep deckle stamp rsvd : Nat) (s : State) : Goes [.part, .link, .pair] s (execLease port ep deckle stamp rsvd s) := by unfold execLease; (repeat' split) <;> simp
theorem execLeaseDeadline_goes (deckle ep : Nat) (s : State) : Goes [.now, .part, .link, .laid, .pair] s (execLeaseDeadline deckle ep s) := by unfold execLeaseDeadline; split <;> simp
theorem execLeaseGraceEnd_goes (deckle ep : Nat) (s : State) : Goes [.now, .hub, .mbx, .cells, .mem, .grans, .part, .rgn, .lode, .link, .cal, .laid, .pair, .pkg] s (execLeaseGraceEnd deckle ep s) := by unfold execLeaseGraceEnd; split <;> simp
theorem execLeaseReclaimDone_goes (deckle ep : Nat) (s : State) : Goes [.hub, .mbx, .cells, .mem, .part, .link, .cal, .pair, .pkg] s (execLeaseReclaimDone deckle ep s) := by unfold execLeaseReclaimDone; split <;> simp
theorem execLineWriteAccepted_goes (job : Nat) (s : State) : Goes [.cells, .mem, .part, .link, .cal, .pair] s (execLineWriteAccepted job s) := by
  unfold execLineWriteAccepted
  rw [goes_next]
  split
  · split
    · simp
    · exact (State.finishJob_within _ _ (by simp)).mpr (State.acceptLines_within _ _ _ (by simp) (.refl _ _))
  · simp
theorem execLineRead_goes (job : Nat) (flip : Stored) (s : State) : Goes [.cells, .mem, .part, .link, .cal] s (execLineRead job flip s) := by
  unfold execLineRead; dsimp only
  (repeat' split) <;> simp (disch := try (intros; (repeat' split) <;> simp (disch := try simp (disch := try simp)) [within_foldl, within_foldl_fst])) [within_foldl, within_foldl_fst]
theorem execReconstructionDone_goes (job : Nat) (s : State) : Goes [.cells, .mem, .part, .link, .cal, .pair] s (execReconstructionDone job s) := by
  unfold execReconstructionDone; dsimp only
  (repeat' split) <;> simp (disch := try (intros; (repeat' split) <;> simp (disch := try simp (disch := try simp)) [within_foldl, within_foldl_fst])) [within_foldl, within_foldl_fst]
theorem execRequestStaleDiscard_goes (job : Nat) (s : State) : Goes [.now, .mem, .part, .link, .laid] s (execRequestStaleDiscard job s) := by unfold execRequestStaleDiscard; split <;> simp
theorem execAsmWindowExpire_goes (stripe : Nat) (s : State) : Goes [.now, .cells, .mem, .part, .link, .cal, .laid, .pair] s (execAsmWindowExpire stripe s) := by unfold execAsmWindowExpire; split <;> simp
theorem execExtentMigrate_goes (q : Req) (p : MigrateP) (hint : Nat) (s : State) : Goes [.hub, .mbx, .cells, .mem, .grans, .part, .form, .link, .cal, .pair, .pkg] s (execExtentMigrate q p hint s) := by simp [execExtentMigrate]
theorem execExtentMigrateCancel_goes (q : Req) (p : MigrateP) (s : State) : Goes [.hub, .mbx, .cells, .mem, .grans, .part, .link, .cal, .pair, .pkg] s (execExtentMigrateCancel q p s) := by simp [execExtentMigrateCancel]
theorem execMigrateCopyDone_goes (extent : Nat) (s : State) : Goes [.mbx, .cells, .mem, .grans, .part, .link, .cal, .pair] s (execMigrateCopyDone extent s) := by unfold execMigrateCopyDone; split <;> simp
theorem execMigrateOldFramesFree_goes (extent : Nat) (s : State) : Goes [.mem, .grans, .part] s (execMigrateOldFramesFree extent s) := by unfold execMigrateOldFramesFree; split <;> simp
theorem execRds_goes (h : Hdr) (x : LodeExt) (s : State) : Goes [.cells, .mem, .part, .lode, .link, .cal, .pair] s (execRds h x s) := by simp [execRds]
theorem execRdx_goes (h : Hdr) (x : LodeExt) (s : State) : Goes [.cells, .mem, .part, .lode, .link, .cal, .pair] s (execRdx h x s) := by simp [execRdx]
theorem execWb_goes (h : Hdr) (x : LodeExt) (data : Line) (s : State) : Goes [.cells, .mem, .part, .lode, .link, .cal, .pair] s (execWb h x data s) := by simp [execWb]
theorem execSnpRsp_goes (h : Hdr) (x : LodeExt) (data : Line) (s : State) : Goes [.cells, .mem, .part, .lode, .link, .cal, .pair] s (execSnpRsp h x data s) := by unfold execSnpRsp; dsimp only; (repeat' split) <;> simp
theorem execLodeSnoopTimeout_goes (lode ep : Nat) (s : State) : Goes [.now, .mbx, .cells, .mem, .part, .lode, .link, .cal, .laid, .pair, .pkg] s (execLodeSnoopTimeout lode ep s) := by unfold execLodeSnoopTimeout; (repeat' split) <;> simp
theorem execLodeCreate_goes (q : Req) (p : LodeP) (s : State) : Goes [.hub, .mbx, .cells, .mem, .part, .lode, .link, .cal, .pair, .pkg] s (execLodeCreate q p s) := by simp [execLodeCreate]
theorem execLodeDelete_goes (q : Req) (p : LodeP) (s : State) : Goes [.hub, .mbx, .cells, .mem, .part, .lode, .link, .cal, .pair, .pkg] s (execLodeDelete q p s) := by simp [execLodeDelete]
theorem execLodeJoin_goes (q : Req) (p : LodeMemP) (s : State) : Goes [.hub, .mbx, .cells, .mem, .part, .lode, .link, .cal, .pair, .pkg] s (execLodeJoin q p s) := by simp [execLodeJoin]
theorem execLodeLeave_goes (q : Req) (p : LodeMemP) (s : State) : Goes [.hub, .mbx, .cells, .mem, .part, .lode, .link, .cal, .pair, .pkg] s (execLodeLeave q p s) := by simp [execLodeLeave]
theorem execLodeRecallDone_goes (lode ep : Nat) (s : State) : Goes [.mbx, .cells, .mem, .part, .lode, .link, .cal, .pair, .pkg] s (execLodeRecallDone lode ep s) := by unfold execLodeRecallDone; (repeat' split) <;> simp
theorem execLodeSalvageCopy_goes (q : Req) (p : SalvageP) (s : State) : Goes [.hub, .mbx, .cells, .mem, .part, .lode, .link, .cal, .pair, .pkg] s (execLodeSalvageCopy q p s) := by simp [execLodeSalvageCopy]
theorem execLodeSalvageCopyRearm_goes (q : Req) (p : SalvageP) (s : State) : Goes [.hub, .mbx, .cells, .mem, .part, .lode, .link, .cal, .pair, .pkg] s (execLodeSalvageCopyRearm q p s) := by simp [execLodeSalvageCopyRearm]
theorem execLodeSalvageRearm_goes (q : Req) (p : SalvageP) (s : State) : Goes [.hub, .mbx, .cells, .mem, .part, .lode, .link, .cal, .pair, .pkg] s (execLodeSalvageRearm q p s) := by simp [execLodeSalvageRearm]
theorem execLodeSalvageDelete_goes (q : Req) (p : SalvageP) (s : State) : Goes [.hub, .mbx, .cells, .mem, .part, .lode, .link, .cal, .pair, .pkg] s (execLodeSalvageDelete q p s) := by simp [execLodeSalvageDelete]
theorem execSalvageCopyDone_goes (lode : Nat) (s : State) : Goes [.mbx, .cells, .mem, .part, .lode, .link, .cal, .pair, .pkg] s (execSalvageCopyDone lode s) := by
  unfold execSalvageCopyDone; dsimp only
  (repeat' split) <;> simp (disch := try (intros; (repeat' split) <;> simp (disch := try simp (disch := try simp)) [within_foldl, within_foldl_fst])) [within_foldl, within_foldl_fst]
theorem execRd_goes (h : Hdr) (m : MemExt) (s : State) : Goes [.cells, .mem, .part, .lode, .xlat, .link, .cal, .pair] s (execRd h m s) := by simp [execRd]
theorem execRdVersion_goes (h : Hdr) (m : MemExt) (s : State) : Goes [.mem, .part, .lode, .link, .cal] s (execRdVersion h m s) := by simp [execRdVersion]
theorem execWr_goes (h : Hdr) (m : MemExt) (data : List Line) (s : State) : Goes [.hub, .cells, .mem, .part, .lode, .xlat, .link, .cal, .pair] s (execWr h m data s) := by simp [execWr]
theorem execLoadWindowWrite_goes (h : Hdr) (m : MemExt) (data : List Line) (s : State) : Goes [.hub, .cells, .mem, .part, .lode, .xlat, .link, .cal, .pair] s (execLoadWindowWrite h m data s) := by simp [execLoadWindowWrite]
theorem execAtom_goes (h : Hdr) (m : MemExt) (a b : BitVec 128) (s : State) : Goes [.cells, .mem, .part, .lode, .xlat, .link, .cal, .pair] s (execAtom h m a b s) := by simp [execAtom]
theorem execFence_goes (h : Hdr) (s : State) : Goes [.part, .link, .cal] s (execFence h s) := by simp [execFence]
theorem execFenceDone_goes (ep tag : Nat) (s : State) : Goes [.part, .link] s (execFenceDone ep tag s) := by simp [execFenceDone]
theorem execEpClaim_goes (port vc identity rsvd : Nat) (s : State) : Goes [.mbx, .part, .link, .pair, .pkg] s (execEpClaim port vc identity rsvd s) := by simp [execEpClaim]
theorem execEpRelease_goes (h : Hdr) (s : State) : Goes [.hub, .mbx, .part, .link, .pair] s (execEpRelease h s) := by simp [execEpRelease]
theorem execEpAssign_goes (port ep : Nat) (status : Status) (s : State) : Goes [.link] s (execEpAssign port ep status s) := by simp [execEpAssign]
theorem execTableSync_goes (q : Req) (p : SyncP) (hint : Nat) (s : State) : Goes [.hub, .mbx, .cells, .mem, .grans, .part, .xlat, .link, .cal, .pair, .pkg] s (execTableSync q p hint s) := by simp [execTableSync]
theorem execTableSyncSwitched_goes (deckle : Nat) (s : State) : Goes [.mbx, .cells, .mem, .grans, .part, .xlat, .link, .cal, .pair, .pkg] s (execTableSyncSwitched deckle s) := by simp [execTableSyncSwitched]
theorem execTableReadback_goes (q : Req) (p : ReadbackP) (s : State) : Goes [.hub, .mbx, .cells, .mem, .part, .link, .cal, .pair, .pkg] s (execTableReadback q p s) := by simp [execTableReadback]
theorem execBundleIssue_goes (core engine : Nat) (s : State) : Goes [.free, .part, .xlat, .eng, .cal] s (execBundleIssue core engine s) := by unfold execBundleIssue; dsimp only; (repeat' split) <;> simp
theorem execBarrierRelease_goes (work core : Nat) (gang : Bool) (s : State) : Goes [.eng] s (execBarrierRelease work core gang s) := by
  unfold execBarrierRelease; dsimp only
  (repeat' split) <;> simp (disch := try (intros; (repeat' split) <;> simp (disch := try simp (disch := try simp)) [within_foldl, within_foldl_fst])) [within_foldl, within_foldl_fst]
theorem execKernelLoad_goes (q : Req) (p : KernelP) (s : State) : Goes [.hub, .mbx, .cells, .mem, .part, .eng, .link, .cal, .pair, .pkg] s (execKernelLoad q p s) := by simp [execKernelLoad]
theorem execKernelUnload_goes (q : Req) (p : KernelP) (s : State) : Goes [.hub, .mbx, .cells, .mem, .part, .eng, .link, .cal, .pair, .pkg] s (execKernelUnload q p s) := by simp [execKernelUnload]
theorem execLaunch_goes (h : Hdr) (b : LaunchB) (s : State) : Goes [.mbx, .part, .eng, .link, .cal, .pair] s (execLaunch h b s) := by simp [execLaunch]
theorem execLaunchStart_goes (work : Nat) (s : State) : Goes [.eng] s (execLaunchStart work s) := by unfold execLaunchStart; split <;> simp
theorem execStreamTileLand_goes (core engine slot : Nat) (s : State) : Goes [.free, .mbx, .cells, .mem, .part, .xlat, .eng, .link, .cal, .pair] s (execStreamTileLand core engine slot s) := by
  unfold execStreamTileLand; dsimp only
  (repeat' split) <;> simp (disch := try (intros; (repeat' split) <;> simp (disch := try simp (disch := try simp)) [within_foldl, within_foldl_fst])) [within_foldl, within_foldl_fst]
theorem execStreamSlotComplete_goes (core engine slot : Nat) (s : State) : Goes [.eng] s (execStreamSlotComplete core engine slot s) := by unfold execStreamSlotComplete; dsimp only; (repeat' split) <;> simp
theorem execLaunchComplete_goes (work : Nat) (s : State) : Goes [.free, .mbx, .cells, .mem, .part, .xlat, .eng, .link, .cal, .pair, .pkg] s (execLaunchComplete work s) := by
  unfold execLaunchComplete; dsimp only
  (repeat' split) <;> simp (disch := try (intros; (repeat' split) <;> simp (disch := try simp (disch := try simp)) [within_foldl, within_foldl_fst])) [within_foldl, within_foldl_fst]
theorem execWorkTimeCap_goes (work : Nat) (s : State) : Goes [.now, .xlat, .eng, .laid] s (execWorkTimeCap work s) := by unfold execWorkTimeCap; (repeat' split) <;> simp
theorem execMapDefine_goes (q : Req) (p : MapP) (s : State) : Goes [.hub, .mbx, .cells, .mem, .part, .form, .link, .cal, .pair, .pkg] s (execMapDefine q p s) := by simp [execMapDefine]
theorem execMapReplace_goes (q : Req) (p : MapP) (s : State) : Goes [.hub, .mbx, .cells, .mem, .part, .form, .link, .cal, .pair, .pkg] s (execMapReplace q p s) := by simp [execMapReplace]
theorem execMapRetire_goes (q : Req) (p : MapRetireP) (s : State) : Goes [.hub, .mbx, .cells, .mem, .part, .form, .link, .cal, .pair, .pkg] s (execMapRetire q p s) := by simp [execMapRetire]
theorem execAdapterRegister_goes (q : Req) (p : AdapterP) (s : State) : Goes [.hub, .mbx, .cells, .mem, .part, .form, .link, .cal, .pair, .pkg] s (execAdapterRegister q p s) := by simp [execAdapterRegister]
theorem execAdapterUnregister_goes (q : Req) (p : AdapterP) (s : State) : Goes [.hub, .mbx, .cells, .mem, .part, .form, .link, .cal, .pair, .pkg] s (execAdapterUnregister q p s) := by simp [execAdapterUnregister]
theorem execAdapterPin_goes (q : Req) (p : AdapterP) (s : State) : Goes [.hub, .mbx, .cells, .mem, .part, .form, .link, .cal, .pair, .pkg] s (execAdapterPin q p s) := by simp [execAdapterPin]
theorem execAdapterUnpin_goes (q : Req) (p : AdapterP) (s : State) : Goes [.hub, .mbx, .cells, .mem, .part, .form, .link, .cal, .pair, .pkg] s (execAdapterUnpin q p s) := by simp [execAdapterUnpin]
theorem execAdapterPartLoadDone_goes (mapUid adapter layer tensor : Nat) (s : State) : Goes [.mbx, .cells, .mem, .part, .eng, .form, .couch, .link, .cal, .pair, .pkg] s (execAdapterPartLoadDone mapUid adapter layer tensor s) := by
  unfold execAdapterPartLoadDone
  rw [goes_next]
  refine State.unlessTripped_within _ _ (.refl _ _) ?_
  split
  · simp
  · next p _ =>
    extract_lets s0
    have h0 : Within [.mbx, .cells, .mem, .part, .eng, .form, .couch, .link, .cal, .pair, .pkg] s s0 := by simp [s0]
    have h1 := State.formRead_within s0 p.owner p.payer 0 (lineRun p.bPva (p.bBytes / 64) ++ lineRun p.aPva (p.aBytes / 64)) (by simp) h0
    split
    · simp
    · split
      · next s1 ls e1 =>
        extract_lets cache form s2
        have h2 : Within [.mbx, .cells, .mem, .part, .eng, .form, .couch, .link, .cal, .pair, .pkg] s s2 := (within_form _ (by simp)).mpr (.of_fst e1 h1)
        simp [h2]
      · next e1 => exact State.failPart_within _ _ _ (by simp) (.of_fst e1 h1)
      · next e1 => exact .of_fst e1 h1
theorem execRdf_goes (h : Hdr) (f : FormProg) (s : State) : Goes [.mbx, .part, .eng, .form, .link, .cal, .pair] s (execRdf h f s) := by simp [execRdf]
theorem execFormTileFormed_goes (work : Nat) (s : State) : Goes [.free, .mbx, .cells, .mem, .part, .eng, .form, .link, .cal, .pair, .pkg] s (execFormTileFormed work s) := by
  unfold execFormTileFormed
  rw [goes_next]
  refine State.unlessTripped_within _ _ (.refl _ _) ?_
  split
  · next x _ =>
    split
    · next tag f b _ =>
      split
      · simp
      · extract_lets s0
        have h0 : Within [.free, .mbx, .cells, .mem, .part, .eng, .form, .link, .cal, .pair, .pkg] s s0 := by
          unfold s0
          split <;> simp
        have h1 := State.formNext_within s0 x.deckle x.cls b f x.pos (by simp) h0
        split
        · simp
        · split
          · exact State.endRdf_within _ _ _ _ _ (by simp) h0
          · split
            · next e1 => exact .of_fst e1 h1
            · next e1 => exact State.endRdf_within _ _ _ _ _ (by simp) (.of_fst e1 h1)
            · next s1 bytes e1 =>
              dsimp only
              have h2 : ∀ n m, Within [.free, .mbx, .cells, .mem, .part, .eng, .form, .link, .cal, .pair, .pkg] s (s1.sendFormed x tag n m bytes) :=
                fun n m => (State.sendFormed_within _ _ _ _ _ _ (by simp)).mpr (.of_fst e1 h1)
              split
              · exact State.endRdf_within _ _ _ _ _ (by simp) ((State.modWork_within _ _ _ (by simp)).mpr (h2 _ _))
              · exact (State.modWork_within _ _ _ (by simp)).mpr (h2 _ _)
    · simp
  · simp
theorem execIndexDefine_goes (q : Req) (p : IndexP) (s : State) : Goes [.hub, .mbx, .cells, .mem, .part, .retr, .link, .cal, .pair, .pkg] s (execIndexDefine q p s) := by simp [execIndexDefine]
theorem execIndexReplace_goes (q : Req) (p : IndexP) (s : State) : Goes [.hub, .mbx, .cells, .mem, .part, .retr, .link, .cal, .pair, .pkg] s (execIndexReplace q p s) := by simp [execIndexReplace]
theorem execIndexRetire_goes (q : Req) (p : IndexP) (s : State) : Goes [.hub, .mbx, .cells, .mem, .part, .retr, .link, .cal, .pair, .pkg] s (execIndexRetire q p s) := by simp [execIndexRetire]
theorem execTopkQuery_goes (h : Hdr) (b : TopkB) (s : State) : Goes [.mbx, .part, .eng, .link, .cal, .pair] s (execTopkQuery h b s) := by simp [execTopkQuery]
theorem execTopkComplete_goes (work : Nat) (s : State) : Goes [.free, .mbx, .cells, .mem, .part, .xlat, .eng, .couch, .link, .cal, .pair, .pkg] s (execTopkComplete work s) := by
  unfold execTopkComplete
  rw [goes_next]
  refine State.unlessTripped_within _ _ (.refl _ _) ?_
  split
  · next x _ =>
    split
    · next t b r _ =>
      extract_lets stop
      have hstop : ∀ u, Within [.free, .mbx, .cells, .mem, .part, .xlat, .eng, .couch, .link, .cal, .pair, .pkg] s u → Within [.free, .mbx, .cells, .mem, .part, .xlat, .eng, .couch, .link, .cal, .pair, .pkg] s (stop u) := fun u h => by
        unfold stop
        (repeat' split) <;> simp [h]
      have h1 : Within [.free, .mbx, .cells, .mem, .part, .xlat, .eng, .couch, .link, .cal, .pair, .pkg] s (s.runTopk x t b r).1 := by simp
      split
      · exact hstop _ (.refl _ _)
      · split
        · simp
        · split
          · next s1 sc n e1 =>
            extract_lets s0
            have h2 : Within [.free, .mbx, .cells, .mem, .part, .xlat, .eng, .couch, .link, .cal, .pair, .pkg] s s0 := (State.chargeScores_within _ _ _ _ (by simp)).mpr
              ((State.chargeScores_within _ _ _ _ (by simp)).mpr (.of_fst e1 h1))
            have h3 := State.putOut_within s0 work x t.outPva t.outAddr (topkOut t b sc) (by simp) h2
            split
            · next e2 => exact State.endTopk_within _ _ _ _ _ (by simp) (.of_fst e2 h3)
            · next e2 => exact hstop _ (.of_fst e2 h3)
          · exact hstop _ (by simp)
          · next e1 => exact hstop _ ((State.stopWork_within _ _ _ _ (by simp)).mpr (.of_fst e1 h1))
          · next e1 => exact .of_fst e1 h1
    · simp
  · simp
theorem execAttnPoolSet_goes (q : Req) (p : PoolSetP) (hint : Nat) (s : State) : Goes [.hub, .mbx, .cells, .mem, .grans, .part, .eng, .link, .cal, .pair, .pkg] s (execAttnPoolSet q p hint s) := by simp [execAttnPoolSet]
theorem execAttnOpen_goes (h : Hdr) (b : AttnOpenB) (s : State) : Goes [.free, .mbx, .cells, .mem, .grans, .part, .eng, .attn, .link, .cal, .pair, .pkg] s (execAttnOpen h b s) := by simp [execAttnOpen]
theorem execAttnAppend_goes (h : Hdr) (b : AttnAppendB) (s : State) : Goes [.free, .mbx, .cells, .mem, .grans, .part, .eng, .attn, .link, .cal, .pair, .pkg] s (execAttnAppend h b s) := by simp [execAttnAppend]
theorem execAttnStep_goes (h : Hdr) (b : AttnStepB) (s : State) : Goes [.free, .mbx, .cells, .mem, .grans, .part, .eng, .attn, .link, .cal, .pair, .pkg] s (execAttnStep h b s) := by simp [execAttnStep]
theorem execAttnClose_goes (h : Hdr) (b : AttnCloseB) (s : State) : Goes [.free, .mbx, .cells, .mem, .grans, .part, .eng, .attn, .link, .cal, .pair, .pkg] s (execAttnClose h b s) := by simp [execAttnClose]
theorem execAttnTruncate_goes (h : Hdr) (b : AttnCloseB) (s : State) : Goes [.free, .mbx, .cells, .mem, .grans, .part, .eng, .attn, .link, .cal, .pair, .pkg] s (execAttnTruncate h b s) := by simp [execAttnTruncate]
theorem execAttnQuery_goes (h : Hdr) (b : AttnCloseB) (s : State) : Goes [.free, .mbx, .cells, .mem, .grans, .part, .eng, .attn, .link, .cal, .pair, .pkg] s (execAttnQuery h b s) := by simp [execAttnQuery]
theorem execAttnAppendDone_goes (work : Nat) (s : State) : Goes [.free, .mbx, .cells, .mem, .grans, .part, .xlat, .eng, .attn, .link, .cal, .pair, .pkg] s (execAttnAppendDone work s) := by
  unfold execAttnAppendDone
  rw [goes_next]
  refine State.unlessTripped_within _ _ (.refl _ _) ?_
  split
  · next x _ =>
    split
    · next b _ =>
      extract_lets tiles stop
      have hend : ∀ old u w y st d q n a v, Within [.free, .mbx, .cells, .mem, .grans, .part, .xlat, .eng, .attn, .link, .cal, .pair, .pkg] s u → Within [.free, .mbx, .cells, .mem, .grans, .part, .xlat, .eng, .attn, .link, .cal, .pair, .pkg] s (State.endAttn old u w y st d q n a v).pumpAttn :=
        fun old u w y st d q n a v h => State.pumpAttn_within _ (by simp) (State.endAttn_within _ _ _ _ _ _ _ _ _ _ (by simp) h)
      have hstop : ∀ u, Within [.free, .mbx, .cells, .mem, .grans, .part, .xlat, .eng, .attn, .link, .cal, .pair, .pkg] s u → Within [.free, .mbx, .cells, .mem, .grans, .part, .xlat, .eng, .attn, .link, .cal, .pair, .pkg] s (stop u) := fun u h => by
        unfold stop
        split
        · split
          · exact hend _ _ _ _ _ _ _ _ _ _ h
          · exact h
        · exact h
      split
      · exact hstop _ (.refl _ _)
      · split
        · simp
        · split
          · exact hend _ _ _ _ _ _ _ _ _ _ (.refl _ _)
          · simp
          · next c _ _ =>
            have h1 : Within [.free, .mbx, .cells, .mem, .grans, .part, .xlat, .eng, .attn, .link, .cal, .pair, .pkg] s ((s.touchCtx b.seq).runAppend x c b).1 := by simp
            split
            · next s1 m e1 =>
              extract_lets s2
              have h2 : Within [.free, .mbx, .cells, .mem, .grans, .part, .xlat, .eng, .attn, .link, .cal, .pair, .pkg] s s2 := (within_free _ (by simp)).mpr (.of_fst e1 h1)
              exact hend _ _ _ _ _ _ _ _ _ _ ((State.modSeq_within _ _ _ (by simp)).mpr h2)
            · next e1 => exact hstop _ ((State.stopWork_within _ _ _ _ (by simp)).mpr (.of_fst e1 h1))
            · exact hstop _ (by simp)
            · next e1 => exact .of_fst e1 h1
    · simp
  · simp
theorem execAttnStepComplete_goes (work : Nat) (s : State) : Goes [.free, .mbx, .cells, .mem, .grans, .part, .xlat, .eng, .attn, .couch, .link, .cal, .pair, .pkg] s (execAttnStepComplete work s) := by
  unfold execAttnStepComplete
  rw [goes_next]
  refine State.unlessTripped_within _ _ (.refl _ _) ?_
  split
  · next x _ =>
    split
    · next b _ =>
      extract_lets t vs stop
      have hend : ∀ old u w y st d q n a v, Within [.free, .mbx, .cells, .mem, .grans, .part, .xlat, .eng, .attn, .couch, .link, .cal, .pair, .pkg] s u → Within [.free, .mbx, .cells, .mem, .grans, .part, .xlat, .eng, .attn, .couch, .link, .cal, .pair, .pkg] s (State.endAttn old u w y st d q n a v).pumpAttn :=
        fun old u w y st d q n a v h => State.pumpAttn_within _ (by simp) (State.endAttn_within _ _ _ _ _ _ _ _ _ _ (by simp) h)
      have hstop : ∀ u, Within [.free, .mbx, .cells, .mem, .grans, .part, .xlat, .eng, .attn, .couch, .link, .cal, .pair, .pkg] s u → Within [.free, .mbx, .cells, .mem, .grans, .part, .xlat, .eng, .attn, .couch, .link, .cal, .pair, .pkg] s (stop u) := fun u h => by
        unfold stop
        split
        · split
          · exact hend _ _ _ _ _ _ _ _ _ _ h
          · exact h
        · exact h
      split
      · exact hstop _ (.refl _ _)
      · split
        · simp
        · split
          · exact hend _ _ _ _ _ _ _ _ _ _ (.refl _ _)
          · simp
          · next c _ _ =>
            have h1 : Within [.free, .mbx, .cells, .mem, .grans, .part, .xlat, .eng, .attn, .couch, .link, .cal, .pair, .pkg] s ((s.touchCtx b.seq).runStep x c b).1 := by simp
            split
            · next s1 area e1 =>
              have h2 := State.putOut_within s1 work x b.outPva b.outAddr area (by simp) (.of_fst e1 h1)
              split
              · next s2 m e2 =>
                extract_lets n s3
                have h3 : Within [.free, .mbx, .cells, .mem, .grans, .part, .xlat, .eng, .attn, .couch, .link, .cal, .pair, .pkg] s s3 := (within_free _ (by simp)).mpr (.of_fst e2 h2)
                exact hend _ _ _ _ _ _ _ _ _ _ h3
              · next e2 => exact hstop _ (.of_fst e2 h2)
            · next e1 => exact hstop _ ((State.stopWork_within _ _ _ _ (by simp)).mpr (.of_fst e1 h1))
            · exact hstop _ (by simp)
            · next e1 => exact .of_fst e1 h1
    · simp
  · simp
theorem execCouchSubmit_goes (h : Hdr) (b : CouchB) (s : State) : Goes [.mbx, .part, .couch, .link, .cal, .pair] s (execCouchSubmit h b s) := by simp [execCouchSubmit]
theorem execCouchAbort_goes (h : Hdr) (b : CouchB) (s : State) : Goes [.free, .mbx, .cells, .mem, .part, .xlat, .eng, .couch, .link, .cal, .pair, .pkg] s (execCouchAbort h b s) := by
  unfold execCouchAbort; dsimp only
  (repeat' split) <;> simp (disch := try (intros; (repeat' split) <;> simp (disch := try simp (disch := try simp)) [within_foldl, within_foldl_fst])) [within_foldl, within_foldl_fst]
theorem execCouchChainStart_goes (core channel : Nat) (s : State) : Goes [.free, .couch] s (execCouchChainStart core channel s) := by unfold execCouchChainStart; dsimp only; (repeat' split) <;> simp
theorem execCouchDescStart_goes (core channel : Nat) (s : State) : Goes [.free, .mbx, .cells, .mem, .part, .xlat, .eng, .form, .couch, .link, .cal, .pair, .pkg] s (execCouchDescStart core channel s) := by
  unfold execCouchDescStart
  rw [goes_next]
  split
  · next k _ =>
    have h1 : Within [.free, .mbx, .cells, .mem, .part, .xlat, .eng, .form, .couch, .link, .cal, .pair, .pkg] s (s.readBytes k.deckle k.next 128).1 := by simp
    split
    · simp
    · split
      · simp
      · split
        · simp
        · split
          · next e1 => exact State.startDesc_within _ _ _ _ _ _ (by simp) (.of_fst e1 h1)
          · next e1 =>
            exact (State.endChain_within _ _ _ _ _ _ (by simp)).mpr ((State.modChain_within _ _ _ _ (by simp)).mpr (.of_fst e1 h1))
  · simp
theorem execCouchTileDone_goes (core channel tile : Nat) (s : State) : Goes [.free, .mbx, .cells, .mem, .part, .xlat, .eng, .form, .couch, .link, .cal, .pair, .pkg] s (execCouchTileDone core channel tile s) := by
  unfold execCouchTileDone; dsimp only
  (repeat' split) <;> simp (disch := try (intros; (repeat' split) <;> simp (disch := try simp (disch := try simp)) [within_foldl, within_foldl_fst])) [within_foldl, within_foldl_fst]
theorem execCouchTileTimeout_goes (core channel tile : Nat) (s : State) : Goes [.now, .free, .mbx, .cells, .mem, .part, .xlat, .eng, .form, .couch, .link, .cal, .laid, .pair, .pkg] s (execCouchTileTimeout core channel tile s) := by
  unfold execCouchTileTimeout; dsimp only
  (repeat' split) <;> simp (disch := try (intros; (repeat' split) <;> simp (disch := try simp (disch := try simp)) [within_foldl, within_foldl_fst])) [within_foldl, within_foldl_fst]
theorem execCouchRetry_goes (core channel : Nat) (s : State) : Goes [.now, .free, .mbx, .cells, .mem, .part, .xlat, .eng, .form, .couch, .link, .cal, .laid, .pair, .pkg] s (execCouchRetry core channel s) := by unfold execCouchRetry; split <;> simp
theorem execRsp_goes (h : Hdr) (status : Status) (last : Bool) (data : List Line) (s : State) : Goes [.free, .mbx, .cells, .mem, .part, .xlat, .eng, .form, .couch, .link, .cal, .pair, .pkg] s (execRsp h status last data s) := by unfold execRsp; dsimp only; (repeat' split) <;> simp
theorem execTranslationWalkDone_goes (core unit slot : Nat) (couch : Bool) (s : State) : Goes [.free, .mbx, .cells, .mem, .part, .xlat, .eng, .form, .couch, .link, .cal, .pair, .pkg] s (execTranslationWalkDone core unit slot couch s) := by simp [execTranslationWalkDone]
theorem execFaultResume_goes (q : Req) (p : FaultP) (s : State) : Goes [.free, .hub, .mbx, .cells, .mem, .part, .xlat, .eng, .form, .couch, .link, .cal, .pair, .pkg] s (execFaultResume q p s) := by simp [execFaultResume]
theorem execFaultAbort_goes (q : Req) (p : FaultP) (s : State) : Goes [.free, .hub, .mbx, .cells, .mem, .part, .xlat, .eng, .form, .couch, .link, .cal, .pair, .pkg] s (execFaultAbort q p s) := by simp [execFaultAbort]
theorem execFaultAutoAbort_goes (fault : Nat) (s : State) : Goes [.now, .free, .mbx, .cells, .mem, .part, .xlat, .eng, .form, .couch, .link, .cal, .laid, .pair, .pkg] s (execFaultAutoAbort fault s) := by unfold execFaultAutoAbort; split <;> simp
end Sys2Proof.Machine
end

section
namespace Sys2Proof.Machine
variable {Z : List Spot} {s₀ : State}
theorem execWorkCancel_goes (h : Hdr) (b : CancelB) (s : State) : Goes [.free, .mbx, .cells, .mem, .grans, .part, .xlat, .eng, .attn, .form, .couch, .link, .cal, .pair, .pkg] s (execWorkCancel h b s) := by
  unfold execWorkCancel; dsimp only
  (repeat' split) <;> simp (disch := try (intros; (repeat' split) <;> simp (disch := try simp (disch := try simp)) [within_foldl, within_foldl_fst])) [within_foldl, within_foldl_fst]
theorem execBootImageVerified_goes (s : State) : Goes [.hub, .mbx, .cells, .mem, .part, .link, .cal, .pair, .sec, .pkg] s (execBootImageVerified s) := by unfold execBootImageVerified; dsimp only; (repeat' split) <;> simp
theorem execBootFwActivate_goes (q : Req) (p : FwP) (s : State) : Goes [.hub, .mbx, .cells, .mem, .part, .link, .cal, .pair, .sec, .pkg] s (execBootFwActivate q p s) := by simp [execBootFwActivate]
theorem execFwActivate_goes (q : Req) (p : FwP) (s : State) : Goes [.hub, .mbx, .cells, .mem, .part, .link, .cal, .pair, .sec, .pkg] s (execFwActivate q p s) := by simp [execFwActivate]
theorem execFwActivateCancel_goes (q : Req) (p : FwP) (s : State) : Goes [.hub, .mbx, .cells, .mem, .part, .link, .cal, .pair, .sec, .pkg] s (execFwActivateCancel q p s) := by simp [execFwActivateCancel]
theorem execFwStage_goes (q : Req) (p : FwP) (s : State) : Goes [.hub, .mbx, .cells, .mem, .part, .link, .cal, .pair, .pkg] s (execFwStage q p s) := by simp [execFwStage]
theorem execFwStatus_goes (q : Req) (s : State) : Goes [.hub, .mbx, .cells, .mem, .part, .link, .cal, .pair, .pkg] s (execFwStatus q s) := by simp [execFwStatus]
theorem execFwSwitchPoint_goes (s : State) : Goes [.hub, .mbx, .cells, .mem, .part, .link, .cal, .pair, .pkg] s (execFwSwitchPoint s) := by unfold execFwSwitchPoint; split <;> simp
theorem execFwActivateTimeout_goes (s : State) : Goes [.now, .hub, .mbx, .cells, .mem, .part, .link, .cal, .laid, .pair, .pkg] s (execFwActivateTimeout s) := by unfold execFwActivateTimeout; split <;> simp
theorem execDeviceQuery_goes (q : Req) (s : State) : Goes [.hub, .mbx, .cells, .mem, .part, .link, .cal, .pair, .pkg] s (execDeviceQuery q s) := by simp [execDeviceQuery]
theorem execDeviceConfigureProfile_goes (q : Req) (p : DevCfgP) (s : State) : Goes [.free, .hub, .mbx, .cells, .mem, .part, .link, .cal, .pair, .pkg] s (execDeviceConfigureProfile q p s) := by simp [execDeviceConfigureProfile]
theorem execDeviceConfigureWedge_goes (q : Req) (p : DevCfgP) (s : State) : Goes [.free, .hub, .mbx, .cells, .mem, .part, .link, .cal, .pair, .pkg] s (execDeviceConfigureWedge q p s) := by simp [execDeviceConfigureWedge]
theorem execDriverAttachAttestOnly_goes (q : Req) (p : AttachP) (s : State) : Goes [.hub, .mbx, .cells, .mem, .part, .link, .cal, .pair, .pkg] s (execDriverAttachAttestOnly q p s) := by simp [execDriverAttachAttestOnly]
theorem execDriverAttachAdopt_goes (q : Req) (p : AttachP) (s : State) : Goes [.hub, .mbx, .cells, .mem, .part, .link, .cal, .pair, .pkg] s (execDriverAttachAdopt q p s) := by simp [execDriverAttachAdopt]
theorem execDriverDetach_goes (q : Req) (s : State) : Goes [.hub, .mbx, .cells, .mem, .part, .link, .cal, .pair, .pkg] s (execDriverDetach q s) := by simp [execDriverDetach]
theorem execDriverLeaseLapse_goes (s : State) : Goes [.now, .hub, .mbx, .link, .laid] s (execDriverLeaseLapse s) := by simp [execDriverLeaseLapse]
theorem execHubWedge_goes (s : State) : Goes [.hub, .mbx, .cells, .mem, .part, .link, .cal, .pair, .sec, .pkg] s (execHubWedge s) := by simp [execHubWedge]
theorem execWedgeDumpDone_goes (s : State) : Goes [.free, .hub, .mbx, .link, .pkg] s (execWedgeDumpDone s) := by unfold execWedgeDumpDone; (repeat' split) <;> simp
theorem execWedgeRestart_goes (s : State) : Goes [.now, .hub, .laid, .pkg] s (execWedgeRestart s) := by unfold execWedgeRestart; split <;> simp
theorem execHubRestartDone_goes (s : State) : Goes [.hub, .mbx, .cells, .mem, .part, .xlat, .link, .cal, .pair, .pkg] s (execHubRestartDone s) := by
  unfold execHubRestartDone; dsimp only
  (repeat' split) <;> simp (disch := try (intros; (repeat' split) <;> simp (disch := try simp (disch := try simp)) [within_foldl, within_foldl_fst])) [within_foldl, within_foldl_fst]
theorem execBrStatus_goes (q : Req) (s : State) : Goes [.mbx, .cells, .mem, .part, .link, .cal, .pair, .pkg] s (execBrStatus q s) := by simp [execBrStatus]
theorem execBrDump_goes (q : Req) (p : BrP) (s : State) : Goes [.free, .hub, .mbx, .cells, .mem, .part, .link, .cal, .pair, .pkg] s (execBrDump q p s) := by simp [execBrDump]
theorem execBrDumpRead_goes (q : Req) (p : BrP) (s : State) : Goes [.mbx, .cells, .mem, .part, .link, .cal, .pair, .pkg] s (execBrDumpRead q p s) := by simp [execBrDumpRead]
theorem execBrDumpClear_goes (q : Req) (p : BrP) (s : State) : Goes [.hub, .mbx, .cells, .mem, .part, .link, .cal, .pair, .pkg] s (execBrDumpClear q p s) := by simp [execBrDumpClear]
theorem execBrZeroise_goes (q : Req) (p : BrP) (s : State) : Goes [.hub, .mbx, .cells, .mem, .part, .link, .cal, .pair, .sec, .pkg] s (execBrZeroise q p s) := by simp [execBrZeroise]
theorem execBrResetHub_goes (q : Req) (p : BrP) (s : State) : Goes [.hub, .mbx, .cells, .mem, .part, .link, .cal, .pair, .pkg] s (execBrResetHub q p s) := by simp [execBrResetHub]
theorem execDriverAttachReset_goes (q : Req) (p : AttachP) (s : State) : Goes [.hub, .mbx, .cells, .mem, .grans, .part, .rgn, .lode, .xlat, .eng, .attn, .form, .retr, .couch, .link, .cal, .laid, .pair, .sec, .pkg] s (execDriverAttachReset q p s) := by unfold execDriverAttachReset; dsimp only; (repeat' split) <;> simp
theorem execBrResetDevice_goes (q : Req) (p : BrP) (s : State) : Goes [.hub, .mbx, .cells, .mem, .grans, .part, .rgn, .lode, .xlat, .eng, .attn, .form, .retr, .couch, .link, .cal, .laid, .pair, .sec, .pkg] s (execBrResetDevice q p s) := by
  unfold execBrResetDevice; dsimp only
  (repeat' split) <;> simp (disch := try (intros; (repeat' split) <;> simp (disch := try simp (disch := try simp)) [within_foldl, within_foldl_fst])) [within_foldl, within_foldl_fst]
theorem execScrub_goes (q : Req) (p : ScrubP) (s : State) : Goes [.hub, .mbx, .cells, .mem, .part, .link, .cal, .pair, .pkg] s (execScrub q p s) := by simp [execScrub]
theorem execScrubDone_goes (scrub : Nat) (s : State) : Goes [.mbx, .cells, .mem, .part, .link, .cal, .pair, .pkg] s (execScrubDone scrub s) := by
  unfold execScrubDone; dsimp only
  (repeat' split) <;> simp (disch := try (intros; (repeat' split) <;> simp (disch := try simp (disch := try simp)) [within_foldl, within_foldl_fst])) [within_foldl, within_foldl_fst]
theorem execInject_goes (q : Req) (p : InjectP) (s : State) : Goes [.hub, .mbx, .cells, .mem, .part, .link, .cal, .pair, .pkg] s (execInject q p s) := by simp [execInject]
theorem execInjectCancel_goes (q : Req) (p : InjectP) (s : State) : Goes [.hub, .mbx, .cells, .mem, .part, .link, .cal, .pair, .pkg] s (execInjectCancel q p s) := by simp [execInjectCancel]
theorem execCeConfigSet_goes (q : Req) (p : CeP) (s : State) : Goes [.hub, .mbx, .cells, .mem, .part, .link, .cal, .pair, .pkg] s (execCeConfigSet q p s) := by simp [execCeConfigSet]
theorem execCeConfigFailOut_goes (q : Req) (p : CeP) (s : State) : Goes [.hub, .mbx, .cells, .mem, .part, .link, .cal, .pair, .pkg] s (execCeConfigFailOut q p s) := by simp [execCeConfigFailOut]
theorem execCeBucketLeak_goes (group unit : Nat) (s : State) : Goes [.mem] s (execCeBucketLeak group unit s) := by simp [execCeBucketLeak]
theorem execStackTrainingLost_goes (group unit : Nat) (s : State) : Goes [.mem] s (execStackTrainingLost group unit s) := by simp [execStackTrainingLost]
theorem execRebuildStatus_goes (q : Req) (s : State) : Goes [.hub, .mbx, .cells, .mem, .part, .link, .cal, .pair, .pkg] s (execRebuildStatus q s) := by simp [execRebuildStatus]
theorem execRebuildDone_goes (group : Nat) (s : State) : Goes [.cells, .mem] s (execRebuildDone group s) := by
  unfold execRebuildDone; dsimp only
  (repeat' split) <;> simp (disch := try (intros; (repeat' split) <;> simp (disch := try simp (disch := try simp)) [within_foldl, within_foldl_fst])) [within_foldl, within_foldl_fst]
theorem execSealDone_goes (group : Nat) (s : State) : Goes [.mem] s (execSealDone group s) := by simp [execSealDone]
theorem execPoisonList_goes (q : Req) (p : PoisonP) (s : State) : Goes [.hub, .mbx, .cells, .mem, .part, .link, .cal, .pair, .pkg] s (execPoisonList q p s) := by simp [execPoisonList]
theorem execIntegrityLogDrain_goes (s : State) : Goes [.mbx, .mem, .link] s (execIntegrityLogDrain s) := by simp [execIntegrityLogDrain]
theorem execAttest_goes (q : Req) (p : AttestP) (s : State) : Goes [.hub, .mbx, .cells, .mem, .part, .link, .cal, .pair, .pkg] s (execAttest q p s) := by simp [execAttest]
theorem execKeyRotateDeckleKey_goes (q : Req) (p : KeyP) (s : State) : Goes [.hub, .mbx, .cells, .mem, .part, .link, .cal, .pair, .sec, .pkg] s (execKeyRotateDeckleKey q p s) := by simp [execKeyRotateDeckleKey]
theorem execKeySweepDone_goes (deckle : Nat) (s : State) : Goes [.free, .mbx, .cells, .mem, .grans, .part, .link, .cal, .pair, .sec] s (execKeySweepDone deckle s) := by
  unfold execKeySweepDone; dsimp only
  (repeat' split) <;> simp (disch := try (intros; (repeat' split) <;> simp (disch := try simp (disch := try simp)) [within_foldl, within_foldl_fst])) [within_foldl, within_foldl_fst]
theorem execLinkRekey_goes (q : Req) (p : KeyP) (s : State) : Goes [.free, .hub, .mbx, .cells, .mem, .part, .link, .cal, .pair, .pkg] s (execLinkRekey q p s) := by simp [execLinkRekey]
theorem execTrustAdd_goes (q : Req) (p : KeyP) (s : State) : Goes [.hub, .mbx, .cells, .mem, .part, .link, .cal, .pair, .pkg] s (execTrustAdd q p s) := by simp [execTrustAdd]
theorem execTrustRemove_goes (q : Req) (p : KeyP) (s : State) : Goes [.hub, .mbx, .cells, .mem, .part, .link, .cal, .pair, .pkg] s (execTrustRemove q p s) := by simp [execTrustRemove]
theorem execTrustPolicy_goes (q : Req) (p : KeyP) (s : State) : Goes [.hub, .mbx, .cells, .mem, .part, .link, .cal, .pair, .pkg] s (execTrustPolicy q p s) := by simp [execTrustPolicy]
theorem execOperatorKernelKey_goes (q : Req) (p : KeyP) (s : State) : Goes [.hub, .mbx, .cells, .mem, .part, .link, .cal, .pair, .sec, .pkg] s (execOperatorKernelKey q p s) := by simp [execOperatorKernelKey]
theorem execRaiseSec_goes (q : Req) (p : KeyP) (s : State) : Goes [.board, .hub, .mbx, .cells, .mem, .part, .link, .cal, .pair, .pkg] s (execRaiseSec q p s) := by simp [execRaiseSec]
theorem execDebugOpen_goes (q : Req) (p : DebugP) (s : State) : Goes [.hub, .mbx, .cells, .mem, .part, .link, .cal, .pair, .sec, .pkg] s (execDebugOpen q p s) := by simp [execDebugOpen]
theorem execDebugRead_goes (q : Req) (p : DebugP) (s : State) : Goes [.free, .hub, .mbx, .cells, .mem, .part, .link, .cal, .pair, .pkg] s (execDebugRead q p s) := by simp [execDebugRead]
theorem execDebugClose_goes (q : Req) (s : State) : Goes [.hub, .mbx, .cells, .mem, .part, .link, .cal, .pair, .sec, .pkg] s (execDebugClose q s) := by simp [execDebugClose]
theorem execDebugSessionTimeout_goes (s : State) : Goes [.now, .laid, .sec] s (execDebugSessionTimeout s) := by unfold execDebugSessionTimeout; split <;> simp
theorem execDeckleDissolve_goes (q : Req) (p : DeckleP) (s : State) : Goes [.free, .hub, .mbx, .cells, .mem, .grans, .part, .rgn, .lode, .xlat, .eng, .attn, .form, .retr, .couch, .link, .cal, .pair, .pkg] s (execDeckleDissolve q p s) := by simp [execDeckleDissolve]
theorem execDissolveComplete_goes (deckle : Nat) (s : State) : Goes [.mbx, .cells, .mem, .grans, .part, .lode, .xlat, .eng, .link, .cal, .pair, .sec, .pkg] s (execDissolveComplete deckle s) := by
  unfold execDissolveComplete
  rw [goes_next]
  split
  · next k _ =>
    split
    · split
      · simp
      · extract_lets s1 s2 late s3 res s4 part lode mbx eng s5
        have h1 : Within [.mbx, .cells, .mem, .grans, .part, .lode, .xlat, .eng, .link, .cal, .pair, .sec, .pkg] s s1 := within_foldl _ _ (fun a r => by simp) (.refl _ _)
        have h2 : Within [.mbx, .cells, .mem, .grans, .part, .lode, .xlat, .eng, .link, .cal, .pair, .sec, .pkg] s s2 := by simp [s2, h1]
        have h3 : Within [.mbx, .cells, .mem, .grans, .part, .lode, .xlat, .eng, .link, .cal, .pair, .sec, .pkg] s s3 := within_foldl _ _ (fun a r => by simp) h2
        have h4 : Within [.mbx, .cells, .mem, .grans, .part, .lode, .xlat, .eng, .link, .cal, .pair, .sec, .pkg] s s4 := by simp [s4, h3]
        have h5 : Within [.mbx, .cells, .mem, .grans, .part, .lode, .xlat, .eng, .link, .cal, .pair, .sec, .pkg] s s5 := (within_part_lode_mbx_eng _ _ _ _ (by rfl) (by simp)).mpr h4
        exact State.settle_within _ _ _ _ (by simp) ((State.dropTlb_within _ _ (by simp)).mpr h5)
    · simp
  · simp
theorem execColdReset_goes (pgAonLost : Bool) (s : State) : Goes [.hub, .mbx, .cells, .mem, .grans, .part, .rgn, .lode, .xlat, .eng, .attn, .form, .retr, .couch, .link, .cal, .laid, .pair, .sec, .pkg] s (execColdReset pgAonLost s) := by simp [execColdReset]
theorem execColdResetRelease_goes (s : State) : Goes [.pkg] s (execColdResetRelease s) := by simp [execColdResetRelease]
theorem execWarmReset_goes (s : State) : Goes [.hub, .mbx, .cells, .mem, .grans, .part, .rgn, .lode, .xlat, .eng, .attn, .form, .retr, .couch, .link, .cal, .laid, .pair, .sec, .pkg] s (execWarmReset s) := by simp [execWarmReset]
theorem execWarmResetRelease_goes (s : State) : Goes [.pkg] s (execWarmResetRelease s) := by simp [execWarmResetRelease]
theorem execThermalTrip_goes (sensor value : Nat) (s : State) : Goes [.hub, .mbx, .link, .sec, .pkg] s (execThermalTrip sensor value s) := by simp [execThermalTrip]
theorem execSupplyTrip_goes (cause rail value : Nat) (s : State) : Goes [.hub, .mbx, .link, .sec, .pkg] s (execSupplyTrip cause rail value s) := by simp [execSupplyTrip]
theorem execPllLock_goes (s : State) : Goes [.laid, .pkg] s (execPllLock s) := by simp [execPllLock]
theorem execStagingReady_goes (s : State) : Goes [.hub, .mbx, .link, .pkg] s (execStagingReady s) := by simp [execStagingReady]
theorem execBedrockReady_goes (s : State) : Goes [.hub, .mbx, .link, .pkg] s (execBedrockReady s) := by simp [execBedrockReady]
theorem execHubReady_goes (s : State) : Goes [.hub, .mbx, .link, .pkg] s (execHubReady s) := by simp [execHubReady]
theorem execSecurityReady_goes (s : State) : Goes [.free, .hub, .mbx, .part, .link, .pair, .sec, .pkg] s (execSecurityReady s) := by simp [execSecurityReady]
theorem execCoreReady_goes (core : Nat) (s : State) : Goes [.mbx, .eng, .link, .pkg] s (execCoreReady core s) := by simp [execCoreReady]
theorem execTier1Ready_goes (untrained : List Nat) (s : State) : Goes [.mbx, .mem, .link, .pkg] s (execTier1Ready untrained s) := by simp [execTier1Ready]
theorem execFarDieReady_goes (die : Nat) (untrained : List Nat) (s : State) : Goes [.mbx, .mem, .link, .pkg] s (execFarDieReady die untrained s) := by simp [execFarDieReady]
theorem execI3cPrivateRead_goes (s : State) : Goes [.mbx, .pkg] s (execI3cPrivateRead s) := by unfold execI3cPrivateRead; split <;> simp
theorem execSetdasa_goes (addr : Nat) (s : State) : Goes [.pkg] s (execSetdasa addr s) := by simp [execSetdasa]
theorem execTapReset_goes (s : State) : Goes [.pkg] s (execTapReset s) := by simp [execTapReset]
theorem execIdcode_goes (s : State) : Goes [.pkg] s (execIdcode s) := by simp [execIdcode]
theorem execBypass_goes (s : State) : Goes [.pkg] s (execBypass s) := by simp [execBypass]
theorem execExtest_goes (s : State) : Goes [.free, .pkg] s (execExtest s) := by simp [execExtest]
theorem execSamplePreload_goes (shiftIn : Nat) (s : State) : Goes [.free, .pkg] s (execSamplePreload shiftIn s) := by simp [execSamplePreload]
theorem execClamp_goes (s : State) : Goes [.pkg] s (execClamp s) := by simp [execClamp]
theorem execHighz_goes (s : State) : Goes [.pkg] s (execHighz s) := by simp [execHighz]
theorem execDbgOpen_goes (timeoutMs : Nat) (s : State) : Goes [.mbx, .link, .sec, .pkg] s (execDbgOpen timeoutMs s) := by simp [execDbgOpen]
theorem execDbgClose_goes (s : State) : Goes [.sec, .pkg] s (execDbgClose s) := by simp [execDbgClose]
theorem execDbgMbx_goes (c : Instr) (s : State) : Goes [.pkg] s (execDbgMbx c s) := by simp [execDbgMbx]
theorem execVsetAck_goes (die : Nat) (s : State) : Goes [.eng, .pkg] s (execVsetAck die s) := by
  unfold execVsetAck; dsimp only
  (repeat' split) <;> simp (disch := try (intros; (repeat' split) <;> simp (disch := try simp (disch := try simp)) [within_foldl, within_foldl_fst])) [within_foldl, within_foldl_fst]
theorem execQueueMapMap_goes (q : Req) (p : QueueMapP) (s : State) : Goes [.hub, .mbx, .cells, .mem, .part, .link, .cal, .pair, .pkg] s (execQueueMapMap q p s) := by simp [execQueueMapMap]
theorem execQueueMapWeight_goes (q : Req) (p : QueueMapP) (s : State) : Goes [.hub, .mbx, .cells, .mem, .part, .link, .cal, .pair, .pkg] s (execQueueMapWeight q p s) := by simp [execQueueMapWeight]
theorem execShaperSet_goes (q : Req) (p : BucketP) (s : State) : Goes [.hub, .mbx, .cells, .mem, .part, .link, .cal, .pair, .pkg] s (execShaperSet q p s) := by simp [execShaperSet]
theorem execPolicerSet_goes (q : Req) (p : BucketP) (s : State) : Goes [.hub, .mbx, .cells, .mem, .part, .link, .cal, .pair, .pkg] s (execPolicerSet q p s) := by simp [execPolicerSet]
theorem execEnergyQueueRelease_goes (deckle : Nat) (s : State) : Goes [.free, .mbx, .cells, .mem, .grans, .part, .eng, .attn, .link, .cal, .pair, .pkg] s (execEnergyQueueRelease deckle s) := by unfold execEnergyQueueRelease; dsimp only; (repeat' split) <;> simp
theorem execEnergySet_goes (q : Req) (p : EnergyP) (s : State) : Goes [.free, .hub, .mbx, .cells, .mem, .grans, .part, .eng, .attn, .link, .cal, .pair, .pkg] s (execEnergySet q p s) := by simp [execEnergySet]
theorem execEnergyRead_goes (q : Req) (p : EnergyReadP) (s : State) : Goes [.hub, .mbx, .cells, .mem, .part, .link, .cal, .pair, .pkg] s (execEnergyRead q p s) := by simp [execEnergyRead]
theorem execLedgerTick_goes (measuredNj staticNj : Nat) (s : State) : Goes [.now, .part, .cal, .laid] s (execLedgerTick measuredNj staticNj s) := by
  unfold execLedgerTick
  rw [goes_next]
  split
  · simp
  · extract_lets s0 total rest kinds ds
    have h0 : Within [.now, .part, .cal, .laid] s s0 := by simp [s0]
    exact (within_part_cal _ _ (by rfl) (by simp)).mpr h0
theorem execLedgerRefine_goes (coef : List Nat) (s : State) : Goes [.cal] s (execLedgerRefine coef s) := by simp [execLedgerRefine]
theorem execPowerCap_goes (q : Req) (p : PowerCapP) (s : State) : Goes [.hub, .mbx, .cells, .mem, .part, .link, .cal, .laid, .pair, .pkg] s (execPowerCap q p s) := by simp [execPowerCap]
theorem execPowerComparator_goes (powerW : Nat) (s : State) : Goes [.mbx, .eng, .link, .cal, .laid, .pkg] s (execPowerComparator powerW s) := by simp [execPowerComparator]
theorem execThermalComparator_goes (sensor value : Nat) (s : State) : Goes [.mbx, .eng, .link, .cal, .laid, .pkg] s (execThermalComparator sensor value s) := by simp [execThermalComparator]
theorem execWedgePowerFloor_goes (powerW : Nat) (s : State) : Goes [.eng, .cal, .pkg] s (execWedgePowerFloor powerW s) := by simp [execWedgePowerFloor]
theorem execPowerLoopTick_goes (powerW staticW deferW : Nat) (s : State) : Goes [.hub, .mbx, .part, .eng, .link, .cal, .laid, .sec, .pkg] s (execPowerLoopTick powerW staticW deferW s) := by simp [execPowerLoopTick]
theorem execThermalLoopTick_goes (sensors : List Nat) (s : State) : Goes [.mbx, .eng, .link, .cal, .pkg] s (execThermalLoopTick sensors s) := by simp [execThermalLoopTick]
theorem execClockDroopStretch_goes (island : Nat) (s : State) : Goes [.pkg] s (execClockDroopStretch island s) := by simp [execClockDroopStretch]
theorem execLaidLoad_goes (q : Req) (p : LaidLoadP) (s : State) : Goes [.hub, .mbx, .cells, .mem, .part, .link, .cal, .laid, .pair, .pkg] s (execLaidLoad q p s) := by simp [execLaidLoad]
end Sys2Proof.Machine
end

section
namespace Sys2Proof.Machine
variable {Z : List Spot} {s₀ : State}
theorem execLaidLead_goes (entry : Nat) (s : State) : Goes [.now, .link, .laid] s (execLaidLead entry s) := by unfold execLaidLead; split <;> simp
theorem execLaidSlot_goes (entry : Nat) (s : State) : Goes [.now, .free, .cells, .mem, .part, .form, .link, .cal, .laid, .pair] s (execLaidSlot entry s) := by
  unfold execLaidSlot; dsimp only
  (repeat' split) <;> (try simp) <;> (have h1 := Within.of_fst (Z := [.now, .free, .cells, .mem, .part, .form, .link, .cal, .laid, .pair]) (s := s) (by assumption) (by simp); simp [h1])
theorem execLaidTileBoundary_goes (entry : Nat) (s : State) : Goes [.free, .cells, .mem, .part, .form, .link, .cal, .laid, .pair] s (execLaidTileBoundary entry s) := by unfold execLaidTileBoundary; (repeat' split) <;> simp
theorem execLaidTableStart_goes (s : State) : Goes [.now, .free, .cells, .mem, .part, .eng, .form, .link, .cal, .laid, .pair] s (execLaidTableStart s) := by unfold execLaidTableStart; split <;> simp
theorem execLaidCycleBoundary_goes (s : State) : Goes [.now, .free, .mbx, .cells, .mem, .part, .eng, .form, .link, .cal, .laid, .pair] s (execLaidCycleBoundary s) := by unfold execLaidCycleBoundary; split <;> simp
theorem execTimeTick_goes (s : State) : Goes [.mbx, .cells, .mem, .grans, .part, .xlat, .link, .cal, .pair, .pkg] s (execTimeTick s) := by simp [execTimeTick]
theorem execPdelayReq_goes (port : Nat) (s : State) : Goes [.link] s (execPdelayReq port s) := by simp [execPdelayReq]
theorem execPdelayResp_goes (port turnaround roundTrip : Nat) (s : State) : Goes [.link] s (execPdelayResp port turnaround roundTrip s) := by simp [execPdelayResp]
theorem execTimeSync_goes (port hops ns frac lateNs : Nat) (s : State) : Goes [.free, .mbx, .cells, .mem, .part, .eng, .form, .link, .cal, .laid, .pair] s (execTimeSync port hops ns frac lateNs s) := by unfold execTimeSync; dsimp only; (repeat' split) <;> simp
theorem execHoldoverEntry_goes (s : State) : Goes [.now, .mbx, .link, .laid] s (execHoldoverEntry s) := by
  unfold execHoldoverEntry
  rw [goes_next]
  split
  · simp
  · extract_lets s0
    have h0 : Within [.now, .mbx, .link, .laid] s s0 := by simp [s0]
    split
    · exact (within_laid _ (by simp)).mpr h0
    · exact (State.raise_within _ _ _ _ _ _ (by simp)).mpr ((within_laid _ (by simp)).mpr h0)
theorem execTimePpsIn_goes (s : State) : Goes [.free, .mbx, .cells, .mem, .part, .eng, .form, .link, .cal, .laid, .pair] s (execTimePpsIn s) := by unfold execTimePpsIn; split <;> simp
theorem execPpsOutSecond_goes (s : State) : Goes [.now, .laid, .pkg] s (execPpsOutSecond s) := by simp [execPpsOutSecond]
theorem execTimeStatus_goes (q : Req) (s : State) : Goes [.hub, .mbx, .cells, .mem, .part, .link, .cal, .pair, .pkg] s (execTimeStatus q s) := by simp [execTimeStatus]
theorem execTimeMasterSet_goes (q : Req) (p : TimeMasterP) (s : State) : Goes [.hub, .mbx, .cells, .mem, .part, .link, .cal, .laid, .pair, .pkg] s (execTimeMasterSet q p s) := by simp [execTimeMasterSet]
theorem execLaidActivate_goes (q : Req) (p : LaidActP) (s : State) : Goes [.hub, .mbx, .cells, .mem, .part, .link, .cal, .laid, .pair, .pkg] s (execLaidActivate q p s) := by simp [execLaidActivate]
theorem execLaidStop_goes (q : Req) (p : LaidActP) (s : State) : Goes [.hub, .mbx, .cells, .mem, .part, .link, .cal, .laid, .pair, .pkg] s (execLaidStop q p s) := by simp [execLaidStop]
theorem execLaidCancel_goes (q : Req) (p : LaidActP) (s : State) : Goes [.hub, .mbx, .cells, .mem, .part, .link, .cal, .laid, .pair, .pkg] s (execLaidCancel q p s) := by simp [execLaidCancel]
theorem execLaidStatus_goes (q : Req) (p : LaidStatusP) (s : State) : Goes [.hub, .mbx, .cells, .mem, .part, .link, .cal, .pair, .pkg] s (execLaidStatus q p s) := by simp [execLaidStatus]
theorem execLaidInboundWr_goes (h : Hdr) (m : MemExt) (data : List Line) (s : State) : Goes [.cells, .mem, .part, .lode, .xlat, .link, .cal, .laid, .pair] s (execLaidInboundWr h m data s) := by
  unfold execLaidInboundWr; dsimp only
  (repeat' split) <;> simp (disch := try (intros; (repeat' split) <;> simp (disch := try simp (disch := try simp)) [within_foldl, within_foldl_fst])) [within_foldl, within_foldl_fst]
theorem execFlitTransmit_goes (port : Nat) (s : State) : Goes [.now, .free, .part, .link, .cal, .laid] s (execFlitTransmit port s) := by unfold execFlitTransmit; dsimp only; (repeat' split) <;> simp
theorem execDataFlitReceive_goes (port : Nat) (f : DataFlit) (s : State) : Goes [.link] s (execDataFlitReceive port f s) := by simp [execDataFlitReceive]
theorem execIdleFlitReceive_goes (port : Nat) (good : Bool) (s : State) : Goes [.link] s (execIdleFlitReceive port good s) := by simp [execIdleFlitReceive]
theorem execBypassFlitReceive_goes (port : Nat) (b : BypassHdr) (good : Bool) (s : State) : Goes [.hub, .mbx, .part, .link, .pair] s (execBypassFlitReceive port b good s) := by unfold execBypassFlitReceive; (repeat' split) <;> simp
theorem execCredit_goes (port : Nat) (counts : List Nat) (s : State) : Goes [.link] s (execCredit port counts s) := by simp [execCredit]
theorem execCreditInit_goes (port : Nat) (counts : List Nat) (s : State) : Goes [.free, .hub, .mbx, .part, .link, .pair, .pkg] s (execCreditInit port counts s) := by simp [execCreditInit]
theorem execCreditReturnTimer_goes (port : Nat) (s : State) : Goes [.link] s (execCreditReturnTimer port s) := by simp [execCreditReturnTimer]
theorem execDetectPoll_goes (port : Nat) (signal : Bool) (s : State) : Goes [.link] s (execDetectPoll port signal s) := by simp [execDetectPoll]
theorem execEqualiseDone_goes (port : Nat) (s : State) : Goes [.link] s (execEqualiseDone port s) := by simp [execEqualiseDone]
theorem execAlignDone_goes (port passed : Nat) (s : State) : Goes [.hub, .mbx, .part, .link, .pair] s (execAlignDone port passed s) := by simp [execAlignDone]
theorem execParamA_goes (port : Nat) (p : ParamA) (s : State) : Goes [.hub, .mbx, .part, .link, .pair] s (execParamA port p s) := by simp [execParamA]
theorem execParamB_goes (port ackTimer replayLimit downWindow rsvd : Nat) (s : State) : Goes [.hub, .mbx, .part, .link, .pair] s (execParamB port ackTimer replayLimit downWindow rsvd s) := by simp [execParamB]
theorem execRetrain_goes (port linkId width cause rsvd : Nat) (s : State) : Goes [.link] s (execRetrain port linkId width cause rsvd s) := by simp [execRetrain]
theorem execAlignPatternSeen_goes (port : Nat) (s : State) : Goes [.link] s (execAlignPatternSeen port s) := by simp [execAlignPatternSeen]
theorem execResume_goes (port nextMain nextBypass rsvd : Nat) (s : State) : Goes [.mbx, .link, .pkg] s (execResume port nextMain nextBypass rsvd s) := by simp [execResume]
theorem execTrainingFail_goes (port : Nat) (s : State) : Goes [.hub, .mbx, .part, .link, .pair] s (execTrainingFail port s) := by unfold execTrainingFail; dsimp only; (repeat' split) <;> simp
theorem execLaneSignalLoss_goes (port lanes : Nat) (s : State) : Goes [.link] s (execLaneSignalLoss port lanes s) := by simp [execLaneSignalLoss]
theorem execLaneErrorRate_goes (port lane : Nat) (s : State) : Goes [.link] s (execLaneErrorRate port lane s) := by simp [execLaneErrorRate]
theorem execAllLanesSignalLoss_goes (port : Nat) (s : State) : Goes [.hub, .mbx, .part, .link, .pair] s (execAllLanesSignalLoss port s) := by unfold execAllLanesSignalLoss; split <;> simp
theorem execLinkDownWaitExpire_goes (port : Nat) (s : State) : Goes [.now, .link, .laid] s (execLinkDownWaitExpire port s) := by simp [execLinkDownWaitExpire]
theorem execKeyx_goes (port : Nat) (m : KeyxMsg) (s : State) : Goes [.free, .hub, .mbx, .part, .link, .pair, .pkg] s (execKeyx port m s) := by simp [execKeyx]
theorem execKeyxTimeout_goes (port : Nat) (s : State) : Goes [.now, .hub, .mbx, .part, .link, .laid, .pair] s (execKeyxTimeout port s) := by unfold execKeyxTimeout; split <;> simp
theorem execAckTimerExpire_goes (port : Nat) (s : State) : Goes [.now, .link, .laid] s (execAckTimerExpire port s) := by simp [execAckTimerExpire]
theorem execNakTimerExpire_goes (port : Nat) (bypass : Bool) (s : State) : Goes [.now, .link, .laid] s (execNakTimerExpire port bypass s) := by unfold execNakTimerExpire; dsimp only; (repeat' split) <;> simp
theorem execReplayTimerExpire_goes (port : Nat) (bypass : Bool) (s : State) : Goes [.now, .hub, .mbx, .part, .link, .laid, .pair] s (execReplayTimerExpire port bypass s) := by unfold execReplayTimerExpire; dsimp only; (repeat' split) <;> simp
theorem execPeerClaimTimeout_goes (port : Nat) (s : State) : Goes [.now, .mbx, .link, .laid, .pkg] s (execPeerClaimTimeout port s) := by unfold execPeerClaimTimeout; split <;> simp
theorem execDeviceEndpointLeaseTick_goes (port : Nat) (s : State) : Goes [.link] s (execDeviceEndpointLeaseTick port s) := by unfold execDeviceEndpointLeaseTick; dsimp only; (repeat' split) <;> simp
theorem execPairArm_goes (q : Req) (p : PairP) (s : State) : Goes [.hub, .mbx, .cells, .mem, .part, .link, .cal, .pair, .pkg] s (execPairArm q p s) := by simp [execPairArm]
theorem execPairForm_goes (q : Req) (p : PairP) (s : State) : Goes [.hub, .mbx, .cells, .mem, .part, .link, .cal, .pair, .pkg] s (execPairForm q p s) := by simp [execPairForm]
theorem execPairDissolve_goes (q : Req) (p : PairP) (s : State) : Goes [.free, .hub, .mbx, .cells, .mem, .grans, .part, .rgn, .lode, .xlat, .eng, .attn, .form, .retr, .couch, .link, .cal, .laid, .pair, .sec, .pkg] s (execPairDissolve q p s) := by simp [execPairDissolve]
theorem execPairArmTimeout_goes (s : State) : Goes [.now, .link, .laid, .pair] s (execPairArmTimeout s) := by
  unfold execPairArmTimeout
  rw [goes_next]
  split
  · simp
  · exact (within_pair _ (by simp)).mpr ((State.sendCtrl_within _ _ (by simp)).mpr (by simp))
theorem execPairStatus_goes (q : Req) (s : State) : Goes [.hub, .mbx, .cells, .mem, .part, .link, .cal, .pair, .pkg] s (execPairStatus q s) := by simp [execPairStatus]
theorem execHealthReport_goes (q : Req) (s : State) : Goes [.hub, .mbx, .cells, .mem, .part, .link, .cal, .pair, .pkg] s (execHealthReport q s) := by simp [execHealthReport]
theorem execHealthReportTick_goes (s : State) : Goes [.now, .link, .laid, .pair] s (execHealthReportTick s) := by unfold execHealthReportTick; dsimp only; (repeat' split) <;> simp
theorem execMirHealth_goes (port : Nat) (r : Health) (s : State) : Goes [.mbx, .link, .pair] s (execMirHealth port r s) := by simp [execMirHealth]
theorem execHealthReportTimeout_goes (s : State) : Goes [.now, .mbx, .link, .laid, .pair] s (execHealthReportTimeout s) := by simp [execHealthReportTimeout]
theorem execStandbySelfTest_goes (t : SelfTest) (pass : Bool) (s : State) : Goes [.cells, .mem, .part, .link, .cal, .pair] s (execStandbySelfTest t pass s) := by unfold execStandbySelfTest; (repeat' split) <;> simp
theorem execWitnessSet_goes (q : Req) (p : WitnessP) (s : State) : Goes [.hub, .mbx, .cells, .mem, .part, .link, .cal, .pair, .pkg] s (execWitnessSet q p s) := by simp [execWitnessSet]
theorem execWitnessReport_goes (q : Req) (p : WitnessP) (s : State) : Goes [.hub, .mbx, .cells, .mem, .part, .link, .cal, .pair, .pkg] s (execWitnessReport q p s) := by simp [execWitnessReport]
theorem execFailoverHandover_goes (q : Req) (p : FailoverP) (s : State) : Goes [.hub, .mbx, .cells, .mem, .part, .link, .cal, .pair, .pkg] s (execFailoverHandover q p s) := by simp [execFailoverHandover]
theorem execFailoverForce_goes (q : Req) (p : FailoverP) (s : State) : Goes [.hub, .mbx, .cells, .mem, .part, .link, .cal, .pair, .pkg] s (execFailoverForce q p s) := by simp [execFailoverForce]
theorem execHandoverDrainEnd_goes (s : State) : Goes [.now, .free, .mbx, .cells, .mem, .part, .lode, .xlat, .eng, .form, .couch, .link, .cal, .laid, .pair] s (execHandoverDrainEnd s) := by unfold execHandoverDrainEnd; split <;> simp
theorem execBrFailoverOut_goes (q : Req) (s : State) : Goes [.free, .mbx, .cells, .mem, .part, .lode, .xlat, .eng, .form, .couch, .link, .cal, .laid, .pair, .pkg] s (execBrFailoverOut q s) := by simp [execBrFailoverOut]
theorem execPromotionComplete_goes (s : State) : Goes [.free, .mbx, .cells, .mem, .grans, .part, .rgn, .lode, .xlat, .eng, .form, .link, .cal, .laid, .pair, .pkg] s (execPromotionComplete s) := by unfold execPromotionComplete; split <;> simp
theorem execMirData_goes (port : Nat) (x : MirExt) (lines : List MirLine) (s : State) : Goes [.cells, .mem, .grans, .part, .rgn, .lode, .eng, .attn, .form, .retr, .link, .cal, .laid, .pair, .sec] s (execMirData port x lines s) := by simp [execMirData]
theorem execMirMeta_goes (port : Nat) (x : MirExt) (r : MetaRec) (s : State) : Goes [.cells, .mem, .grans, .part, .rgn, .lode, .eng, .attn, .form, .retr, .link, .cal, .laid, .pair, .sec] s (execMirMeta port x r s) := by simp [execMirMeta]
theorem execMirAck_goes (port mseq : Nat) (s : State) : Goes [.free, .mbx, .cells, .mem, .grans, .part, .lode, .xlat, .eng, .attn, .form, .couch, .link, .cal, .pair, .pkg] s (execMirAck port mseq s) := by
  unfold execMirAck
  rw [goes_next]
  refine State.takeMir_within _ _ _ _ _ _ (by simp) (fun u => ?_) (.refl _ _)
  split
  · exact State.pumpMir_within _ (by simp) (by simp)
  · simp
theorem execMirAckTimer_goes (s : State) : Goes [.now, .cells, .mem, .grans, .part, .rgn, .lode, .eng, .attn, .form, .retr, .link, .cal, .laid, .pair, .sec] s (execMirAckTimer s) := by simp [execMirAckTimer]
theorem execSyncCopyDone_goes (s : State) : Goes [.now, .mbx, .part, .link, .laid, .pair] s (execSyncCopyDone s) := by
  unfold execSyncCopyDone; dsimp only
  (repeat' split) <;> simp (disch := try (intros; (repeat' split) <;> simp (disch := try simp (disch := try simp)) [within_foldl, within_foldl_fst])) [within_foldl, within_foldl_fst]
theorem execMirHbTick_goes (s : State) : Goes [.now, .link, .laid, .pair] s (execMirHbTick s) := by simp [execMirHbTick]
theorem execMirHb_goes (port : Nat) (x : MirExt) (s : State) : Goes [.free, .mbx, .cells, .mem, .grans, .part, .rgn, .lode, .xlat, .eng, .attn, .form, .retr, .couch, .link, .cal, .laid, .pair] s (execMirHb port x s) := by
  unfold execMirHb; dsimp only
  (repeat' split) <;> simp (disch := try (intros; (repeat' split) <;> simp (disch := try simp (disch := try simp)) [within_foldl, within_foldl_fst])) [within_foldl, within_foldl_fst]
theorem execHeartbeatLost_goes (s : State) : Goes [.now, .free, .mbx, .cells, .mem, .grans, .part, .lode, .xlat, .eng, .attn, .form, .couch, .link, .cal, .laid, .pair, .pkg] s (execHeartbeatLost s) := by simp [execHeartbeatLost]
theorem execMirrorAckTimeout_goes (s : State) : Goes [.now, .free, .mbx, .cells, .mem, .grans, .part, .lode, .xlat, .eng, .attn, .form, .couch, .link, .cal, .laid, .pair, .pkg] s (execMirrorAckTimeout s) := by simp [execMirrorAckTimeout]
theorem execMirFetch_goes (port : Nat) (x : MirExt) (deckle gen : Nat) (s : State) : Goes [.mem, .part, .link, .cal] s (execMirFetch port x deckle gen s) := by simp [execMirFetch]
theorem execMirLine_goes (port : Nat) (x : MirExt) (status : Status) (line : MirLine) (s : State) : Goes [.cells, .mem, .part, .link, .cal, .pair] s (execMirLine port x status line s) := by
  unfold execMirLine; dsimp only
  (repeat' split) <;> simp (disch := try (intros; (repeat' split) <;> simp (disch := try simp (disch := try simp)) [within_foldl, within_foldl_fst])) [within_foldl, within_foldl_fst]
theorem execMirCtrl_goes (port : Nat) (kind : MirCtrlKind) (x : MirExt) (info : PartnerInfo) (s : State) : Goes [.free, .hub, .mbx, .cells, .mem, .grans, .part, .rgn, .lode, .xlat, .eng, .attn, .form, .retr, .couch, .link, .cal, .laid, .pair, .sec, .pkg] s (execMirCtrl port kind x info s) := by
  unfold execMirCtrl
  rw [goes_next]
  refine State.takeMir_within _ _ _ _ _ _ (by simp) (fun u => ?_) (.refl _ _)
  cases kind with
  | armed => dsimp only; split <;> simp
  | form => dsimp only; split <;> simp
  | formAck => dsimp only; split <;> simp
  | promote => dsimp only; (repeat' split) <;> simp
  | promoted => dsimp only; split <;> simp
  | resyncStart => dsimp only; split <;> simp
  | resyncEnd => dsimp only; split <;> simp
  | dissolve => dsimp only; (repeat' split) <;> simp
theorem execRegionCreate_goes (q : Req) (p : RegionP) (s : State) : Goes [.hub, .mbx, .cells, .mem, .part, .rgn, .link, .cal, .pair, .pkg] s (execRegionCreate q p s) := by simp [execRegionCreate]
theorem execRegionRetain_goes (q : Req) (p : RegionP) (s : State) : Goes [.hub, .mbx, .cells, .mem, .part, .rgn, .link, .cal, .pair, .pkg] s (execRegionRetain q p s) := by simp [execRegionRetain]
theorem execRegionDelete_goes (q : Req) (p : RegionP) (s : State) : Goes [.hub, .mbx, .cells, .mem, .grans, .part, .rgn, .lode, .link, .cal, .pair, .pkg] s (execRegionDelete q p s) := by simp [execRegionDelete]
theorem execRegionDraftOpen_goes (q : Req) (p : DraftP) (hint : Nat) (s : State) : Goes [.hub, .mbx, .cells, .mem, .grans, .part, .rgn, .form, .link, .cal, .pair, .pkg] s (execRegionDraftOpen q p hint s) := by simp [execRegionDraftOpen]
theorem execDraftCopyDone_goes (draft : Nat) (s : State) : Goes [.mbx, .cells, .mem, .grans, .part, .rgn, .link, .cal, .pair, .pkg] s (execDraftCopyDone draft s) := by
  unfold execDraftCopyDone; dsimp only
  (repeat' split) <;> simp (disch := try (intros; (repeat' split) <;> simp (disch := try simp (disch := try simp)) [within_foldl, within_foldl_fst])) [within_foldl, within_foldl_fst]
theorem execRegionDraftRebase_goes (q : Req) (p : DraftP) (s : State) : Goes [.hub, .mbx, .cells, .mem, .part, .rgn, .link, .cal, .pair, .pkg] s (execRegionDraftRebase q p s) := by simp [execRegionDraftRebase]
theorem execRegionDraftDiscard_goes (q : Req) (p : DraftP) (s : State) : Goes [.hub, .mbx, .cells, .mem, .grans, .part, .rgn, .lode, .link, .cal, .pair, .pkg] s (execRegionDraftDiscard q p s) := by simp [execRegionDraftDiscard]
theorem execRegionPublish_goes (q : Req) (p : PublishP) (s : State) : Goes [.hub, .mbx, .cells, .mem, .part, .rgn, .link, .cal, .pair, .pkg] s (execRegionPublish q p s) := by simp [execRegionPublish]
theorem execPublishCommit_goes (draft : Nat) (s : State) : Goes [.mbx, .cells, .mem, .grans, .part, .rgn, .lode, .link, .cal, .pair, .pkg] s (execPublishCommit draft s) := by
  unfold execPublishCommit; dsimp only
  (repeat' split) <;> simp (disch := try (intros; (repeat' split) <;> simp (disch := try simp (disch := try simp)) [within_foldl, within_foldl_fst])) [within_foldl, within_foldl_fst]
theorem execRegionOpen_goes (q : Req) (p : OpenP) (s : State) : Goes [.hub, .mbx, .cells, .mem, .part, .rgn, .link, .cal, .pair, .pkg] s (execRegionOpen q p s) := by simp [execRegionOpen]
theorem execRegionReopen_goes (q : Req) (p : OpenP) (s : State) : Goes [.hub, .mbx, .cells, .mem, .grans, .part, .rgn, .lode, .link, .cal, .pair, .pkg] s (execRegionReopen q p s) := by simp [execRegionReopen]
theorem execRegionList_goes (q : Req) (p : OpenP) (s : State) : Goes [.hub, .mbx, .cells, .mem, .part, .link, .cal, .pair, .pkg] s (execRegionList q p s) := by simp [execRegionList]
theorem execRegionClose_goes (q : Req) (p : OpenP) (s : State) : Goes [.hub, .mbx, .cells, .mem, .grans, .part, .rgn, .lode, .link, .cal, .pair, .pkg] s (execRegionClose q p s) := by simp [execRegionClose]
theorem execRegionGrant_goes (q : Req) (p : GrantP) (s : State) : Goes [.hub, .mbx, .cells, .mem, .part, .rgn, .link, .cal, .pair, .pkg] s (execRegionGrant q p s) := by simp [execRegionGrant]
theorem execRegionWithdraw_goes (q : Req) (p : GrantP) (s : State) : Goes [.hub, .mbx, .cells, .mem, .grans, .part, .rgn, .lode, .link, .cal, .pair, .pkg] s (execRegionWithdraw q p s) := by simp [execRegionWithdraw]
theorem execRetentionTick_goes (s : State) : Goes [.mbx, .cells, .mem, .grans, .part, .rgn, .lode, .link, .cal, .pair, .pkg] s (execRetentionTick s) := by simp [execRetentionTick]
end Sys2Proof.Machine
end

section
/-! PROOFS. What each command leaves unchanged: every command goes on within the footprint that its row of `mayChange`
gives, the queue and the fuse bank outlive it, and memory keeps its canonical form. -/

namespace Sys2Proof

open Machine

/-! ## The footprint of a command -/

/-- The part a spot belongs to; the queue and the fuse bank are outside the parts. -/
def Machine.Spot.zone : Spot → Option Zone
  | .pending | .board => none
  | .now => some .now
  | .free => some .free
  | .hub => some .hub
  | .mbx => some .mbx
  | .cells | .mem => some .mem
  | .grans | .part => some .part
  | .rgn => some .rgn
  | .lode => some .lode
  | .xlat => some .xlat
  | .eng => some .eng
  | .attn => some .attn
  | .form => some .form
  | .retr => some .retr
  | .couch => some .couch
  | .link => some .link
  | .cal => some .cal
  | .laid => some .laid
  | .pair => some .pair
  | .sec => some .sec
  | .pkg => some .pkg

/-- RAISE_SEC, the one command that changes the fuse bank (R327). -/
def Instr.fuses : Instr → Bool
  | .raiseSec .. => true
  | _ => false

theorem Instr.raises_of_fuses (i : Instr) (h : i.fuses = true) : ∃ q p, i = .raiseSec q p := by
  unfold Instr.fuses at h
  split at h
  · next q p => exact ⟨q, p, rfl⟩
  · cases h

/-- A command's row of `mayChange` names the part of a spot, or the spot is the fuse bank and the command RAISE_SEC. -/
def Instr.changes (i : Instr) (x : Spot) : Bool :=
  match x.zone with
  | some z => i.mayChange.contains z
  | none => match x with
    | .board => i.fuses
    | _ => false

def Machine.Spot.all : List Spot :=
  [.pending, .now, .free, .board, .hub, .mbx, .cells, .mem, .grans, .part, .rgn, .lode, .xlat, .eng, .attn, .form, .retr, .couch,
    .link, .cal, .laid, .pair, .sec, .pkg]

/-- The spots a command may change. -/
def Instr.spots (i : Instr) : List Spot := Spot.all.filter i.changes

theorem Machine.Spot.mem_all (x : Spot) : x ∈ Spot.all := by cases x <;> simp [Spot.all]

@[simp] theorem Instr.mem_spots (i : Instr) (x : Spot) : x ∈ i.spots ↔ i.changes x = true := by
  simp [Instr.spots, Spot.mem_all]

theorem Machine.Goes.spots {Y : List Spot} {s : State} {o : Host.Outcome State Fault Refusal} {i : Instr} (h : Goes Y s o)
    (hY : Y.all i.changes = true) : Goes i.spots s o := by
  obtain ⟨t, ht, hw⟩ := h
  exact ⟨t, ht, hw.mono fun x hx => (i.mem_spots x).mpr (List.all_eq_true.mp hY x hx)⟩

/-- Every command goes on, and changes its own spots alone. -/
theorem exec_goes (i : Instr) (s : State) : Goes i.spots s (exec i s) := by
  cases i with
  | loadWindowWrite h m data => exact (execLoadWindowWrite_goes h m data s).spots rfl
  | bootFwActivate q p => exact (execBootFwActivate_goes q p s).spots rfl
  | deviceQuery q => exact (execDeviceQuery_goes q s).spots rfl
  | deviceConfigureProfile q p => exact (execDeviceConfigureProfile_goes q p s).spots rfl
  | deviceConfigureWedge q p => exact (execDeviceConfigureWedge_goes q p s).spots rfl
  | driverAttachAttestOnly q p => exact (execDriverAttachAttestOnly_goes q p s).spots rfl
  | driverAttachAdopt q p => exact (execDriverAttachAdopt_goes q p s).spots rfl
  | driverAttachReset q p => exact (execDriverAttachReset_goes q p s).spots rfl
  | driverDetach q => exact (execDriverDetach_goes q s).spots rfl
  | fwStage q p => exact (execFwStage_goes q p s).spots rfl
  | fwActivate q p => exact (execFwActivate_goes q p s).spots rfl
  | fwActivateCancel q p => exact (execFwActivateCancel_goes q p s).spots rfl
  | fwStatus q => exact (execFwStatus_goes q s).spots rfl
  | brStatus q => exact (execBrStatus_goes q s).spots rfl
  | brDump q p => exact (execBrDump_goes q p s).spots rfl
  | brDumpRead q p => exact (execBrDumpRead_goes q p s).spots rfl
  | brDumpClear q p => exact (execBrDumpClear_goes q p s).spots rfl
  | brZeroise q p => exact (execBrZeroise_goes q p s).spots rfl
  | brFailoverOut q => exact (execBrFailoverOut_goes q s).spots rfl
  | brResetHub q p => exact (execBrResetHub_goes q p s).spots rfl
  | brResetDevice q p => exact (execBrResetDevice_goes q p s).spots rfl
  | lineWriteAccepted job => exact (execLineWriteAccepted_goes job s).spots rfl
  | lineRead job flip => exact (execLineRead_goes job flip s).spots rfl
  | reconstructionDone job => exact (execReconstructionDone_goes job s).spots rfl
  | requestStaleDiscard job => exact (execRequestStaleDiscard_goes job s).spots rfl
  | extentMigrate q p hint => exact (execExtentMigrate_goes q p hint s).spots rfl
  | extentMigrateCancel q p => exact (execExtentMigrateCancel_goes q p s).spots rfl
  | migrateCopyDone extent => exact (execMigrateCopyDone_goes extent s).spots rfl
  | migrateOldFramesFree extent => exact (execMigrateOldFramesFree_goes extent s).spots rfl
  | deckleCreate q p hint => exact (execDeckleCreate_goes q p hint s).spots rfl
  | deckleQuery q p => exact (execDeckleQuery_goes q p s).spots rfl
  | deckleQuota q p => exact (execDeckleQuota_goes q p s).spots rfl
  | deckleDissolve q p => exact (execDeckleDissolve_goes q p s).spots rfl
  | dissolveComplete deckle => exact (execDissolveComplete_goes deckle s).spots rfl
  | extentAlloc q p hint => exact (execExtentAlloc_goes q p hint s).spots rfl
  | extentZeroDone extent => exact (execExtentZeroDone_goes extent s).spots rfl
  | extentFree q p => exact (execExtentFree_goes q p s).spots rfl
  | extentRevoke q p => exact (execExtentRevoke_goes q p s).spots rfl
  | revokeDrainEnd extent => exact (execRevokeDrainEnd_goes extent s).spots rfl
  | revokeTimeout extent => exact (execRevokeTimeout_goes extent s).spots rfl
  | granuleReturn tier granule => exact (execGranuleReturn_goes tier granule s).spots rfl
  | leaseGrant q p => exact (execLeaseGrant_goes q p s).spots rfl
  | leaseRelease q p => exact (execLeaseRelease_goes q p s).spots rfl
  | leaseQuery q p => exact (execLeaseQuery_goes q p s).spots rfl
  | lease port ep deckle stamp rsvd => exact (execLease_goes port ep deckle stamp rsvd s).spots rfl
  | leaseDeadline deckle ep => exact (execLeaseDeadline_goes deckle ep s).spots rfl
  | leaseGraceEnd deckle ep => exact (execLeaseGraceEnd_goes deckle ep s).spots rfl
  | leaseReclaimDone deckle ep => exact (execLeaseReclaimDone_goes deckle ep s).spots rfl
  | regionCreate q p => exact (execRegionCreate_goes q p s).spots rfl
  | regionRetain q p => exact (execRegionRetain_goes q p s).spots rfl
  | regionDelete q p => exact (execRegionDelete_goes q p s).spots rfl
  | regionDraftOpen q p hint => exact (execRegionDraftOpen_goes q p hint s).spots rfl
  | draftCopyDone draft => exact (execDraftCopyDone_goes draft s).spots rfl
  | regionDraftRebase q p => exact (execRegionDraftRebase_goes q p s).spots rfl
  | regionDraftDiscard q p => exact (execRegionDraftDiscard_goes q p s).spots rfl
  | regionPublish q p => exact (execRegionPublish_goes q p s).spots rfl
  | publishCommit draft => exact (execPublishCommit_goes draft s).spots rfl
  | regionOpen q p => exact (execRegionOpen_goes q p s).spots rfl
  | regionReopen q p => exact (execRegionReopen_goes q p s).spots rfl
  | regionList q p => exact (execRegionList_goes q p s).spots rfl
  | regionClose q p => exact (execRegionClose_goes q p s).spots rfl
  | regionGrant q p => exact (execRegionGrant_goes q p s).spots rfl
  | regionWithdraw q p => exact (execRegionWithdraw_goes q p s).spots rfl
  | lodeCreate q p => exact (execLodeCreate_goes q p s).spots rfl
  | lodeDelete q p => exact (execLodeDelete_goes q p s).spots rfl
  | lodeJoin q p => exact (execLodeJoin_goes q p s).spots rfl
  | lodeLeave q p => exact (execLodeLeave_goes q p s).spots rfl
  | lodeRecallDone lode ep => exact (execLodeRecallDone_goes lode ep s).spots rfl
  | rds h x => exact (execRds_goes h x s).spots rfl
  | rdx h x => exact (execRdx_goes h x s).spots rfl
  | wb h x data => exact (execWb_goes h x data s).spots rfl
  | snpRsp h x data => exact (execSnpRsp_goes h x data s).spots rfl
  | lodeSnoopTimeout lode ep => exact (execLodeSnoopTimeout_goes lode ep s).spots rfl
  | lodeSalvageCopy q p => exact (execLodeSalvageCopy_goes q p s).spots rfl
  | lodeSalvageCopyRearm q p => exact (execLodeSalvageCopyRearm_goes q p s).spots rfl
  | lodeSalvageRearm q p => exact (execLodeSalvageRearm_goes q p s).spots rfl
  | lodeSalvageDelete q p => exact (execLodeSalvageDelete_goes q p s).spots rfl
  | salvageCopyDone lode => exact (execSalvageCopyDone_goes lode s).spots rfl
  | tableSync q p hint => exact (execTableSync_goes q p hint s).spots rfl
  | tableSyncSwitched deckle => exact (execTableSyncSwitched_goes deckle s).spots rfl
  | tableReadback q p => exact (execTableReadback_goes q p s).spots rfl
  | translationWalkDone core unit slot couch => exact (execTranslationWalkDone_goes core unit slot couch s).spots rfl
  | faultResume q p => exact (execFaultResume_goes q p s).spots rfl
  | faultAbort q p => exact (execFaultAbort_goes q p s).spots rfl
  | faultAutoAbort fault => exact (execFaultAutoAbort_goes fault s).spots rfl
  | clockDroopStretch island => exact (execClockDroopStretch_goes island s).spots rfl
  | launchStart work => exact (execLaunchStart_goes work s).spots rfl
  | bundleIssue core engine => exact (execBundleIssue_goes core engine s).spots rfl
  | barrierRelease work core gang => exact (execBarrierRelease_goes work core gang s).spots rfl
  | streamTileLand core engine slot => exact (execStreamTileLand_goes core engine slot s).spots rfl
  | streamSlotComplete core engine slot => exact (execStreamSlotComplete_goes core engine slot s).spots rfl
  | kernelLoad q p => exact (execKernelLoad_goes q p s).spots rfl
  | kernelUnload q p => exact (execKernelUnload_goes q p s).spots rfl
  | launch h b => exact (execLaunch_goes h b s).spots rfl
  | workCancel h b => exact (execWorkCancel_goes h b s).spots rfl
  | workTimeCap work => exact (execWorkTimeCap_goes work s).spots rfl
  | launchComplete work => exact (execLaunchComplete_goes work s).spots rfl
  | attnPoolSet q p hint => exact (execAttnPoolSet_goes q p hint s).spots rfl
  | attnOpen h b => exact (execAttnOpen_goes h b s).spots rfl
  | attnAppend h b => exact (execAttnAppend_goes h b s).spots rfl
  | attnAppendDone work => exact (execAttnAppendDone_goes work s).spots rfl
  | attnStep h b => exact (execAttnStep_goes h b s).spots rfl
  | attnStepComplete work => exact (execAttnStepComplete_goes work s).spots rfl
  | attnClose h b => exact (execAttnClose_goes h b s).spots rfl
  | attnTruncate h b => exact (execAttnTruncate_goes h b s).spots rfl
  | attnQuery h b => exact (execAttnQuery_goes h b s).spots rfl
  | mapDefine q p => exact (execMapDefine_goes q p s).spots rfl
  | mapReplace q p => exact (execMapReplace_goes q p s).spots rfl
  | mapRetire q p => exact (execMapRetire_goes q p s).spots rfl
  | adapterRegister q p => exact (execAdapterRegister_goes q p s).spots rfl
  | adapterUnregister q p => exact (execAdapterUnregister_goes q p s).spots rfl
  | adapterPin q p => exact (execAdapterPin_goes q p s).spots rfl
  | adapterUnpin q p => exact (execAdapterUnpin_goes q p s).spots rfl
  | adapterPartLoadDone mapUid adapter layer tensor => exact (execAdapterPartLoadDone_goes mapUid adapter layer tensor s).spots rfl
  | rdf h f => exact (execRdf_goes h f s).spots rfl
  | formTileFormed work => exact (execFormTileFormed_goes work s).spots rfl
  | indexDefine q p => exact (execIndexDefine_goes q p s).spots rfl
  | indexReplace q p => exact (execIndexReplace_goes q p s).spots rfl
  | indexRetire q p => exact (execIndexRetire_goes q p s).spots rfl
  | topkQuery h b => exact (execTopkQuery_goes h b s).spots rfl
  | topkComplete work => exact (execTopkComplete_goes work s).spots rfl
  | couchSubmit h b => exact (execCouchSubmit_goes h b s).spots rfl
  | couchAbort h b => exact (execCouchAbort_goes h b s).spots rfl
  | couchChainStart core channel => exact (execCouchChainStart_goes core channel s).spots rfl
  | couchDescStart core channel => exact (execCouchDescStart_goes core channel s).spots rfl
  | couchTileDone core channel tile => exact (execCouchTileDone_goes core channel tile s).spots rfl
  | couchTileTimeout core channel tile => exact (execCouchTileTimeout_goes core channel tile s).spots rfl
  | couchRetry core channel => exact (execCouchRetry_goes core channel s).spots rfl
  | flitTransmit port => exact (execFlitTransmit_goes port s).spots rfl
  | dataFlitReceive port f => exact (execDataFlitReceive_goes port f s).spots rfl
  | idleFlitReceive port good => exact (execIdleFlitReceive_goes port good s).spots rfl
  | bypassFlitReceive port b good => exact (execBypassFlitReceive_goes port b good s).spots rfl
  | credit port counts => exact (execCredit_goes port counts s).spots rfl
  | creditInit port counts => exact (execCreditInit_goes port counts s).spots rfl
  | retrain port linkId width cause rsvd => exact (execRetrain_goes port linkId width cause rsvd s).spots rfl
  | resume port nextMain nextBypass rsvd => exact (execResume_goes port nextMain nextBypass rsvd s).spots rfl
  | paramA port p => exact (execParamA_goes port p s).spots rfl
  | paramB port ackTimer replayLimit downWindow rsvd => exact (execParamB_goes port ackTimer replayLimit downWindow rsvd s).spots rfl
  | keyx port m => exact (execKeyx_goes port m s).spots rfl
  | keyxTimeout port => exact (execKeyxTimeout_goes port s).spots rfl
  | ackTimerExpire port => exact (execAckTimerExpire_goes port s).spots rfl
  | nakTimerExpire port bypass => exact (execNakTimerExpire_goes port bypass s).spots rfl
  | replayTimerExpire port bypass => exact (execReplayTimerExpire_goes port bypass s).spots rfl
  | creditReturnTimer port => exact (execCreditReturnTimer_goes port s).spots rfl
  | laneSignalLoss port lanes => exact (execLaneSignalLoss_goes port lanes s).spots rfl
  | laneErrorRate port lane => exact (execLaneErrorRate_goes port lane s).spots rfl
  | allLanesSignalLoss port => exact (execAllLanesSignalLoss_goes port s).spots rfl
  | linkDownWaitExpire port => exact (execLinkDownWaitExpire_goes port s).spots rfl
  | detectPoll port signal => exact (execDetectPoll_goes port signal s).spots rfl
  | equaliseDone port => exact (execEqualiseDone_goes port s).spots rfl
  | alignDone port passed => exact (execAlignDone_goes port passed s).spots rfl
  | trainingFail port => exact (execTrainingFail_goes port s).spots rfl
  | peerClaimTimeout port => exact (execPeerClaimTimeout_goes port s).spots rfl
  | deviceEndpointLeaseTick port => exact (execDeviceEndpointLeaseTick_goes port s).spots rfl
  | rd h m => exact (execRd_goes h m s).spots rfl
  | rdVersion h m => exact (execRdVersion_goes h m s).spots rfl
  | wr h m data => exact (execWr_goes h m data s).spots rfl
  | atom h m a b => exact (execAtom_goes h m a b s).spots rfl
  | fence h => exact (execFence_goes h s).spots rfl
  | fenceDone ep tag => exact (execFenceDone_goes ep tag s).spots rfl
  | rsp h status last data => exact (execRsp_goes h status last data s).spots rfl
  | epClaim port vc identity rsvd => exact (execEpClaim_goes port vc identity rsvd s).spots rfl
  | epRelease h => exact (execEpRelease_goes h s).spots rfl
  | epAssign port ep status => exact (execEpAssign_goes port ep status s).spots rfl
  | laidInboundWr h m data => exact (execLaidInboundWr_goes h m data s).spots rfl
  | queueMapMap q p => exact (execQueueMapMap_goes q p s).spots rfl
  | queueMapWeight q p => exact (execQueueMapWeight_goes q p s).spots rfl
  | shaperSet q p => exact (execShaperSet_goes q p s).spots rfl
  | policerSet q p => exact (execPolicerSet_goes q p s).spots rfl
  | energySet q p => exact (execEnergySet_goes q p s).spots rfl
  | energyRead q p => exact (execEnergyRead_goes q p s).spots rfl
  | powerCap q p => exact (execPowerCap_goes q p s).spots rfl
  | energyQueueRelease deckle => exact (execEnergyQueueRelease_goes deckle s).spots rfl
  | ledgerTick measuredNj staticNj => exact (execLedgerTick_goes measuredNj staticNj s).spots rfl
  | ledgerRefine coef => exact (execLedgerRefine_goes coef s).spots rfl
  | powerLoopTick powerW staticW deferW => exact (execPowerLoopTick_goes powerW staticW deferW s).spots rfl
  | powerComparator powerW => exact (execPowerComparator_goes powerW s).spots rfl
  | thermalComparator sensor value => exact (execThermalComparator_goes sensor value s).spots rfl
  | thermalLoopTick sensors => exact (execThermalLoopTick_goes sensors s).spots rfl
  | timeSync port hops ns frac lateNs => exact (execTimeSync_goes port hops ns frac lateNs s).spots rfl
  | pdelayReq port => exact (execPdelayReq_goes port s).spots rfl
  | pdelayResp port turnaround roundTrip => exact (execPdelayResp_goes port turnaround roundTrip s).spots rfl
  | timeStatus q => exact (execTimeStatus_goes q s).spots rfl
  | timeMasterSet q p => exact (execTimeMasterSet_goes q p s).spots rfl
  | laidLoad q p => exact (execLaidLoad_goes q p s).spots rfl
  | laidActivate q p => exact (execLaidActivate_goes q p s).spots rfl
  | laidStop q p => exact (execLaidStop_goes q p s).spots rfl
  | laidCancel q p => exact (execLaidCancel_goes q p s).spots rfl
  | laidStatus q p => exact (execLaidStatus_goes q p s).spots rfl
  | laidLead entry => exact (execLaidLead_goes entry s).spots rfl
  | laidSlot entry => exact (execLaidSlot_goes entry s).spots rfl
  | laidTileBoundary entry => exact (execLaidTileBoundary_goes entry s).spots rfl
  | scrub q p => exact (execScrub_goes q p s).spots rfl
  | scrubDone scrub => exact (execScrubDone_goes scrub s).spots rfl
  | inject q p => exact (execInject_goes q p s).spots rfl
  | injectCancel q p => exact (execInjectCancel_goes q p s).spots rfl
  | ceConfigSet q p => exact (execCeConfigSet_goes q p s).spots rfl
  | ceConfigFailOut q p => exact (execCeConfigFailOut_goes q p s).spots rfl
  | rebuildStatus q => exact (execRebuildStatus_goes q s).spots rfl
  | poisonList q p => exact (execPoisonList_goes q p s).spots rfl
  | stackTrainingLost group unit => exact (execStackTrainingLost_goes group unit s).spots rfl
  | rebuildDone group => exact (execRebuildDone_goes group s).spots rfl
  | sealDone group => exact (execSealDone_goes group s).spots rfl
  | pairArm q p => exact (execPairArm_goes q p s).spots rfl
  | pairForm q p => exact (execPairForm_goes q p s).spots rfl
  | pairDissolve q p => exact (execPairDissolve_goes q p s).spots rfl
  | pairStatus q => exact (execPairStatus_goes q s).spots rfl
  | healthReport q => exact (execHealthReport_goes q s).spots rfl
  | failoverHandover q p => exact (execFailoverHandover_goes q p s).spots rfl
  | failoverForce q p => exact (execFailoverForce_goes q p s).spots rfl
  | witnessSet q p => exact (execWitnessSet_goes q p s).spots rfl
  | witnessReport q p => exact (execWitnessReport_goes q p s).spots rfl
  | mirData port x lines => exact (execMirData_goes port x lines s).spots rfl
  | mirMeta port x r => exact (execMirMeta_goes port x r s).spots rfl
  | mirAck port mseq => exact (execMirAck_goes port mseq s).spots rfl
  | mirHb port x => exact (execMirHb_goes port x s).spots rfl
  | mirHealth port r => exact (execMirHealth_goes port r s).spots rfl
  | mirFetch port x deckle gen => exact (execMirFetch_goes port x deckle gen s).spots rfl
  | mirLine port x status line => exact (execMirLine_goes port x status line s).spots rfl
  | mirCtrl port kind x info => exact (execMirCtrl_goes port kind x info s).spots rfl
  | healthReportTick => exact (execHealthReportTick_goes s).spots rfl
  | standbySelfTest t pass => exact (execStandbySelfTest_goes t pass s).spots rfl
  | attest q p => exact (execAttest_goes q p s).spots rfl
  | keyRotateDeckleKey q p => exact (execKeyRotateDeckleKey_goes q p s).spots rfl
  | keySweepDone deckle => exact (execKeySweepDone_goes deckle s).spots rfl
  | linkRekey q p => exact (execLinkRekey_goes q p s).spots rfl
  | trustAdd q p => exact (execTrustAdd_goes q p s).spots rfl
  | trustRemove q p => exact (execTrustRemove_goes q p s).spots rfl
  | trustPolicy q p => exact (execTrustPolicy_goes q p s).spots rfl
  | operatorKernelKey q p => exact (execOperatorKernelKey_goes q p s).spots rfl
  | raiseSec q p => exact (execRaiseSec_goes q p s).spots rfl
  | debugOpen q p => exact (execDebugOpen_goes q p s).spots rfl
  | debugRead q p => exact (execDebugRead_goes q p s).spots rfl
  | debugClose q => exact (execDebugClose_goes q s).spots rfl
  | coldReset pgAonLost => exact (execColdReset_goes pgAonLost s).spots rfl
  | thermalTrip sensor value => exact (execThermalTrip_goes sensor value s).spots rfl
  | supplyTrip cause rail value => exact (execSupplyTrip_goes cause rail value s).spots rfl
  | coreReady core => exact (execCoreReady_goes core s).spots rfl
  | tier1Ready untrained => exact (execTier1Ready_goes untrained s).spots rfl
  | farDieReady die untrained => exact (execFarDieReady_goes die untrained s).spots rfl
  | setdasa addr => exact (execSetdasa_goes addr s).spots rfl
  | samplePreload shiftIn => exact (execSamplePreload_goes shiftIn s).spots rfl
  | dbgOpen timeoutMs => exact (execDbgOpen_goes timeoutMs s).spots rfl
  | dbgMbx c => exact (execDbgMbx_goes c s).spots rfl
  | vsetAck die => exact (execVsetAck_goes die s).spots rfl
  | asmWindowExpire stripe => exact (execAsmWindowExpire_goes stripe s).spots rfl
  | wedgePowerFloor powerW => exact (execWedgePowerFloor_goes powerW s).spots rfl
  | ceBucketLeak group unit => exact (execCeBucketLeak_goes group unit s).spots rfl
  | alignPatternSeen port => exact (execAlignPatternSeen_goes port s).spots rfl
  | bootImageVerified => exact (execBootImageVerified_goes s).spots rfl
  | driverLeaseLapse => exact (execDriverLeaseLapse_goes s).spots rfl
  | fwSwitchPoint => exact (execFwSwitchPoint_goes s).spots rfl
  | fwActivateTimeout => exact (execFwActivateTimeout_goes s).spots rfl
  | hubWedge => exact (execHubWedge_goes s).spots rfl
  | wedgeDumpDone => exact (execWedgeDumpDone_goes s).spots rfl
  | wedgeRestart => exact (execWedgeRestart_goes s).spots rfl
  | hubRestartDone => exact (execHubRestartDone_goes s).spots rfl
  | retentionTick => exact (execRetentionTick_goes s).spots rfl
  | timeTick => exact (execTimeTick_goes s).spots rfl
  | holdoverEntry => exact (execHoldoverEntry_goes s).spots rfl
  | timePpsIn => exact (execTimePpsIn_goes s).spots rfl
  | ppsOutSecond => exact (execPpsOutSecond_goes s).spots rfl
  | laidTableStart => exact (execLaidTableStart_goes s).spots rfl
  | laidCycleBoundary => exact (execLaidCycleBoundary_goes s).spots rfl
  | integrityLogDrain => exact (execIntegrityLogDrain_goes s).spots rfl
  | pairArmTimeout => exact (execPairArmTimeout_goes s).spots rfl
  | handoverDrainEnd => exact (execHandoverDrainEnd_goes s).spots rfl
  | syncCopyDone => exact (execSyncCopyDone_goes s).spots rfl
  | mirAckTimer => exact (execMirAckTimer_goes s).spots rfl
  | mirHbTick => exact (execMirHbTick_goes s).spots rfl
  | heartbeatLost => exact (execHeartbeatLost_goes s).spots rfl
  | mirrorAckTimeout => exact (execMirrorAckTimeout_goes s).spots rfl
  | promotionComplete => exact (execPromotionComplete_goes s).spots rfl
  | healthReportTimeout => exact (execHealthReportTimeout_goes s).spots rfl
  | debugSessionTimeout => exact (execDebugSessionTimeout_goes s).spots rfl
  | coldResetRelease => exact (execColdResetRelease_goes s).spots rfl
  | warmReset => exact (execWarmReset_goes s).spots rfl
  | warmResetRelease => exact (execWarmResetRelease_goes s).spots rfl
  | pllLock => exact (execPllLock_goes s).spots rfl
  | stagingReady => exact (execStagingReady_goes s).spots rfl
  | bedrockReady => exact (execBedrockReady_goes s).spots rfl
  | hubReady => exact (execHubReady_goes s).spots rfl
  | securityReady => exact (execSecurityReady_goes s).spots rfl
  | i3cPrivateRead => exact (execI3cPrivateRead_goes s).spots rfl
  | tapReset => exact (execTapReset_goes s).spots rfl
  | extest => exact (execExtest_goes s).spots rfl
  | idcode => exact (execIdcode_goes s).spots rfl
  | clamp => exact (execClamp_goes s).spots rfl
  | highz => exact (execHighz_goes s).spots rfl
  | dbgClose => exact (execDbgClose_goes s).spots rfl
  | bypass => exact (execBypass_goes s).spots rfl

/-- A part that a command's row does not name is the same after it. -/
theorem Instr.zone_same {i : Instr} {s t : State} (h : Within i.spots s t) {z : Zone} (hz : z ∉ i.mayChange) : z.same s t := by
  have hkept : ∀ x : Spot, x.zone = some z → x.same s t := fun x hx =>
    h.1 x fun hm => hz (by simpa [Instr.changes, hx] using hm)
  cases z with
  | mem =>
    have hcells : t.mem.cells = s.mem.cells := hkept .cells rfl
    have hrest : { t.mem with cells := s.mem.cells } = s.mem := hkept .mem rfl
    show t.mem = s.mem
    rw [← hrest, ← hcells]
  | part =>
    have hgrans : t.part.granules = s.part.granules := hkept .grans rfl
    have hrest : { t.part with granules := s.part.granules } = s.part := hkept .part rfl
    show t.part = s.part
    rw [← hrest, ← hgrans]
  | now => exact hkept .now rfl
  | free => exact hkept .free rfl
  | hub => exact hkept .hub rfl
  | mbx => exact hkept .mbx rfl
  | rgn => exact hkept .rgn rfl
  | lode => exact hkept .lode rfl
  | xlat => exact hkept .xlat rfl
  | eng => exact hkept .eng rfl
  | attn => exact hkept .attn rfl
  | form => exact hkept .form rfl
  | retr => exact hkept .retr rfl
  | couch => exact hkept .couch rfl
  | link => exact hkept .link rfl
  | cal => exact hkept .cal rfl
  | laid => exact hkept .laid rfl
  | pair => exact hkept .pair rfl
  | sec => exact hkept .sec rfl
  | pkg => exact hkept .pkg rfl

/-- The state a command goes on to is within its footprint. -/
theorem within_of_exec {i : Instr} {s t : State} (h : exec i s = .next t) : Within i.spots s t := by
  obtain ⟨u, hu, hw⟩ := exec_goes i s
  rw [h] at hu
  cases hu
  exact hw

theorem exec_zone_same {i : Instr} {s t : State} (h : exec i s = .next t) {z : Zone} (hz : z ∉ i.mayChange) : z.same s t :=
  i.zone_same (within_of_exec h) hz

theorem exec_pending {i : Instr} {s t : State} (h : exec i s = .next t) : t.pending = s.pending :=
  (within_of_exec h).1 .pending (by simp [Instr.changes, Spot.zone])

theorem exec_board {i : Instr} {s t : State} (h : exec i s = .next t) (hi : i.fuses = false) : t.board = s.board :=
  (within_of_exec h).1 .board (by simp [Instr.changes, Spot.zone, hi])

theorem exec_memory_wf {i : Instr} {s t : State} (h : exec i s = .next t) : Memory.wf s = true → Memory.wf t = true :=
  (within_of_exec h).2

/-! ## Every step -/

/-- The three ways a step comes from a command, and the passing of time (log 18): what a command keeps, a step keeps,
where dequeuing, the test port's hand-over and the mark of a drain leave it alone. -/
theorem step_cases {s t : State} (h : step s = .next t) :
    (∃ c u, exec c u = .next t ∧ u.mem = s.mem ∧ u.part = s.part ∧ u.board = s.board) ∨
    (∃ c u v, exec c u = .next v ∧ u.mem = s.mem ∧ u.part = s.part ∧ u.board = s.board ∧
      t.mem = v.mem ∧ t.part = v.part ∧ t.board = v.board) ∨
    (t.mem = s.mem ∧ t.part = s.part ∧ t.board = s.board) := by
  unfold step at h
  split at h
  · next c rest _ => exact .inl ⟨c, _, h, rfl, rfl, rfl⟩
  · split at h
    · next c _ => exact .inl ⟨c, _, h, rfl, rfl, rfl⟩
    · split at h
      · split at h
        · next w ws _ =>
          obtain ⟨v, hv, -⟩ := exec_goes w.cmd { s with mbx := { s.mbx with waiting := ws, draining := some w.at_ } }
          rw [hv] at h
          cases h
          exact .inr (.inl ⟨w.cmd, _, v, hv, rfl, rfl, rfl, rfl, rfl, rfl⟩)
        · cases h
          exact .inr (.inr ⟨rfl, rfl, rfl⟩)
      · cases h
        exact .inr (.inr ⟨rfl, rfl, rfl⟩)

/-! ## The fuse bank (R327) -/

/-- A bank with no more than its limit of raises is followed by one that is well formed, and no lower. -/
def Machine.Board.rises (b c : Board) : Prop :=
  b.wf = true → c.wf = true ∧ b.fusedMinSec ≤ c.fusedMinSec ∧ b.raises ≤ c.raises

theorem Machine.Board.rises_self (b : Board) : b.rises b := fun h => ⟨h, le_rfl, le_rfl⟩

theorem firstFail_append_right {l r : List Check} (h : firstFail (l ++ r) = none) : firstFail r = none := by
  induction l with
  | nil => exact h
  | cons x l ih =>
    obtain ⟨b, st, d⟩ := x
    cases b with
    | true => exact ih h
    | false => cases h

/-- The spots that a request's way to its effect may change. -/
def served : List Spot := [.hub, .mbx, .cells, .mem, .part, .link, .cal, .pair, .pkg]

/-- A request is answered or made to wait on its way, or it passes the checks and takes effect. -/
theorem commitReq_cases (s : State) (c : Cmd) (q : Req) (checks : State → List Check) (act : State → Nat → State × Option Ans) :
    Within served s (s.commitReq c q checks act) ∨ ∃ u acc, Within served s u ∧
      firstFail (commonChecks u c q ++ checks u) = none ∧ s.commitReq c q checks act = u.conclude c q acc act := by
  have h1 : Within served s ((s.formCheck c q).1.takeEvreg q) := by simp [served]
  unfold State.commitReq
  dsimp only
  split
  · exact .inl (by simp [served])
  · split
    · exact .inl (by simp [served])
    · next hpass => exact .inr ⟨_, _, h1, hpass, rfl⟩

theorem reachBox_cases (s : State) (self : Instr) (c : Cmd) (q : Req) (checks : State → List Check)
    (act : State → Nat → State × Option Ans) :
    Within served s (s.reachBox self c q checks act) ∨ ∃ u acc, Within served s u ∧
      firstFail (commonChecks u c q ++ checks u) = none ∧ s.reachBox self c q checks act = u.conclude c q acc act := by
  unfold State.reachBox
  split
  · exact .inl (by simp [served])
  · split
    · exact .inl (by simp [served])
    · exact commitReq_cases s c q checks act

theorem serve_cases (s : State) (self : Instr) (c : Cmd) (q : Req) (checks : State → List Check)
    (act : State → Nat → State × Option Ans) :
    Within served s (s.serve self c q checks act) ∨ ∃ u acc, Within served s u ∧
      firstFail (commonChecks u c q ++ checks u) = none ∧ s.serve self c q checks act = u.conclude c q acc act := by
  have h1 : Within served s ((s.freeReq q).renewDriver q) := by simp [served]
  unfold State.serve
  split
  · exact reachBox_cases ..
  · split
    · dsimp only
      split
      · exact .inl (by simp [served])
      · split
        · exact .inl (by simp [served])
        · rcases reachBox_cases ((s.freeReq q).renewDriver q) self c q checks act with h | ⟨u, acc, hu, hpass, h⟩
          · exact .inl (h1.trans h)
          · exact .inr ⟨u, acc, h1.trans hu, hpass, h⟩
    · exact .inl (by simp [served])
    · exact reachBox_cases ..

/-- A conclusion leaves of an effect what no mailbox changes: the fuse bank above all. -/
theorem conclude_board (s : State) (c : Cmd) (q : Req) (acc : Nat) (act : State → Nat → State × Option Ans) :
    (s.conclude c q acc act).board = (act (s.opened c q acc) s.mbx.nextReply).1.board :=
  (State.closed_within _ _ _ _ _ _ (List.Subset.refl _) (.refl _ _)).1 .board (by simp)

/-- RAISE_SEC raises the fused minimum where its check holds: fewer than 32 raises, and the running version greater. -/
theorem raiseSec_rises {p : KeyP} {u v : State} {n : Nat} (hboard : v.board = u.board) (hhub : v.hub = u.hub)
    (h : firstFail (raiseSecChecks p u) = none) : u.board.rises (raiseSecAct v n).1.board := by
  have hcheck : u.board.raises < 32 ∧ u.board.fusedMinSec < u.runningSec := by
    by_contra hne
    have hlast : (decide (u.board.raises < 32) && decide (u.board.fusedMinSec < u.runningSec)) = false := by simpa using hne
    simp only [raiseSecChecks, hlast] at h
    cases hword : p.confirm == 0x53454356 <;> simp [hword, firstFail] at h
  intro _
  simp only [raiseSecAct, hboard, State.runningSec, hhub, Board.wf, decide_eq_true_eq] at hcheck ⊢
  omega

theorem execRaiseSec_rises {q : Req} {p : KeyP} {s t : State} (h : exec (.raiseSec q p) s = .next t) : s.board.rises t.board := by
  cases h
  rcases serve_cases s (.raiseSec q p) (raiseSecCmd p) q (raiseSecChecks p) raiseSecAct with h | ⟨u, acc, hu, hpass, h⟩
  · rw [h.1 .board (by simp [served])]
    exact s.board.rises_self
  · have hboard : u.board = s.board := hu.1 .board (by simp [served])
    have hopen : Within [.mbx, .link, .pair] u (u.opened (raiseSecCmd p) q acc) := by simp
    rw [h, conclude_board, ← hboard]
    exact raiseSec_rises (hopen.1 .board (by simp)) (hopen.1 .hub (by simp)) (firstFail_append_right hpass)

theorem exec_rises {i : Instr} {s t : State} (h : exec i s = .next t) : s.board.rises t.board := by
  cases hi : i.fuses with
  | false =>
    rw [exec_board h hi]
    exact s.board.rises_self
  | true =>
    obtain ⟨q, p, rfl⟩ := i.raises_of_fuses hi
    exact execRaiseSec_rises h

end Sys2Proof

namespace Sys2Proof

open Machine

/-- Settles O50: `exec_goes`, without its footprint. -/
theorem everyCommandGoesOn : Obligations.EveryCommandGoesOn := by
  unfold Obligations.EveryCommandGoesOn
  intro c s
  obtain ⟨t, ht, -⟩ := exec_goes c s
  exact ⟨t, ht⟩

/-- Settles O52: no footprint names the queue, and that of RAISE_SEC alone the fuse bank, which it raises. -/
theorem queueAndFusesKept : Obligations.QueueAndFusesKept := by
  unfold Obligations.QueueAndFusesKept
  refine ⟨fun c s t h => exec_pending h, fun c s t h hc => exec_board h ?_, fun s t hwf h => ?_⟩
  · unfold Instr.fuses
    split
    · next q p => exact absurd rfl (hc q p)
    · rfl
  · rcases step_cases h with ⟨c, u, hexec, -, -, hu⟩ | ⟨c, u, v, hexec, -, -, hu, -, -, ht⟩ | ⟨-, -, ht⟩
    · rw [← hu] at hwf ⊢
      exact exec_rises hexec hwf
    · rw [← hu] at hwf ⊢
      rw [ht]
      exact exec_rises hexec hwf
    · rw [ht]
      exact s.board.rises_self hwf

/-- Settles O53: the canonical form is part of every footprint, and reads the stored lines and the granules alone. -/
theorem everyStepKeepsTheMemoryForm : Obligations.EveryStepKeepsTheMemoryForm := by
  unfold Obligations.EveryStepKeepsTheMemoryForm
  have hsame : ∀ {s t : State}, t.mem = s.mem → t.part = s.part → Memory.wf t = Memory.wf s := fun hmem hpart =>
    wf_congr ⟨by rw [hmem], by rw [hpart]⟩
  refine ⟨fun c s t hwf h => exec_memory_wf h hwf, fun s t hwf h => ?_⟩
  rcases step_cases h with ⟨c, u, hexec, hmem, hpart, -⟩ | ⟨c, u, v, hexec, hmem, hpart, -, hmem', hpart', -⟩ | ⟨hmem, hpart, -⟩
  · exact exec_memory_wf hexec (by rwa [hsame hmem hpart])
  · rw [hsame hmem' hpart']
    exact exec_memory_wf hexec (by rwa [hsame hmem hpart])
  · rwa [hsame hmem hpart]

/-- Settles O57, by the footprints of the commands. -/
theorem deviceCommandsFrame : Obligations.DeviceCommandsFrame := by
  unfold Obligations.DeviceCommandsFrame
  exact fun i s t _ _ h z hz => exec_zone_same h hz

/-- Settles O58, by the footprints of the commands: what a request's path to its effect and its answer change is in them. -/
theorem mailboxCommandsFrame : Obligations.MailboxCommandsFrame := by
  unfold Obligations.MailboxCommandsFrame
  exact fun i q s t _ h z hz => exec_zone_same h hz

/-- Settles O59, by the footprints of the commands. -/
theorem workCommandsFrame : Obligations.WorkCommandsFrame := by
  unfold Obligations.WorkCommandsFrame
  exact fun i s t _ _ h z hz => exec_zone_same h hz

end Sys2Proof
end

section
/-! PROOFS. A request that passes its checks: what its way to the effect and its conclusion leave alone, and that its
answer is on its way. -/

namespace Sys2Proof.Machine

variable {Z : List Spot} {s t u : State} {c : Cmd} {q : Req} {act : State → Nat → State × Option Ans}

/-! ## Whole parts of the state -/

theorem Within.mem (h : Within Z s t) (hcells : Spot.cells ∉ Z) (hmem : Spot.mem ∉ Z) : t.mem = s.mem := by
  have hc : t.mem.cells = s.mem.cells := h.1 .cells hcells
  have hr : { t.mem with cells := s.mem.cells } = s.mem := h.1 .mem hmem
  rw [← hr, ← hc]

theorem Within.part (h : Within Z s t) (hgrans : Spot.grans ∉ Z) (hpart : Spot.part ∉ Z) : t.part = s.part := by
  have hg : t.part.granules = s.part.granules := h.1 .grans hgrans
  have hr : { t.part with granules := s.part.granules } = s.part := h.1 .part hpart
  rw [← hr, ← hg]

/-! ## To the effect -/

/-- The state a request ends in that passes its checks. -/
def State.conclusion (s : State) (c : Cmd) (q : Req) (act : State → Nat → State × Option Ans) : State :=
  (s.acting c q).closed c q (s.accAt q) (s.replyOf c q) (act (s.acting c q) (s.replyOf c q))

/-- A request that passes its checks completes with what its conclusion leaves. -/
theorem completes_of_passes {i self : Instr} {checks : State → List Check} {P : State → Prop}
    (hexec : exec i s = .next (s.serve self c q checks act)) (hpass : s.passes c q checks = true)
    (h : P (s.conclusion c q act)) : Completes i s P := by
  rw [serve_of_passes hpass] at hexec
  exact ⟨_, hexec, h⟩

theorem State.atBox_within (s : State) (q : Req) (hZ : [.hub, .link] ⊆ Z) : Within Z s (s.atBox q) := by
  simp only [List.cons_subset] at hZ
  unfold State.atBox
  split <;> simp_all

theorem State.entry_within (s : State) (c : Cmd) (q : Req) (hZ : [.hub, .mbx, .cells, .mem, .part, .link, .cal, .pair] ⊆ Z) :
    Within Z s (s.entry c q) := by
  have h1 := s.atBox_within q (Z := [.hub, .mbx, .cells, .mem, .part, .link, .cal, .pair]) (by simp)
  refine Within.mono ?_ hZ
  simp [State.entry, h1]

/-- The way of a request to its effect. -/
theorem State.acting_within (s : State) (c : Cmd) (q : Req) (hZ : [.hub, .mbx, .cells, .mem, .part, .link, .cal, .pair] ⊆ Z) :
    Within Z s (s.acting c q) := by
  have h1 := s.entry_within c q (Z := [.hub, .mbx, .cells, .mem, .part, .link, .cal, .pair]) (by simp)
  refine Within.mono ?_ hZ
  simp [State.acting, h1]

/-- The command that acts is outstanding. -/
theorem State.acting_outst (s : State) (c : Cmd) (q : Req) :
    ∃ o, (s.acting c q).mbx.outst.find (s.replyOf c q) = some o ∧ o.req = q ∧ o.code = c.code :=
  ⟨_, State.opened_outst .., rfl, rfl⟩

/-! ## From the effect to the answer -/

/-- What an answer without a result area may change. -/
theorem State.answerNow_inline_within (s : State) (q : Req) (code acc : Nat) {a : Ans} (dup : Bool) (ha : a.area = 0)
    (hZ : [.mbx, .link, .pkg] ⊆ Z) : Within Z s (s.answerNow q code acc a dup) := by
  have hfill : s.fillArea q a = (s, a) := if_pos ha
  rw [State.answerNow, hfill]
  simp_all

theorem State.answer_inline_within (s : State) (r : Nat) {a : Ans} (ha : a.area = 0) (hZ : [.mbx, .link, .pair, .pkg] ⊆ Z) :
    Within Z s (s.answer r a) := by
  refine Within.mono ?_ hZ
  unfold State.answer
  split
  · exact .refl _ _
  · next o _ =>
    have h1 : Within [.mbx, .link, .pair, .pkg] s
        ((s.withoutOutst r).answerNow o.req o.code o.accepted a) :=
      .trans (by simp [State.withoutOutst]) (State.answerNow_inline_within _ _ _ _ _ ha (by simp))
    extract_lets waits s1
    split
    · simp
    · split
      · exact (State.pushMeta_within _ _ _ _ _ _ (by simp)).mpr h1
      · exact h1

/-- What a conclusion without a result area may change of an effect. -/
theorem State.closed_inline_within (s : State) (c : Cmd) (q : Req) (acc r : Nat) (y : State × Option Ans)
    (ha : ∀ a ∈ y.2, a.area = 0) (hZ : [.mbx, .link, .pair, .pkg] ⊆ Z) : Within Z y.1 (s.closed c q acc r y) := by
  refine Within.mono ?_ hZ
  have hm : ∀ l, Within [.mbx, .link, .pair, .pkg] y.1 (State.mirrorCommit s y.1 q.ep q.tag false l).1 :=
    fun l => (State.mirrorCommit_within _ _ _ _ _ _ (by simp)).mpr (.refl _ _)
  unfold State.closed
  dsimp only
  split
  · next a hy => exact .trans ((within_mbx _ (by simp)).mpr (hm _)) (State.answer_inline_within _ _ (ha a hy) (by simp))
  · exact (within_mbx _ (by simp)).mpr (hm _)

/-- What the conclusion of a request may change of its effect: with a result area, memory beside the answer's path. -/
theorem State.conclusion_within (s : State) (c : Cmd) (q : Req) (act : State → Nat → State × Option Ans)
    (hZ : [.mbx, .cells, .mem, .part, .link, .cal, .pair, .pkg] ⊆ Z) :
    Within Z (act (s.acting c q) (s.replyOf c q)).1 (s.conclusion c q act) :=
  State.closed_within _ _ _ _ _ _ hZ (.refl _ _)

theorem State.conclusion_inline_within (s : State) (c : Cmd) (q : Req) (act : State → Nat → State × Option Ans)
    (ha : ∀ a ∈ (act (s.acting c q) (s.replyOf c q)).2, a.area = 0) (hZ : [.mbx, .link, .pair, .pkg] ⊆ Z) :
    Within Z (act (s.acting c q) (s.replyOf c q)).1 (s.conclusion c q act) :=
  State.closed_inline_within _ _ _ _ _ _ ha hZ

/-- Until a trip an answer reaches its sender, whatever of its area is stored. -/
theorem State.answers_of_answerNow (s : State) (q : Req) (code acc : Nat) (a : Ans) (dup : Bool) (htrip : s.pkg.tripped = false) :
    ∃ r ∈ (s.answerNow q code acc a dup).responses q, r.code = code ∧ r.tag = q.tag ∧ r.cookie = q.cookie ∧
      { r.ans with trunc := a.trunc } = a := by
  have hpkg : (s.fillArea q a).1.pkg = s.pkg :=
    (State.fillArea_within s q a (Z := [.cells, .mem, .part, .link, .cal, .pair]) (by simp) (.refl _ _)).1 .pkg (by simp)
  have hans : { (s.fillArea q a).2 with trunc := a.trunc } = a := by
    unfold State.fillArea
    split <;> rfl
  exact ⟨_, State.mem_responses_respond q _ (by rwa [hpkg]), rfl, rfl, rfl, hans⟩

/-- The answer of an outstanding command is on its way, or committed. -/
theorem State.answers_of_answer {r : Nat} {o : Outst} (a : Ans) (ho : s.mbx.outst.find r = some o)
    (htrip : s.pkg.tripped = false) : (s.answer r a).answers o.req o.code a := by
  obtain ⟨x, hx, hcode, htag, hcookie, hans⟩ :=
    (s.withoutOutst r).answers_of_answerNow o.req o.code o.accepted a false htrip
  unfold State.answer
  split
  · next hnone => simp [ho] at hnone
  · next o' ho' =>
    obtain rfl : o = o' := Option.some.inj (ho.symm.trans ho')
    extract_lets waits s1
    split
    · exact .inr ⟨r, _, NMap.find_put _ _ _, rfl, rfl, rfl⟩
    · split
      · exact .inl ⟨x, State.mem_responses_pushMeta_of_mem hx _ _ _ _ _, hcode, htag, hcookie, hans⟩
      · exact .inl ⟨x, hx, hcode, htag, hcookie, hans⟩

/-- The effect's answer is sent, where the command is outstanding and no trip has latched. -/
theorem State.closed_answers (s : State) (c : Cmd) (q : Req) (acc r : Nat) {y : State × Option Ans} {a : Ans} {o : Outst}
    (hy : y.2 = some a) (ho : y.1.mbx.outst.find r = some o) (hreq : o.req = q) (hcode : o.code = c.code)
    (htrip : y.1.pkg.tripped = false) : (s.closed c q acc r y).answers q c.code a := by
  unfold State.closed
  extract_lets o' m s1 mbx s4
  obtain ⟨-, -, hmbx, -, -, -, hpkg⟩ : OnSent y.1 m.1 := State.mirrorCommit_sent ..
  have hfind : s4.mbx.outst.find r = some { o with mseq := m.2 } := by simp [s4, hmbx, ho]
  have hans := State.answers_of_answer a hfind (show m.1.pkg.tripped = false by rw [hpkg, htrip])
  rw [hy]
  simpa only [hreq, hcode] using hans

/-- The effect's answer is sent, where the effect leaves the command outstanding and latches no trip. -/
theorem State.conclusion_answers {checks : State → List Check} {a : Ans} (hpass : s.passes c q checks = true)
    (ha : (act (s.acting c q) (s.replyOf c q)).2 = some a)
    (hkept : Within Z (s.acting c q) (act (s.acting c q) (s.replyOf c q)).1) (hmbx : Spot.mbx ∉ Z) (hpkg : Spot.pkg ∉ Z) :
    (s.conclusion c q act).answers q c.code a := by
  obtain ⟨o, ho, hreq, hcode⟩ := s.acting_outst c q
  have hm : (act (s.acting c q) (s.replyOf c q)).1.mbx = (s.acting c q).mbx := hkept.1 .mbx hmbx
  have hp : (act (s.acting c q) (s.replyOf c q)).1.pkg = (s.acting c q).pkg := hkept.1 .pkg hpkg
  have hs : (s.acting c q).pkg = s.pkg := (s.acting_within c q (List.Subset.refl _)).1 .pkg (by simp)
  have htrip : s.pkg.tripped = false := by
    simp only [State.passes, Bool.and_eq_true, Bool.not_eq_true'] at hpass
    exact hpass.2
  exact State.closed_answers _ _ _ _ _ ha (by rw [hm, ho]) hreq hcode (by rw [hp, hs, htrip])

end Sys2Proof.Machine
end

section
/-! PROOFS. Engines and their bundles (R117). -/

namespace Sys2Proof.Machine

/-- An engine reads as what was written to it. -/
@[simp] theorem State.engine_setEngine (s : State) (c e : Nat) (x : Engine) : (s.setEngine c e x).engine c e = x := by
  simp [State.engine, State.setEngine]

theorem State.engine_setEngine_ne (s : State) {c e c' e' : Nat} (x : Engine) (h : engKey c' e' ≠ engKey c e) :
    (s.setEngine c e x).engine c' e' = s.engine c' e' := by
  simp [State.engine, State.setEngine, NMap.find_put_ne _ _ h]

@[simp] theorem State.setEngine_work (s : State) (c e : Nat) (x : Engine) : (s.setEngine c e x).eng.work = s.eng.work := rfl

/-- What an engine reads as depends on the engines alone. -/
theorem State.engine_congr {s t : State} (h : t.eng = s.eng) (c e : Nat) : t.engine c e = s.engine c e := by
  simp [State.engine, h]

end Sys2Proof.Machine

namespace Sys2Proof

open Machine

/-- Settles O18: past the conditions that hold an engine back, the bundle is issued, and charging it leaves the engines. -/
theorem bundleIssueExecutes : Obligations.BundleIssueExecutes := by
  unfold Obligations.BundleIssueExecutes
  intro core engine w s k b htrip hwork hfind hrun hcause hclock hended hhalting hbarrier x r hcode hstalls hends
  have hlaunch : ((s.engine core engine).work.bind fun w => (s.eng.work.find w).map fun k => (w, k)) = some (w, k) := by
    simp [hwork, hfind]
  have hsome : (s.codeOf k).isEmpty = false := by
    cases hl : s.codeOf k with
    | nil => simp [hl] at hcode
    | cons => rfl
  let u := { s with free := s.free + 64 }.setEngine core engine r.1
  have hexec : execBundleIssue core engine s = .next (u.chargeBundle k.deckle k.cls b) := by
    unfold execBundleIssue State.unlessTripped
    rw [htrip, if_neg Bool.false_ne_true]
    dsimp only
    rw [hlaunch]
    dsimp only
    rw [if_neg (by simp [hsome, hrun, hcause, hclock, hended, hhalting, hbarrier])]
    simp only [r, x] at hcode hstalls hends
    rw [hcode]
    dsimp only
    rw [if_neg (by rw [hstalls]; exact Bool.false_ne_true), hends]
  have hcharge : Within [.part, .cal] u (u.chargeBundle k.deckle k.cls b) := by simp
  have heng : (u.chargeBundle k.deckle k.cls b).eng = u.eng := hcharge.1 .eng (by simp)
  refine ⟨_, hexec, ?_, ?_, ?_, ?_, ?_, ?_⟩
  · rw [State.engine_congr heng, State.engine_setEngine]
  · rw [heng]; rfl
  · exact hcharge.mem (by simp) (by simp)
  · exact hcharge.1 .rgn (by simp)
  · exact hcharge.1 .link (by simp)
  · intro c e hne
    rw [State.engine_congr heng, State.engine_setEngine_ne _ _ hne]
    rfl

end Sys2Proof
end

section
/-! PROOFS. From the effect of a request to what its command completes with. -/

namespace Sys2Proof.Machine

variable {i self : Instr} {c : Cmd} {q : Req} {checks : State → List Check} {act : State → Nat → State × Option Ans}
  {s u : State} {P : State → Prop}

/-- A command that answers a state of which something holds. -/
theorem Completes.of_next {t : State} (hexec : exec i s = .next t) (h : P t) : Completes i s P := ⟨t, hexec, h⟩

/-- A request whose answer needs no result area: behind the effect only the answer's path changes. -/
theorem completes_of_effect {o : Option Ans} (hexec : exec i s = .next (s.serve self c q checks act))
    (hpass : s.passes c q checks = true) (hact : act (s.acting c q) (s.replyOf c q) = (u, o)) (harea : ∀ a ∈ o, a.area = 0)
    (h : ∀ t, Within [.mbx, .link, .pair, .pkg] u t → P t) : Completes i s P := by
  refine completes_of_passes hexec hpass (h _ ?_)
  have hw := s.conclusion_inline_within c q act (by rw [hact]; exact harea) (List.Subset.refl _)
  rwa [hact] at hw

/-- A request that is answered in place, and whose effect leaves the mailbox and the pins. -/
theorem completes_answering {a : Ans} {Z : List Spot} (hexec : exec i s = .next (s.serve self c q checks act))
    (hpass : s.passes c q checks = true) (hact : act (s.acting c q) (s.replyOf c q) = (u, some a)) (harea : a.area = 0)
    (hkept : Within Z (s.acting c q) u) (hmbx : Spot.mbx ∉ Z) (hpkg : Spot.pkg ∉ Z)
    (h : ∀ t, Within [.mbx, .link, .pair, .pkg] u t → t.answers q c.code a → P t) : Completes i s P := by
  refine completes_of_passes hexec hpass (h _ ?_ ?_)
  · have hw := s.conclusion_inline_within c q act (by simp [hact, harea]) (List.Subset.refl _)
    rwa [hact] at hw
  · exact State.conclusion_answers hpass (by rw [hact]) (by rw [hact]; exact hkept) hmbx hpkg

/-- A request that is answered with a result area, which the answer's path fills. -/
theorem completes_answering_area {a : Ans} {Z : List Spot} (hexec : exec i s = .next (s.serve self c q checks act))
    (hpass : s.passes c q checks = true) (hact : act (s.acting c q) (s.replyOf c q) = (u, some a))
    (hkept : Within Z (s.acting c q) u) (hmbx : Spot.mbx ∉ Z) (hpkg : Spot.pkg ∉ Z)
    (h : ∀ t, Within [.mbx, .cells, .mem, .part, .link, .cal, .pair, .pkg] u t → t.answers q c.code a → P t) :
    Completes i s P := by
  refine completes_of_passes hexec hpass (h _ ?_ ?_)
  · have hw := s.conclusion_within c q act (List.Subset.refl _)
    rwa [hact] at hw
  · exact State.conclusion_answers hpass (by rw [hact]) (by rw [hact]; exact hkept) hmbx hpkg

/-- What a part outside of the way to the effect holds there. -/
theorem State.acting_same {x : Spot} (s : State) (c : Cmd) (q : Req)
    (hx : x ∉ [Spot.hub, .mbx, .cells, .mem, .part, .link, .cal, .pair]) : x.same s (s.acting c q) :=
  (s.acting_within c q (List.Subset.refl _)).1 x hx

theorem State.acting_rgn (s : State) (c : Cmd) (q : Req) : (s.acting c q).rgn = s.rgn :=
  s.acting_same (x := .rgn) c q (by simp)
theorem State.acting_lode (s : State) (c : Cmd) (q : Req) : (s.acting c q).lode = s.lode :=
  s.acting_same (x := .lode) c q (by simp)
theorem State.acting_eng (s : State) (c : Cmd) (q : Req) : (s.acting c q).eng = s.eng :=
  s.acting_same (x := .eng) c q (by simp)
theorem State.acting_board (s : State) (c : Cmd) (q : Req) : (s.acting c q).board = s.board :=
  s.acting_same (x := .board) c q (by simp)
theorem State.acting_now (s : State) (c : Cmd) (q : Req) : (s.acting c q).now = s.now :=
  s.acting_same (x := .now) c q (by simp)
theorem State.acting_sec (s : State) (c : Cmd) (q : Req) : (s.acting c q).sec = s.sec :=
  s.acting_same (x := .sec) c q (by simp)
theorem State.acting_form (s : State) (c : Cmd) (q : Req) : (s.acting c q).form = s.form :=
  s.acting_same (x := .form) c q (by simp)
theorem State.acting_retr (s : State) (c : Cmd) (q : Req) : (s.acting c q).retr = s.retr :=
  s.acting_same (x := .retr) c q (by simp)
theorem State.acting_laid (s : State) (c : Cmd) (q : Req) : (s.acting c q).laid = s.laid :=
  s.acting_same (x := .laid) c q (by simp)
theorem State.acting_xlat (s : State) (c : Cmd) (q : Req) : (s.acting c q).xlat = s.xlat :=
  s.acting_same (x := .xlat) c q (by simp)
theorem State.acting_attn (s : State) (c : Cmd) (q : Req) : (s.acting c q).attn = s.attn :=
  s.acting_same (x := .attn) c q (by simp)
theorem State.acting_couch (s : State) (c : Cmd) (q : Req) : (s.acting c q).couch = s.couch :=
  s.acting_same (x := .couch) c q (by simp)

/-! ## What reads alike in states with a part in common -/

theorem State.core_congr {s t : State} (h : t.eng = s.eng) (c : Nat) : t.core c = s.core c := by simp [State.core, h]
theorem State.port_congr {s t : State} (h : t.link = s.link) (p : Nat) : t.port p = s.port p := by simp [State.port, h]
theorem State.group_congr {s t : State} (h : t.mem = s.mem) (g : Nat) : t.group g = s.group g := by simp [State.group, h]

/-! ## Deckles under charges -/

/-- A change of one deckle is not seen by what it leaves alone. -/
theorem State.modDeckle_map {β : Type} (s : State) (d x : Nat) {g : Deckle → Deckle} {f : Deckle → β} (hf : ∀ k, f (g k) = f k) :
    ((s.modDeckle d g).part.deckles.find x).map f = (s.part.deckles.find x).map f := by
  simp only [State.modDeckle, NMap.find_upd]
  split
  · simp [Function.comp_def, hf]
  · rfl

/-- The energy charged to a deckle changes nothing else of any deckle. -/
theorem State.charge_deckle {β : Type} (s : State) (d cls kind pj x : Nat) (f : Deckle → β)
    (hf : ∀ k a, f { k with activity := a } = f k) :
    ((s.charge d cls kind pj).part.deckles.find x).map f = (s.part.deckles.find x).map f := by
  unfold State.charge
  split
  · exact s.modDeckle_map _ _ fun k => hf k _
  · rfl

theorem State.chargeTier_deckle {β : Type} (s : State) (d cls : Nat) (t : Tier) (pj n x : Nat) (f : Deckle → β)
    (hf : ∀ k a, f { k with activity := a } = f k) :
    ((s.chargeTier d cls t pj n).part.deckles.find x).map f = (s.part.deckles.find x).map f := by
  cases t <;> simp [State.chargeTier, State.charge_deckle _ _ _ _ _ _ _ hf]

end Sys2Proof.Machine
end

section
/-! PROOFS. Resets, trips, readiness and the sideband (R345 to R354). -/

namespace Sys2Proof.Machine

/-! ## Trips and readiness -/

/-- What a trip leaves (R347). -/
theorem State.trip_leaves (s : State) (thermal : Bool) (cause sensor rail value : Nat) :
    let t := s.trip thermal cause sensor rail value
    t.pkg.tripped = true ∧ t.pkg.thermTrip = true ∧ t.pkg.recThermal = thermal ∧ t.pkg.recSupply = !thermal ∧
      t.hub.phase = .poweringDown ∧ t.sec.keys = [] ∧ t.mem = s.mem := by
  unfold State.trip
  extract_lets pkg k quiet link s1 s2 sec0 sec t
  have hw : Within [.mbx, .link] s1 s2 := by simp [s2]
  have hpkg : t.pkg = s1.pkg := hw.1 .pkg (by simp)
  have hhub : t.hub = s1.hub := hw.1 .hub (by simp)
  have hmem : t.mem = s1.mem := hw.mem (by simp) (by simp)
  rw [hpkg, hhub, hmem]
  exact ⟨rfl, rfl, rfl, rfl, rfl, rfl, rfl⟩

/-- A unit that fails out leaves its group ready and sealed as it was. -/
theorem State.failOut_group (s : State) (g u cause x : Nat) :
    ((s.failOut g u cause).mem.groups.find x).map (fun y => (y.ready, y.sealed)) =
      (s.mem.groups.find x).map fun y => (y.ready, y.sealed) := by
  have hmod : ∀ (f : Group → Group) (r : LogRec), (∀ y, ((f y).ready, (f y).sealed) = (y.ready, y.sealed)) →
      (((s.modGroup g f).logRec r).mem.groups.find x).map (fun y => (y.ready, y.sealed)) =
        (s.mem.groups.find x).map fun y => (y.ready, y.sealed) := by
    intro f r hf
    have hlog : ((s.modGroup g f).logRec r).mem.groups = s.mem.groups.upd g f := by
      unfold State.logRec
      split <;> rfl
    rw [hlog, NMap.find_upd]
    split
    · simp [Function.comp_def, hf]
    · rfl
  unfold State.failOut
  extract_lets y pos start
  split
  · rfl
  · split
    · exact hmod _ _ fun _ => rfl
    · split
      · exact hmod _ _ fun _ => rfl
      · exact hmod _ _ fun _ => rfl

/-- A group that becomes ready is sealed where the boot chose filling (R354). -/
theorem State.groupReady_group {s : State} {g : Nat} (fn index : Nat) (untrained : List Nat) (hg : s.mem.groups.has g = true) :
    ((s.groupReady g fn index untrained).group g).ready = true ∧
      ((s.groupReady g fn index untrained).group g).sealed = s.hub.fillAtStart := by
  unfold State.groupReady
  extract_lets sp bad filled s1 s2
  have hw : Within [.mbx, .link, .pkg] s2 (s2.announce fn index bad.head? filled) := by simp
  have hmem : (s2.announce fn index bad.head? filled).mem = s2.mem := hw.mem (by simp) (by simp)
  have hs1 : (s1.mem.groups.find g).map (fun y => (y.ready, y.sealed)) = some (true, filled) := by
    obtain ⟨y, hy⟩ := Option.isSome_iff_exists.mp (show (s.mem.groups.find g).isSome = true from hg)
    simp [s1, State.modGroup, hy]
  have hs2 : (s2.mem.groups.find g).map (fun y => (y.ready, y.sealed)) = some (true, filled) := by
    rcases hbad : bad with _ | ⟨u, us⟩
    · simpa only [s2, hbad] using hs1
    · simp only [s2, hbad]
      rw [State.failOut_group, hs1]
  obtain ⟨y, hy, hpair⟩ := Option.map_eq_some_iff.mp hs2
  simp only [Prod.mk.injEq] at hpair
  simp only [State.group, hmem, hy, Option.getD_some]
  exact hpair

end Sys2Proof.Machine

namespace Sys2Proof

open Machine

/-- Settles O42: every part of a reset or a trip is set by it alone. -/
theorem resetAndTripComplete : Obligations.ResetAndTripComplete := by
  unfold Obligations.ResetAndTripComplete
  refine ⟨fun lost s => ⟨_, rfl, rfl, rfl, rfl, rfl, rfl, rfl, rfl⟩, fun s h => ⟨_, rfl, by simp [h]⟩, fun s hcold htrip => ⟨_, rfl, ?_⟩,
    fun s h => ⟨_, rfl, by simp [h]⟩, ?_, ?_⟩
  · rw [if_neg (by simp [hcold, htrip])]
    exact ⟨rfl, rfl, rfl, rfl, rfl, rfl, rfl⟩
  · intro i v s hi hv htrip hcold
    refine ⟨_, rfl, ?_⟩
    rw [if_neg (by simp [htrip, hcold]; omega)]
    obtain ⟨htripped, hpin, hthermal, -, hphase, hkeys, hmem⟩ := State.trip_leaves
      { s with pkg := { s.pkg with sensors := setAt s.pkg.sensors i v } } true 0 i 0 v
    exact ⟨htripped, hpin, hphase, hkeys, hthermal, hmem⟩
  · intro c r v s h1 h3 htrip hcold
    refine ⟨_, rfl, ?_⟩
    rw [if_neg (by simp [htrip, hcold]; omega)]
    obtain ⟨htripped, hpin, -, hsupply, hphase, hkeys, hmem⟩ := s.trip_leaves false c 0 r v
    exact ⟨htripped, hpin, hphase, hkeys, hsupply, hmem⟩

/-- Settles O43: announcing a function leaves what became ready. -/
theorem readinessCompletes : Obligations.ReadinessCompletes := by
  unfold Obligations.ReadinessCompletes
  refine ⟨?_, ?_, ?_, ?_, ?_, ?_, ?_, ?_⟩
  · intro s hreset hcount
    refine ⟨_, rfl, ?_⟩
    rw [if_neg (by simp [hreset, hcount])]
    exact ⟨rfl, rfl, rfl⟩
  · intro s hreset hready
    refine ⟨_, rfl, ?_⟩
    rw [if_neg (by simp [hreset, hready])]
    have hw : ∀ u : State, Within [.mbx, .link, .pkg] u (u.announce 6 0) := fun u => by simp
    exact congrArg Hub.stagingReady ((hw _).1 .hub (by simp))
  · intro s hreset hready
    refine ⟨_, rfl, ?_⟩
    rw [if_neg (by simp [hreset, hready])]
    have hw : ∀ u : State, Within [.mbx, .link, .pkg] u (u.announce 0 0) := fun u => by simp
    exact congrArg Hub.bedrockReady ((hw _).1 .hub (by simp))
  · intro s hfw hready
    refine ⟨_, rfl, ?_⟩
    rw [if_neg (by simp [hfw, hready])]
    have hraise : ∀ u : State, Within [.mbx, .link, .pkg] u u.raiseReady := fun u => by simp
    have hpump : ∀ u : State, Within [.mbx, .link] u u.pumpRings := fun u => by simp
    refine ⟨?_, ?_⟩
    · exact congrArg Hub.ready (((hpump _).1 .hub (by simp)).trans ((hraise _).1 .hub (by simp)))
    · exact congrArg Pkg.readyWait ((hpump _).1 .pkg (by simp))
  · intro s hrun hready hphase htrip
    refine ⟨_, rfl, ?_⟩
    rw [if_neg (by simp [hready, hphase, htrip, ← Option.not_isSome, hrun])]
    have hw : ∀ u : State, Within [.free, .hub, .mbx, .part, .link, .pair, .pkg] u (u.announce 3 0).keyPorts := fun u => by simp
    exact congrArg Sec.ready ((hw _).1 .sec (by simp))
  · intro c s hrun hc hready htrip
    refine ⟨_, rfl, ?_⟩
    rw [if_neg (by simp [hready, htrip, ← Option.not_isSome, hrun]; omega)]
    have hw : ∀ u : State, Within [.mbx, .link, .pkg] u (u.announce 4 c) := fun u => by simp
    exact (State.core_congr ((hw _).1 .eng (by simp)) c).trans (State.core_modCore ..)
  · intro u s hrun hready hgroup hlost htrip
    refine ⟨_, rfl, ?_⟩
    rw [if_neg (by simp [hready, htrip, ← Option.not_isSome, hrun]; omega)]
    exact State.groupReady_group _ _ _ hgroup
  · intro d u s hrun hpop hready hgroup hfailed hlegal hlost htrip
    refine ⟨_, rfl, ?_⟩
    rw [if_neg (by rw [hpop, hready, hfailed, htrip, ← Option.not_isSome, hrun]; simp), if_neg (by simp [hlegal]; omega)]
    exact State.groupReady_group _ _ _ hgroup

end Sys2Proof
end

section
/-! PROOFS. The sideband: I3C, the test port, debug over JTAG and the rails (R342, R350, R351). -/

namespace Sys2Proof.Machine

/-- A session that opens changes the mailbox and the ports beside security. -/
theorem State.openSession_sec (s : State) (ms : Nat) (jtag : Bool) : (s.openSession ms jtag).sec =
    { s.sec with session := some ⟨s.now + ms * 1000000, jtag⟩, debugEver := true, jtagEver := s.sec.jtagEver || jtag,
                 sessions := sat 16 (s.sec.sessions + 1) } := by
  unfold State.openSession
  extract_lets sec s1
  have hw : Within [.mbx, .link] s1 ((s1.part.deckles.keys.filter (· != 0)).foldl (fun a d => a.raise 0x0A01 (.deckle d))
      (s1.raise 0x0A01 .device)) := by simp
  exact hw.1 .sec (by simp)

/-- What an acknowledged rail lets the cores of its die take is their clocks. -/
theorem execVsetAck_clocks {s : State} {die mv : Nat} (hwait : s.pkg.vsetWait.find die = some mv) :
    ∃ t, execVsetAck die s = .next t ∧ Within [.eng] { s with pkg := { s.pkg with
      vddEng := setAt s.pkg.vddEng die mv, vsetWait := s.pkg.vsetWait.del die } } t := by
  unfold execVsetAck
  rw [hwait]
  refine ⟨_, rfl, within_foldl _ _ (fun a i => ?_) (.refl _ _)⟩
  dsimp only
  split
  · simp
  · simp

end Sys2Proof.Machine

namespace Sys2Proof

open Machine

/-- Settles O44: each command of the sideband sets the pins' state it names. -/
theorem sidebandCommandsComplete : Obligations.SidebandCommandsComplete := by
  unfold Obligations.SidebandCommandsComplete
  refine ⟨?_, ?_, fun s => ⟨_, rfl, rfl, rfl, rfl⟩, fun s => ⟨_, rfl, rfl, rfl⟩, fun s => ⟨_, rfl, rfl, rfl, rfl⟩, ?_,
    fun x s => ⟨_, rfl, rfl, rfl, rfl⟩, ?_, fun s => ⟨_, rfl, rfl, rfl, rfl⟩, ?_, fun s => ⟨_, rfl, rfl, rfl⟩,
    fun c s => ⟨_, rfl, rfl, rfl, rfl, rfl⟩, ?_⟩
  · intro s r l h
    refine ⟨_, rfl, ?_⟩
    rw [h]
    exact ⟨rfl, rfl⟩
  · intro a s h
    exact ⟨_, rfl, if_pos h⟩
  · intro s
    refine ⟨_, rfl, ?_⟩
    cases h : s.pkg.healthOk <;> exact ⟨rfl, rfl⟩
  · intro s
    refine ⟨_, rfl, ?_⟩
    cases h : s.pkg.healthOk <;> exact ⟨rfl, rfl⟩
  · intro ms n s hfw hready hms hsession
    have hst : s.dbgStatus ms = .ok := by simp [State.dbgStatus, hfw, hready, hms, hsession]
    have hexec : execDbgOpen ms s = .next ((s.openSession n true).tap .dbgOpen false false 32 (statusCode .ok)) := by
      simp [execDbgOpen, hst, hms]
    have hsec := s.openSession_sec n true
    exact ⟨_, hexec, congrArg Sec.session hsec, (congrArg Sec.jtagEver hsec).trans (Bool.or_true _), rfl⟩
  · intro die mv s hwf hwait
    obtain ⟨t, hexec, hw⟩ := execVsetAck_clocks hwait
    have hpkg := hw.1 .pkg (by simp)
    refine ⟨t, hexec, congrArg Pkg.vddEng hpkg, ?_, hw.mem (by simp) (by simp), hw.part (by simp) (by simp)⟩
    rw [congrArg Pkg.vsetWait hpkg]
    exact NMap.find_del hwf _

end Sys2Proof
end

section
/-! PROOFS. Packets that are put on an egress, and the ports: credits, training, key exchange and timers
(R211 to R233). -/

namespace Sys2Proof.Machine

variable {s t u : State}

/-! ## What sending leaves of a port -/

/-- From `s` to `t` packets were put on the egress of ports that are up, and nothing else of any port changed. -/
def OnEgress (s t : State) : Prop :=
  ∀ p, { t.port p with txq := (s.port p).txq, tags := (s.port p).tags } = s.port p ∧
    ((s.port p).up = false → t.port p = s.port p)

theorem OnEgress.refl (s : State) : OnEgress s s := fun _ => ⟨rfl, fun _ => rfl⟩

/-- What a port reads as beside its egress. -/
theorem OnEgress.field {β : Type} (h : OnEgress s t) (p : Nat) (f : Port → β) (hf : ∀ x q g, f { x with txq := q, tags := g } = f x) :
    f (t.port p) = f (s.port p) := by
  have h1 := hf (t.port p) (s.port p).txq (s.port p).tags
  rw [(h p).1] at h1
  exact h1.symm

theorem OnEgress.port_of_down (h : OnEgress s t) {p : Nat} (hp : (s.port p).up = false) : t.port p = s.port p := (h p).2 hp

theorem OnEgress.up (h : OnEgress s t) (p : Nat) : (t.port p).up = (s.port p).up := h.field p _ fun _ _ _ => rfl

theorem OnEgress.trans (h : OnEgress s t) (k : OnEgress t u) : OnEgress s u := by
  intro p
  refine ⟨?_, fun hp => ?_⟩
  · have h1 := (h p).1
    rw [← (k p).1] at h1
    exact h1
  · rw [k.port_of_down ((h.up p).trans hp), h.port_of_down hp]

theorem OnEgress.of_link (h : t.link = s.link) : OnEgress s t := fun p => by simp [State.port_congr h]

theorem onEgress_foldl {α : Type} (l : List α) (f : State → α → State) (h : ∀ a x, OnEgress a (f a x)) (s : State) :
    OnEgress s (l.foldl f s) := by
  induction l generalizing s with
  | nil => exact .refl s
  | cons x l ih => exact (h s x).trans (ih _)

theorem onEgress_enqueue (s : State) {p : Nat} (vc queue deckle : Nat) (m : Msg) (cls : Nat) (hp : s.portActive p = true) :
    OnEgress s (s.enqueue p vc queue deckle m cls) := by
  intro r
  unfold State.enqueue
  split
  · exact ⟨rfl, fun _ => rfl⟩
  · by_cases hr : r = p
    · subst hr
      rw [State.port_modPort]
      exact ⟨rfl, fun hdown => by rw [State.portActive, hdown] at hp; exact absurd hp Bool.false_ne_true⟩
    · rw [State.port_modPort_ne _ _ _ _ hr]
      exact ⟨rfl, fun _ => rfl⟩

theorem onEgress_foldl_enqueue {α : Type} (l : List α) {p : Nat} (vc queue deckle : α → Nat) (m : α → Msg) (s : State)
    (hp : s.portActive p = true) : OnEgress s (l.foldl (fun a x => a.enqueue p (vc x) (queue x) (deckle x) (m x)) s) := by
  induction l generalizing s with
  | nil => exact .refl s
  | cons x l ih =>
    have h1 := onEgress_enqueue s (vc x) (queue x) (deckle x) (m x) 0 hp
    exact h1.trans (ih _ ((h1.up p).trans hp))

theorem State.portActive_of_route {ep p : Nat} (h : s.route ep = some p) : s.portActive p = true := by
  obtain ⟨e, -, he⟩ := Option.bind_eq_some_iff.mp h
  split at he
  · next hactive => rwa [← Option.some.inj he]
  · cases he

theorem onEgress_pumpRing (s : State) (recv : Nat) : OnEgress s (s.pumpRing recv) := by
  unfold State.pumpRing State.pumpRingIf
  split
  · split
    · next r ep _ _ p hroute =>
      split
      · exact (onEgress_foldl_enqueue _ _ _ _ _ _ (State.portActive_of_route hroute)).trans (.of_link rfl)
      · exact .refl s
    · exact .refl s
  · exact .refl s

theorem onEgress_pushRing (s : State) (recv : Nat) (dev : Bool) (code deckle source params : Nat) :
    OnEgress s (s.pushRing recv dev code deckle source params) :=
  (OnEgress.of_link rfl).trans (onEgress_pumpRing _ _)

/-- An event goes to the egress of its receiver's port. -/
theorem onEgress_raise (s : State) (code : Nat) (who : Recv) (source params about : Nat) :
    OnEgress s (s.raise code who source params about) := by
  unfold State.raise
  split
  · exact .refl s
  · cases who with
    | device => exact onEgress_pushRing _ _ _ _ _ _ _
    | deckle d => exact onEgress_pushRing _ _ _ _ _ _ _
    | both d =>
      dsimp only
      split
      · exact onEgress_pushRing _ _ _ _ _ _ _
      · exact (onEgress_pushRing _ _ _ _ _ _ _).trans (onEgress_pushRing _ _ _ _ _ _ _)

theorem onEgress_announce (s : State) (fn index : Nat) (lost : Option Nat) (filled : Bool) (peer : Option Nat) :
    OnEgress s (s.announce fn index lost filled peer) := by
  unfold State.announce
  extract_lets params
  split
  · exact onEgress_raise _ _ _ _ _ _
  · exact .of_link rfl

theorem onEgress_deliverHeld (s : State) (ep : Nat) : OnEgress s (s.deliverHeld ep) := by
  unfold State.deliverHeld
  split
  · exact .refl s
  · next p hroute =>
    extract_lets mine todo mbx s1 s2
    have h1 : OnEgress s s1 := .of_link rfl
    have hp : s1.portActive p = true := (h1.up p).trans (State.portActive_of_route hroute)
    have h2 : OnEgress s1 s2 := onEgress_foldl_enqueue _ _ _ _ _ _ hp
    exact (h1.trans h2).trans (onEgress_foldl _ _ (fun a d => onEgress_pumpRing a d) _)

theorem onEgress_wakePort (s : State) (p : Nat) : OnEgress s (s.wakePort p) :=
  onEgress_foldl _ _ (fun a e => onEgress_deliverHeld a e) _

/-! ## A port goes down and comes up (R227, R230) -/

/-- A port that goes down stays as it is left: what is sent on goes to ports that are up. -/
@[simp] theorem State.portDown_port (s : State) (p cause : Nat) : (s.portDown p cause).port p = (s.port p).downed s.now := by
  unfold State.portDown
  extract_lets x evs s1 rings mbx s2 s3 s4
  have hs1 : s2.port p = (s.port p).downed s.now := State.port_setPort s p _
  have h3 : OnEgress s2 s3 := by
    unfold s3 State.resendRecords
    split
    · extract_lets o mine moved pair s5
      split
      · next hactive => exact (OnEgress.of_link rfl).trans (onEgress_foldl_enqueue _ _ _ _ _ _ hactive)
      · exact .of_link rfl
    · exact .refl _
  have h4 : OnEgress s3 s4 := onEgress_raise _ _ _ _ _ _
  have hlast : Within [.hub, .mbx, .part] s4
      (((s4.part.eps.filter fun e => e.2.port == p).map Prod.fst).foldl (fun a e => a.freeIfIdle e) s4) := by simp
  have h5 := (h3.trans h4).trans (.of_link (hlast.1 .link (by simp)))
  rw [h5.port_of_down (by rw [hs1]; rfl), hs1]

/-- A trained port becomes active with the credits it has. -/
theorem State.becomeActive_port (s : State) (p : Nat) :
    ((s.becomeActive p).port p).train = .active ∧ ((s.becomeActive p).port p).txCred = (s.port p).txCred := by
  unfold State.becomeActive
  extract_lets x s1 s2 n first s3
  have hf : ∀ {u t : State}, OnEgress u t → (u.port p).train = .active → (u.port p).txCred = (s.port p).txCred →
      (t.port p).train = .active ∧ (t.port p).txCred = (s.port p).txCred := fun h htrain hcred =>
    ⟨(h.field p Port.train fun _ _ _ => rfl).trans htrain, (h.field p Port.txCred fun _ _ _ => rfl).trans hcred⟩
  split
  · have h2 : (s2.port p).train = .active ∧ (s2.port p).txCred = (s.port p).txCred := by
      unfold s2
      split
      · exact hf (onEgress_enqueue _ _ _ _ _ _ (by simp [State.portActive, Port.up, s1])) (by simp [s1]) (by simp [s1, x])
      · exact hf (onEgress_announce _ _ _ _ _ _) (by simp [s1]) (by simp [s1, x])
    exact hf (onEgress_wakePort s2 p) h2.1 h2.2
  · exact hf (onEgress_raise _ _ _ _ _ _) (by simp [s3]) (by simp [s3, x])

end Sys2Proof.Machine
end

section
/-! PROOFS. Credits, training, key exchange and the timers of a port (R211 to R233). -/

namespace Sys2Proof.Machine

/-- Without encryption a port that was trained becomes active. -/
theorem State.trained_open {s : State} {p : Nat} (hcap : ((s.port p).partner.map (·.encCapable)).getD false = false)
    (hreq : s.encRequired = false) : s.trained p = s.becomeActive p := by
  unfold State.trained
  dsimp only
  rw [hcap, hreq]
  rfl

end Sys2Proof.Machine

namespace Sys2Proof

open Machine

/-- Settles O30: a port that counts credits keeps them when it becomes active. -/
theorem linkCreditsComplete : Obligations.LinkCreditsComplete := by
  unfold Obligations.LinkCreditsComplete
  refine ⟨?_, ?_, ?_⟩
  · intro p counts s htrain
    refine .of_next rfl fun v hv => ?_
    rw [State.port_modPort, if_pos (by simp [htrain])]
    simp [at0, List.getD, hv]
  · intro p counts s htrain hfull hcap hreq
    let u := s.setPort p { s.port p with txCred := (List.range 6).map fun v => min 65535 (at0 counts v) }
    have hport : u.port p = _ := State.port_setPort s p _
    have hexec : execCreditInit p counts s = .next (u.becomeActive p) := by
      rw [← State.trained_open (s := u) (by rw [hport]; exact hcap) hreq]
      simp [execCreditInit, htrain, hfull, u]
    obtain ⟨hactive, hcred⟩ := u.becomeActive_port p
    refine ⟨_, hexec, hactive, fun v hv => ?_⟩
    rw [hcred, hport]
    simp [at0, List.getD, hv]
  · intro p s hup hbulk howed
    have hall : (s.port p).owed.all (· == 0) = false := by
      rw [← Bool.not_eq_true', List.not_all_eq_any_not]
      exact howed
    have hexec : execCreditReturnTimer p s = .next (s.returnCredits p) := by
      simp [execCreditReturnTimer, hall, hup, State.grantShared, hbulk]
    refine ⟨_, hexec, ?_⟩
    unfold State.returnCredits
    dsimp only
    rw [hall, if_neg Bool.false_ne_true, State.port_setPort]
    exact ⟨rfl, rfl⟩

/-- Settles O31: a step of the training sets the port alone, and what goes with it leaves the port. -/
theorem linkTrainingComplete : Obligations.LinkTrainingComplete := by
  unfold Obligations.LinkTrainingComplete
  refine ⟨?detect, ?equalise, ?align, ?paramA, ?paramB, ?retrain, ?pattern, ?resume, ?fail, ?lanes, ?rate, ?lost, ?wait⟩
  case detect =>
    intro p s h
    refine .of_next rfl ?_
    rw [if_pos (by simp [h]), State.port_setPort]
  case equalise =>
    intro p s h
    refine .of_next rfl ?_
    rw [if_pos (by simp [h]), State.port_setPort]
  case align =>
    intro p passed s h
    refine .of_next rfl ?_
    intro lanes
    rw [if_pos (show ((s.port p).train == .align) = true by simp [h])]
    by_cases hz : lanes = 0
    · rw [if_pos hz, if_pos hz, State.portDown_port]; rfl
    · rw [if_neg hz, if_neg hz, State.port_setPort]; exact ⟨rfl, rfl⟩
  case paramA =>
    intro p a s htrain hgot
    refine .of_next rfl ?_
    rw [if_pos (by simp [htrain])]
    simp [State.paramsDone, hgot]
  case paramB =>
    intro p ack replay down rsvd w g a s htrain hgot hpartner hlink hwidth
    refine .of_next rfl ?_
    rw [if_pos (by simp [htrain])]
    have hlink' : ∀ x, a.linkId ≠ (s.setPort p x).linkId p := fun _ => hlink
    unfold State.paramsDone
    simp only [State.port_setPort, hgot, hpartner, Bool.and_self, Bool.not_true, Bool.false_eq_true, if_false,
      if_neg (hlink' _), hwidth]
    cases (s.port p).full <;> exact ⟨rfl, rfl, rfl, rfl⟩
  case retrain =>
    intro p linkId width cause rsvd s htrain
    refine .of_next rfl ?_
    rw [if_pos (by simp [htrain])]
    simp [State.startRetrain]
  case pattern =>
    intro p s htrain
    refine .of_next rfl ?_
    rw [if_pos (by simp [htrain])]
    simp [State.startRetrain]
  case resume =>
    intro p m b rsvd s htrain hfull
    refine .of_next rfl ?_
    rw [if_pos (by simp [htrain, hfull])]
    exact (State.becomeActive_port _ p).1
  case fail =>
    intro p s htrain
    refine .of_next rfl ?_
    rcases htrain with h | h | h | h <;> rw [h] <;> exact State.portDown_port .. ▸ ⟨rfl, rfl⟩
  case lanes =>
    intro p lanes s htrain hsome hall
    refine .of_next rfl ?_
    rw [if_pos (by simp [htrain, hsome, hall])]
    simp [State.startRetrain]
  case rate =>
    intro p lane s htrain hbit
    refine .of_next rfl ?_
    rw [if_pos (by rw [htrain, bitOf, hbit]; rfl)]
    simp [State.startRetrain]
  case lost =>
    intro p s htrain
    refine .of_next rfl ?_
    rw [htrain]
    exact congrArg Port.train (s.portDown_port p 2)
  case wait =>
    intro p s htrain
    refine .of_next rfl ?_
    rw [if_pos (by simp [htrain])]
    simp

end Sys2Proof
end

section
/-! PROOFS. The timers of a port and its flits (R211 to R223, R232, R242). -/

namespace Sys2Proof.Machine

/-- Slots put on the bypass queue one by one join it in their order. -/
theorem State.port_foldl_bypassSlot {α : Type} (l : List α) (f : α → Slot) (s : State) (p : Nat) :
    (l.foldl (fun a x => a.bypassSlot p (f x)) s).port p = { s.port p with bq := (s.port p).bq ++ l.map f } := by
  induction l generalizing s with
  | nil => simp
  | cons x l ih =>
    rw [List.foldl_cons, ih, State.bypassSlot, State.port_modPort]
    simp

/-- A new flit is stored under the port's next sequence number, with its packet's class and fill (R213). -/
theorem State.sendNew_port (s : State) (p i : Nat) (e : Egress) :
    let t := s.sendNew p i e
    (t.port p).txSeq = ((s.port p).txSeq + 1) % 65536 ∧
      ∃ f, (t.port p).sent = .data f false ∧ f.seq = (s.port p).txSeq ∧ f.vc = e.vc ∧ f.fill = e.fill ∧
        (t.port p).replay = (s.port p).replay ++ [f] := by
  unfold State.sendNew
  extract_lets x n txq f x1 x2 s1 t
  have hcharge : ∀ u : State, Within [.part, .cal] u (u.charge e.deckle e.cls 3 3100) := fun u => by simp
  have hs1 : s1.port p = x2 := (State.port_congr ((hcharge _).1 .link (by simp)) p).trans (State.port_setPort ..)
  have hkeep : ∀ {u : State}, ((u.port p).txSeq, (u.port p).sent, (u.port p).replay) = (x2.txSeq, x2.sent, x2.replay) →
      (u.port p).txSeq = ((s.port p).txSeq + 1) % 65536 ∧
        ∃ f, (u.port p).sent = .data f false ∧ f.seq = (s.port p).txSeq ∧ f.vc = e.vc ∧ f.fill = e.fill ∧
          (u.port p).replay = (s.port p).replay ++ [f] := by
    intro u hu
    simp only [Prod.mk.injEq] at hu
    obtain ⟨hseq, hsent, hreplay⟩ := hu
    exact ⟨hseq, f, hsent, rfl, rfl, rfl, hreplay⟩
  have hkeyx : (((s1.startKeyx p).port p).txSeq, ((s1.startKeyx p).port p).sent, ((s1.startKeyx p).port p).replay) =
      (x2.txSeq, x2.sent, x2.replay) := by
    rw [← hs1]
    unfold State.startKeyx
    split
    · rfl
    · extract_lets u
      have hu : u.port p = _ := State.port_modPort ..
      split
      · unfold State.sendKeyx
        extract_lets a b m
        rw [State.port_modPort, State.port_congr (s := u) (by rfl), hu]
      · rw [hu]
  unfold t
  split
  · exact hkeep hkeyx
  · exact hkeep (by rw [hs1])

theorem State.modPort_now (s : State) (p : Nat) (f : Port → Port) : (s.modPort p f).now = s.now := rfl

end Sys2Proof.Machine

namespace Sys2Proof

open Machine

/-- Settles O32: a timer runs no earlier than its time and sets its port. -/
theorem linkTimersComplete : Obligations.LinkTimersComplete := by
  unfold Obligations.LinkTimersComplete
  refine ⟨?keyx, ?keyxTimeout, ?ack, ?nak, ?replay, ?claim, ?lease⟩
  case keyx =>
    intro p m s htrain hkey
    refine .of_next rfl ?_
    rw [if_pos (by simpa using htrain), if_pos hkey]
  case keyxTimeout =>
    intro p since s hkeyx hbulk
    have hexec : execKeyxTimeout p s = .next ((s.reach (since + 10000000)).portDown p 3) := by
      simp [execKeyxTimeout, hkeyx, hbulk]
    have hw : Within [.hub, .mbx, .part, .link, .pair] (s.reach (since + 10000000))
      ((s.reach (since + 10000000)).portDown p 3) := by simp
    have hnow : ((s.reach (since + 10000000)).portDown p 3).now = _ := hw.1 .now (by simp)
    refine ⟨_, hexec, congrArg Port.train (State.portDown_port _ p 3), ?_⟩
    rw [hnow, State.reach_now]
    omega
  case ack =>
    intro p s h
    refine .of_next rfl ?_
    rw [if_neg h, State.port_modPort]
    exact ⟨rfl, by rw [State.modPort_now, State.reach_now]; omega⟩
  case nak =>
    intro p at_ bypass s h
    refine .of_next rfl ?_
    rw [h]
    refine ⟨?_, by rw [State.modPort_now, State.reach_now]; omega⟩
    dsimp only
    rw [State.port_modPort]
    cases bypass <;> rfl
  case replay =>
    intro p f fs s htrain hreplay
    refine .of_next rfl ?_
    simp [htrain, hreplay]
  case claim =>
    intro p at_ s h
    let u := (s.reach (at_ + 1000000)).modPort p fun x => { x with peerWait := none }
    have hexec : execPeerClaimTimeout p s = .next (u.announce 1 p) := by simp [execPeerClaimTimeout, h, u]
    have hw : Within [.mbx, .link, .pkg] u (u.announce 1 p) := by simp
    have hnow : (u.announce 1 p).now = max s.now (at_ + 1000000) := by
      rw [show (u.announce 1 p).now = u.now from hw.1 .now (by simp), State.modPort_now, State.reach_now]
    refine ⟨_, hexec, ?_, by rw [hnow]; omega⟩
    rw [(onEgress_announce u 1 p none false none).field p Port.peerWait fun _ _ _ => rfl, State.port_modPort]
  case lease =>
    intro p e s hown htrain
    have hexec : execDeviceEndpointLeaseTick p s =
        .next ((s.port p).remoteDeckles.foldl (fun a d => a.bypassSlot p (.lease e d)) s) := by
      simp [execDeviceEndpointLeaseTick, hown, htrain]
    exact ⟨_, hexec, congrArg Port.bq (State.port_foldl_bypassSlot _ (Slot.lease e) s p)⟩

/-- Settles O29: which flit goes is decided by the order of FLIT_TRANSMIT, and a flit that comes sets the port alone. -/
theorem linkFlitsComplete : Obligations.LinkFlitsComplete := by
  unfold Obligations.LinkFlitsComplete
  refine ⟨?bypass, ?replay, ?new, ?idle, ?data, ?bad, fun p s => .of_next rfl rfl, ?seqd, ?unseqd⟩
  case bypass =>
    intro p s htrain hstart hleft hnew hwants
    refine .of_next rfl ?_
    simp [htrain, hstart, hleft, hnew, hwants]
  case replay =>
    intro p s htrain hstart hleft hsince
    refine .of_next rfl ?_
    simp [htrain, hstart, hleft, hsince]
  case new =>
    intro p i e s htrain hstart hleft hsince hmay hchoose
    have hexec : execFlitTransmit p s = .next (s.sendNew p i e) := by
      simp [execFlitTransmit, htrain, hstart, hleft, hsince, hmay, hchoose]
    exact ⟨_, hexec, s.sendNew_port p i e⟩
  case idle =>
    intro p s htrain hstart hleft hnew hwants
    refine .of_next rfl ?_
    simp [htrain, hstart, hleft, hnew, hwants]
  case data =>
    intro p f s hhears hgood hkey hseq
    refine .of_next rfl ?_
    rw [hhears, hgood, hkey, hseq]
    simp [Bool.or_eq_true, or_assoc]
  case bad =>
    intro p s hhears hnak
    refine .of_next rfl ?_
    simp [hhears, hnak, State.nak]
  case seqd =>
    intro p b s htrain hseqd hseq hstart hback hmack
    refine .of_next rfl ?_
    simp [htrain, hseqd, hseq, hstart, hback, hmack]
  case unseqd =>
    intro p n nak b s htrain hseqd hstart hback hmack
    refine .of_next rfl ?_
    simp [htrain, hseqd, hstart, hback, hmack]

end Sys2Proof
end

section
/-! PROOFS. What the way of a request to its effect changes in the parts that it may change: accounts, error
handling of the lines it reads, the driver's deadline, ports, and the records for the standby. -/

namespace Sys2Proof.Machine

variable {s t u : State}

/-- A deckle beside its accounts. -/
def Deckle.plain (k : Deckle) : Deckle := { k with activity := [], mismatches := 0 }

/-- Memory changes at most in what error handling moves. -/
def MemKept (s t : State) : Prop :=
  t.mem = { s.mem with cells := t.mem.cells, parityErr := t.mem.parityErr, groups := t.mem.groups, ce := t.mem.ce,
                       inject := t.mem.inject, poison := t.mem.poison, overflow := t.mem.overflow, log := t.mem.log,
                       logLost := t.mem.logLost }

theorem MemKept.refl (s : State) : MemKept s s := rfl
theorem MemKept.of_eq (h : t.mem = s.mem) : MemKept s t := by rw [MemKept, h]
theorem MemKept.trans (h : MemKept s t) (k : MemKept t u) : MemKept s u := by
  unfold MemKept at h k ⊢
  rw [h] at k
  exact k

/-- From `s` to `t` a request is on its way to its effect. -/
structure Approach (s t : State) : Prop where
  hub : t.hub = { s.hub with driverDeadline := t.hub.driverDeadline }
  mem : MemKept s t
  deckles : ∀ d, (t.part.deckles.find d).map Deckle.plain = (s.part.deckles.find d).map Deckle.plain
  part : t.part = { s.part with deckles := t.part.deckles }
  link : t.link = { s.link with ports := t.link.ports }
  cal : t.cal = { s.cal with activity := t.cal.activity }
  pair : t.pair = { s.pair with mseq := t.pair.mseq, retained := t.pair.retained, ackedAt := t.pair.ackedAt, fetches := t.pair.fetches }

theorem Approach.refl (s : State) : Approach s s := ⟨rfl, .refl s, fun _ => rfl, rfl, rfl, rfl, rfl⟩

theorem Approach.trans (h : Approach s t) (k : Approach t u) : Approach s u where
  hub := by have := k.hub; rw [h.hub] at this; exact this
  mem := h.mem.trans k.mem
  deckles d := (k.deckles d).trans (h.deckles d)
  part := by have := k.part; rw [h.part] at this; exact this
  link := by have := k.link; rw [h.link] at this; exact this
  cal := by have := k.cal; rw [h.cal] at this; exact this
  pair := by have := k.pair; rw [h.pair] at this; exact this

/-- Error handling moves memory alone. -/
theorem Approach.of_mem (hw : Within [.cells, .mem] s t) (hm : MemKept s t) : Approach s t where
  hub := by rw [show t.hub = s.hub from hw.1 .hub (by simp)]
  mem := hm
  deckles d := by rw [hw.part (by simp) (by simp)]
  part := by rw [hw.part (by simp) (by simp)]
  link := by rw [show t.link = s.link from hw.1 .link (by simp)]
  cal := by rw [show t.cal = s.cal from hw.1 .cal (by simp)]
  pair := by rw [show t.pair = s.pair from hw.1 .pair (by simp)]

/-- What changes the mailbox, the ports, and the pair's stream. -/
theorem Approach.of_sent (hw : Within [.mbx, .link, .pair] s t) (hl : t.link = { s.link with ports := t.link.ports })
    (hp : t.pair = { s.pair with mseq := t.pair.mseq, retained := t.pair.retained, ackedAt := t.pair.ackedAt,
                                 fetches := t.pair.fetches }) : Approach s t where
  hub := by rw [show t.hub = s.hub from hw.1 .hub (by simp)]
  mem := .of_eq (hw.mem (by simp) (by simp))
  deckles d := by rw [hw.part (by simp) (by simp)]
  part := by rw [hw.part (by simp) (by simp)]
  link := hl
  cal := by rw [show t.cal = s.cal from hw.1 .cal (by simp)]
  pair := hp

theorem approach_ite {p : Prop} [Decidable p] {a b : State} (ha : p → Approach s a) (hb : ¬p → Approach s b) :
    Approach s (if p then a else b) := by
  split
  · next h => exact ha h
  · next h => exact hb h

/-! ## Error handling -/

theorem State.logRec_memKept (s : State) (r : LogRec) : MemKept s (s.logRec r) := by
  unfold State.logRec
  split <;> rfl

theorem State.modGroup_memKept (s : State) (g : Nat) (f : Group → Group) : MemKept s (s.modGroup g f) := rfl

theorem State.countCe_approach (s : State) (k : Nat) : Approach s (s.countCe k) := by
  refine .of_mem (by simp) ?_
  unfold State.countCe
  extract_lets u lvl storm u' mem s1
  split
  · exact (show MemKept s s1 from rfl).trans (State.logRec_memKept _ _)
  · rfl

theorem State.failOut_memKept (s : State) (g u cause : Nat) : MemKept s (s.failOut g u cause) := by
  unfold State.failOut
  extract_lets x pos start
  have hlog : ∀ (f : Group → Group) (r : LogRec), MemKept s ((s.modGroup g f).logRec r) := fun f r =>
    (State.modGroup_memKept s g f).trans (State.logRec_memKept _ r)
  split
  · rfl
  · split
    · exact hlog _ _
    · split
      · exact hlog _ _
      · exact hlog _ _

theorem State.countUe_approach (s : State) (g u : Nat) : Approach s (s.countUe g u) := by
  refine .of_mem (by simp) ?_
  unfold State.countUe
  extract_lets k c ue mem s1
  split
  · exact (show MemKept s s1 from rfl).trans (State.failOut_memKept _ _ _ _)
  · rfl

theorem State.putCell_approach (s : State) (t : Tier) (line : Nat) (c : Cell) : Approach s (s.putCell t line c) :=
  .of_mem (by simp) rfl

theorem State.takeInject_memKept (s : State) (k row : Nat) (parity : Bool) : MemKept s (s.takeInject k row parity).2 := by
  unfold State.takeInject
  split
  · rfl
  · extract_lets kindOk rowOk
    split <;> rfl

theorem State.logRec_approach (s : State) (r : LogRec) : Approach s (s.logRec r) :=
  .of_mem (by simp) (s.logRec_memKept r)

theorem State.storeCell_memKept (s : State) (t : Tier) (line : Nat) (c : Cell) (full : Bool) :
    MemKept s (s.storeCell t line c full) := by
  unfold State.storeCell
  extract_lets put u
  have hput : ∀ a c, MemKept a (put a c) := fun a c => rfl
  split
  · exact (s.takeInject_memKept _ _ _).trans (hput _ _)
  · next p _ =>
    extract_lets g pe i s1 j pe' rows mem
    have hi : MemKept s i.2 := by
      unfold i
      split
      · rfl
      · exact s.takeInject_memKept _ _ _
    have hj : MemKept s1 j.2 := by
      unfold j
      split
      · rfl
      · exact s1.takeInject_memKept _ _ _
    exact ((hi.trans (hput _ _)).trans hj).trans rfl

theorem State.poisonLine_approach (s : State) (r : LineRef) (cause : Nat) : Approach s (s.poisonLine r cause) := by
  refine .of_mem (by simp) ?_
  unfold State.poisonLine State.poisonAt
  extract_lets p s1 s2
  have h1 : MemKept s s1 := State.storeCell_memKept ..
  have h2 : MemKept s1 s2 := by
    unfold s2
    split
    · split
      · exact State.modGroup_memKept ..
      · rfl
    · rfl
  exact (h1.trans h2).trans (State.logRec_memKept _ _)

/-! ## Sending -/

/-- Of the links the ports alone change. -/
def PortsOnly (s t : State) : Prop := t.link = { s.link with ports := t.link.ports }

theorem PortsOnly.trans (h : PortsOnly s t) (k : PortsOnly t u) : PortsOnly s u := by
  unfold PortsOnly at h k ⊢
  rw [h] at k
  exact k

theorem State.setPort_portsOnly (s : State) (p : Nat) (x : Port) : PortsOnly s (s.setPort p x) := rfl

theorem State.enqueue_portsOnly (s : State) (p vc queue deckle : Nat) (m : Msg) (cls : Nat) :
    PortsOnly s (s.enqueue p vc queue deckle m cls) := by
  unfold State.enqueue
  split <;> rfl

theorem portsOnly_foldl {α : Type} (l : List α) (f : State → α → State) (h : ∀ a x, PortsOnly a (f a x)) (s : State) :
    PortsOnly s (l.foldl f s) := by
  induction l generalizing s with
  | nil => rfl
  | cons x l ih => exact (h s x).trans (ih _)

theorem State.pumpRing_portsOnly (s : State) (recv : Nat) : PortsOnly s (s.pumpRing recv) := by
  unfold State.pumpRing State.pumpRingIf
  split
  · split
    · split
      · exact portsOnly_foldl _ _ (fun a e => a.enqueue_portsOnly _ _ _ _ _ _) s
      · rfl
    · rfl
  · rfl

theorem State.fetchLine_approach (s : State) (r : LineRef) : Approach s (s.fetchLine r) := by
  unfold State.fetchLine
  split
  · exact .refl s
  · extract_lets m pair s1
    have h1 : Approach s s1 := .of_sent (by simp [s1]) rfl rfl
    have hw : Within [.link] s1 (s1.enqueue (s1.pairPort m) 0 61 0 m) := by simp
    exact h1.trans (.of_sent (hw.mono (by simp)) (s1.enqueue_portsOnly _ _ _ _ _ _)
      (by rw [show (s1.enqueue (s1.pairPort m) 0 61 0 m).pair = s1.pair from hw.1 .pair (by simp)]))

theorem State.pushMeta_approach (s : State) (ep rtag : Nat) (fw last : Bool) (r : MetaRec) :
    Approach s (s.pushMeta ep rtag fw last r) := by
  unfold State.pushMeta State.pushRecord
  extract_lets n m p pair s1
  have h1 : Approach s s1 := .of_sent (by simp [s1]) rfl rfl
  have hw : Within [.link] s1 (s1.enqueue p 4 61 0 m) := by simp
  refine approach_ite (fun _ => h1.trans (.of_sent (hw.mono (by simp)) (s1.enqueue_portsOnly _ _ _ _ _ _) ?_)) fun _ => h1
  rw [show (s1.enqueue p 4 61 0 m).pair = s1.pair from hw.1 .pair (by simp)]

theorem State.takeEvreg_approach (s : State) (q : Req) : Approach s (s.takeEvreg q) := by
  unfold State.takeEvreg State.setEvEp
  refine approach_ite (fun _ => ?_) fun _ => .refl s
  have hw : Within [.mbx, .link] s (State.pumpRing { s with mbx := { s.mbx with evEp := s.mbx.evEp.put q.deckle q.ep } } q.deckle) := by
    simp
  exact .of_sent (hw.mono (by simp)) (State.pumpRing_portsOnly _ _)
    (by rw [show (State.pumpRing { s with mbx := { s.mbx with evEp := s.mbx.evEp.put q.deckle q.ep } } q.deckle).pair = s.pair
      from hw.1 .pair (by simp)])

/-! ## Accounts -/

theorem State.modDeckle_approach (s : State) (d : Nat) {g : Deckle → Deckle} (hg : ∀ k, (g k).plain = k.plain) :
    Approach s (s.modDeckle d g) :=
  ⟨rfl, rfl, fun x => s.modDeckle_map d x hg, rfl, rfl, rfl, rfl⟩

theorem State.charge_approach (s : State) (d cls kind pj : Nat) : Approach s (s.charge d cls kind pj) := by
  unfold State.charge
  exact approach_ite (fun _ => s.modDeckle_approach d fun _ => rfl) fun _ => ⟨rfl, rfl, fun _ => rfl, rfl, rfl, rfl, rfl⟩

theorem State.chargeTier_approach (s : State) (d cls : Nat) (t : Tier) (pj n : Nat) : Approach s (s.chargeTier d cls t pj n) := by
  cases t with
  | t1 => exact s.charge_approach ..
  | t2 => exact (s.charge_approach ..).trans (State.charge_approach ..)
  | staging => exact s.charge_approach ..

theorem State.mismatch_approach (s : State) (d : Nat) : Approach s (s.mismatch d) := s.modDeckle_approach d fun _ => rfl

/-! ## Reading -/

theorem State.endPoison_approach (s : State) (r : LineRef) (cause : Nat) : Approach s (s.endPoison r cause).1 := by
  unfold State.endPoison
  split
  · exact s.fetchLine_approach r
  · exact s.poisonLine_approach r cause

theorem State.reconstruct_approach (s : State) (r : LineRef) (step4 : Bool) (cls : Nat) :
    Approach s (s.reconstruct r step4 cls).1 := by
  unfold State.reconstruct
  split
  · exact s.poisonLine_approach r 1
  · next p _ =>
    extract_lets g own cell unit s0 err
    have h0 : ∀ a, Approach a (s0 a) := fun a => approach_ite (fun _ => .refl a) fun _ => a.countUe_approach _ _
    split
    · split
      · exact s.endPoison_approach _ _
      · exact .refl s
    · split
      · exact (h0 s).trans (State.endPoison_approach _ _ _)
      · next d _ =>
        split
        · exact .refl s
        · rcases hcell : cell with _ | c
          · exact (h0 s).trans (State.endPoison_approach _ _ _)
          · dsimp only
            split
            · refine Approach.trans (Approach.trans ?_ (State.chargeTier_approach _ _ _ _ _ _)) (State.logRec_approach _ _)
              exact approach_ite (fun _ => h0 s) fun _ => (h0 s).trans (State.putCell_approach _ _ _ _)
            · exact (h0 s).trans (State.endPoison_approach _ _ _)

theorem State.readLine_approach (s : State) (r : LineRef) (cls : Nat) : Approach s (s.readLine r cls).1 := by
  unfold State.readLine State.readLineN
  extract_lets s0 x s1 y
  have h1 : Approach s s1 :=
    approach_ite (fun _ => (s.chargeTier_approach _ _ _ _ _).trans (State.countCe_approach _ _)) fun _ =>
      s.chargeTier_approach _ _ _ _ _
  unfold y
  split
  · exact h1.trans (State.reconstruct_approach _ _ _ _)
  · exact h1
  · exact h1

theorem State.readLines_approach (s : State) (rs : List LineRef) (cls : Nat) : Approach s (s.readLines rs cls).1 := by
  induction rs generalizing s with
  | nil => exact .refl s
  | cons r rs ih =>
    have h := s.readLine_approach r cls
    unfold State.readLines
    split
    · next s1 l hr =>
      rw [hr] at h
      have k := h.trans (ih s1)
      split
      · next hrs => rw [hrs] at k; exact k
      · next hrs => rw [hrs] at k; exact k
    · next hr => rw [hr] at h; exact h

theorem State.readBytes_approach (s : State) (d pva n : Nat) : Approach s (s.readBytes d pva n).1 := by
  unfold State.readBytes
  extract_lets k
  split
  · next refs _ =>
    have h := s.readLines_approach refs 0
    split
    · next hr => rw [hr] at h; exact h
    · next hr => rw [hr] at h; exact h
    · next hr => rw [hr] at h; exact h
  · exact s.mismatch_approach d
  · exact .refl s

/-! ## The way of a request -/

theorem State.formCheck_approach (s : State) (c : Cmd) (q : Req) : Approach s (s.formCheck c q).1 := by
  unfold State.formCheck
  extract_lets badExt rd w
  have hrd : Approach s rd.1 := by
    unfold rd
    split
    · exact s.readBytes_approach _ _ _
    · exact .refl s
  split
  · exact .refl s
  · split
    · exact .refl s
    · split
      · exact .refl s
      · (repeat' split) <;> exact hrd

theorem State.atBox_approach (s : State) (q : Req) : Approach s (s.atBox q) := by
  have hfree : Approach s (s.freeReq q) := .of_sent (by simp) rfl rfl
  have hrenew : ∀ u : State, Approach u (u.renewDriver q) := fun u =>
    approach_ite (fun _ => ⟨rfl, rfl, fun _ => rfl, rfl, rfl, rfl, rfl⟩) fun _ => .refl u
  unfold State.atBox
  split
  · exact .refl s
  · exact hfree.trans (hrenew _)

theorem State.acting_approach (s : State) (c : Cmd) (q : Req) : Approach s (s.acting c q) := by
  have hopen : ∀ (u : State) (acc : Nat), Approach u (u.opened c q acc) := by
    intro u acc
    unfold State.opened
    extract_lets r o s1 mbx
    have h1 : Approach u s1 := approach_ite (fun _ => u.pushMeta_approach _ _ _ _ _) fun _ => .refl u
    exact h1.trans ⟨rfl, rfl, fun _ => rfl, rfl, rfl, rfl, rfl⟩
  exact (((s.atBox_approach q).trans (State.formCheck_approach _ c q)).trans (State.takeEvreg_approach _ q)).trans (hopen _ _)

end Sys2Proof.Machine
end

section
/-! PROOFS. Queues, token buckets and energy buckets (R258 to R269). -/

namespace Sys2Proof.Machine

/-- What a deckle beside its accounts is where a request acts. -/
theorem State.acting_deckle {β : Type} (s : State) (c : Cmd) (q : Req) (d : Nat) (f : Deckle → β) (hf : ∀ k, f k.plain = f k) :
    ((s.acting c q).part.deckles.find d).map f = (s.part.deckles.find d).map f := by
  have h := congrArg (Option.map f) ((s.acting_approach c q).deckles d)
  simpa [Function.comp_def, hf] using h

/-- A bucket put at several places stands at each of them. -/
theorem NMap.find_foldl_put {α : Type} (l : List Nat) (m : NMap α) (b : α) {k : Nat} (h : k ∈ l ∨ NMap.find m k = some b) :
    NMap.find (l.foldl (fun a i => NMap.put a i b) m) k = some b := by
  induction l generalizing m with
  | nil => simpa using h
  | cons i l ih =>
    refine ih _ ?_
    by_cases hi : k = i
    · exact .inr (by rw [hi, NMap.find_put])
    · rw [NMap.find_put_ne _ _ hi]
      simpa [hi] using h

end Sys2Proof.Machine

namespace Sys2Proof

open Machine

/-- Settles O34: each command sets the one bucket, map or weight it names. -/
theorem qosCommandsComplete : Obligations.QosCommandsComplete := by
  unfold Obligations.QosCommandsComplete
  refine ⟨?map, ?weight, ?shaper, ?policer, ?energy, ?release, ?read⟩
  case map =>
    intro q p s hpass
    refine completes_answering (Z := [.part]) rfl hpass rfl rfl (by simp) (by simp) (by simp) fun t ht hans => ⟨hans, fun k hk => ?_⟩
    rw [ht.part (by simp) (by simp), State.deckles_modDeckle, Option.map_map]
    exact (s.acting_deckle _ q p.deckle _ fun _ => rfl).trans (by rw [hk]; rfl)
  case weight =>
    intro q p s hwf hpass
    refine completes_of_effect rfl hpass rfl (by simp [okAns]) fun t ht => ?_
    have hcal : (s.acting (queueMapWeightCmd p) q).cal.weights = s.cal.weights := by
      rw [(s.acting_approach _ q).cal]
    rw [show t.cal = _ from ht.1 .cal (by simp)]
    show (NMap.find (NMap.set (s.acting (queueMapWeightCmd p) q).cal.weights p.queue _) p.queue).getD 64 = p.weight
    rw [hcal, NMap.find_set hwf]
    split <;> simp_all
  case shaper =>
    intro q p s hpass
    refine completes_answering (Z := [.part, .cal]) rfl hpass rfl rfl ?_ (by simp) (by simp) fun t ht hans => ⟨hans, ?_⟩
    · split <;> simp
    · by_cases htarget : p.targetDeckle = true
      · rw [if_pos htarget, ht.part (by simp) (by simp), if_pos htarget, State.deckles_modDeckle, Option.map_map]
        exact s.acting_deckle _ q p.deckle _ fun _ => rfl
      · rw [if_neg htarget, show t.cal = _ from ht.1 .cal (by simp), if_neg htarget]
        exact fun k hk => NMap.find_foldl_put _ _ _ (.inl hk)
  case policer =>
    intro q p s hpass htarget
    refine completes_answering (Z := [.part, .cal]) rfl hpass rfl rfl ?_ (by simp) (by simp) fun t ht hans => ⟨hans, fun k hk => ?_⟩
    · split <;> simp
    · rw [show t.cal = _ from ht.1 .cal (by simp), if_neg (by simp [htarget])]
      exact NMap.find_foldl_put _ _ _ (.inl hk)
  case energy =>
    intro q p s hpass henable
    refine completes_answering (Z := [.part]) rfl hpass rfl rfl ?_ (by simp) (by simp) fun t ht hans => ⟨hans, fun b hb => ?_⟩
    · rw [henable]; simp
    · rw [ht.part (by simp) (by simp), if_pos henable, State.deckles_modDeckle, Option.map_map] at hb
      obtain ⟨k, -, rfl⟩ := Option.map_eq_some_iff.mp hb
      refine ⟨by simp [henable], fun h => ?_, fun h => ?_⟩ <;> simp [h]
  case release =>
    intro deckle w ws x s hwaiting hfind b hcolour
    refine .of_next rfl ?_
    rw [hwaiting]
    dsimp only
    rw [hfind]
    dsimp only
    split
    · next hred => exact absurd hred hcolour
    · rfl
  case read =>
    intro q p s hpass
    refine completes_answering (Z := []) rfl hpass rfl ?_ (.refl _ _) (by simp) (by simp) fun t ht hans => ⟨_, hans, ?_⟩
    · split <;> rfl
    · split <;> exact ⟨rfl, rfl⟩

end Sys2Proof
end

section
/-! PROOFS. Events of a command leave what is outstanding, so that its answer is on its way all the same. -/

namespace Sys2Proof.Machine

variable {s t u : State}

/-- Of the mailbox the event rings alone change. -/
def RingsOnly (s t : State) : Prop := t.mbx = { s.mbx with rings := t.mbx.rings }

theorem RingsOnly.refl (s : State) : RingsOnly s s := rfl
theorem RingsOnly.of_mbx (h : t.mbx = s.mbx) : RingsOnly s t := by rw [RingsOnly, h]
theorem RingsOnly.trans (h : RingsOnly s t) (k : RingsOnly t u) : RingsOnly s u := by
  unfold RingsOnly at h k ⊢
  rw [h] at k
  exact k
theorem RingsOnly.outst (h : RingsOnly s t) : t.mbx.outst = s.mbx.outst := by rw [h]
theorem RingsOnly.of_within {Z : List Spot} (h : Within Z s t) (hmbx : Spot.mbx ∉ Z) : RingsOnly s t := .of_mbx (h.1 .mbx hmbx)

theorem State.pumpRing_ringsOnly (s : State) (recv : Nat) : RingsOnly s (s.pumpRing recv) := by
  unfold State.pumpRing State.pumpRingIf
  split
  · split
    · next r ep _ _ _ p _ =>
      split
      · have hw : Within [.link] s ((r.evs.drop r.queued).foldl (fun a e => a.enqueue p 5 61 recv (.event ep recv e)) s) := by
          simp
        exact (RingsOnly.of_within hw (by simp)).trans rfl
      · rfl
    · rfl
  · rfl

theorem State.pushRing_ringsOnly (s : State) (recv : Nat) (dev : Bool) (code deckle source params : Nat) :
    RingsOnly s (s.pushRing recv dev code deckle source params) :=
  RingsOnly.trans rfl (State.pumpRing_ringsOnly _ _)

theorem State.raise_ringsOnly (s : State) (code : Nat) (who : Recv) (source params about : Nat) :
    RingsOnly s (s.raise code who source params about) := by
  unfold State.raise
  split
  · rfl
  · cases who with
    | device => exact State.pushRing_ringsOnly _ _ _ _ _ _ _
    | deckle d => exact State.pushRing_ringsOnly _ _ _ _ _ _ _
    | both d =>
      dsimp only
      split
      · exact State.pushRing_ringsOnly _ _ _ _ _ _ _
      · exact (State.pushRing_ringsOnly _ _ _ _ _ _ _).trans (State.pushRing_ringsOnly _ _ _ _ _ _ _)

theorem ringsOnly_foldl {α : Type} (l : List α) (f : State → α → State) (h : ∀ a x, RingsOnly a (f a x)) (s : State) :
    RingsOnly s (l.foldl f s) := by
  induction l generalizing s with
  | nil => rfl
  | cons x l ih => exact (h s x).trans (ih _)

/-! ## Answers past events -/

variable {i self : Instr} {c : Cmd} {q : Req} {checks : State → List Check} {act : State → Nat → State × Option Ans} {P : State → Prop}

/-- A request that is answered in place, and whose effect leaves what is outstanding and latches no trip. -/
theorem completes_answering_past {a : Ans} (hexec : exec i s = .next (s.serve self c q checks act))
    (hpass : s.passes c q checks = true) (hact : act (s.acting c q) (s.replyOf c q) = (u, some a)) (harea : a.area = 0)
    (houtst : u.mbx.outst = (s.acting c q).mbx.outst) (htrip : u.pkg.tripped = (s.acting c q).pkg.tripped)
    (h : ∀ t, Within [.mbx, .link, .pair, .pkg] u t → t.answers q c.code a → P t) : Completes i s P := by
  obtain ⟨o, ho, hreq, hcode⟩ := s.acting_outst c q
  have hpkg : (s.acting c q).pkg = s.pkg := (s.acting_within c q (List.Subset.refl _)).1 .pkg (by simp)
  have hlatch : s.pkg.tripped = false := by
    simp only [State.passes, Bool.and_eq_true, Bool.not_eq_true'] at hpass
    exact hpass.2
  refine completes_of_passes hexec hpass (h _ ?_ ?_)
  · have hw := s.conclusion_inline_within c q act (by simp [hact, harea]) (List.Subset.refl _)
    rwa [hact] at hw
  · refine State.closed_answers _ _ _ _ _ (by rw [hact]) ?_ hreq hcode ?_
    · rw [hact, houtst, ho]
    · rw [hact, htrip, hpkg, hlatch]

end Sys2Proof.Machine
end

section
/-! PROOFS. The energy ledger, the loops, emergencies and domain time (R271 to R281). -/

namespace Sys2Proof.Machine

/-! ## Emergencies and the laid entries they shed -/

/-- An emergency that begins is in force under the cap that is set (R274). -/
theorem State.beginEmergency_cal {s : State} (cause : Nat) (h : s.cal.emergency = none) : (s.beginEmergency cause).cal =
    { s.cal with floor := s.cal.floor || decide (cause ≠ 0), emergency := some ⟨cause, s.now, 0, none⟩, capW := s.capSet, capNext := none } := by
  unfold State.beginEmergency
  extract_lets cal0 s0 e cal1 cal x
  have hw : Within [.eng, .pkg] { s with cal := { s.cal with floor := s.cal.floor || decide (cause ≠ 0) } } s0 := by simp [s0, cal0]
  have h0 : s0.cal = { s.cal with floor := s.cal.floor || decide (cause ≠ 0) } := hw.1 .cal (by simp)
  rw [h0, if_neg (by simp [h])]
  have hx : Within [.mbx, .link, .laid] (State.pins { s0 with cal := cal }) (x.1.raise 0x0601 .device (if cause = 0 then 0 else srcOf 1 0)
      (pack [(2, cause), (14, 0), (16, s.cal.powerW), (16, s.tjMax), (16, x.2), (64, 0)])) := by simp [x]
  rw [show _ = cal from hx.1 .cal (by simp)]
  simp only [cal, cal1, cal0, e, State.capSet, h0]

/-- An emergency that ends leaves no floor and no count of ticks above the cap (R274). -/
theorem State.endEmergency_cal (s : State) (e : Emergency) :
    (s.endEmergency e).cal = { s.cal with emergency := none, floor := false, above := 0 } := by
  have hw : Within [.hub, .mbx, .link, .sec, .pkg] { s with cal := { s.cal with emergency := none, floor := false, above := 0 } }
      (s.endEmergency e) := by
    unfold State.endEmergency
    dsimp only
    split <;> simp
  exact hw.1 .cal (by simp)

/-- The power loop's look at the emergency keeps the cap in force and the power read, and while the power is not
below nine tenths of the cap no emergency ends. -/
theorem State.emergencyTick_cal {s : State} (hnext : s.cal.capNext = none) :
    (s.emergencyTick.cal.capW = s.cal.capW ∧ s.emergencyTick.cal.capNext = none ∧ s.emergencyTick.cal.powerW = s.cal.powerW) ∧
    (s.cal.capW * 9 ≤ s.cal.powerW * 10 → s.emergencyTick.cal.above = s.cal.above) := by
  unfold State.emergencyTick
  extract_lets s0
  split
  · next hnone =>
    split
    · rw [State.beginEmergency_cal 0 hnone]
      exact ⟨⟨congrArg (Option.getD · s.cal.capW) hnext, rfl, rfl⟩, fun _ => rfl⟩
    · exact ⟨⟨rfl, hnext, rfl⟩, fun _ => rfl⟩
  · next e _ =>
    extract_lets e' cal s1
    split
    · next hend =>
      rw [State.endEmergency_cal]
      refine ⟨⟨rfl, hnext, rfl⟩, fun hover => ?_⟩
      have hbelow : e'.below = 0 := if_neg (show ¬ s.cal.powerW * 10 < s.cal.capW * 9 by omega)
      rw [hbelow] at hend
      simp at hend
    · exact ⟨⟨rfl, hnext, rfl⟩, fun _ => rfl⟩

theorem State.setRails_sensors (s : State) : s.setRails.pkg.sensors = s.pkg.sensors := rfl

theorem State.degrade_ringsOnly (s : State) (slot i reason : Nat) : RingsOnly s (s.degrade slot i reason) := by
  unfold State.degrade
  split
  · rfl
  · split
    · rfl
    · split
      · rfl
      · exact (RingsOnly.of_mbx rfl).trans (State.raise_ringsOnly _ _ _ _ _ _)

theorem State.shedTable_ringsOnly (s : State) (slot budgetMw : Nat) (cap : Bool) (fuel : Nat) :
    RingsOnly s (s.shedTable slot budgetMw cap fuel).1 := by
  induction fuel generalizing s with
  | zero => rfl
  | succ fuel ih =>
    unfold State.shedTable
    split
    · rfl
    · split
      · rfl
      · split
        · rfl
        · refine RingsOnly.trans ?_ (ih _)
          exact (RingsOnly.of_mbx rfl).trans (State.degrade_ringsOnly _ _ _ _)

theorem State.shedLaid_ringsOnly (s : State) (budgetMw : Nat) (cap : Bool) : RingsOnly s (s.shedLaid budgetMw cap).1 := by
  have hfold : ∀ (l : List Nat) (p : State × Nat), RingsOnly p.1 (l.foldl (fun a i =>
      let x := a.1.shedTable i budgetMw cap (((s.laid.tables.find i).map fun t => t.entries.length).getD 0)
      (x.1, a.2 + x.2)) p).1 := by
    intro l
    induction l with
    | nil => exact fun p => rfl
    | cons i l ih => exact fun p => (p.1.shedTable_ringsOnly _ _ _ _).trans (ih _)
  exact hfold _ (s, 0)

end Sys2Proof.Machine

namespace Sys2Proof

open Machine

/-- Settles O35: the loops change the calender, and what an emergency does beside it leaves memory, partition and regions. -/
theorem powerCommandsComplete : Obligations.PowerCommandsComplete := by
  unfold Obligations.PowerCommandsComplete
  refine ⟨?ledger, ?refine, ?cap, ?power, ?thermal, ?floor, ?loop, ?thermalLoop, fun i s => .of_next rfl rfl, ?emergency⟩
  case ledger =>
    intro m n s hfw
    refine .of_next rfl ?_
    rw [if_neg (by simp [hfw])]
    exact ⟨rfl, by show _ ≤ (s.reach _).now; rw [State.reach_now]; omega, rfl, rfl, rfl, rfl⟩
  case refine =>
    intro coef s hfw
    refine .of_next rfl ?_
    rw [if_pos hfw]
    intro k hk
    simp [at0, List.getD, hk]
  case cap =>
    intro q p s hpass
    have hw : ∀ a : State, Within [.mbx, .link, .laid] a (if (a.shedLaid (p.capW * 1000) true).2 = 0 then
        (a.shedLaid (p.capW * 1000) true).1.unshedLaid (p.capW * 1000) else (a.shedLaid (p.capW * 1000) true).1) := fun a => by simp
    refine completes_answering_past rfl hpass rfl rfl ?_ ?_ fun t ht hans => ⟨?_, _, hans, rfl, rfl⟩
    · refine (RingsOnly.outst ?_ : _ = (s.acting (powerCapCmd p) q).mbx.outst)
      refine (State.shedLaid_ringsOnly _ (p.capW * 1000) true).trans ?_
      split
      · exact .of_within (Z := [.laid, .cal]) (by simp) (by simp)
      · rfl
    · exact congrArg Pkg.tripped ((hw _).1 .pkg (by simp))
    · exact congrArg Cal.capNext (ht.1 .cal (by simp))
  case power =>
    intro w s hreset hw
    refine .of_next rfl ?_
    rw [if_neg (by simp [hreset]; omega)]
  case thermal =>
    intro i v s hreset hi hv
    refine .of_next rfl ?_
    rw [if_neg (by simp [hreset]; omega)]
  case floor =>
    intro w s hstop hw
    refine .of_next rfl ?_
    rw [if_pos (by simp [hstop, hw])]
    have hf : ∀ u : State, Within [.eng, .pkg] u u.floorClocks := fun u => by simp
    exact ⟨congrArg Cal.wedgeFloor ((hf _).1 .cal (by simp)), (hf _).mem (by simp) (by simp), (hf _).part (by simp) (by simp)⟩
  case loop =>
    intro p st d s hfw
    refine .of_next rfl ?_
    rw [if_neg (by simp [hfw])]
    extract_lets cap ceil src cal s1 s2
    have h1 : Within [.mbx, .link, .laid, .part] s1 s2.setRates := by
      unfold s2
      split <;> simp
    have hcal : s2.setRates.cal = s1.cal := h1.1 .cal (by simp)
    obtain ⟨⟨hcap, hnext, hpower⟩, habove⟩ := State.emergencyTick_cal (s := { s with cal := cal }) rfl
    rw [hcal]
    refine ⟨hcap, hnext, hpower, fun hover => (habove ?_).trans (if_pos hover)⟩
    show s.capSet * 9 ≤ p * 10
    omega
  case thermalLoop =>
    intro l s hfw
    refine .of_next rfl ?_
    rw [if_neg (by simp [hfw])]
    extract_lets read pkg s1
    have hsensors : ∀ i < 96, at0 s1.pkg.sensors i = at0 l i % 65536 := fun i hi => by
      simp [s1, State.noteCool, read, at0, List.getD, hi]
    split
    · exact hsensors
    · have hw : Within [.mbx, .eng, .link] s1 ((List.range 32).foldl (fun a c => a.setStep c) s1) := by simp
      rwa [State.setRails_sensors, show _ = s1.pkg from hw.1 .pkg (by simp)]
  case emergency =>
    intro c s h
    have hw : Within [.mbx, .eng, .link, .cal, .laid, .pkg] s (s.beginEmergency c) := by simp
    refine ⟨?_, hw.mem (by simp) (by simp), hw.part (by simp) (by simp), hw.1 .rgn (by simp)⟩
    rw [State.beginEmergency_cal c h]
    rfl

end Sys2Proof
end

section
/-! PROOFS. Domain time (R278 to R281). -/

namespace Sys2Proof.Machine

theorem State.reachDom_pkg (s : State) (n : Nat) : (s.reachDom n).pkg = s.pkg := rfl

/-- What is put on the bypass queue of each of several ports comes once to each of them. -/
theorem State.port_foldl_ports {l : List Nat} (f : State → Nat → State) (add : List Slot) (s : State)
    (hsame : ∀ a p, (f a p).port p = { a.port p with bq := (a.port p).bq ++ add })
    (hother : ∀ a p r, r ≠ p → (f a p).port r = a.port r) (hl : l.Nodup) {p : Nat} (hp : p ∈ l) :
    (l.foldl f s).port p = { s.port p with bq := (s.port p).bq ++ add } := by
  have hrest : ∀ (l : List Nat) (s : State), p ∉ l → (l.foldl f s).port p = s.port p := by
    intro l
    induction l with
    | nil => exact fun s _ => rfl
    | cons r l ih =>
      intro s hp
      rw [List.mem_cons, not_or] at hp
      exact (ih _ hp.2).trans (hother s r p hp.1)
  induction l generalizing s with
  | nil => cases hp
  | cons r l ih =>
    rw [List.nodup_cons] at hl
    rcases List.mem_cons.mp hp with rfl | hp
    · exact (hrest l _ hl.1).trans (hsame s _)
    · have hne : p ≠ r := fun h => hl.1 (h ▸ hp)
      rw [List.foldl_cons, ih _ hl.2 hp, hother s r p hne]

end Sys2Proof.Machine

namespace Sys2Proof

open Machine

/-- Settles O36: a time message sets the laid state or one port alone. -/
theorem timeCommandsComplete : Obligations.TimeCommandsComplete := by
  unfold Obligations.TimeCommandsComplete
  refine ⟨?tick, ?req, ?resp, ?conflict, ?follow, ?holdover, ?ppsIn, ?ppsOut, ?status, ?master⟩
  case tick =>
    intro p s htrain hhas hwf hmaster
    have hmem : p ∈ (s.link.ports.filter fun p => p.2.train == .active).map Prod.fst := by
      obtain ⟨x, hx⟩ := Option.isSome_iff_exists.mp hhas
      have hport : s.port p = x := by rw [State.port, hx]; rfl
      exact List.mem_map.mpr ⟨(p, x), List.mem_filter.mpr ⟨NMap.find_some_mem hx, by simp [← hport, htrain]⟩, rfl⟩
    have hnodup : ((s.link.ports.filter fun p => p.2.train == .active).map Prod.fst).Nodup :=
      List.pairwise_map.mpr ((((NMap.wf_iff _).mp hwf).filter _).imp fun hlt => Nat.ne_of_lt hlt)
    refine .of_next rfl ?_
    rw [hmaster, Bool.true_or, State.port_foldl_ports _ [.sync s.laid.hops 0 0, .pdelayReq] s ?_ ?_ hnodup hmem]
    · intro a r
      simp [State.bypassSlot]
    · intro a r r' hne
      simp [State.bypassSlot, hne]
  case req =>
    intro p s hactive
    refine .of_next rfl ?_
    rw [if_pos hactive, State.bypassSlot, State.port_modPort]
  case resp =>
    intro p ta rt s hactive
    refine .of_next rfl ?_
    rw [if_neg (by simp [hactive]), State.port_modPort]
    refine ⟨rfl, fun hclose => ?_⟩
    cases htrips : (s.port p).trips with
    | nil => rfl
    | cons x l =>
      have hle : rt ≤ l.foldl min x + 10 := hclose _ (htrips ▸ List.min?_mem List.min?_cons')
      exact if_neg (by simpa using hle)
  case conflict =>
    intro p hops ns frac late s hactive hcount hmaster
    refine .of_next rfl ?_
    rw [if_neg (by simp [hactive, hcount]), if_pos hmaster]
  case follow =>
    intro p hops ns frac late d s hactive hcount hmaster hhops hlate hbest hdelay
    refine .of_next rfl ?_
    rw [if_neg (by simp [hactive, hcount]), if_neg (by simp [hmaster]), if_neg (by simp; omega)]
    dsimp only
    rw [hbest, State.port_modPort, hdelay]
    dsimp only
    rw [if_pos rfl]
    exact ⟨rfl, rfl, rfl⟩
  case holdover =>
    intro s hmaster hlocked hbest
    refine .of_next rfl ?_
    rw [if_neg (by simp [hmaster, hlocked])]
    have hw : ∀ u : State, Within [.mbx, .link] u (u.raise 0x0701 .device (srcOf 1 0)
      (pack [(6, s.laid.upstream), (58, 0), (64, s.laid.lastSync)])) := fun u => by simp
    have hnow : ∀ u : State, (u.raise 0x0701 .device (srcOf 1 0)
      (pack [(6, s.laid.upstream), (58, 0), (64, s.laid.lastSync)])).now = u.now := fun u => (hw u).1 .now (by simp)
    dsimp only
    rw [hbest]
    dsimp only
    refine ⟨congrArg Laid.state ((hw _).1 .laid (by simp)), ?_⟩
    rw [hnow]
    exact (Nat.le_max_right s.now _).trans_eq (State.reach_now ..).symm
  case ppsIn =>
    intro n s hrole hns
    refine .of_next rfl ?_
    rw [hrole, hns]
  case ppsOut =>
    intro s hcount
    refine .of_next rfl ?_
    rw [if_neg (by simp [hcount])]
    exact congrArg (·.ppsOut + 1) (s.reachDom_pkg _)
  case status =>
    intro q s hpass
    exact completes_answering (Z := []) rfl hpass rfl rfl (.refl _ _) (by simp) (by simp) fun t ht hans =>
      ⟨_, hans, rfl, rfl, (ht.1 .laid (by simp)).trans (s.acting_laid _ q)⟩
  case master =>
    intro q p s hpass
    refine completes_answering (Z := [.laid]) rfl hpass rfl rfl (by simp) (by simp) (by simp) fun t ht hans => ⟨hans, ?_⟩
    rw [show t.laid = _ from ht.1 .laid (by simp)]
    dsimp only
    by_cases hrole : p.role = 0
    · rw [if_pos hrole, if_pos hrole]
      exact ⟨rfl, fun h => absurd hrole h⟩
    · rw [if_neg hrole, if_neg hrole]
      exact ⟨rfl, fun _ => ⟨rfl, rfl⟩⟩

end Sys2Proof
end

section
/-! PROOFS. Model maps and adapters (R174 to R180). -/

namespace Sys2Proof.Machine

variable {s : State}

/-! ## The checks a request passed -/

theorem forall_of_firstFail {l : List Check} (h : firstFail l = none) : ∀ x ∈ l, x.1 = true := by
  induction l with
  | nil => simp
  | cons y l ih =>
    obtain ⟨b, st, d⟩ := y
    cases b with
    | false => cases h
    | true => exact fun x hx => (List.mem_cons.mp hx).elim (fun heq => heq ▸ rfl) (ih h x)

/-- Each check of its command holds where a request is checked that passes. -/
theorem State.check_of_passes {c : Cmd} {q : Req} {checks : State → List Check} (h : s.passes c q checks = true) {x : Check}
    (hx : x ∈ checks (s.entry c q)) : x.1 = true := by
  simp only [State.passes, Bool.and_eq_true, Option.isNone_iff_eq_none] at h
  exact forall_of_firstFail h.1.2 x (List.mem_append_right _ hx)

theorem State.acting_of_entry (s : State) (c : Cmd) (q : Req) :
    Within [.mbx, .link, .pair] (s.entry c q) (s.acting c q) := by simp [State.acting]

theorem State.pinVersion_congr {t : State} (h : t.rgn = s.rgn) (region v : Nat) : t.pinVersion region v = s.pinVersion region v := by
  simp [State.pinVersion, h]

/-! ## Adapters -/

theorem State.adapter_congr {t : State} (h : t.form.adapters = s.form.adapters) (uid id : Nat) :
    t.adapter uid id = s.adapter uid id := by simp [State.adapter, h]

/-- An adapter changed where it stands is found changed. -/
theorem State.adapter_modAdapters (s : State) (uid id : Nat) (f : Adapter → Adapter)
    (hf : ∀ a, (f a).mapUid = a.mapUid ∧ (f a).id = a.id) :
    (s.modAdapters (fun x => x.mapUid == uid && x.id == id) f).adapter uid id = (s.adapter uid id).map f := by
  have hkey : ((fun a : Adapter => a.mapUid == uid && a.id == id) ∘ fun a => if (a.mapUid == uid && a.id == id) = true then f a else a)
      = fun a => a.mapUid == uid && a.id == id := by
    funext a
    obtain ⟨huid, hid⟩ := hf a
    dsimp only [Function.comp_apply]
    split
    · rw [huid, hid]
    · rfl
  simp only [State.modAdapters, State.adapter, List.find?_map, hkey]
  cases h : s.form.adapters.find? fun a => a.mapUid == uid && a.id == id with
  | none => rfl
  | some a => exact congrArg some (if_pos (List.find?_some h))

/-- Adapters that end leave the others and the maps. -/
theorem State.endAdapters_form (s : State) (test : Adapter → Bool) : (s.endAdapters test).form.maps = s.form.maps ∧
    (s.endAdapters test).form.adapters = s.form.adapters.filter fun a => !test a := by
  unfold State.endAdapters
  extract_lets gone form s1 s2
  have hw : Within [.mbx, .cells, .mem, .part, .link, .cal, .pair, .pkg] s1 s2 :=
    within_foldl _ _ (fun a x => by simp) (.refl _ _)
  have hform : s2.form = s1.form := hw.1 .form (by simp)
  simp only [State.endParts, hform]
  exact ⟨rfl, rfl⟩

/-- An adapter that is registered stands unpinned, with the fields it was named with (R179). -/
theorem State.adapter_of_register {s s' : State} {p : AdapterP} (h : s.registerAdapter p = (s', some okAns)) :
    ∃ a, s'.adapter p.mapUid p.adapter = some a ∧ a.pinned = false ∧
      (a.fp8, a.rank, a.region, a.alpha, a.basePva) = (p.fp8, p.rank, p.region, p.alpha, p.basePva) := by
  unfold State.registerAdapter at h
  extract_lets bad at h
  have hbad : ∀ (u : State) (st : Status) (d : Nat), bad u st d = (s', some okAns) → st = .ok := fun u st d hu =>
    congrArg Ans.status (Option.some.inj (congrArg Prod.snd hu))
  split at h
  · cases hbad _ _ _ h
  · split at h
    · cases hbad _ _ _ h
    · next m _ =>
      split at h
      · next s1 bytes _ =>
        extract_lets es a _ at h
        split at h
        · cases hbad _ _ _ h
        · split at h
          · cases hbad _ _ _ h
          · next hfree =>
            split at h
            · cases hbad _ _ _ h
            · split at h
              · cases hbad _ _ _ h
              · split at h
                · cases hbad _ _ _ h
                · obtain rfl := congrArg Prod.fst h
                  simp only [not_or, Bool.not_eq_true, Option.isSome_eq_false_iff, Option.isNone_iff_eq_none] at hfree
                  have hnone := hfree.2
                  simp only [State.adapter] at hnone
                  simp [State.adapter, hnone, a]
      · next hne _ => exact (hne (hbad _ _ _ h)).elim

/-- An adapter that is pinned stands pinned, answered at once or later (R180). -/
theorem adapterPinAct_pins {s : State} {p : AdapterP} {a : Adapter} (r : Nat) (h : s.adapter p.mapUid p.adapter = some a) :
    ((adapterPinAct p s r).1.adapter p.mapUid p.adapter).map (·.pinned) = some true ∧
      ∀ x ∈ (adapterPinAct p s r).2, x.area = 0 := by
  unfold adapterPinAct
  simp -zeta only [h]
  extract_lets mine s1 s2
  have h1 : (s1.adapter p.mapUid p.adapter).map (·.pinned) = some true := by
    have hparts : ∀ (l : List CachePart) (u : State), (l.foldl (fun b x => b.wantPart x) u).form.adapters = u.form.adapters := by
      intro l
      induction l with
      | nil => exact fun u => rfl
      | cons x l ih => exact fun u => ih _
    rw [State.adapter_congr (hparts _ _), State.adapter_modAdapters _ _ _ (fun x => { x with pinned := true }) fun _ => ⟨rfl, rfl⟩, h]
    rfl
  split
  · exact ⟨h1, by simp [okAns]⟩
  · have hw : Within [.mbx, .cells, .mem, .part, .link, .cal, .pair, .pkg] s1 s2 := by simp [s2]
    have hform : s2.form = s1.form := hw.1 .form (by simp)
    refine ⟨?_, by simp⟩
    rw [State.adapter_modAdapters _ _ _ (fun x => { x with pinReply := some r }) fun _ => ⟨rfl, rfl⟩,
      State.adapter_congr (congrArg Form.adapters hform), Option.map_map]
    exact h1

/-- An adapter that is unpinned stands unpinned (R180). -/
theorem adapterUnpinAct_unpins {s : State} {p : AdapterP} {a : Adapter} (r : Nat) (h : s.adapter p.mapUid p.adapter = some a) :
    ((adapterUnpinAct p s r).1.adapter p.mapUid p.adapter).map (·.pinned) = some false := by
  unfold adapterUnpinAct
  extract_lets mine s1
  have hw : Within [.mbx, .cells, .mem, .part, .link, .cal, .pair, .pkg] s s1 := by simp [s1]
  have hform : s1.form = s.form := hw.1 .form (by simp)
  have htrim : ∀ u : State, (u.trimCache 0).form.adapters = u.form.adapters := fun u => rfl
  rw [State.adapter_congr (htrim _),
    State.adapter_modAdapters _ _ _ (fun x => { x with pinned := false, pinReply := none }) fun _ => ⟨rfl, rfl⟩,
    State.adapter_congr (congrArg Form.adapters hform), h]
  rfl

/-- The adapter that a request names stands, where the request passed the checks of its adapter. -/
theorem State.adapter_of_passes {s : State} {c : Cmd} {q : Req} {p : AdapterP} {rest : State → List Check}
    (h : s.passes c q (fun u => u.adapterChecks p ++ rest u) = true) :
    ∃ a, (s.acting c q).adapter p.mapUid p.adapter = some a := by
  have hcheck := State.check_of_passes h (List.mem_append_left _ (List.mem_cons_of_mem _ List.mem_cons_self))
  simp only [Bool.and_eq_true] at hcheck
  obtain ⟨a, ha⟩ := Option.isSome_iff_exists.mp hcheck.2
  have hw := s.acting_of_entry c q
  exact ⟨a, by rw [State.adapter_congr (congrArg Form.adapters (hw.1 .form (by simp))), ha]⟩

end Sys2Proof.Machine

namespace Sys2Proof

open Machine

/-- Settles O25: a command of forming changes the maps or the adapters it names, and answers to others leave them. -/
theorem formCommandsComplete : Obligations.FormCommandsComplete := by
  unfold Obligations.FormCommandsComplete
  refine ⟨?define, ?replace, ?retire, ?register, ?unregister, ?pin, ?unpin⟩
  case define =>
    intro q p s hpass
    refine completes_of_effect rfl hpass rfl (by simp [okFields]) fun t ht => ?_
    rw [show t.form = _ from ht.1 .form (by simp)]
    refine ⟨_, NMap.find_put .., rfl, rfl, rfl, ?_⟩
    simp only [State.pinVersion_congr (s.acting_rgn (mapDefineCmd p) q)]
  case replace =>
    intro q p s hpass
    refine completes_of_effect rfl hpass rfl (by simp [okFields]) fun t ht => ?_
    rw [show t.form = _ from ht.1 .form (by simp)]
    refine ⟨_, NMap.find_put .., rfl, ?_, ?_⟩
    · simp only [State.pinVersion_congr (s.acting_rgn (mapReplaceCmd p) q)]
    · show (s.acting (mapReplaceCmd p) q).form.adapters = s.form.adapters
      rw [s.acting_form]
  case retire =>
    intro q p s hwf hpass
    refine completes_of_effect rfl hpass rfl (by simp [okAns]) fun t ht => ?_
    rw [show t.form = _ from ht.1 .form (by simp), State.retireMap, (State.endAdapters_form _ _).1, (State.endAdapters_form _ _).2]
    refine ⟨?_, fun a ha => by simpa using (List.mem_filter.mp ha).2⟩
    show NMap.find (NMap.del (s.acting (mapRetireCmd p) q).form.maps p.mapUid) p.mapUid = none
    rw [s.acting_form]
    exact NMap.find_del hwf _
  case register =>
    intro q p s s' hpass hreg
    refine completes_of_effect rfl hpass hreg (by simp [okAns]) fun t ht => ?_
    rw [State.adapter_congr (s := s') (by rw [show t.form = _ from ht.1 .form (by simp)])]
    exact State.adapter_of_register hreg
  case unregister =>
    intro q p s hpass
    refine completes_of_effect rfl hpass rfl (by simp [okAns]) fun t ht => ?_
    rw [State.adapter, show t.form = _ from ht.1 .form (by simp), (State.endAdapters_form _ _).2, List.find?_eq_none]
    intro a ha
    simpa only [Bool.not_eq_true', Bool.not_eq_true] using (List.mem_filter.mp ha).2
  case pin =>
    intro q p s hpass
    obtain ⟨a, ha⟩ := State.adapter_of_passes hpass
    obtain ⟨hpinned, harea⟩ := adapterPinAct_pins (s.replyOf (adapterPinCmd p) q) ha
    refine completes_of_effect rfl hpass rfl harea fun t ht => ?_
    rwa [State.adapter_congr (congrArg Form.adapters (ht.1 .form (by simp)))]
  case unpin =>
    intro q p s hpass
    obtain ⟨a, ha⟩ := State.adapter_of_passes hpass
    refine completes_of_effect rfl hpass rfl (by simp [okAns]) fun t ht => ?_
    rw [State.adapter_congr (congrArg Form.adapters (ht.1 .form (by simp)))]
    exact adapterUnpinAct_unpins (s.replyOf (adapterUnpinCmd p) q) ha

end Sys2Proof
end

section
/-! PROOFS. Work that passes its ingress, and retrieval (R157, R185 to R192). -/

namespace Sys2Proof.Machine

variable {s : State}

/-! ## Work that passes -/

/-- A WORK packet that passes the gate goes to its admission. -/
theorem State.workGate_of_passes {h : Hdr} {len q : Nat} (kind ctag : Nat) (go : State → Nat → Bool → State)
    (no : State → Status → State) (hpass : s.workPasses h len q) :
    ∃ y, s.workGate h kind ctag len go no = go (s.workIn h len) q y := by
  obtain ⟨y, o, hgate⟩ := hpass
  unfold workForm at hgate
  unfold State.workGate
  dsimp only
  rw [hgate]
  exact ⟨y, rfl⟩

/-- A work item that is added stands under its number. -/
theorem State.addWork_work (s : State) (w : Work) : (s.addWork w).1.eng.work.find s.eng.nextWork = some w := by
  have hw : Within [.link, .pair] { s with eng := { s.eng with work := s.eng.work.put s.eng.nextWork w, nextWork := s.eng.nextWork + 1 } }
      (s.addWork w).1 := by simp [State.addWork]
  rw [show (s.addWork w).1.eng = _ from hw.1 .eng (by simp)]
  exact NMap.find_put ..

/-- What energy admission lets pass leaves the engines. -/
theorem State.admitEnergy_eng (s : State) (d x : Nat) : (s.admitEnergy d x).1.eng = s.eng := by
  have hw : Within [.mbx, .part, .link] s (s.admitEnergy d x).1 := by simp
  exact hw.1 .eng (by simp)

/-- A query that no check refuses is a queued work item. -/
theorem admitTopk_queues {h : Hdr} {t : TopkB} {b : IndexB} {r : Option IndexB} {q : Nat} {y : Bool} {s2 : State}
    (hactive : s.deckleActive h.deckle = true) (hfields : s.topkFields h.deckle t = true) (haligned : topkAligned t = true)
    (hindex : s.retr.indexes.find t.index = some b)
    (hrindex : (if t.rescore then s.retr.indexes.find t.rindex else none) = r)
    (hrescore : t.rescore = true → r.isSome = true) (hmay : s.mayQuery h.deckle b = true)
    (hmayr : ∀ i ∈ r, s.mayQuery h.deckle i = true) (hmetric : t.metric = 2 ↔ b.format = 3)
    (hrfit : ∀ i ∈ r, i.format = 1 ∧ i.rows = b.rows ∧ i.idBase = b.idBase)
    (henergy : s.admitEnergy h.deckle (topkEstimate t b r) = (s2, .go y)) :
    ∃ w, (s.admitTopk h t q).eng.work.find s.eng.nextWork = some w ∧ w.body = .topk t b r ∧ w.state = .queued ∧
      (w.deckle, w.cplEp, w.ctag) = (h.deckle, t.cplEp, t.ctag) := by
  have heng : s2.eng = s.eng := by simpa [henergy] using s.admitEnergy_eng h.deckle (topkEstimate t b r)
  have hnone : (t.rescore && r.isNone) = false := by cases hr : t.rescore <;> cases r <;> simp_all
  have hquery : ((r.map fun i => s.mayQuery h.deckle i).getD true) = true := by cases r <;> simp_all
  have hfit : ((r.map fun i => i.format == 1 && i.rows == b.rows && i.idBase == b.idBase).getD true) = true := by
    cases r <;> simp_all
  have hmet : ((t.metric == 2) != (b.format == 3)) = false := by simp [hmetric]
  unfold State.admitTopk
  simp only [hactive, hfields, haligned, hindex, hrindex, hnone, hmay, hquery, hmet, hfit, mkWork, henergy,
    Bool.not_true, Bool.or_self, Bool.false_eq_true, if_false, ← heng, State.addWork_work]
  exact ⟨_, rfl, rfl, rfl, rfl⟩

/-- An index is read from regions alone. -/
theorem State.indexOf_congr {t : State} (p : IndexP) (h : t.rgn = s.rgn) : t.indexOf p = s.indexOf p := by
  simp only [State.indexOf, State.pinVersion_congr h]

end Sys2Proof.Machine

namespace Sys2Proof

open Machine

/-- Settles O27: an index command changes the table of indexes at its index, and a query that passes every check is
one more work item. -/
theorem retrievalCommandsComplete : Obligations.RetrievalCommandsComplete := by
  unfold Obligations.RetrievalCommandsComplete
  refine ⟨?define, ?replace, ?retire, ?query, ?complete⟩
  case define =>
    intro q p s hpass
    refine completes_of_effect rfl hpass rfl (by simp [okFields]) fun t ht => ?_
    rw [show t.retr = _ from ht.1 .retr (by simp)]
    dsimp only
    rw [s.acting_retr, State.indexOf_congr p (s.acting_rgn _ _)]
    exact ⟨NMap.find_put .., max_eq_right (Nat.le_succ _)⟩
  case replace =>
    intro q p s hpass
    refine completes_of_effect rfl hpass rfl (by simp [okFields]) fun t ht => ?_
    rw [show t.retr = _ from ht.1 .retr (by simp)]
    dsimp only
    rw [State.indexOf_congr p (s.acting_rgn _ _)]
    exact NMap.find_put ..
  case retire =>
    intro q p s hwf hpass
    refine completes_of_effect rfl hpass rfl (by simp [okFields]) fun t ht => ?_
    rw [show t.retr = _ from ht.1 .retr (by simp)]
    dsimp only
    rw [s.acting_retr]
    exact ⟨rfl, NMap.find_del hwf _⟩
  case query =>
    intro h t b r q y s s2 hpass s1 hactive hfields haligned hindex hrindex hrescore hmay hmayr hmetric hrfit henergy
    obtain ⟨x, hgo⟩ := State.workGate_of_passes 0x0030 t.ctag (fun s q _ => s.admitTopk h t q)
      (fun s st => s.refuseWork h 0x0030 t.ctag st 0) hpass
    refine .of_next rfl ?_
    rw [hgo]
    exact admitTopk_queues hactive hfields haligned hindex hrindex hrescore hmay hmayr hmetric hrfit henergy
  case complete =>
    intro work n m s s1 s2 x t b r sc htrip hfind hbody hcause hready hstate hwaiting hrun hput
    refine .of_next (by simp [exec, execTopkComplete, State.unlessTripped, htrip, hfind, hbody, hcause, hready, hstate, hwaiting, hrun, hput]) rfl

end Sys2Proof
end

section
/-! PROOFS. The pool of contexts (R161, R162). -/

namespace Sys2Proof.Machine

variable {s : State}

/-! ## Cores -/

/-- A change of every core below a bound, one after the other. -/
theorem State.core_foldl_modCore (s : State) (f : Core → Core) {n c : Nat} :
    ((List.range n).foldl (fun a c => a.modCore c f) s).core c = if c < n then f (s.core c) else s.core c := by
  induction n with
  | zero => rfl
  | succ n ih =>
    rw [List.range_succ, List.foldl_append]
    simp only [List.foldl_cons, List.foldl_nil]
    rcases eq_or_ne c n with rfl | hne
    · simp [ih]
    · simp [State.core_modCore_ne _ _ _ _ hne, ih, show c < n + 1 ↔ c < n by omega]

theorem Core.settleSpill_spillTarget (c : Core) : c.settleSpill.spillTarget = c.spillTarget := by
  unfold Core.settleSpill
  split <;> rfl

/-- Every core takes the target. -/
theorem State.setSpill_target (s : State) (n : Nat) {c : Nat} (hc : c < 32) : ((s.setSpill n).core c).spillTarget = n := by
  unfold State.setSpill
  rw [State.core_foldl_modCore, if_pos hc, Core.settleSpill_spillTarget]

/-! ## The store of a deckle -/

/-- A deckle whose store grows stays listed. -/
theorem State.growCtx_has {d hint n : Nat} {u : State} (h : s.growCtx d hint n = .ok u)
    (hd : (s.part.deckles.find d).isSome = true) : (u.part.deckles.find d).isSome = true := by
  induction n generalizing s hint with
  | zero =>
    cases h
    exact hd
  | succ n ih =>
    unfold State.growCtx at h
    split at h
    · cases h
    · exact ih h (by simp [State.modDeckle, State.holdRun, hd])

theorem foldl_retireRun_deckles (l : List (Nat × Nat)) (t : Tier) (ver : Bool) (s : State) :
    (l.foldl (fun a r => a.retireRun t r.1 r.2 ver) s).part.deckles = s.part.deckles := by
  induction l generalizing s with
  | nil => rfl
  | cons r l ih => exact ih _

/-- The frames a deckle's store gives up are not its limit. -/
theorem State.dropCtx_maxSeq (s : State) (d : Nat) :
    ((s.dropCtx d).part.deckles.find d).map (·.maxSeq) = (s.part.deckles.find d).map (·.maxSeq) := by
  unfold State.dropCtx
  split
  · split
    · rw [foldl_retireRun_deckles]
      exact s.modDeckle_map d d fun _ => rfl
    · rfl
  · rfl

/-- A limit that is set is the deckle's. -/
theorem State.setMaxSeq_maxSeq {d n hint : Nat} {u : State} (h : s.setMaxSeq d n hint = .ok u)
    (hd : (s.part.deckles.find d).isSome = true) : (u.part.deckles.find d).map (·.maxSeq) = some n := by
  unfold State.setMaxSeq at h
  dsimp only at h
  split at h
  · cases h
  · next s1 hgrow =>
    split at h
    · cases h
    · cases h
      obtain ⟨k, hk⟩ := Option.isSome_iff_exists.mp (State.growCtx_has hgrow hd)
      rw [State.dropCtx_maxSeq]
      simp [State.modDeckle, hk]

/-- A limit that passes the checks is of a listed deckle. -/
theorem poolSet_deckle {q : Req} {p : PoolSetP} (h : s.passes (attnPoolSetCmd p) q (attnPoolSetChecks p)) (hp : p.setMax = true) :
    ((s.acting (attnPoolSetCmd p) q).part.deckles.find p.deckle).isSome = true := by
  have hcheck := State.check_of_passes h List.mem_cons_self
  simp only [hp, Bool.not_true, Bool.false_or, Bool.and_eq_true] at hcheck
  rw [(s.acting_of_entry (attnPoolSetCmd p) q).part (by simp) (by simp)]
  exact hcheck.2.2

end Sys2Proof.Machine

namespace Sys2Proof

open Machine

/-- Settles O21: the pool command is the fold over the cores and the limit of the deckle, and touches neither the
mailbox nor the pins. -/
theorem attnPoolSetSets : Obligations.AttnPoolSetSets := by
  unfold Obligations.AttnPoolSetSets
  refine ⟨?windows, ?limit⟩
  case windows =>
    intro q p hint c s hpass hmax hwin hc
    refine completes_answering (Z := [.eng]) rfl hpass (by simp [attnPoolSetAct, hmax, hwin]; rfl) rfl (by simp)
      (by simp) (by simp) fun t ht hans => ⟨?_, hans⟩
    rw [State.core_congr (ht.1 .eng (by simp))]
    exact State.setSpill_target _ _ hc
  case limit =>
    intro q p hint s s1 hpass hmax hset
    have hlimit := State.setMaxSeq_maxSeq hset (poolSet_deckle hpass hmax)
    have hw : Within [.grans, .part] (s.acting (attnPoolSetCmd p) q) s1 :=
      State.setMaxSeq_within _ _ _ _ (by simp) (.refl _ _) hset
    refine completes_answering (Z := [.grans, .part, .eng]) (u := if p.setWindows then s1.setSpill p.windows else s1) rfl hpass
      (by simp [attnPoolSetAct, hmax, hset]) rfl ?_ (by simp) (by simp) fun t ht hans => ⟨?_, hans⟩
    · split
      · exact (State.setSpill_within _ _ (by simp)).mpr (hw.mono (by simp))
      · exact hw.mono (by simp)
    · have hpart : (if p.setWindows then s1.setSpill p.windows else s1).part = s1.part := by
        split
        · have hs : Within [.eng] s1 (s1.setSpill p.windows) := by simp
          exact hs.part (by simp) (by simp)
        · rfl
      rw [ht.part (by simp) (by simp), hpart, hlimit]

end Sys2Proof
end

section
/-! PROOFS. Regions: what the end of versions and drafts leaves of them (R72 to R81). -/

namespace Sys2Proof.Machine

variable {s t u : State}

/-! ## Where only waiting publishes move -/

/-- A region without its waiting publishes. -/
def Region.unqueued (r : Region) : Region := { r with queue := [] }

/-- A region without its versions and its waiting publishes. -/
def Region.plain (r : Region) : Region := { r with versions := [], queue := [] }

/-- Of regions, handles and drafts only waiting publishes change and drafts end. -/
structure QueuesOnly (s t : State) : Prop where
  handles : t.rgn.handles = s.rgn.handles
  regions : t.rgn.regions.each (fun _ => Region.unqueued) = s.rgn.regions.each (fun _ => Region.unqueued)
  drafts : t.rgn.drafts.keys ⊆ s.rgn.drafts.keys

theorem QueuesOnly.refl (s : State) : QueuesOnly s s := ⟨rfl, rfl, List.Subset.refl _⟩
theorem QueuesOnly.trans (h : QueuesOnly s t) (k : QueuesOnly t u) : QueuesOnly s u :=
  ⟨k.handles.trans h.handles, k.regions.trans h.regions, List.Subset.trans k.drafts h.drafts⟩
theorem QueuesOnly.of_rgn (h : t.rgn = s.rgn) : QueuesOnly s t := by
  constructor <;> simp [h]
theorem QueuesOnly.of_within {Z : List Spot} (h : Within Z s t) (hZ : Spot.rgn ∉ Z) : QueuesOnly s t := .of_rgn (h.1 .rgn hZ)

/-- A region is the same up to its queue. -/
theorem QueuesOnly.region (h : QueuesOnly s t) (i : Nat) :
    (t.rgn.regions.find i).map Region.unqueued = (s.rgn.regions.find i).map Region.unqueued := by
  simpa only [NMap.find_each] using congrArg (fun m => NMap.find m i) h.regions

theorem NMap.each_upd_of_absorbed {α : Type} (m : NMap α) (k : Nat) {f g : α → α} (h : ∀ a, g (f a) = g a) :
    (m.upd k f).each (fun _ => g) = m.each fun _ => g := by
  simp only [NMap.upd, NMap.each, List.map_map]
  refine List.map_congr_left fun x _ => ?_
  simp only [Function.comp_apply]
  split <;> simp_all

theorem Region.unqueued_requeue (m : NMap Region) (i : Nat) (l : List PubWait) :
    (m.upd i fun r => { r with queue := l }).each (fun _ => Region.unqueued) = m.each fun _ => Region.unqueued :=
  NMap.each_upd_of_absorbed m i fun _ => rfl

theorem NMap.keys_upd {α : Type} (m : NMap α) (k : Nat) (f : α → α) : (m.upd k f).keys = m.keys := by
  simp only [NMap.keys, NMap.upd, List.map_map]
  refine List.map_congr_left fun x _ => ?_
  simp only [Function.comp_apply]
  split <;> rfl

theorem NMap.keys_del_subset {α : Type} (m : NMap α) (k : Nat) : (m.del k).keys ⊆ m.keys := by
  intro j hj
  obtain ⟨x, hx, rfl⟩ := List.mem_map.mp hj
  exact List.mem_map.mpr ⟨x, NMap.mem_del hx, rfl⟩

theorem NMap.find_eq_none_of_keys {α : Type} {m : NMap α} {k : Nat} (h : k ∉ m.keys) : m.find k = none := by
  rw [Option.eq_none_iff_forall_ne_some]
  exact fun a ha => h (List.mem_map.mpr ⟨_, NMap.find_some_mem ha, rfl⟩)

theorem NMap.keys_del {α : Type} {m : NMap α} (h : NMap.wf m = true) (k : Nat) : k ∉ (m.del k).keys := by
  intro hk
  obtain ⟨⟨j, a⟩, hx, rfl⟩ := List.mem_map.mp hk
  have hfind := NMap.find_of_mem (NMap.wf_del h j) hx
  simp [NMap.find_del h] at hfind

/-- The queue of a region is set. -/
theorem queuesOnly_requeue (s : State) (i : Nat) (l : List PubWait) :
    QueuesOnly s { s with rgn := { s.rgn with regions := s.rgn.regions.upd i fun r => { r with queue := l } } } :=
  ⟨rfl, Region.unqueued_requeue _ _ _, List.Subset.refl _⟩

theorem State.answer_queuesOnly (s : State) (r : Nat) (a : Ans) : QueuesOnly s (s.answer r a) :=
  .of_within (Z := [.mbx, .cells, .mem, .part, .link, .cal, .pair, .pkg]) (by simp) (by simp)

theorem State.answerOpt_queuesOnly (s : State) (r : Option Nat) (a : Ans) : QueuesOnly s (s.answerOpt r a) :=
  .of_within (Z := [.mbx, .cells, .mem, .part, .link, .cal, .pair, .pkg]) (by simp) (by simp)

/-- Publishes that are refused leave the queue and are answered. -/
theorem queuesOnly_refuse (s : State) (i : Nat) (l : List PubWait) (reply : Nat) (a : Ans) :
    QueuesOnly s (State.answer { s with rgn := { s.rgn with regions := s.rgn.regions.upd i fun r => { r with queue := l } } } reply a) :=
  (queuesOnly_requeue s i l).trans (State.answer_queuesOnly _ _ _)

theorem State.runPublishes_queuesOnly (s : State) (i : Nat) (ws : List PubWait) : QueuesOnly s (s.runPublishes i ws) := by
  induction ws generalizing s with
  | nil => exact .refl s
  | cons w ws ih =>
    unfold State.runPublishes
    split
    · exact (State.answer_queuesOnly _ _ _).trans (ih _)
    · next r _ =>
      dsimp only
      split
      · exact queuesOnly_requeue _ _ _
      · split
        · exact (queuesOnly_refuse _ _ _ _ _).trans (ih _)
        · split
          · exact (queuesOnly_refuse _ _ _ _ _).trans (ih _)
          · split
            · exact (queuesOnly_refuse _ _ _ _ _).trans (ih _)
            · split
              · exact (queuesOnly_refuse _ _ _ _ _).trans (ih _)
              · split
                · exact (queuesOnly_refuse _ _ _ _ _).trans (ih _)
                · refine .trans ?_ (ih _)
                  exact ⟨rfl, Region.unqueued_requeue _ _ _, by simp [State.modDraft, NMap.keys_upd]⟩

theorem State.pumpPublishes_queuesOnly (s : State) (i : Nat) : QueuesOnly s (s.pumpPublishes i) := by
  unfold State.pumpPublishes
  split
  · exact State.runPublishes_queuesOnly _ _ _
  · exact .refl s

theorem State.revokeOne_queuesOnly (s : State) (x cause timeoutUs : Nat) (reply : Option Nat) :
    QueuesOnly s (s.revokeOne x cause timeoutUs reply) :=
  .of_within (Z := [.mbx, .cells, .mem, .grans, .part, .lode, .link, .cal, .pair, .pkg]) (by simp) (by simp)

theorem queuesOnly_foldl {α : Type} (l : List α) (f : State → α → State) (h : ∀ a x, QueuesOnly a (f a x)) (s : State) :
    QueuesOnly s (l.foldl f s) := by
  induction l generalizing s with
  | nil => exact .refl s
  | cons x l ih => exact (h s x).trans (ih _)

theorem queuesOnly_withoutDraft (s : State) (i : Nat) :
    QueuesOnly s { s with rgn := { s.rgn with drafts := s.rgn.drafts.del i } } :=
  ⟨rfl, rfl, NMap.keys_del_subset _ _⟩

/-- What the end of a draft does once the draft has left the table. -/
theorem State.endDraft_queuesOnly_of_find {i : Nat} {d : Draft} (cause : Nat) (h : s.rgn.drafts.find i = some d) :
    QueuesOnly { s with rgn := { s.rgn with drafts := s.rgn.drafts.del i } } (s.endDraft i cause) := by
  unfold State.endDraft
  rw [h]
  dsimp only
  refine .trans ?_ (State.pumpPublishes_queuesOnly _ _)
  refine .trans ?_ (queuesOnly_foldl _ _ (fun a g => State.revokeOne_queuesOnly _ _ _ _ _) _)
  exact (State.answerOpt_queuesOnly _ _ _).trans (State.answerOpt_queuesOnly _ _ _)

theorem State.endDraft_queuesOnly (s : State) (i cause : Nat) : QueuesOnly s (s.endDraft i cause) := by
  cases h : s.rgn.drafts.find i with
  | none =>
    unfold State.endDraft
    rw [h]
    exact .refl s
  | some d => exact (queuesOnly_withoutDraft s i).trans (State.endDraft_queuesOnly_of_find cause h)

/-- A draft that ends is listed no more. -/
theorem State.endDraft_gone (s : State) (i cause : Nat) (hwf : NMap.wf s.rgn.drafts = true) :
    i ∉ (s.endDraft i cause).rgn.drafts.keys := by
  cases h : s.rgn.drafts.find i with
  | none =>
    unfold State.endDraft
    rw [h]
    intro hk
    obtain ⟨⟨j, d⟩, hx, rfl⟩ := List.mem_map.mp hk
    simp [NMap.find_of_mem hwf hx] at h
  | some d => exact fun hk => NMap.keys_del hwf i ((State.endDraft_queuesOnly_of_find cause h).drafts hk)

theorem State.revokeExtent_queuesOnly (s : State) (x cause timeoutUs : Nat) (reply : Option Nat) :
    QueuesOnly s (s.revokeExtent x cause timeoutUs reply) := by
  unfold State.revokeExtent
  dsimp only
  split
  · exact (State.revokeOne_queuesOnly _ _ _ _ _).trans (State.endDraft_queuesOnly _ _ _)
  · exact State.revokeOne_queuesOnly _ _ _ _ _

/-! ## Where versions end -/

/-- Handles stay; regions and drafts are among those there were, but for versions and waiting publishes of a region. -/
structure Retains (s t : State) : Prop where
  handles : t.rgn.handles = s.rgn.handles
  regions : ∀ x ∈ t.rgn.regions, ∃ y ∈ s.rgn.regions, y.1 = x.1 ∧ y.2.plain = x.2.plain
  drafts : t.rgn.drafts.keys ⊆ s.rgn.drafts.keys

theorem Retains.refl (s : State) : Retains s s := ⟨rfl, fun x hx => ⟨x, hx, rfl, rfl⟩, List.Subset.refl _⟩
theorem Retains.trans (h : Retains s t) (k : Retains t u) : Retains s u where
  handles := k.handles.trans h.handles
  regions := fun x hx => by
    obtain ⟨y, hy, hkey, hplain⟩ := k.regions x hx
    obtain ⟨z, hz, hkey', hplain'⟩ := h.regions y hy
    exact ⟨z, hz, hkey'.trans hkey, hplain'.trans hplain⟩
  drafts := List.Subset.trans k.drafts h.drafts

theorem QueuesOnly.retains (h : QueuesOnly s t) : Retains s t where
  handles := h.handles
  regions := fun x hx => by
    have hmem : (x.1, x.2.unqueued) ∈ s.rgn.regions.each fun _ => Region.unqueued :=
      h.regions ▸ List.mem_map.mpr ⟨x, hx, rfl⟩
    obtain ⟨y, hy, heq⟩ := List.mem_map.mp hmem
    obtain ⟨hkey, hq⟩ := Prod.mk.inj heq
    have hp : y.2.unqueued.plain = x.2.unqueued.plain := congrArg Region.plain hq
    exact ⟨y, hy, hkey, hp⟩
  drafts := h.drafts

/-- A region that takes the place of one like it. -/
theorem retains_put {i : Nat} {r r' : Region} (hfind : s.rgn.regions.find i = some r) (h : r'.plain = r.plain) :
    Retains s { s with rgn := { s.rgn with regions := s.rgn.regions.put i r' } } where
  handles := rfl
  regions := fun x hx => by
    rcases NMap.mem_put hx with rfl | hx
    · exact ⟨_, NMap.find_some_mem hfind, rfl, h.symm⟩
    · exact ⟨x, hx, rfl, rfl⟩
  drafts := List.Subset.refl _

theorem retains_del (s : State) (i : Nat) : Retains s { s with rgn := { s.rgn with regions := s.rgn.regions.del i } } :=
  ⟨rfl, fun x hx => ⟨x, NMap.mem_del hx, rfl, rfl⟩, List.Subset.refl _⟩

theorem State.retainOne_retains (s : State) (i : Nat) : Retains s (s.retainOne i) := by
  unfold State.retainOne
  split
  · exact .refl s
  · next r hr =>
    extract_lets gone src r' s1 keep ext s2
    have hrun : Retains s s2 := (retains_put (r' := r') hr rfl).trans
      (queuesOnly_foldl ext _ (fun a x => a.revokeExtent_queuesOnly x 2 1000 none) s1).retains
    split
    · split
      · exact retains_del s i
      · exact .refl s
    · split
      · exact hrun.trans (retains_del _ i)
      · exact hrun

/-- What holds of every region, whatever its versions and queue, holds of those that stay. -/
theorem Retains.forall_region (h : Retains s t) {P : Nat → Region → Prop}
    (hP : ∀ x ∈ s.rgn.regions, P x.1 x.2.plain) : ∀ x ∈ t.rgn.regions, P x.1 x.2.plain := by
  intro x hx
  obtain ⟨y, hy, hkey, hplain⟩ := h.regions x hx
  exact hkey ▸ hplain ▸ hP y hy

end Sys2Proof.Machine
end

section
/-! PROOFS. The commands of regions and handles (R72 to R81). -/

namespace Sys2Proof.Machine

variable {s t : State}

/-- No live region of a deckle stands at a number where every region listed is deleted. -/
theorem liveRegion_eq_none {d i : Nat} (h : ∀ x ∈ s.rgn.regions, x.1 = i → x.2.plain.deleted = true) :
    s.liveRegion d i = none := by
  unfold State.liveRegion
  cases hfind : s.rgn.regions.find i with
  | none => rfl
  | some r =>
    have hdel : r.deleted = true := h _ (NMap.find_some_mem hfind) rfl
    simp [hdel]

/-- After a change of the entries at a key, each entry is another's or a changed one. -/
theorem NMap.mem_upd {α : Type} {m : NMap α} {k : Nat} {f : α → α} {x : Nat × α} (h : x ∈ m.upd k f) :
    (x ∈ m ∧ x.1 ≠ k) ∨ ∃ a, x = (k, f a) := by
  obtain ⟨y, hy, rfl⟩ := List.mem_map.mp h
  split
  · next hk => exact .inr ⟨y.2, by rw [hk]⟩
  · next hk => exact .inl ⟨hy, hk⟩

/-- The drafts of a deleted region end and its versions go: none of it is live. -/
theorem regionDelete_gone (s : State) (d i : Nat) (is : List Nat) :
    ((is.foldl (fun (a : State) j => a.endDraft j 2)
      { s with rgn := { s.rgn with regions := s.rgn.regions.upd i fun r => { r with deleted := true } } }).retainOne i).liveRegion d i
      = none := by
  have hret := (queuesOnly_foldl is _ (fun a j => State.endDraft_queuesOnly a j 2)
    { s with rgn := { s.rgn with regions := s.rgn.regions.upd i fun r => { r with deleted := true } } }).retains.trans
    (State.retainOne_retains _ i)
  refine liveRegion_eq_none (hret.forall_region (P := fun k r => k = i → r.deleted = true) fun x hx => ?_)
  have hx' : x ∈ s.rgn.regions.upd i fun r => { r with deleted := true } := hx
  rcases NMap.mem_upd hx' with ⟨-, hne⟩ | ⟨r, rfl⟩
  · exact fun hk => absurd hk hne
  · exact fun _ => rfl

/-- Whether a deckle's region is live is read from regions alone. -/
theorem State.liveRegion_congr (h : t.rgn = s.rgn) (d i : Nat) : t.liveRegion d i = s.liveRegion d i := by
  simp [State.liveRegion, h]

/-- REGION_GRANT WITHDRAW answers ST_OK in every case. -/
theorem regionWithdrawAct_eq (p : GrantP) (s : State) (r : Nat) :
    regionWithdrawAct p s r = ((regionWithdrawAct p s r).1, some okAns) := by
  unfold regionWithdrawAct
  dsimp only
  split <;> rfl

/-- A region whose grantee is withdrawn does not list it. -/
theorem regionWithdraw_gone (q : GrantP) (s : State) (r : Nat) :
    (((regionWithdrawAct q s r).1.rgn.regions.find q.region).map fun g => g.grantees.contains q.grantee) ≠ some true := by
  unfold regionWithdrawAct
  dsimp only
  split
  · next hno =>
    intro hhas
    have hhas' : ((s.rgn.regions.find q.region).map fun g => g.grantees.contains q.grantee) = some true := hhas
    rw [hhas'] at hno
    cases hno
  · refine fun hhas => ?_
    obtain ⟨g, hg, hcontains⟩ := Option.map_eq_some_iff.mp hhas
    have hnone := (State.retainOne_retains _ q.region).forall_region
      (P := fun k g => k = q.region → g.grantees.contains q.grantee = false) (fun x hx => ?_) _ (NMap.find_some_mem hg) rfl
    · exact absurd (hnone.symm.trans hcontains) (by simp)
    · have hx' : x ∈ s.rgn.regions.upd q.region fun g => { g with grantees := g.grantees.filter (· != q.grantee) } := hx
      rcases NMap.mem_upd hx' with ⟨-, hne⟩ | ⟨g', rfl⟩
      · exact fun hk => absurd hk hne
      · exact fun _ => by simp [Region.plain]

theorem State.versionSegs_congr (h : t.rgn = s.rgn) (r v : Nat) : t.versionSegs r v = s.versionSegs r v := by
  simp [State.versionSegs, h]

theorem State.entry_rgn (s : State) (c : Cmd) (q : Req) : (s.entry c q).rgn = s.rgn :=
  (s.entry_within c q (Z := [.hub, .mbx, .cells, .mem, .part, .link, .cal, .pair]) (by simp)).1 .rgn (by simp)

/-- The effect of REGION_OPEN on a listed region. -/
theorem regionOpenAct_of_find {p : OpenP} {r : Region} (q : Req) (reply : Nat) (h : s.rgn.regions.find p.region = some r) :
    regionOpenAct q p s reply =
      ({ s with rgn := { s.rgn with
          handles := s.rgn.handles.put (s.rgn.lastHandle + 1)
            { deckle := p.deckle, ep := q.ep, region := p.region, version := r.baseOf p.version },
          lastHandle := s.rgn.lastHandle + 1 } },
        some (openResult (s.rgn.lastHandle + 1) r (r.markOf (r.baseOf p.version)) 0)) := by
  simp only [regionOpenAct, h]

/-- The effect of REGION_REOPEN on a listed region. -/
theorem regionReopenAct_of_find {p : OpenP} {r : Region} (reply : Nat) (h : s.rgn.regions.find p.region = some r) :
    regionReopenAct p s reply =
      (State.retainOne { s with rgn := { s.rgn with
          handles := s.rgn.handles.upd p.id fun x => { x with version := r.baseOf p.version } } } p.region,
        some (openResult p.id r (r.markOf (r.baseOf p.version)) 0)) := by
  simp only [regionReopenAct, h]

/-- A handle that is reopened is listed. -/
theorem reopen_handle {q : Req} {p : OpenP} (h : s.passes (regionReopenCmd p) q (regionReopenChecks p)) :
    (s.rgn.handles.find p.id).isSome = true := by
  cases hr : s.rgn.regions.find p.region with
  | none =>
    have hcheck := State.check_of_passes h (x := (false, .invalid, 0)) (by simp [regionReopenChecks, State.entry_rgn, hr])
    cases hcheck
  | some r =>
    have hcheck := State.check_of_passes h
      (x := (!p.ofDraft && ((s.entry (regionReopenCmd p) q).handleOf p.deckle p.region p.id).isSome, .invalid, 0))
      (by simp [regionReopenChecks, State.entry_rgn, hr])
    simp only [Bool.and_eq_true, State.handleOf, State.entry_rgn] at hcheck
    exact Option.isSome_of_isSome_bind hcheck.2

end Sys2Proof.Machine

namespace Sys2Proof

open Machine

/-- Settles O6: what a region command changes of the tables of regions and handles, past the end of versions and
drafts. -/
theorem regionCommandsComplete : Obligations.RegionCommandsComplete := by
  unfold Obligations.RegionCommandsComplete
  refine ⟨?create, ?retain, ?delete, ?openH, ?reopen, ?list, ?close, ?grant, ?withdraw⟩
  case create =>
    intro q p s hpass
    refine completes_answering (Z := [.rgn]) rfl hpass rfl rfl (by simp) (by simp) (by simp) fun t ht hans => ⟨?_, ?_⟩
    · rw [show t.rgn = _ from ht.1 .rgn (by simp)]
      dsimp only
      rw [s.acting_rgn]
      exact NMap.find_put ..
    · rw [s.acting_rgn] at hans
      exact hans
  case retain =>
    intro q p s r hpass hr
    refine completes_answering (Z := [.rgn]) rfl hpass rfl rfl (by simp) (by simp) (by simp) fun t ht hans => ⟨?_, hans⟩
    rw [show t.rgn = _ from ht.1 .rgn (by simp)]
    dsimp only
    rw [s.acting_rgn, NMap.find_upd_same, hr]
    rfl
  case delete =>
    intro q p s hpass
    refine completes_of_effect rfl hpass rfl (by simp [okAns]) fun t ht => ⟨?_, ?_⟩
    · have hcheck := State.check_of_passes hpass List.mem_cons_self
      simp only [Bool.and_eq_true, State.liveRegion, State.entry_rgn] at hcheck
      exact Option.isSome_iff_ne_none.mp hcheck.2
    · rw [State.liveRegion_congr (ht.1 .rgn (by simp))]
      exact regionDelete_gone _ _ _ _
  case openH =>
    intro q p s r hpass hr
    have hact := regionOpenAct_of_find q (s.replyOf (regionOpenCmd p) q)
      ((congrArg (fun g => NMap.find (Rgn.regions g) p.region) (s.acting_rgn (regionOpenCmd p) q)).trans hr)
    refine completes_answering (Z := [.rgn]) rfl hpass hact rfl (by simp) (by simp) (by simp) fun t ht hans => ⟨?_, ?_⟩
    · rw [show t.rgn = _ from ht.1 .rgn (by simp)]
      dsimp only
      rw [s.acting_rgn]
      exact NMap.find_put ..
    · rw [s.acting_rgn] at hans
      exact hans
  case reopen =>
    intro q p s r hpass hr
    obtain ⟨h, hh⟩ := Option.isSome_iff_exists.mp (reopen_handle hpass)
    have hact := regionReopenAct_of_find (s.replyOf (regionReopenCmd p) q)
      ((congrArg (fun g => NMap.find (Rgn.regions g) p.region) (s.acting_rgn (regionReopenCmd p) q)).trans hr)
    refine completes_of_effect rfl hpass hact (by simp [openResult, okFields]) fun t ht => ?_
    rw [show t.rgn = _ from ht.1 .rgn (by simp), (State.retainOne_retains _ _).handles]
    dsimp only
    rw [s.acting_rgn, NMap.find_upd_same, hh]
    rfl
  case list =>
    intro q p s r h hpass hr hdraft hh
    refine completes_answering_area (Z := []) rfl hpass
      (by simp only [regionListAct, s.acting_rgn, hr, hdraft]; rfl) (by simp) (by simp) (by simp) fun t ht hans =>
        ⟨_, hans, rfl, ?_, ?_⟩
    · have hh' : (s.acting (regionListCmd p) q).handleOf p.deckle p.region p.id = some h := by
        rw [← hh, State.handleOf, s.acting_rgn, State.handleOf]
      simp [listAns, hh', State.versionSegs_congr (s.acting_rgn _ _)]
    · rw [show t.rgn = _ from ht.1 .rgn (by simp), s.acting_rgn]
  case close =>
    intro q p s hwf hpass
    refine completes_of_effect rfl hpass rfl (by simp [okAns]) fun t ht => ?_
    rw [show t.rgn = _ from ht.1 .rgn (by simp), (State.retainOne_retains _ _).handles]
    dsimp only
    rw [s.acting_rgn]
    exact NMap.find_del hwf _
  case grant =>
    intro q p s hpass
    refine completes_answering (Z := [.rgn]) rfl hpass rfl rfl (by simp) (by simp) (by simp) fun t ht hans => ⟨hans, ?_⟩
    have hcheck := State.check_of_passes hpass List.mem_cons_self
    simp only [Bool.and_eq_true, State.entry_rgn] at hcheck
    cases hr : s.rgn.regions.find p.region with
    | none => simp [hr] at hcheck
    | some r =>
      rw [show t.rgn = _ from ht.1 .rgn (by simp)]
      dsimp only
      rw [s.acting_rgn, NMap.find_upd_same, hr]
      by_cases hc : p.grantee ∈ r.grantees <;> simp [hc]
  case withdraw =>
    intro q p s hpass
    refine completes_of_effect rfl hpass (regionWithdrawAct_eq _ _ _) (by simp [okAns]) fun t ht => ?_
    rw [show t.rgn = _ from ht.1 .rgn (by simp)]
    exact regionWithdraw_gone p _ _

end Sys2Proof
end

section
/-! PROOFS. Drafts and publishes (R74 to R78). -/

namespace Sys2Proof.Machine

variable {s t : State}

/-! ## The version in force stays -/

/-- A filter that keeps every entry of a key does not change what stands there. -/
theorem NMap.find_keep_of_kept {α : Type} (m : NMap α) {f : Nat → α → Bool} {k : Nat} (h : ∀ a, f k a = true) :
    (m.keep f).find k = m.find k := by
  induction m with
  | nil => rfl
  | cons x m ih =>
    obtain ⟨j, a⟩ := x
    rcases eq_or_ne k j with rfl | hne
    · simp [NMap.keep, h, NMap.find_cons]
    · cases hf : f j a <;> simp_all [NMap.keep, NMap.find_cons]

theorem State.retained_current (s : State) (i : Nat) (r : Region) (v : Version) (h : r.deleted = false) :
    s.retained i r r.current v = true := by
  simp [State.retained, h]

/-- A region that is not deleted keeps its current version. -/
theorem State.retainOne_current {i : Nat} {r : Region} (hr : s.rgn.regions.find i = some r) (hlive : r.deleted = false) :
    ∃ g, (s.retainOne i).rgn.regions.find i = some g ∧ g.current = r.current ∧
      g.versions.find r.current = r.versions.find r.current := by
  unfold State.retainOne
  split
  · next hnone => simp [hr] at hnone
  · next r0 hr0 =>
    obtain rfl : r = r0 := Option.some.inj (hr.symm.trans hr0)
    extract_lets gone src r' s1 keep ext s2
    split
    · simp only [hlive, Bool.false_and, Bool.false_eq_true, if_false]
      exact ⟨r, hr, rfl, rfl⟩
    · have hdel : r'.deleted = false := hlive
      have hq : QueuesOnly s1 s2 := queuesOnly_foldl ext _ (fun a x => a.revokeExtent_queuesOnly x 2 1000 none) s1
      have hregion := hq.region i
      rw [show s1.rgn.regions.find i = some r' from NMap.find_put ..] at hregion
      obtain ⟨g, hg, hplain⟩ := Option.map_eq_some_iff.mp hregion
      have hcur : g.unqueued.current = r'.unqueued.current := congrArg Region.current hplain
      have hver : g.unqueued.versions = r'.unqueued.versions := congrArg Region.versions hplain
      simp only [hdel, Bool.false_and, Bool.false_eq_true, if_false]
      refine ⟨g, hg, hcur, ?_⟩
      rw [show g.versions = r'.versions from hver]
      exact NMap.find_keep_of_kept _ fun v => s.retained_current i r v hlive

/-- What a queue holds back is no version. -/
theorem State.pumpPublishes_current {i : Nat} {r : Region} (j : Nat) (hr : s.rgn.regions.find i = some r) :
    ∃ g, (s.pumpPublishes j).rgn.regions.find i = some g ∧ g.current = r.current ∧ g.versions = r.versions := by
  have hregion := (State.pumpPublishes_queuesOnly s j).region i
  rw [hr] at hregion
  obtain ⟨g, hg, hplain⟩ := Option.map_eq_some_iff.mp hregion
  have hcur : g.unqueued.current = r.unqueued.current := congrArg Region.current hplain
  have hver : g.unqueued.versions = r.unqueued.versions := congrArg Region.versions hplain
  exact ⟨g, hg, hcur, hver⟩

/-! ## Sealing -/

/-- A publish of the current version's draft seals it. -/
theorem runPublishes_seals {i : Nat} {r : Region} {d : Draft} {w : PubWait} (hr : s.rgn.regions.find i = some r)
    (hfree : s.publishing i = false) (hd : s.rgn.drafts.find w.draft = some d) (hregion : d.region = i) (hdraft : w.base = d.base)
    (hholder : w.ep = d.holder) (hbase : d.base = r.current) :
    (s.runPublishes i [w]).rgn.drafts.find w.draft = some { d with sealed := some w.reply } := by
  unfold State.runPublishes
  simp [hr, hfree, hd, hregion, hdraft, hholder, hbase, State.runPublishes, State.modDraft]

/-- A publish that finds its queue empty seals its draft. -/
theorem publish_seals {i j reply : Nat} {r : Region} {d : Draft} (hr : s.rgn.regions.find i = some r) (hqueue : r.queue = [])
    (hfree : s.publishing i = false) (hd : s.rgn.drafts.find j = some d) (hregion : d.region = i) (hbase : d.base = r.current) :
    (State.pumpPublishes { s with rgn := { s.rgn with regions := s.rgn.regions.upd i fun r =>
      { r with queue := r.queue ++ [{ reply := reply, draft := j, base := d.base, ep := d.holder }] } } } i).rgn.drafts.find j
      = some { d with sealed := some reply } := by
  have hput : (s.rgn.regions.upd i fun r =>
      { r with queue := r.queue ++ [{ reply := reply, draft := j, base := d.base, ep := d.holder }] }).find i =
        some { r with queue := [{ reply := reply, draft := j, base := d.base, ep := d.holder }] } := by
    rw [NMap.find_upd_same, hr, Option.map_some, hqueue, List.nil_append]
  unfold State.pumpPublishes
  dsimp only
  rw [hput]
  exact runPublishes_seals (w := { reply := reply, draft := j, base := d.base, ep := d.holder }) hput hfree hd hregion rfl rfl hbase

/-- The effect of a rebase in a listed region. -/
theorem regionDraftRebaseAct_of_find {p : DraftP} {r : Region} (reply : Nat) (hr : s.rgn.regions.find p.region = some r) :
    regionDraftRebaseAct p s reply =
      (s.modDraft p.draft fun d =>
        { d with base := r.current
                 segs := (d.segs.zip (List.range d.segs.length)).map fun g =>
                   if g.1.1 = .inherit then (.inherit, (s.versionSegs p.region r.current).getD g.2 0) else g.1 },
        some (draftResult p.draft r.current 0 0)) := by
  simp only [regionDraftRebaseAct, hr]

theorem State.settle_rgn (s u : State) (r : Option Nat) (a : Ans) : (State.settle s u r a).rgn = u.rgn := by
  have hw : Within [.mbx, .cells, .mem, .part, .link, .cal, .pair, .pkg] u (State.settle s u r a) := by simp
  exact hw.1 .rgn (by simp)

/-- A region with a new version, whose publish is then answered, keeps that version in force past retention and past the
publishes that waited. -/
theorem committed_current {i n : Nat} {g : Region} {v : Version} (l : List (SegMode × Nat)) (r : Option Nat) (a : Ans)
    {s0 : State} {f : Extent → Extent} (hg : s.rgn.regions.find i = some g) (hlive : g.deleted = false) (hcur : g.current = n)
    (hver : g.versions.find n = some v) :
    ∃ g', (((State.settle s0 (l.foldl (fun b x => b.modExtent x.2 f) s) r a).retainOne i).pumpPublishes i).rgn.regions.find i
      = some g' ∧ g'.current = n ∧ g'.versions.find n = some v := by
  have hfold : Within [.part] s (l.foldl (fun b x => b.modExtent x.2 f) s) := within_foldl _ _ (fun b x => by simp) (.refl _ _)
  obtain ⟨g1, hg1, hcur1, hver1⟩ :=
    State.retainOne_current (s := State.settle s0 (l.foldl (fun b x => b.modExtent x.2 f) s) r a) (i := i) (r := g)
      (by rw [State.settle_rgn, show _ = s.rgn from hfold.1 .rgn (by simp)]; exact hg) hlive
  obtain ⟨g2, hg2, hcur2, hver2⟩ := State.pumpPublishes_current i hg1
  subst hcur
  exact ⟨g2, hg2, by rw [hcur2, hcur1], by rw [hver2, hver1, hver]⟩

/-- A draft that is opened is the next one, held by its sender. -/
theorem regionDraftOpenAct_makes {q : Req} {p : DraftP} {hint : Nat} {r : Region}
    {y : State × List (SegMode × Nat) × List Nat} (reply : Nat) (hlive : s.liveRegion p.deckle p.region = some r)
    (halloc : s.allocSegs r q.ep (s.rgn.lastDraft + 1) hint (draftModes p r.segments)
      (s.versionSegs p.region (r.baseOf p.base)) = .ok y) :
    ∃ u o, regionDraftOpenAct q p hint s reply = (u, o) ∧ (∀ a ∈ o, a.area = 0) ∧
      ∃ d, u.rgn.drafts.find (s.rgn.lastDraft + 1) = some d ∧ d.region = p.region ∧ d.holder = q.ep ∧ d.sealed = none ∧
        u.rgn.lastDraft = s.rgn.lastDraft + 1 := by
  unfold regionDraftOpenAct
  simp only [hlive, halloc]
  refine ⟨_, _, rfl, ?_, _, NMap.find_put .., rfl, rfl, rfl, rfl⟩
  intro a ha
  split at ha
  · cases ha
  · cases ha
    rfl

end Sys2Proof.Machine

namespace Sys2Proof

open Machine

/-- Settles O7: each draft command is its one change of the tables of drafts and regions, past what a queue holds back and
what retention ends. -/
theorem draftCommandsComplete : Obligations.DraftCommandsComplete := by
  unfold Obligations.DraftCommandsComplete
  refine ⟨?openD, ?copied, ?rebase, ?discard, ?publish, ?commit, ?tick⟩
  case openD =>
    intro q p hint s r y hpass hlive halloc
    have hrgn := s.acting_rgn (regionDraftOpenCmd p s) q
    obtain ⟨u, o, hact, harea, d, hd, hfields⟩ := regionDraftOpenAct_makes (s := s.acting (regionDraftOpenCmd p s) q)
      (s.replyOf (regionDraftOpenCmd p s) q) (by rwa [State.liveRegion_congr hrgn])
      (by rw [State.versionSegs_congr hrgn, hrgn]; exact halloc)
    rw [hrgn] at hd hfields
    refine completes_of_effect rfl hpass hact harea fun t ht => ?_
    rw [show t.rgn = _ from ht.1 .rgn (by simp)]
    exact ⟨d, hd, hfields⟩
  case copied =>
    intro i r s d hd hopen
    refine .of_next (by simp only [exec, execDraftCopyDone, hd, hopen]; rfl) ?_
    have hfill : Within [.cells, .mem, .grans, .part, .link, .cal, .pair] s
        ((d.segs.zip d.copyFrom).foldl (fun a g => a.fillSeg g.1.1 g.1.2 g.2) s) :=
      within_foldl _ _ (fun a x => by simp) (.refl _ _)
    rw [State.settle_rgn]
    simp only [State.modDraft, NMap.find_upd_same, show _ = s.rgn from hfill.1 .rgn (by simp), hd, Option.map_some]
  case rebase =>
    intro q p s r d hpass hr hd
    have hrgn := s.acting_rgn (regionDraftRebaseCmd p) q
    refine completes_answering (Z := [.rgn]) rfl hpass
      (regionDraftRebaseAct_of_find _ (r := r) (by rwa [hrgn])) rfl (by simp [State.modDraft]) (by simp) (by simp) fun t ht hans => ⟨?_, hans⟩
    rw [show t.rgn = _ from ht.1 .rgn (by simp)]
    simp [State.modDraft, hrgn, hd]
  case discard =>
    intro q p s hwf hpass
    refine completes_of_effect rfl hpass rfl (by simp [draftResult, okFields]) fun t ht => ?_
    rw [show t.rgn = _ from ht.1 .rgn (by simp)]
    refine NMap.find_eq_none_of_keys fun hk => ?_
    exact State.endDraft_gone _ _ _ (by rwa [s.acting_rgn]) ((State.retainOne_retains _ _).drafts hk)
  case publish =>
    intro q p s r d hpass hr hqueue hfree hd hregion hbase hholder hcur
    refine completes_of_effect rfl hpass rfl (by simp) fun t ht => ?_
    rw [show t.rgn = _ from ht.1 .rgn (by simp), ← hbase, ← hholder]
    have hrgn := s.acting_rgn (regionPublishCmd p) q
    exact publish_seals (s := s.acting (regionPublishCmd p) q) (by rwa [hrgn]) hqueue (by rwa [State.publishing, hrgn]) (by rwa [hrgn]) hregion hcur
  case commit =>
    intro i r s d g hd hsealed hg hdel hopen hquiet
    refine .of_next (by simp only [exec, execPublishCommit, hd, hsealed, hg, hopen, hquiet, Option.isSome_none, Bool.not_true,
      Bool.or_self, Bool.false_eq_true, if_false]; rfl) ?_
    exact committed_current _ _ _ (NMap.find_put ..) hdel rfl (NMap.find_put ..)
  case tick =>
    intro s hfw
    refine .of_next (by simp only [exec, execRetentionTick, hfw, if_true]; rfl) ?_
    have hw : Within [.link, .pair] s.checkRetention (State.commitFw s s.checkRetention) := by simp
    exact ⟨hw.1 .rgn (by simp), hw.part (by simp) (by simp)⟩

end Sys2Proof
end

section
/-! PROOFS. The commands of lodes (R83, R84, R90). -/

namespace Sys2Proof.Machine

variable {s t : State}

theorem State.lodeIn_congr (h : t.lode = s.lode) (d i : Nat) : t.lodeIn d i = s.lodeIn d i := by
  simp [State.lodeIn, h]

theorem State.entry_lode (s : State) (c : Cmd) (q : Req) : (s.entry c q).lode = s.lode :=
  (s.entry_within c q (Z := [.hub, .mbx, .cells, .mem, .part, .link, .cal, .pair]) (by simp)).1 .lode (by simp)

theorem State.find_of_lodeIn {d i : Nat} {l : Lode} (h : s.lodeIn d i = some l) : s.lode.lodes.find i = some l := by
  unfold State.lodeIn at h
  obtain ⟨k, hk, hif⟩ := Option.bind_eq_some_iff.mp h
  split at hif
  · rwa [← Option.some.inj hif]
  · cases hif

/-- Where the check on the lode's presence is one of the checks, the deckle has the lode. -/
theorem lodeIn_of_passes {c : Cmd} {q : Req} {checks : State → List Check} {d i : Nat} (h : s.passes c q checks = true)
    (hnone : s.lodeIn d i = none → ∃ x ∈ checks (s.entry c q), x.1 = false) :
    ∃ l, s.lodeIn d i = some l := by
  cases hl : s.lodeIn d i with
  | none =>
    obtain ⟨x, hx, hfalse⟩ := hnone hl
    exact absurd (State.check_of_passes h hx) (by simp [hfalse])
  | some l => exact ⟨l, rfl⟩

/-- A salvage is refused where the deckle has no such lode. -/
theorem State.salvageChecks_of_none {p : SalvageP} (h : s.lodeIn p.deckle p.lode = none) :
    (false, .invalid, 0) ∈ s.salvageChecks p := by
  simp [State.salvageChecks, h]

/-- What a change of a lode leaves there. -/
theorem State.modLode_find {i : Nat} {l : Lode} (f : Lode → Lode) (h : s.lode.lodes.find i = some l) :
    (s.modLode i f).lode.lodes.find i = some (f l) := by
  simp [State.modLode, h]

/-- The two forms of a salvage copy record it at the lode. -/
theorem salvageCopy_records {i : Instr} {q : Req} {p : SalvageP} {rearm : Bool}
    (hexec : exec i s = .next (s.salvageCopy i q p rearm)) (hpass : s.passes (salvageCopyCmd p) q (salvageCopyChecks p)) :
    Completes i s fun t => ((t.lode.lodes.find p.lode).bind (·.salvage)) =
      some (s.replyOf (salvageCopyCmd p) q, rearm, p.destExtent, p.destOffset) := by
  obtain ⟨l, hl⟩ := lodeIn_of_passes (d := p.deckle) (i := p.lode) hpass fun hnone =>
    ⟨_, List.mem_append_left _ (State.salvageChecks_of_none
      (by rwa [State.lodeIn_congr (s.entry_lode _ _)])), rfl⟩
  refine completes_of_effect hexec hpass rfl (by simp) fun t ht => ?_
  rw [show t.lode = _ from ht.1 .lode (by simp), State.modLode_find _ (by rw [s.acting_lode]; exact State.find_of_lodeIn hl)]
  rfl

/-- Who joins a lode is joined to it. -/
theorem lodeJoinAct_joins {p : LodeMemP} {l : Lode} (reply : Nat) (hl : s.lodeIn p.deckle p.lode = some l) :
    ∃ u a, lodeJoinAct p s reply = (u, some a) ∧ a.area = 0 ∧
      ∃ m, u.lode.lodes.find p.lode = some m ∧ m.joined p.endpoint = true := by
  unfold lodeJoinAct
  rw [hl]
  dsimp only
  split
  · refine ⟨_, _, rfl, rfl, _, State.modLode_find _ (State.find_of_lodeIn hl), ?_⟩
    simp only [Lode.joined, Bool.or_eq_true, List.any_eq_true]
    exact .inl ⟨_, NMap.find_some_mem (NMap.find_put ..), by simp⟩
  · refine ⟨_, _, rfl, rfl, _, State.modLode_find _ (State.find_of_lodeIn hl), ?_⟩
    simp [Lode.joined]

/-- The effect of LODE_LEAVE of a member that does not cache. -/
theorem lodeLeaveAct_uncached {p : LodeMemP} {l : Lode} (reply : Nat) (hl : s.lodeIn p.deckle p.lode = some l)
    (hunc : l.uncached.contains p.endpoint = true) :
    lodeLeaveAct p s reply =
      (s.modLode p.lode fun l => { l with uncached := l.uncached.filter (· != p.endpoint) }, some okAns) := by
  unfold lodeLeaveAct
  rw [hl]
  dsimp only
  rw [if_pos hunc]

theorem State.settle_lode (s u : State) (r : Option Nat) (a : Ans) : (State.settle s u r a).lode = u.lode := by
  have hw : Within [.mbx, .cells, .mem, .part, .link, .cal, .pair, .pkg] u (State.settle s u r a) := by simp
  exact hw.1 .lode (by simp)

end Sys2Proof.Machine

namespace Sys2Proof

open Machine

/-- Settles O8: a lode command is its change of the one lode. -/
theorem lodeCommandsComplete : Obligations.LodeCommandsComplete := by
  unfold Obligations.LodeCommandsComplete
  refine ⟨?create, ?delete, ?join, ?leave, ?recalled, ?copy, ?copyRearm, ?rearm, ?drop, ?copied⟩
  case create =>
    intro q p s hpass
    refine completes_answering (Z := [.lode]) rfl hpass rfl rfl (by simp) (by simp) (by simp) fun t ht hans => ⟨?_, ?_⟩
    · rw [show t.lode = _ from ht.1 .lode (by simp)]
      dsimp only
      rw [s.acting_lode]
      exact ⟨_, NMap.find_put .., rfl, rfl, rfl, rfl⟩
    · rw [s.acting_lode] at hans
      exact hans
  case delete =>
    intro q p s hwf hpass
    refine completes_answering (Z := [.lode]) rfl hpass rfl rfl (by simp) (by simp) (by simp) fun t ht hans => ⟨?_, hans⟩
    rw [show t.lode = _ from ht.1 .lode (by simp)]
    dsimp only [State.dropLode]
    rw [s.acting_lode]
    exact NMap.find_del hwf _
  case join =>
    intro q p s hpass
    obtain ⟨l, hl⟩ := lodeIn_of_passes (d := p.deckle) (i := p.lode) hpass fun hnone =>
      ⟨(false, .invalid, 0), by simp [lodeJoinChecks, State.lodeIn_congr (s.entry_lode _ _), hnone], rfl⟩
    obtain ⟨u, a, hact, harea, m, hm, hjoined⟩ := lodeJoinAct_joins (p := p) (s.replyOf (lodeJoinCmd p) q)
      ((State.lodeIn_congr (s.acting_lode (lodeJoinCmd p) q) _ _).trans hl)
    refine completes_of_effect rfl hpass hact (by simp [harea]) fun t ht => ?_
    rw [show t.lode = _ from ht.1 .lode (by simp)]
    exact ⟨m, hm, hjoined⟩
  case leave =>
    intro q p s l hpass hl hunc
    obtain ⟨k, hk⟩ := lodeIn_of_passes (d := p.deckle) (i := p.lode) hpass fun hnone =>
      ⟨(false, .invalid, 0), by simp [lodeLeaveChecks, State.lodeIn_congr (s.entry_lode _ _), hnone], rfl⟩
    obtain rfl : l = k := Option.some.inj (hl.symm.trans (State.find_of_lodeIn hk))
    refine completes_answering (Z := [.lode]) rfl hpass
      (lodeLeaveAct_uncached _ ((State.lodeIn_congr (s.acting_lode (lodeLeaveCmd p) q) _ _).trans hk) hunc) rfl
      (by simp) (by simp) (by simp) fun t ht hans => ⟨hans, ?_⟩
    rw [show t.lode = _ from ht.1 .lode (by simp)]
    exact State.modLode_find _ (by rwa [s.acting_lode])
  case recalled =>
    intro i ep a r s l hl hleave hwork hagent hlines
    refine .of_next (by simp only [exec, execLodeRecallDone, hl, hleave, hwork, hagent, hlines, List.isEmpty_nil, Bool.not_true,
      Bool.false_eq_true, if_false]; rfl) ?_
    rw [State.settle_lode]
    exact ⟨_, State.modLode_find _ hl, rfl, rfl⟩
  case copy =>
    intro q p s hpass
    exact salvageCopy_records rfl hpass
  case copyRearm =>
    intro q p s hpass
    exact salvageCopy_records rfl hpass
  case rearm =>
    intro q p s l hpass hl
    obtain ⟨k, hk⟩ := lodeIn_of_passes (d := p.deckle) (i := p.lode) hpass fun hnone =>
      ⟨_, List.mem_cons_of_mem _ (State.salvageChecks_of_none (by rwa [State.lodeIn_congr (s.entry_lode _ _)])), rfl⟩
    obtain rfl : l = k := Option.some.inj (hl.symm.trans (State.find_of_lodeIn hk))
    refine completes_answering (Z := [.lode]) rfl hpass
      (by simp only [lodeSalvageRearmAct, State.lodeIn_congr (s.acting_lode _ _), hk]; rfl) rfl
      (by simp) (by simp) (by simp) fun t ht hans => ⟨?_, hans⟩
    rw [show t.lode = _ from ht.1 .lode (by simp)]
    exact State.modLode_find _ (by rwa [s.acting_lode])
  case drop =>
    intro q p s hwf hpass
    refine completes_of_effect rfl hpass rfl (by simp [salvageResult, okFields]) fun t ht => ?_
    rw [show t.lode = _ from ht.1 .lode (by simp)]
    dsimp only [State.dropLode]
    rw [s.acting_lode]
    exact NMap.find_del hwf _
  case copied =>
    intro i r x off s l e f hl hsalv he hstate hf hfstate
    have hif : ¬(e.state = .revoking ∨ ((s.part.extents.find l.extent).map fun k => k.state == .revoking).getD true = true) := by
      simp [hf, hstate, hfstate]
    have hcopy : Within [.cells, .mem, .part, .link, .cal, .pair] s (s.copyLode l e x off) := by simp
    have hmark := hcopy.trans (within_foldl ((staleBitmap ((l.down.map (·.2)).getD []) l.lines).zip
      (List.range (staleBitmap ((l.down.map (·.2)).getD []) l.lines).length))
      (fun a b => (a.writeWhole (e.lineAt x ((off + l.size) * 1024 + b.2)) b.1 false { fw := true }).1)
      (fun a b => by simp) (.refl _ _))
    refine .of_next (by simp only [exec, execSalvageCopyDone, hl, hsalv, he, if_neg hif]; rfl) ?_
    rw [State.settle_lode]
    exact State.modLode_find _ (by rw [show _ = s.lode from hmark.1 .lode (by simp)]; exact hl)

end Sys2Proof
end

section
/-! PROOFS. Fences and endpoint identifiers (R234 to R237, R242). -/

namespace Sys2Proof.Machine

variable {s t : State}

/-- A request that closes takes its tag out of what fences wait for. -/
theorem State.closeReq_fence {ep tag : Nat} {g : Fence} (h : g ∈ (s.closeReq ep tag).1.part.fences) :
    ∃ f ∈ s.part.fences, f.ep = g.ep ∧ f.tag = g.tag := by
  unfold State.closeReq at h
  split at h
  · dsimp only at h
    rw [show ∀ (u : State) p vc n, (u.freeBuf p vc n).part = u.part from fun _ _ _ _ => rfl] at h
    obtain ⟨f, hf, rfl⟩ := List.mem_map.mp h
    refine ⟨f, hf, ?_⟩
    split <;> exact ⟨rfl, rfl⟩
  · exact ⟨g, h, rfl, rfl⟩

/-- An answer adds no fence. -/
theorem State.answerReq_fence {ep tag deckle : Nat} {st : Status} {g : Fence}
    (h : g ∈ (s.answerReq ep tag deckle st).part.fences) : ∃ f ∈ s.part.fences, f.ep = g.ep ∧ f.tag = g.tag := by
  unfold State.answerReq at h
  dsimp only at h
  have hw : Within [.link] (s.closeReq ep tag).1 (State.sendEp (s.closeReq ep tag).1 ep 1 (s.closeReq ep tag).2.1 deckle
      (.rsp ep tag deckle st 0 0 [] true) (s.closeReq ep tag).2.2) := by simp
  rw [hw.part (by simp) (by simp)] at h
  exact State.closeReq_fence h

/-- What firmware commits and puts on an egress leaves the partition. -/
theorem commitFw_enqueue_part (s u : State) (p vc queue d : Nat) (m : Msg) :
    ((State.commitFw s u).enqueue p vc queue d m).part = u.part := by
  have hw : Within [.link, .pair] u ((State.commitFw s u).enqueue p vc queue d m) := by simp
  exact hw.part (by simp) (by simp)

/-- A packet that passes the gate is opened and goes on. -/
theorem State.ingress_of_accept {h : Hdr} {f : PktForm} {qu : Nat} {y o : Bool} {boot : Option Status} (go : State → Bool → State)
    (hgate : (s.gate h 0 f boot).2 = .accept qu y o) :
    s.ingress h f go boot = go ((s.gate h 0 f boot).1.openReq h qu o) y := by
  unfold State.ingress
  dsimp only
  rw [hgate]

end Sys2Proof.Machine

namespace Sys2Proof

open Machine

/-- Settles O17: what the packet of a fence and the packets of identifiers change of the tables of fences, endpoints and
ports. -/
theorem endpointPacketsComplete : Obligations.EndpointPacketsComplete := by
  unfold Obligations.EndpointPacketsComplete
  refine ⟨?fence, ?done, ?claim, ?release, ?assign⟩
  case fence =>
    intro h s qu y o hgate
    refine .of_next rfl ?_
    dsimp only
    rw [State.ingress_of_accept _ hgate]
    exact ⟨_, List.mem_append_right _ List.mem_cons_self, rfl, rfl, rfl⟩
  case done =>
    intro ep tag s f hf hwaits
    refine .of_next rfl ?_
    unfold State.endFence
    simp only [hf, hwaits, List.isEmpty_nil, if_true]
    rintro g hg ⟨rfl, rfl⟩
    obtain ⟨f', hf', hep, htag⟩ := State.answerReq_fence hg
    simp [hep, htag] at hf'
  case claim =>
    intro port identity ep s e hcarries hfind hport
    have hpart : (s.freeBuf port 5 1).part = s.part := rfl
    refine .of_next (by simp only [exec, execEpClaim, hcarries]; rfl) ?_
    simp [State.serveClaim, hpart, hfind, hport]
  case release =>
    intro h s hwf hcarries hbound hvc hrsvd hlen hlease
    refine .of_next (by simp [exec, execEpRelease, hcarries, hbound, hvc, hrsvd, hlen, hlease]; rfl) ?_
    rw [commitFw_enqueue_part]
    exact NMap.find_del hwf _
  case assign =>
    intro port ep st s hcarries hclaiming
    refine .of_next (by simp [exec, execEpAssign, hcarries, hclaiming]; rfl) ?_
    rw [State.port_modPort]
    exact ⟨rfl, rfl⟩

end Sys2Proof
end

section
/-! PROOFS. What revocation, answers and writes leave of the partition: leases and reclaims, the deckles beside their
accounts, and every extent that is being revoked. -/

namespace Sys2Proof.Machine

variable {s t u : State}

/-- From `s` to `t` no lease, no reclaim and no deckle comes or goes, no extent goes, and none that is being revoked
ends its revocation. -/
structure Tenancy (s t : State) : Prop where
  leases : t.part.leases = s.part.leases
  reclaims : t.part.reclaims = s.part.reclaims
  deckles : ∀ d, (t.part.deckles.find d).map Deckle.plain = (s.part.deckles.find d).map Deckle.plain
  extents : ∀ x e, s.part.extents.find x = some e →
    ∃ f, t.part.extents.find x = some f ∧ (e.state = .revoking → f.state = .revoking)

theorem Tenancy.refl (s : State) : Tenancy s s := ⟨rfl, rfl, fun _ => rfl, fun _ e h => ⟨e, h, id⟩⟩

theorem Tenancy.trans (h : Tenancy s t) (k : Tenancy t u) : Tenancy s u where
  leases := k.leases.trans h.leases
  reclaims := k.reclaims.trans h.reclaims
  deckles d := (k.deckles d).trans (h.deckles d)
  extents x e he := by
    obtain ⟨f, hf, hef⟩ := h.extents x e he
    obtain ⟨g, hg, hfg⟩ := k.extents x f hf
    exact ⟨g, hg, fun hr => hfg (hef hr)⟩

theorem Tenancy.of_part (h : { t.part with granules := s.part.granules } = s.part) : Tenancy s t := by
  have hl := congrArg Part.leases h
  have hr := congrArg Part.reclaims h
  have hd := congrArg Part.deckles h
  have he := congrArg Part.extents h
  dsimp only at hl hr hd he
  exact ⟨hl, hr, fun d => by rw [hd], fun x e hx => ⟨e, by rw [he, hx], id⟩⟩

/-- What does not change the partition beside its granules. -/
theorem Tenancy.of_within {Z : List Spot} (h : Within Z s t) (hZ : Spot.part ∉ Z) : Tenancy s t := .of_part (h.1 .part hZ)

theorem Approach.tenancy (h : Approach s t) : Tenancy s t where
  leases := by rw [h.part]
  reclaims := by rw [h.part]
  deckles := h.deckles
  extents x e hx := ⟨e, by rw [h.part]; exact hx, id⟩

/-- What follows a change of another part. -/
theorem Tenancy.past (k : Tenancy t u) (h : { t.part with granules := s.part.granules } = s.part := by rfl) : Tenancy s u :=
  (Tenancy.of_part h).trans k

theorem tenancy_ite {p : Prop} [Decidable p] {a b : State} (ha : Tenancy s a) (hb : Tenancy s b) :
    Tenancy s (if p then a else b) := by
  split
  · exact ha
  · exact hb

theorem tenancy_foldl {α : Type} (l : List α) (f : State → α → State) (h : ∀ a x, Tenancy a (f a x)) (s : State) :
    Tenancy s (l.foldl f s) := by
  induction l generalizing s with
  | nil => exact .refl s
  | cons x l ih => exact (h s x).trans (ih _)

theorem tenancy_foldl_fst {α β : Type} (l : List α) (f : State × β → α → State × β) (h : ∀ a x, Tenancy a.1 (f a x).1)
    (a : State × β) : Tenancy a.1 (l.foldl f a).1 := by
  induction l generalizing a with
  | nil => exact .refl _
  | cons x l ih => exact (h a x).trans (ih _)

/-- A change of an extent that ends no revocation. -/
theorem State.modExtent_tenancy (s : State) (x : Nat) {f : Extent → Extent} (h : ∀ e, e.state = .revoking → (f e).state = .revoking) :
    Tenancy s (s.modExtent x f) where
  leases := rfl
  reclaims := rfl
  deckles _ := rfl
  extents y e he := by
    rcases eq_or_ne y x with rfl | hne
    · exact ⟨f e, by simp [State.modExtent, he], h e⟩
    · exact ⟨e, by rw [State.modExtent]; dsimp only; rw [NMap.find_upd_ne _ _ hne, he], id⟩

/-! ## Writes -/

theorem State.markDirty_tenancy (s : State) (r : LineRef) : Tenancy s (s.markDirty r) := by
  unfold State.markDirty
  refine tenancy_ite (s.modExtent_tenancy _ fun e he => ?_) (.refl s)
  dsimp only
  split <;> exact he

theorem State.mirrorWrite_tenancy (s : State) (r : LineRef) (c : Cell) (ep rtag : Nat) (fw last : Bool) :
    Tenancy s (s.mirrorWrite r c ep rtag fw last).1 := by
  unfold State.mirrorWrite
  split
  · exact .refl s
  · split
    · exact .of_within (Z := [.link, .pair]) (by simp) (by simp)
    · exact s.markDirty_tenancy r

theorem State.storeCell_tenancy (s : State) (t : Tier) (line : Nat) (c : Cell) (full : Bool) :
    Tenancy s (s.storeCell t line c full) :=
  .of_within (Z := [.cells, .mem]) (by simp) (by simp)

theorem State.storeLine_tenancy (s : State) (r : LineRef) (c : Cell) (full : Bool) : Tenancy s (s.storeLine r c full) := by
  unfold State.storeLine
  dsimp only
  have h1 : Tenancy s ((s.storeCell r.tier r.line c full).unpoison r.tier r.line) :=
    .of_within (Z := [.cells, .mem]) (by simp) (by simp)
  refine h1.trans ?_
  unfold State.dualWrite
  split
  · dsimp only
    refine tenancy_ite (tenancy_ite ?_ (.refl _)) (tenancy_ite ?_ (.refl _)) <;>
      exact (State.storeCell_tenancy _ _ _ _ _).trans (State.mirrorWrite_tenancy _ _ _ _ _ _ _)
  · exact .refl _

theorem State.writeWhole_tenancy (s : State) (r : LineRef) (data : Line) (full : Bool) (o : Origin) :
    Tenancy s (s.writeWhole r data full o).1 :=
  ((s.storeLine_tenancy _ _ _).trans (State.chargeTier_approach _ _ _ _ _ _).tenancy).trans (State.mirrorWrite_tenancy _ _ _ _ _ _ _)

theorem State.writeLine_tenancy (s : State) (r : LineRef) (data : Line) (mask : BitVec 64) (full : Bool) (o : Origin) :
    Tenancy s (s.writeLine r data mask full o).1 := by
  have hr := (s.readLine_approach r o.cls).tenancy
  unfold State.writeLine
  split
  · exact .refl s
  · split
    · exact s.writeWhole_tenancy _ _ _ _
    · split
      · next e =>
        rw [e] at hr
        exact hr.trans (State.writeWhole_tenancy _ _ _ _ _)
      · next e =>
        rw [e] at hr
        exact hr
      · next e =>
        rw [e] at hr
        exact hr
      · next e =>
        rw [e] at hr
        exact hr

theorem State.writeBytes_tenancy (s : State) (d pva n v : Nat) : Tenancy s (s.writeBytes d pva n v) := by
  unfold State.writeBytes
  split
  · refine tenancy_foldl_fst (β := Nat) _ _ (fun a x => ?_) (s, 0)
    exact State.writeLine_tenancy _ _ _ _ _ _
  · exact .refl s

theorem State.closeAsm_tenancy (s : State) (stripe : Nat) : Tenancy s (s.closeAsm stripe) := by
  unfold State.closeAsm
  split
  · exact .refl s
  · dsimp only
    refine .past (tenancy_foldl _ _ (fun a x => ?_) _)
    split
    · exact (State.storeLine_tenancy _ _ _ _).trans (State.chargeTier_approach _ _ _ _ _ _).tenancy
    · exact .refl a

/-! ## Answers -/

theorem State.fillArea_tenancy (s : State) (q : Req) (a : Ans) : Tenancy s (s.fillArea q a).1 := by
  unfold State.fillArea
  split
  · exact .refl s
  · exact tenancy_ite (.refl s) (s.writeBytes_tenancy _ _ _ _)

theorem State.answerNow_tenancy (s : State) (q : Req) (code acc : Nat) (a : Ans) (dup : Bool) :
    Tenancy s (s.answerNow q code acc a dup) :=
  (s.fillArea_tenancy q a).trans (.of_within (Z := [.mbx, .link, .pkg]) (by simp [State.answerNow]) (by simp))

theorem State.answer_tenancy (s : State) (r : Nat) (a : Ans) : Tenancy s (s.answer r a) := by
  unfold State.answer
  split
  · exact .refl s
  · next o _ =>
    extract_lets waits src s1
    have h1 : Tenancy s s1 := .past (State.answerNow_tenancy _ _ _ _ _ _)
    refine tenancy_ite (.of_part rfl) (tenancy_ite (h1.trans ?_) h1)
    exact .of_within (Z := [.link, .pair]) (by simp) (by simp)

theorem State.answerOpt_tenancy (s : State) (r : Option Nat) (a : Ans) : Tenancy s (s.answerOpt r a) := by
  unfold State.answerOpt
  split
  · exact .refl s
  · exact s.answer_tenancy _ _

theorem State.settle_tenancy (s u : State) (r : Option Nat) (a : Ans) : Tenancy u (State.settle s u r a) := by
  have hm : ∀ ep rtag fw l, Tenancy u (State.mirrorCommit s u ep rtag fw l).1 := fun ep rtag fw l =>
    .of_within (Z := [.link, .pair]) (by simp) (by simp)
  unfold State.settle
  split
  · exact hm _ _ _ _
  · exact (hm _ _ _ _).trans (.past (State.answer_tenancy _ _ _))

theorem State.commitFw_tenancy (s u : State) : Tenancy u (State.commitFw s u) :=
  .of_within (Z := [.link, .pair]) (by simp) (by simp)

theorem State.raise_tenancy (s : State) (code : Nat) (who : Recv) (source params about : Nat) :
    Tenancy s (s.raise code who source params about) :=
  .of_within (Z := [.mbx, .link]) (by simp) (by simp)

/-! ## Requests that end -/

theorem State.closeReq_tenancy (s : State) (ep tag : Nat) : Tenancy s (s.closeReq ep tag).1 := by
  unfold State.closeReq
  split
  · exact ⟨rfl, rfl, fun _ => rfl, fun _ e h => ⟨e, h, id⟩⟩
  · exact .refl s

theorem State.answerReq_tenancy (s : State) (ep tag deckle : Nat) (st : Status) (len : Nat) (data : List Line) (aux : Nat) :
    Tenancy s (s.answerReq ep tag deckle st len data aux) :=
  (s.closeReq_tenancy ep tag).trans (.of_within (Z := [.link]) (by simp [State.answerReq]) (by simp))

theorem State.grantLode_tenancy (s : State) (ep tag deckle addr gstate : Nat) (st : Status) (data : Option Line) :
    Tenancy s (s.grantLode ep tag deckle addr gstate st data) :=
  (s.closeReq_tenancy ep tag).trans (.of_within (Z := [.link]) (by simp [State.grantLode]) (by simp))

theorem State.countDrain_tenancy (s : State) (x : Job) (discard : Bool) : Tenancy s (s.countDrain x discard) := by
  refine tenancy_foldl _ _ (fun a i => ?_) s
  exact a.modExtent_tenancy i fun _ he => he

theorem State.finishJob_tenancy (s : State) (j : Nat) : Tenancy s (s.finishJob j) := by
  unfold State.finishJob
  split
  · exact .refl s
  · next x _ =>
    extract_lets mem s1
    have h1 : Tenancy s s1 := .past (State.countDrain_tenancy _ _ _)
    refine tenancy_ite (.refl s) ?_
    split
    · exact h1
    · exact h1.trans (State.answerReq_tenancy _ _ _ _ _ _ _ _)

theorem State.failLode_tenancy (s : State) (deckle : Nat) (w : LodeWork) (st : Status) : Tenancy s (s.failLode deckle w st) := by
  unfold State.failLode
  split
  · split
    · exact .past (State.finishJob_tenancy _ _)
    · exact .refl s
  · exact .refl s
  · exact s.grantLode_tenancy _ _ _ _ _ _ _

theorem State.lodeDown_tenancy (s : State) (i cause ep : Nat) : Tenancy s (s.lodeDown i cause ep) := by
  unfold State.lodeDown
  split
  · exact .refl s
  · next l _ =>
    refine tenancy_ite (.refl s) ?_
    extract_lets stale lost reqs s1 s2 s3
    have h2 : Tenancy s s2 := .past (tenancy_foldl lost _ (fun a w => a.failLode_tenancy _ _ _) s1)
    have h3 : Tenancy s2 s3 := tenancy_foldl l.leaving _ (fun a x => a.answer_tenancy _ _) s2
    exact (h2.trans h3).trans (State.raise_tenancy _ _ _ _ _ _)

theorem State.lodesDown_tenancy (s : State) (test : Nat → Lode → Bool) (cause ep : Nat) :
    Tenancy s (s.lodesDown test cause ep) := tenancy_foldl _ _ (fun a _ => a.lodeDown_tenancy _ _ _) s

/-! ## Revocation, drafts and retention -/

theorem State.endMigration_tenancy (s : State) (x : Nat) (st : Status) : Tenancy s (s.endMigration x st) := by
  unfold State.endMigration
  split
  · exact tenancy_ite (.of_part rfl) (.past (State.raise_tenancy _ _ _ _ _ _))
  · exact .refl s

theorem State.revokeOne_tenancy (s : State) (x cause timeoutUs : Nat) (reply : Option Nat) :
    Tenancy s (s.revokeOne x cause timeoutUs reply) := by
  unfold State.revokeOne
  split
  · exact .refl s
  · next e _ =>
    refine tenancy_ite (.refl s) ?_
    extract_lets moving zeroing r s1 s2 s3 s4
    have h1 : Tenancy s s1 := s.modExtent_tenancy _ fun _ _ => rfl
    have h2 : Tenancy s1 s2 := by
      unfold s2
      split
      · exact s1.answer_tenancy _ _
      · exact .refl _
    have h3 : Tenancy s2 s3 := s2.endMigration_tenancy _ _
    have h4 : Tenancy s3 s4 := s3.lodesDown_tenancy _ _ _
    exact (((h1.trans h2).trans h3).trans h4).trans (tenancy_foldl _ _ (fun a b => a.closeAsm_tenancy _) _)

theorem State.runPublishes_tenancy (s : State) (i : Nat) (ws : List PubWait) : Tenancy s (s.runPublishes i ws) := by
  induction ws generalizing s with
  | nil => exact .refl s
  | cons w ws ih =>
    have hanswer : ∀ (v : State) (a : Ans), v.part = s.part → Tenancy s ((v.answer w.reply a).runPublishes i ws) := fun v a hv =>
      ((v.answer_tenancy _ _).trans (ih _)).past (by rw [hv])
    unfold State.runPublishes
    split
    · exact hanswer s _ rfl
    · dsimp only
      split
      · exact .of_part rfl
      · split
        · exact hanswer _ _ rfl
        · split
          · exact hanswer _ _ rfl
          · split
            · exact hanswer _ _ rfl
            · split
              · exact hanswer _ _ rfl
              · split
                · exact hanswer _ _ rfl
                · exact (ih _).past

theorem State.pumpPublishes_tenancy (s : State) (i : Nat) : Tenancy s (s.pumpPublishes i) := by
  unfold State.pumpPublishes
  split
  · exact s.runPublishes_tenancy _ _
  · exact .refl s

theorem State.endDraft_tenancy (s : State) (i cause : Nat) : Tenancy s (s.endDraft i cause) := by
  unfold State.endDraft
  split
  · exact .refl s
  · next d _ =>
    extract_lets src s1 s2
    have h1 : Tenancy s s1 := .of_part rfl
    have h2 : Tenancy s1 s2 := (s1.answerOpt_tenancy _ _).trans (State.answerOpt_tenancy _ _ _)
    exact ((h1.trans h2).trans (tenancy_foldl _ _ (fun a g => a.revokeOne_tenancy _ _ _ _) s2)).trans
      (State.pumpPublishes_tenancy _ _)

theorem State.revokeExtent_tenancy (s : State) (x cause timeoutUs : Nat) (reply : Option Nat) :
    Tenancy s (s.revokeExtent x cause timeoutUs reply) := by
  unfold State.revokeExtent
  dsimp only
  split
  · exact (s.revokeOne_tenancy _ _ _ _).trans (State.endDraft_tenancy _ _ _)
  · exact s.revokeOne_tenancy _ _ _ _

theorem State.retainOne_tenancy (s : State) (i : Nat) : Tenancy s (s.retainOne i) := by
  unfold State.retainOne
  split
  · exact .refl s
  · extract_lets gone src r' s1 keep ext s2
    have h2 : Tenancy s s2 := .past (tenancy_foldl ext _ (fun a x => a.revokeExtent_tenancy x 2 1000 none) s1)
    exact tenancy_ite (tenancy_ite (.of_part rfl) (.refl s)) (tenancy_ite (h2.trans (.of_part rfl)) h2)

theorem State.checkRetention_tenancy (s : State) : Tenancy s s.checkRetention :=
  tenancy_foldl _ _ (fun a i => a.retainOne_tenancy i) s

/-- An extent that is revoked is being revoked. -/
theorem State.revokeOne_revoking {x : Nat} {e : Extent} (cause timeoutUs : Nat) (reply : Option Nat)
    (h : s.part.extents.find x = some e) :
    ∃ f, (s.revokeOne x cause timeoutUs reply).part.extents.find x = some f ∧ f.state = .revoking := by
  unfold State.revokeOne
  simp -zeta only [h]
  split
  · next hr => exact ⟨e, h, by simpa using hr⟩
  · extract_lets moving zeroing r s1 s2 s3 s4
    have h1 : s1.part.extents.find x = some { e with state := .revoking, revoke := some r } := by
      simp [s1, State.modExtent, h]
    have h2 : Tenancy s1 s2 := by
      unfold s2
      split
      · exact s1.answer_tenancy _ _
      · exact .refl _
    have h4 : Tenancy s1 s4 := (h2.trans (s2.endMigration_tenancy _ _)).trans (s3.lodesDown_tenancy _ _ _)
    obtain ⟨f, hf, hr⟩ := (h4.trans (tenancy_foldl _ _ (fun a _ => a.closeAsm_tenancy _) s4)).extents x _ h1
    exact ⟨f, hf, hr rfl⟩

end Sys2Proof.Machine
end

section
/-! PROOFS. Leases: grants, renewals, grace, reclaims (R66 to R68). -/

namespace Sys2Proof.Machine

variable {s t u : State}

theorem State.lease_congr (h : t.part = s.part) (d ep : Nat) : t.lease d ep = s.lease d ep := by simp [State.lease, h]

theorem Tenancy.lease (h : Tenancy s t) (d ep : Nat) : t.lease d ep = s.lease d ep := by simp [State.lease, h.leases]

/-- A lease that is set is the lease. -/
theorem State.setLease_lease (s : State) (d ep : Nat) (l : Lease) : (s.setLease d ep (some l)).lease d ep = some l :=
  NMap.find_put ..

/-- A reclaim ends the membership and leaves the lease expired. -/
theorem State.startReclaim_lease {d ep : Nat} {l : Lease} (graceEnd : Nat) (reply : Option Nat) (h : s.lease d ep = some l) :
    (s.startReclaim d ep graceEnd reply).lease d ep = some { l with state := .expired, deadline := 0 } := by
  unfold State.startReclaim
  simp -zeta only [h]
  extract_lets exts mine handles inLode downs rc src s0 s1 s2 src' s3
  have h2 : Tenancy s1 s2 := tenancy_foldl exts _ (fun a x => a.revokeExtent_tenancy x 1 1000 none) s1
  have h3 : Tenancy s2 s3 := .of_part rfl
  have h4 : Tenancy s3 (s3.checkRetention.lodesDown inLode 1 ep) :=
    s3.checkRetention_tenancy.trans (State.lodesDown_tenancy _ _ _ _)
  have hheld : ∀ (v : State) (test : Nat → Nat → Bool), (v.discardHeld test).lease d ep = v.lease d ep := fun v test => rfl
  rw [hheld, h4.lease, h3.lease, h2.lease]
  exact State.setLease_lease s0 d ep _

/-- A test of the key alone keeps what stands there or removes it. -/
theorem NMap.find_keep_key {α : Type} (m : NMap α) (p : Nat → Bool) (k : Nat) :
    (m.keep fun j _ => p j).find k = if p k then m.find k else none := by
  induction m with
  | nil => simp [NMap.keep]
  | cons x m ih =>
    obtain ⟨j, a⟩ := x
    rcases eq_or_ne k j with rfl | hne
    · cases hp : p k <;> simp_all [NMap.keep, NMap.find_cons]
    · cases hp : p j <;> simp_all [NMap.keep, NMap.find_cons]

/-- An identifier that is freed adds no lease. -/
theorem State.freeIfIdle_lease {d ep e : Nat} {m : Lease} (h : (s.freeIfIdle e).lease d ep = some m) : s.lease d ep = some m := by
  unfold State.freeIfIdle at h
  split at h
  · split at h
    · have hkeep : (s.part.leases.keep fun k _ => k % 4096 != e).find (leaseKey d ep) = some m := h
      rw [NMap.find_keep_key _ fun k => k % 4096 != e] at hkeep
      split at hkeep
      · exact hkeep
      · cases hkeep
    · exact h
  · exact h

/-- The effect of a grant. -/
theorem leaseAct_grant {p : LeaseP} (r : Nat) (h : p.durationMs ≠ 0) :
    leaseAct p s r =
      (s.setLease p.deckle p.endpoint (some (s.newLease p.durationMs (if p.graceMs = 0 then 50 else p.graceMs))),
        some ((s.setLease p.deckle p.endpoint
          (some (s.newLease p.durationMs (if p.graceMs = 0 then 50 else p.graceMs)))).leaseAns p.deckle p.endpoint)) := by
  unfold leaseAct
  rw [if_neg h]

/-- The effect of the release of a membership. -/
theorem leaseAct_release {p : LeaseP} {l : Lease} (r : Nat) (h : p.durationMs = 0) (hl : s.lease p.deckle p.endpoint = some l)
    (hm : l.isMember = true) : leaseAct p s r = (s.startReclaim p.deckle p.endpoint 0 (some r), none) := by
  unfold leaseAct
  simp only [h, if_true, hl, hm]

theorem State.commitFw_lease (s u : State) (d ep : Nat) : (State.commitFw s u).lease d ep = u.lease d ep :=
  (State.commitFw_tenancy s u).lease d ep

end Sys2Proof.Machine

namespace Sys2Proof

open Machine

/-- Settles O4: the lease is what the effect sets, and a release goes through the reclaim. -/
theorem leaseCommandsComplete : Obligations.LeaseCommandsComplete := by
  unfold Obligations.LeaseCommandsComplete
  refine ⟨?grant, ?release, ?query, ?renew⟩
  case grant =>
    intro q p s hpass hdur
    refine completes_of_effect rfl hpass (leaseAct_grant _ hdur) (by simp [State.leaseAns, okFields]) fun t ht => ?_
    rw [State.lease_congr (ht.part (by simp) (by simp))]
    exact ⟨_, State.setLease_lease _ _ _ _, rfl, rfl, rfl, rfl⟩
  case release =>
    intro q p s l hpass hl hm
    refine completes_of_effect rfl hpass (leaseAct_release _ rfl hl hm) (by simp) fun t ht => ?_
    rw [State.lease_congr (ht.part (by simp) (by simp))]
    exact ⟨_, State.startReclaim_lease _ _ hl, rfl⟩
  case query =>
    intro q p s hpass
    refine completes_answering (Z := []) rfl hpass rfl rfl (by simp) (by simp) (by simp) fun t ht hans => ⟨hans, ?_, ?_⟩
    · rw [show t.rgn = _ from ht.1 .rgn (by simp), s.acting_rgn]
    · rw [show t.eng = _ from ht.1 .eng (by simp), s.acting_eng]
  case renew =>
    intro port ep deckle stamp rsvd s l hbound hl hheld hstamp hrun
    have hlast : stamp ≤ l.deadline + l.grace * 1000000 := by omega
    refine .of_next (by simp [exec, execLease, hbound, hl, hheld, hrun, hlast]; rfl) ?_
    rw [State.commitFw_lease, State.setLease_lease, ← hheld]

/-- Settles O5: a timer of a lease sets the lease's next state. -/
theorem leaseTimersComplete : Obligations.LeaseTimersComplete := by
  unfold Obligations.LeaseTimersComplete
  refine ⟨?deadline, ?grace, ?reclaimed⟩
  case deadline =>
    intro d ep s l hl hheld hrun
    refine .of_next (by simp [exec, execLeaseDeadline, hl, hheld, hrun]; rfl) ?_
    rw [State.commitFw_lease, State.setLease_lease]
  case grace =>
    intro d ep s l hl hgrace hrun
    refine .of_next (by simp [exec, execLeaseGraceEnd, hl, hgrace, hrun]; rfl) fun m hm => ?_
    rw [State.commitFw_lease] at hm
    have hexp := (State.startReclaim_lease (s := s.reachDom l.deadline) l.deadline none hl).symm.trans (State.freeIfIdle_lease hm)
    rw [← Option.some.inj hexp]
  case reclaimed =>
    intro d ep s rc r l hwf hrc hreply hdrained hl hexpired
    refine .of_next (by simp [exec, execLeaseReclaimDone, hrc, hreply, hdrained, hl, hexpired]; rfl) ?_
    rw [Option.eq_none_iff_forall_ne_some]
    intro m hm
    have hsettle := State.freeIfIdle_lease hm
    rw [(State.settle_tenancy _ _ _ _).lease, (State.raise_tenancy _ _ _ _ _ _).lease, State.lease, State.setLease] at hsettle
    simp [NMap.find_set hwf] at hsettle

end Sys2Proof
end

section
/-! PROOFS. Migrations (R58 to R61). -/

namespace Sys2Proof.Machine

variable {s t : State}

/-- The effect of a migration that starts. -/
theorem extentMigrateAct_of_find {p : MigrateP} {hint : Nat} {e : Extent} (r : Nat) (h : s.part.extents.find p.extent = some e) :
    ∃ u a, extentMigrateAct p hint s r = (u, some a) ∧ a.area = 0 ∧
      (∃ m, u.mem.migr.find p.extent = some m ∧ m.tier = tierOf p.target ∧ m.done = false ∧ m.switched = false) ∧
      u.part.extents.find p.extent = some e := by
  unfold extentMigrateAct
  rw [h]
  exact ⟨_, _, rfl, rfl, ⟨_, NMap.find_put .., rfl, rfl, rfl⟩, h⟩

/-- A migration that ends is listed no more. -/
theorem State.endMigration_migr {x : Nat} {m : Migration} {e : Extent} (st : Status) (hm : s.mem.migr.find x = some m)
    (he : s.part.extents.find x = some e) : (s.endMigration x st).mem.migr = s.mem.migr.del x := by
  unfold State.endMigration
  rw [hm, he]
  dsimp only
  split
  · rfl
  · have hw : ∀ u : State, (u.migrateEvent x e m st).mem = u.mem := fun u => by
      have h : Within [.mbx, .link] u (u.migrateEvent x e m st) := by simp
      exact h.mem (by simp) (by simp)
    rw [hw]
    rfl

theorem State.endMigration_ringsOnly (s : State) (x : Nat) (st : Status) : RingsOnly s (s.endMigration x st) := by
  unfold State.endMigration
  split
  · split
    · rfl
    · exact State.raise_ringsOnly _ _ _ _ _ _
  · rfl

/-- The extent a command's checks find is listed where the command acts. -/
theorem extent_of_passes {c : Cmd} {q : Req} {checks : State → List Check} {d x : Nat} (h : s.passes c q checks = true)
    (hsub : ∀ u : State, u.extentChecks d x ⊆ checks u) :
    ∃ e, (s.acting c q).part.extents.find x = some e ∧ e.state ≠ .revoking := by
  have hstate := State.check_of_passes h (hsub _ (List.mem_cons_of_mem _ List.mem_cons_self))
  cases he : (s.entry c q).part.extents.find x with
  | none => simp [he] at hstate
  | some e =>
    have hpart : (s.acting c q).part = (s.entry c q).part := (s.acting_of_entry c q).part (by simp) (by simp)
    exact ⟨e, by rw [hpart, he], by simpa [he] using hstate⟩

end Sys2Proof.Machine

namespace Sys2Proof

open Machine

/-- Settles O13: a migration command is its change of the list of migrations. -/
theorem migrationCommandsComplete : Obligations.MigrationCommandsComplete := by
  unfold Obligations.MigrationCommandsComplete
  refine ⟨?start, ?cancel, ?copied, ?freed⟩
  case start =>
    intro q p hint s e hpass he
    obtain ⟨u, a, hact, harea, hm, hext⟩ := extentMigrateAct_of_find (hint := hint) (s.replyOf (extentMigrateCmd p s) q) he
    refine completes_of_effect rfl hpass hact (by simp [harea]) fun t ht => ?_
    rw [ht.mem (by simp) (by simp), ht.part (by simp) (by simp)]
    exact ⟨hm, hext⟩
  case cancel =>
    intro q p s m hwf hpass hm hdone
    obtain ⟨e, he, -⟩ := extent_of_passes hpass fun u => List.Subset.refl _
    have hw : Within [.mbx, .mem, .grans, .part, .link] (s.acting (extentMigrateCancelCmd p) q)
      ((s.acting (extentMigrateCancelCmd p) q).endMigration p.extent .aborted) := by simp
    refine completes_answering_past rfl hpass (by simp only [extentMigrateCancelAct, hm, hdone, Bool.false_eq_true, if_false]; rfl) rfl
      (State.endMigration_ringsOnly _ _ _).outst (by rw [show _ = _ from hw.1 .pkg (by simp)]) fun t ht hans => ⟨?_, hans⟩
    rw [ht.mem (by simp) (by simp), State.endMigration_migr _ hm he]
    exact NMap.find_del hwf _
  case copied =>
    intro x s m e hm he hdone hgo
    refine .of_next (by simp only [exec, execMigrateCopyDone, hm, he, hdone, hgo, Bool.or_self, Bool.false_eq_true, if_false]; rfl) ?_
    rw [Within.mem (Z := [.mbx, .link]) (State.migrateEvent_within _ _ _ _ _ (by simp) |>.mpr (.refl _ _)) (by simp) (by simp)]
    exact ⟨_, NMap.find_put .., rfl, rfl, rfl⟩
  case freed =>
    intro x s m e hwf hm he hsw hold hcopy
    refine .of_next (by simp only [exec, execMigrateOldFramesFree, hm, he, hsw, hold, hcopy, Bool.not_false, Bool.and_self, if_true]; rfl) ?_
    exact NMap.find_del hwf _

end Sys2Proof
end

section
/-! PROOFS. Copies of the translation tables, walks and fault records (R96 to R103, R106, R107). -/

namespace Sys2Proof.Machine

variable {s t : State}

/-! ## The device copy -/

/-- A deckle that is the same beside its accounts. -/
theorem Tenancy.deckle {d : Nat} {k : Deckle} (h : Tenancy s t) (hk : s.part.deckles.find d = some k) :
    ∃ k', t.part.deckles.find d = some k' ∧ k'.plain = k.plain := by
  have hd := h.deckles d
  rw [hk] at hd
  obtain ⟨k', hk', hplain⟩ := Option.map_eq_some_iff.mp hd
  exact ⟨k', hk', hplain⟩

theorem Deckle.copy_of_plain {k k' : Deckle} (h : k'.plain = k.plain) :
    k'.oldCopy = k.oldCopy ∧ k'.syncReply = k.syncReply ∧ k'.tables = k.tables ∧ k'.root = k.root :=
  ⟨(congrArg Deckle.oldCopy h :), (congrArg Deckle.syncReply h :), (congrArg Deckle.tables h :), (congrArg Deckle.root h :)⟩

theorem State.settle_xlat (s u : State) (r : Option Nat) (a : Ans) : (State.settle s u r a).xlat = u.xlat := by
  have hw : Within [.mbx, .cells, .mem, .part, .link, .cal, .pair, .pkg] u (State.settle s u r a) := by simp
  exact hw.1 .xlat (by simp)

/-- The old copy ends, with the answer that waited for it and the translations taken from it. -/
theorem State.finishSync_ends {d : Nat} {k : Deckle} (hk : s.part.deckles.find d = some k) (hold : k.oldCopy.isSome = true) :
    (∃ k', (s.finishSync d).part.deckles.find d = some k' ∧ k'.oldCopy = none ∧ k'.syncReply = none ∧
      (k'.tables, k'.root) = (k.tables, k.root)) ∧ ∀ e ∈ (s.finishSync d).xlat.tlb, e.2.1 ≠ d := by
  have hsome : k.oldCopy.isNone = false := by simpa using hold
  unfold State.finishSync
  simp -zeta only [hk, hsome, Bool.false_eq_true, if_false]
  extract_lets need keep drop s1 s2
  have hw : Within [.grans] s1 s2 := within_foldl _ _ (fun a r => by simp) (.refl _ _)
  have hdeckle : s1.part.deckles.find d = some { k with oldCopy := none, syncReply := none, store := keep } := by
    simp [s1, State.modDeckle, State.dropTlb, hk]
  constructor
  · obtain ⟨k', hk', hplain⟩ := ((Tenancy.of_within hw (by simp)).trans (State.settle_tenancy s s2 k.syncReply _)).deckle hdeckle
    obtain ⟨hcopy, hreply, htables, hroot⟩ := Deckle.copy_of_plain hplain
    exact ⟨k', hk', hcopy, hreply, Prod.ext htables hroot⟩
  · intro e he
    rw [State.settle_xlat, show s2.xlat = s1.xlat from hw.1 .xlat (by simp)] at he
    simpa using (List.mem_filter.mp he).2

/-- An answer begins with its first field. -/
theorem okFields_head (n w v : Nat) (r : List (Nat × Nat)) : (okFields n ((w, v) :: r)).bits % 2 ^ w = v % 2 ^ w := by
  simp [okFields, pack]

/-- The answer of TABLE_READBACK on a listed deckle begins with the digest of its copy. -/
theorem tableReadbackAct_of_find {p : ReadbackP} {k : Deckle} (r : Nat) (hk : s.part.deckles.find p.deckle = some k) :
    ∃ a, tableReadbackAct p s r = (s, some a) ∧ a.status = .ok ∧
      a.bits % 2 ^ 256 = copyDigest (k.tables, k.root) % 2 ^ 256 := by
  unfold tableReadbackAct
  rw [hk]
  dsimp only
  split
  · exact ⟨_, rfl, rfl, okFields_head 64 ..⟩
  · exact ⟨_, rfl, rfl, okFields_head 64 ..⟩

/-! ## Fault records -/

/-- A record with no waiter is closed and nothing else. -/
theorem State.closeWith_nil {r : FaultRec} (f : Nat) (g : State → Waiter → State) (h : r.waiters = []) :
    s.closeWith f r g = s.closeFault f := by
  rw [State.closeWith, h]
  rfl

theorem faultAns_nil {r : FaultRec} (h : r.waiters = []) : faultAns r = okFields 8 [(16, 0), (48, 0)] := by
  rw [faultAns, h]
  rfl

end Sys2Proof.Machine

namespace Sys2Proof

open Machine

/-- Settles O14: a table command changes its deckle's copy, and the switch ends the old one. -/
theorem tableCommandsComplete : Obligations.TableCommandsComplete := by
  unfold Obligations.TableCommandsComplete
  refine ⟨?sync, ?switched, ?readback⟩
  case sync =>
    intro q p hint s s' hpass hsync
    have hw : Within [.mbx, .cells, .mem, .grans, .part, .xlat, .link, .cal, .pair, .pkg] (s.acting (tableSyncCmd p) q) s' :=
      .of_fst hsync (by simp)
    refine completes_of_effect rfl hpass hsync (by simp) fun t ht => ⟨by rw [ht.part (by simp) (by simp)], ?_, ?_⟩
    · rw [show t.rgn = _ from ht.1 .rgn (by simp), show s'.rgn = _ from hw.1 .rgn (by simp), s.acting_rgn]
    · rw [show t.lode = _ from ht.1 .lode (by simp), show s'.lode = _ from hw.1 .lode (by simp), s.acting_lode]
  case switched =>
    intro d s k hk hold
    obtain ⟨⟨k', hk', hcopy, hreply, hsame⟩, htlb⟩ := State.finishSync_ends hk hold
    exact .of_next rfl ⟨k', hk', hcopy, hreply, hsame, htlb⟩
  case readback =>
    intro q p s k hpass hk
    obtain ⟨a, hact, hok, hbits⟩ := tableReadbackAct_of_find (s.replyOf (tableReadbackCmd p) q) hk
    exact completes_answering_area (Z := []) rfl hpass hact (.refl _ _) (by simp) (by simp) fun t ht hans => ⟨a, hans, hok, hbits⟩

/-- Settles O15: a walk moves its slot, and a record that is closed is listed no more. -/
theorem faultCommandsComplete : Obligations.FaultCommandsComplete := by
  unfold Obligations.FaultCommandsComplete
  refine ⟨?stream, ?tile, ?resume, ?abort, ?auto⟩
  case stream =>
    intro core unit slot s htrip
    exact .of_next (by simp [exec, execTranslationWalkDone, State.unlessTripped, htrip]) rfl
  case tile =>
    intro core unit slot s htrip
    exact .of_next (by simp [exec, execTranslationWalkDone, State.unlessTripped, htrip]) rfl
  case resume =>
    intro q p s r hpass hr hnone hwf
    refine completes_answering (Z := [.xlat]) rfl hpass
      (by simp only [faultResumeAct, hr, State.closeWith_nil _ _ hnone, faultAns_nil hnone]; rfl) rfl
      (by simp) (by simp) (by simp) fun t ht hans => ⟨hans, ?_⟩
    rw [show t.xlat = _ from ht.1 .xlat (by simp)]
    exact NMap.find_del hwf _
  case abort =>
    intro q p s r hpass hr hnone hwf
    refine completes_answering (Z := [.xlat]) rfl hpass
      (by simp only [faultAbortAct, hr, State.closeWith_nil _ _ hnone, faultAns_nil hnone]; rfl) rfl
      (by simp) (by simp) (by simp) fun t ht hans => ⟨hans, ?_⟩
    rw [show t.xlat = _ from ht.1 .xlat (by simp)]
    exact NMap.find_del hwf _
  case auto =>
    intro f s r hr hrun
    exact .of_next (by simp [exec, execFaultAutoAbort, hr, hrun]) rfl

end Sys2Proof
end

section
/-! PROOFS. Barriers and slots of the engines (R126 to R130). -/

namespace Sys2Proof.Machine

variable {s t : State}

/-- What one step establishes and every step keeps holds after all of them. -/
theorem foldl_establish {α β : Type} {P : β → Prop} {f : β → α → β} {l : List α} {x : α} (hx : x ∈ l) (hset : ∀ a, P (f a x))
    (hkeep : ∀ a, ∀ y ∈ l, P a → P (f a y)) (a : β) : P (l.foldl f a) := by
  have hall : ∀ (l' : List α) (b : β), l' ⊆ l → P b → P (l'.foldl f b) := by
    intro l'
    induction l' with
    | nil => exact fun b _ hb => hb
    | cons y l' ih =>
      intro b hsub hb
      exact ih _ (fun z hz => hsub (List.mem_cons_of_mem _ hz)) (hkeep b y (hsub List.mem_cons_self) hb)
  obtain ⟨l1, l2, rfl⟩ := List.append_of_mem hx
  rw [List.foldl_append]
  exact hall l2 _ (fun z hz => by simp [hz]) (hset _)

/-- A slot that has no tile left, at a device that mirrors nothing, leaves its engine. -/
theorem execStreamSlotComplete_of_empty {core engine slot : Nat} {st : Stream} (htrip : s.pkg.tripped = false)
    (hst : (s.engine core engine).slots.find slot = some st) (htiles : st.tiles = []) (hmir : s.mirrors = false) :
    execStreamSlotComplete core engine slot s = .next (s.setEngine core engine
      { s.engine core engine with
        slots := (s.engine core engine).slots.del slot
        ended := (s.engine core engine).ended ||
          ((s.engine core engine).halting && ((s.engine core engine).slots.del slot).isEmpty) }) := by
  simp [execStreamSlotComplete, State.unlessTripped, htrip, hst, htiles, hmir]

/-- One engine leaves the barrier it stands at. -/
def releaseOne (kind : Nat) (es : List (Nat × Engine)) (a : State) (e : Nat × Engine) : State :=
  if e.2.barrier == kind then
    let last := (es.filter fun f => f.1 / 16 == e.1 / 16).foldl (fun m f => max m f.2.cycles) 0
    a.setEngine (e.1 / 16) (e.1 % 16) { e.2 with barrier := 0, cycles := last + 1 }
  else a

theorem releaseOne_keeps (kind : Nat) (es : List (Nat × Engine)) (a : State) (e : Nat × Engine) {c n : Nat}
    (h : (a.engine c n).barrier = 0) : ((releaseOne kind es a e).engine c n).barrier = 0 := by
  unfold releaseOne
  split
  · dsimp only
    by_cases hkey : engKey c n = engKey (e.1 / 16) (e.1 % 16)
    · rw [State.engine, State.setEngine]
      dsimp only
      rw [hkey, NMap.find_put]
      rfl
    · rwa [State.engine_setEngine_ne _ _ hkey]
  · exact h

theorem foldl_releaseOne_kept (kind : Nat) (es l : List (Nat × Engine)) (s : State) :
    (l.foldl (releaseOne kind es) s).eng.work = s.eng.work ∧ (l.foldl (releaseOne kind es) s).mem = s.mem := by
  induction l generalizing s with
  | nil => exact ⟨rfl, rfl⟩
  | cons e l ih =>
    obtain ⟨hwork, hmem⟩ := ih (releaseOne kind es s e)
    have hone : (releaseOne kind es s e).eng.work = s.eng.work ∧ (releaseOne kind es s e).mem = s.mem := by
      unfold releaseOne
      split <;> exact ⟨rfl, rfl⟩
    exact ⟨hwork.trans hone.1, hmem.trans hone.2⟩

/-- The engines of a work item that a barrier of a core, or of the gang, counts. -/
def State.countedEngines (s : State) (work core : Nat) (gang : Bool) : List (Nat × Engine) :=
  ((s.enginesOf work).filter fun k => gang || k / 16 == core).map fun k => (k, s.engine (k / 16) (k % 16))

/-- A barrier at which every engine that counts has ended or stands is released. -/
theorem execBarrierRelease_of_all {work core : Nat} {gang : Bool} {w : Work} (htrip : s.pkg.tripped = false)
    (hw : s.eng.work.find work = some w) (hcause : w.cause = none)
    (hany : (s.countedEngines work core gang).any (fun e => e.2.barrier == if gang then 2 else 1) = true)
    (hall : (s.countedEngines work core gang).all (fun e => e.2.ended || e.2.barrier == if gang then 2 else 1) = true) :
    execBarrierRelease work core gang s = .next ((s.countedEngines work core gang).foldl
      (releaseOne (if gang then 2 else 1) (s.countedEngines work core gang)) s) := by
  unfold execBarrierRelease State.unlessTripped
  rw [htrip, if_neg Bool.false_ne_true]
  dsimp only
  rw [if_pos]
  · rfl
  · simp only [hw, hcause, Option.map_some, Option.isNone_none, Option.getD_some, Bool.true_and, Bool.and_eq_true]
    exact ⟨hany, hall⟩

end Sys2Proof.Machine

namespace Sys2Proof

open Machine

/-- Settles O19: a barrier releases each engine it counts, a landed tile goes to its store, and an empty slot leaves its
engine. -/
theorem engineEventsComplete : Obligations.EngineEventsComplete := by
  unfold Obligations.EngineEventsComplete
  refine ⟨?barrier, ?core, ?tile, ?slot⟩
  case barrier =>
    intro work core k gang s w htrip hw hcause hall hk hcounts hbarrier
    have hmem : (k, s.engine (k / 16) (k % 16)) ∈ s.countedEngines work core gang :=
      List.mem_map.mpr ⟨k, List.mem_filter.mpr ⟨hk, by simpa using hcounts⟩, rfl⟩
    refine .of_next (execBarrierRelease_of_all htrip hw hcause (List.any_eq_true.mpr ⟨_, hmem, by simpa using hbarrier⟩)
      (List.all_eq_true.mpr fun e he => ?_)) ⟨?_, foldl_releaseOne_kept _ _ _ _⟩
    · obtain ⟨j, hj, rfl⟩ := List.mem_map.mp he
      obtain ⟨hj, hcount⟩ := List.mem_filter.mp hj
      simpa using hall j hj (by simpa using hcount)
    · refine foldl_establish (P := fun a => (State.engine a (k / 16) (k % 16)).barrier = 0) hmem (fun a => ?_)
        (fun a e _ ha => releaseOne_keeps _ _ a e ha) s
      simp [releaseOne, hbarrier]
  case core =>
    intro core engine slot w s k st htrip hst hcore
    exact .of_next (by simp [exec, execStreamTileLand, State.unlessTripped, htrip, hst, hcore]) rfl
  case tile =>
    intro core engine slot w s k st refs htrip hst hcore hrefs
    exact .of_next (by simp [exec, execStreamTileLand, State.unlessTripped, htrip, hst, hcore, hrefs]) rfl
  case slot =>
    intro core engine slot s st htrip hwf hst htiles hmir
    refine .of_next (execStreamSlotComplete_of_empty htrip hst htiles hmir) ⟨?_, fun i hi => ?_, rfl⟩
    · rw [State.engine_setEngine]
      exact NMap.find_del hwf _
    · rw [State.engine_setEngine]
      exact NMap.find_del_ne _ hi

end Sys2Proof
end

section
/-! PROOFS. Kernels and launches (R140 to R148). -/

namespace Sys2Proof.Machine

variable {s t : State}

/-! ## Kernels -/

/-- A kernel that is loaded takes the next handle. -/
theorem loadKernel_last {p : KernelP} {u : State} {a : Ans} (h : s.loadKernel p = (u, some a)) (hok : a.status = .ok) :
    a.area = 0 ∧ u.eng.lastKernel = s.eng.lastKernel + 1 := by
  have hbad : ∀ {v : State} {st : Status} {d : Nat}, st ≠ .ok →
      ¬ (v, some ({ status := st, detail := d } : Ans)) = (u, some a) := by
    rintro v st d hst ⟨rfl, rfl⟩
    exact hst hok
  have hread : ∀ {v w : State} {d pva n : Nat} {y : Status × Nat}, v.readBytes d pva n = (w, y) → w.eng = v.eng := by
    intro v w d pva n y hy
    have hw : Within [.cells, .mem, .part, .link, .cal, .pair] v w := .of_fst hy (by simp)
    exact hw.1 .eng (by simp)
  unfold State.loadKernel at h
  split at h
  · exact absurd h (hbad (by simp))
  · split at h
    · next s1 hd hr1 =>
      split at h
      · exact absurd h (hbad (by simp))
      · split at h
        · exact absurd h (hbad (by simp))
        · split at h
          · next s2 body hr2 =>
            extract_lets bad n code k at h
            split at h
            · exact absurd h (hbad (by simp))
            · split at h
              · exact absurd h (hbad (by simp))
              · split at h
                · exact absurd h (hbad (by simp))
                · obtain ⟨rfl, ha⟩ := Prod.mk.inj h
                  obtain rfl := Option.some.inj ha
                  exact ⟨rfl, by rw [← hread hr1, ← hread hr2]⟩
          · next hst hr2 => exact absurd h (hbad hst)
    · next hst hr1 => exact absurd h (hbad hst)

/-- A handle that is unloaded stands for no kernel but one that unloads. -/
theorem unload_unloading {i : Nat} {k : Kernel} (hwf : NMap.wf s.eng.kernels = true)
    (h : (State.dropKernels { s with eng := { s.eng with
      kernels := s.eng.kernels.upd i fun k => { k with unloading := true } } }).eng.kernels.find i = some k) :
    k.unloading = true := by
  unfold State.dropKernels at h
  dsimp only at h
  rw [NMap.find_keep (NMap.wf_upd hwf _ _), NMap.find_upd_same] at h
  obtain ⟨k0, -, rfl⟩ := Option.map_eq_some_iff.mp (Option.filter_eq_some_iff.mp h).1
  rfl

/-! ## Work that ends -/

/-- Work that closes leaves the list and its engines. -/
theorem State.closeWork_gone {w : Nat} (x : Work) (nj : Nat) (hwf : NMap.wf s.eng.work = true) :
    (s.closeWork w x nj).eng.work.find w = none ∧ (s.closeWork w x nj).enginesOf w = [] := by
  unfold State.closeWork
  extract_lets s1 src
  have hw : ∀ v : State, (v.mirrorItem (workItem x) true).eng = v.eng := fun v => by
    have h : Within [.link, .pair] v (v.mirrorItem (workItem x) true) := by simp
    exact h.1 .eng (by simp)
  have hs1 : s1.eng.work = s.eng.work.del w ∧ s1.eng.engines = ((s.settleEnergy x.deckle x.yellow x.est nj).freeWork w).eng.engines :=
    ⟨rfl, rfl⟩
  rw [State.enginesOf, hw]
  dsimp only
  rw [NMap.find_each, hs1.1, hs1.2, NMap.find_del hwf]
  refine ⟨rfl, List.map_eq_nil_iff.mpr (List.filter_eq_nil_iff.mpr fun e he => ?_)⟩
  obtain ⟨e0, -, rfl⟩ := List.mem_map.mp he
  dsimp only
  split <;> simp_all

theorem State.endWork_gone {w : Nat} (x : Work) (nj body : Nat) (hwf : NMap.wf s.eng.work = true) :
    (s.endWork w x nj body).eng.work.find w = none ∧ (s.endWork w x nj body).enginesOf w = [] := by
  have hw : Within [.mbx, .link] (s.closeWork w x nj) (s.endWork w x nj body) := by simp [State.endWork]
  have heng : (s.endWork w x nj body).eng = (s.closeWork w x nj).eng := hw.1 .eng (by simp)
  rw [heng, State.enginesOf, heng]
  exact State.closeWork_gone x nj hwf

theorem State.endLaunch_gone {w : Nat} (x : Work) (b : LaunchB) (hwf : NMap.wf s.eng.work = true) :
    (s.endLaunch w x b).eng.work.find w = none ∧ (s.endLaunch w x b).enginesOf w = [] := by
  unfold State.endLaunch
  refine State.endWork_gone _ _ _ ?_
  split <;> exact hwf

/-- The cause of a work item that is stopped. -/
theorem State.stopWork_cause {w : Nat} {x : Work} (st : Status) (detail : Nat) (hx : s.eng.work.find w = some x)
    (hcause : x.cause = none) (hready : x.ready = none) :
    ((s.stopWork w st detail).eng.work.find w).map (·.cause) = some (some (st, detail)) := by
  unfold State.stopWork
  rw [hx]
  simp [hcause, hready, State.leaveFaults, State.modWork, hx]

/-! ## Launches -/

/-- What takes engines and windows for a launch leaves the list of work. -/
theorem startCores_work (l : List Nat) (w d n m : Nat) (init : Engine → Engine) (s : State) :
    (l.foldl (fun a c => (a.startEngines w d c n init).startWindows w d c m) s).eng.work = s.eng.work := by
  have hengines : ∀ (pick : List Nat) (c : Nat) (f : State → Nat → Engine) (a : State),
      (pick.foldl (fun a e => a.setEngine c e (f a e)) a).eng.work = a.eng.work := by
    intro pick c f a
    induction pick generalizing a with
    | nil => rfl
    | cons e pick ih => exact ih _
  induction l generalizing s with
  | nil => rfl
  | cons c l ih =>
    refine (ih _).trans ?_
    exact hengines _ c (fun a e => init { Engine.reset with
      store := if (a.engine c e).lastDeckle == some d then (a.engine c e).store else []
      badWords := if (a.engine c e).lastDeckle == some d then (a.engine c e).badWords else []
      work := some w, lastDeckle := some d }) s

/-- Work that starts runs. -/
theorem State.startWork_runs {w : Nat} {x : Work} (hx : s.eng.work.find w = some x) :
    (s.startWork w x).eng.work.find w = some { x with state := .running, started := s.now } := by
  unfold State.startWork
  simp [State.modWork, startCores_work, hx]

theorem State.chooseCore_lt {engines windows c : Nat} (h : s.chooseCore engines windows = some c) : c ∈ s.readyCores := by
  unfold State.chooseCore at h
  dsimp only at h
  rcases Option.or_eq_some_iff.mp h with h1 | ⟨-, h1⟩
  · exact List.mem_of_find?_eq_some h1
  · exact List.mem_of_find?_eq_some h1

/-- Work that energy lets go on is queued under the next number. -/
theorem State.admitWork_go {h : Hdr} {kind : Nat} {w : Work} {s2 : State} {y : Bool}
    (henergy : s.admitEnergy w.deckle w.est = (s2, .go y)) :
    (s.admitWork h kind w).1.eng.work.find s.eng.nextWork =
      some { w with state := .queued, yellow := y, queue := if y then 60 else w.queue } := by
  have heng : s2.eng = s.eng := by simpa [henergy] using s.admitEnergy_eng w.deckle w.est
  unfold State.admitWork
  rw [henergy]
  dsimp only
  rw [← heng]
  exact State.addWork_work _ _

/-- A launch that no check refuses is a queued work item. -/
theorem admitLaunch_queues {h : Hdr} {b : LaunchB} {q : Nat} {s2 : State} {k : KernelNeeds} {cores : List Nat} {y : Bool}
    (hactive : s.deckleActive h.deckle = true) (hfields : s.launchFields h.deckle b = true)
    (hkernel : s.kernelFor h.deckle b.kernel = .ok k) (hlo : k.lo ≤ b.engines) (hhi : b.engines ≤ k.hi)
    (hgang : b.gang = true → k.gang = true) (hbuiltin : b.kernel = 6 ∨ b.kernel = 7 → b.windows = 0)
    (hnamed : ∀ w ∈ s.workNamed h.deckle b.cplEp b.ctag, ∀ x b', s.eng.work.find w = some x → x.body ≠ .launch b')
    (hcores : cores = if b.gang then maskCores b.coreMask else
      if b.anyCore then (s.chooseCore b.engines (if b.windows = 0 then k.windows else b.windows)).toList else [b.core])
    (hne : cores ≠ []) (hroom : ∀ c ∈ cores, (s.core c).ready = true ∧
      (if b.windows = 0 then k.windows else b.windows) ≤ s.launchWindows c ∧ s.queuedOn c < 4096)
    (henergy : s.admitEnergy h.deckle ((if b.estUj = 0 then k.estUj else b.estUj) * 1000000) = (s2, .go y)) :
    (s.admitLaunch h b q).eng.work.find s.eng.nextWork =
      some { mkWork h q (.launch { b with windows := if b.windows = 0 then k.windows else b.windows }) b.cplEp b.ctag cores b.engines
          ((if b.capUs = 0 then 10000 else b.capUs) * 1000) ((if b.estUj = 0 then k.estUj else b.estUj) * 1000000) with
        state := .queued, yellow := y, queue := if y then 60 else q } := by
  have hexcl : b.gang = true → b.anyCore = false := by
    simp only [State.launchFields, Bool.and_eq_true, Bool.not_eq_true', Bool.and_eq_false_iff] at hfields
    intro hg
    simpa [hg] using hfields.1.1.1.1.1.1.1.1.2
  have hchosen : (if b.anyCore then (s.chooseCore b.engines (if b.windows = 0 then k.windows else b.windows)).toList
      else if b.gang then maskCores b.coreMask else if b.anyCore then [] else [b.core]) = cores := by
    rw [hcores]
    cases hg : b.gang <;> cases ha : b.anyCore <;> simp_all
  have hall : (if b.anyCore then s.readyCores.any fun c => (if b.windows = 0 then k.windows else b.windows) ≤ s.launchWindows c
      else (if b.gang then maskCores b.coreMask else if b.anyCore then [] else [b.core]).all
        fun c => (if b.windows = 0 then k.windows else b.windows) ≤ s.launchWindows c) = true := by
    cases ha : b.anyCore with
    | false =>
      rw [ha] at hchosen
      simp only [Bool.false_eq_true, if_false] at hchosen ⊢
      rw [hchosen, List.all_eq_true]
      exact fun c hc => decide_eq_true (hroom c hc).2.1
    | true =>
      simp only [ha, if_true] at hchosen ⊢
      obtain ⟨c, hc⟩ := List.exists_mem_of_ne_nil _ hne
      rw [← hchosen, Option.mem_toList] at hc
      rw [List.any_eq_true]
      exact ⟨c, State.chooseCore_lt hc, decide_eq_true (hroom c (by rw [← hchosen, Option.mem_toList]; exact hc)).2.1⟩
  have hready : (cores.isEmpty || !cores.all fun c => (s.core c).ready) = false := by
    simp only [Bool.or_eq_false_iff, Bool.not_eq_false', List.all_eq_true]
    exact ⟨by simpa using hne, fun c hc => (hroom c hc).1⟩
  have hqueue : (cores.any fun c => decide (4096 ≤ s.queuedOn c)) = false := by
    rw [List.any_eq_false]
    exact fun c hc => by simpa using (hroom c hc).2.2
  have hfit : ¬(b.engines < k.lo ∨ k.hi < b.engines ∨ (b.gang = true ∧ (!k.gang) = true) ∨
      (!if b.anyCore then s.readyCores.any fun c => (if b.windows = 0 then k.windows else b.windows) ≤ s.launchWindows c
        else (if b.gang then maskCores b.coreMask else if b.anyCore then [] else [b.core]).all
          fun c => (if b.windows = 0 then k.windows else b.windows) ≤ s.launchWindows c) = true ∨
      ((b.kernel = 6 ∨ b.kernel = 7) ∧ b.windows ≠ 0)) := by
    rw [hall]
    rintro (hless | hmore | ⟨hg, hk⟩ | hno | ⟨hb, hw⟩)
    · omega
    · omega
    · simp [hgang hg] at hk
    · cases hno
    · exact hw (hbuiltin hb)
  unfold State.admitLaunch
  simp only [hactive, hfields, hkernel, Bool.not_true, Bool.false_eq_true, if_false]
  rw [if_neg hfit, if_neg ?named, hchosen, hready, hqueue]
  case named =>
    simp only [List.any_eq_true, not_exists, not_and]
    intro w hw
    cases hx : s.eng.work.find w with
    | none => simp
    | some x =>
      have hbody := hnamed w hw x
      cases hb : x.body <;> simp_all
  exact State.admitWork_go henergy

end Sys2Proof.Machine

namespace Sys2Proof

open Machine

/-- Settles O20: kernels and launches by their effects, a launch past its checks, a launch that ends past what freeing its
engines leaves. -/
theorem launchCommandsComplete : Obligations.LaunchCommandsComplete := by
  unfold Obligations.LaunchCommandsComplete
  refine ⟨?load, ?unload, ?launch, ?start, ?complete, ?cap, ?cancel⟩
  case load =>
    intro q p s s' a hpass hload hok
    obtain ⟨harea, hlast⟩ := loadKernel_last hload hok
    refine completes_answering (Z := [.cells, .mem, .part, .eng, .link, .cal, .pair]) rfl hpass hload harea (.of_fst hload (by simp))
      (by simp) (by simp) fun t ht hans => ⟨hans, ?_, ?_⟩
    · rw [show t.eng = _ from ht.1 .eng (by simp)]
    · rw [show t.eng = _ from ht.1 .eng (by simp), hlast, s.acting_eng]
  case unload =>
    intro q p s hwf hpass
    refine completes_answering (Z := [.eng]) rfl hpass rfl rfl (by simp) (by simp) (by simp) fun t ht hans => ⟨hans, fun k hk => ?_⟩
    rw [show t.eng = _ from ht.1 .eng (by simp)] at hk
    exact unload_unloading (by rwa [s.acting_eng]) hk
  case launch =>
    intro h b q s s2 k cores y hpass s1 win est hactive hfields hkernel hlo hhi hgang hbuiltin hnamed hcores hne hroom henergy
    obtain ⟨x, hgo⟩ := State.workGate_of_passes 0x0001 b.ctag (fun s q _ => s.admitLaunch h b q)
      (fun s st => s.refuseWork h 0x0001 b.ctag st 0) hpass
    refine .of_next rfl ?_
    rw [hgo]
    exact ⟨_, admitLaunch_queues hactive hfields hkernel hlo hhi hgang hbuiltin hnamed hcores hne hroom henergy,
      rfl, rfl, rfl, rfl, rfl, rfl, rfl, rfl, rfl⟩
  case start =>
    intro work s x htrip hx hstart hrank
    refine .of_next (by simp [exec, execLaunchStart, State.unlessTripped, htrip, hx, hstart, hrank]; rfl) ?_
    have hw : Within [.eng] s (s.startWork work x) := by simp
    exact ⟨State.startWork_runs hx, hw.mem (by simp) (by simp)⟩
  case complete =>
    intro work s x b htrip hwf hx hbody hrun hbuiltin hend
    refine .of_next (t := s.endLaunch work x b) ?_ (State.endLaunch_gone x b hwf)
    have hall : (x.cause.isSome || (s.enginesOf work).all fun k => (s.engine (k / 16) (k % 16)).ended) = true := by
      simpa using hend
    simp [exec, execLaunchComplete, State.unlessTripped, htrip, hx, hbody, hrun, hbuiltin, hall]
  case cap =>
    intro work s x b hx hbody hrun hcause hready
    refine .of_next (by simp [exec, execWorkTimeCap, hx, hbody, hrun]; rfl) ?_
    refine ⟨State.stopWork_cause (s := s.reach (x.started + x.capNs)) _ _ hx hcause hready, ?_⟩
    have hw : Within [.xlat, .eng] (s.reach (x.started + x.capNs)) ((s.reach (x.started + x.capNs)).stopWork work .killed 0) := by
      simp
    rw [show _ = _ from hw.1 .now (by simp), State.reach_now]
    exact Nat.le_max_right _ _
  case cancel =>
    intro h b q s hpass hrsvd x y
    obtain ⟨z, hgo⟩ := State.workGate_of_passes 0x0002 b.ctag (fun s q _ =>
      if b.rsvd ≠ 0 then s.refuseWork h 0x0002 b.ctag .invalid 0
      else
        let x := s.stopItems (fun w => w.deckle == h.deckle && w.cplEp == b.cplEp && w.ctag == b.ctag && cancels w.body) .aborted
        let y := x.1.stopChains (fun k => k.deckle == h.deckle && k.cplEp == b.cplEp && k.ctag == b.ctag) none .aborted
        y.1.sendCpl h.ep h.deckle h.cls q (cplPlain 0x0002 (if x.2 + y.2 = 0 then .late else .ok) b.ctag 0))
      (fun s st => s.refuseWork h 0x0002 b.ctag st 0) hpass
    refine .of_next rfl ?_
    rw [hgo]
    exact if_neg (not_not_intro hrsvd)

end Sys2Proof
end

section
/-! PROOFS. Couch channels, chains and tiles (R194 to R205). -/

namespace Sys2Proof.Machine

variable {s t : State} {core ch : Nat}

/-! ## Channels -/

theorem State.chan_congr (h : t.couch = s.couch) (core ch : Nat) : t.chan core ch = s.chan core ch := by simp [State.chan, h]

theorem State.chan_setChan (s : State) (core ch : Nat) (c : Channel) : (s.setChan core ch c).chan core ch = c := by
  simp [State.chan, State.setChan]

theorem State.chan_modChain (s : State) (core ch : Nat) (f : Chain → Chain) :
    (s.modChain core ch f).chan core ch = { s.chan core ch with cur := (s.chan core ch).cur.map f } :=
  State.chan_setChan _ _ _ _

theorem State.runAt_congr (h : t.couch = s.couch) (core ch : Nat) : t.runAt core ch = s.runAt core ch := by
  simp [State.runAt, State.chan_congr h]

/-- A change of the descriptor at work is seen there. -/
theorem State.runAt_modRun {k : Chain} {r : DescRun} (f : DescRun → DescRun) (h : s.runAt core ch = some (k, r)) :
    (s.modRun core ch f).runAt core ch = some ({ k with run := some (f r) }, f r) := by
  obtain ⟨k', hk', hr⟩ := Option.bind_eq_some_iff.mp h
  obtain ⟨r', hr', heq⟩ := Option.map_eq_some_iff.mp hr
  obtain ⟨rfl, rfl⟩ := Prod.mk.inj heq
  simp [State.runAt, State.modRun, State.chan_modChain, hk', hr']

/-! ## Chains -/

/-- A chain that no check refuses joins its channel's queue last. -/
theorem admitCouch_queues {h : Hdr} {b : CouchB} {q : Nat}
    (hgood : s.couchBad h b ((!b.anyChannel || (b.core == 0 && b.channel == 0)) && (b.inl.isNone || b.chainPva == 0)) = none)
    (hroom : (s.chan (s.pickChannel h.ep b).1 (s.pickChannel h.ep b).2).queue.length < 256)
    (hready : (s.core (s.pickChannel h.ep b).1).ready = true) :
    ∃ k, (s.admitCouch h b q).chan (s.pickChannel h.ep b).1 (s.pickChannel h.ep b).2 =
        { s.chan (s.pickChannel h.ep b).1 (s.pickChannel h.ep b).2 with
          queue := (s.chan (s.pickChannel h.ep b).1 (s.pickChannel h.ep b).2).queue ++ [k] } ∧
      (k.deckle, k.ep, k.cplEp, k.ctag) = (h.deckle, h.ep, b.cplEp, b.ctag) ∧
      (k.queue, k.inl, k.next, k.run) = (q, b.inl, b.chainPva, none) := by
  have hmirror : ∀ (v : State) (i : Option ItemRec) (e : Bool), (v.mirrorItem i e).couch = v.couch := fun v i e => by
    have hw : Within [.link, .pair] v (v.mirrorItem i e) := by simp
    exact hw.1 .couch (by simp)
  unfold State.admitCouch
  simp only [hgood, if_neg (Nat.not_le.mpr hroom), hready, Bool.not_true, Bool.false_eq_true, if_false]
  exact ⟨_, (State.chan_congr (hmirror _ _ _) _ _).trans (State.chan_setChan _ _ _ _), rfl, rfl⟩

/-- A channel with no chain at work takes one that may run next. -/
theorem execCouchChainStart_takes (hcur : (s.chan core ch).cur = none) (hne : nextChains (s.chan core ch).queue ≠ []) :
    ∃ k ∈ nextChains (s.chan core ch).queue, ∃ v : State, execCouchChainStart core ch s =
      .next (v.setChan core ch { cur := some k, queue := (s.chan core ch).queue.erase k }) := by
  have hpos : 0 < (nextChains (s.chan core ch).queue).length := List.length_pos_iff.mpr hne
  have hlt : (if (nextChains (s.chan core ch).queue).length ≤ 1 then ((0 : Nat), s)
      else s.draw (nextChains (s.chan core ch).queue).length).1 < (nextChains (s.chan core ch).queue).length := by
    split
    · exact hpos
    · exact Nat.mod_lt _ hpos
  generalize hx : (if (nextChains (s.chan core ch).queue).length ≤ 1 then ((0 : Nat), s)
      else s.draw (nextChains (s.chan core ch).queue).length) = x at hlt
  refine ⟨_, List.getElem_mem hlt, x.2, ?_⟩
  unfold execCouchChainStart
  simp only [hcur, Option.isSome_none, Bool.false_eq_true, if_false, hx, List.getElem?_eq_getElem hlt]

/-! ## Descriptors -/

theorem State.wantFor_couch (s : State) (d : Nat) (b : FormBind) (p : FormProg) : (s.wantFor d b p).couch = s.couch := by
  have hw : Within [.form] s (s.wantFor d b p) := by simp
  exact hw.1 .couch (by simp)

/-- A descriptor that is good and admitted begins at its first tile. -/
theorem startDesc_runs {k : Chain} {d : Desc} {s1 s2 : State} {f : Option (FormProg × FormBind)} {y : Bool} {pva : Option Nat}
    (hcheck : s.descCheck k.deckle d pva.isNone = (s1, .ok f)) (henergy : s1.admitEnergy k.deckle (descEstimate d f) = (s2, .go y))
    (hcur : (s2.chan core ch).cur = some k) :
    ∃ k' r, (s.startDesc core ch k d pva).runAt core ch = some (k', r) ∧ r.d = d ∧ r.landed = 0 ∧ r.tiles = [] ∧ r.next = 0 ∧
      k'.lastTag = d.tag := by
  have hput : ∀ r : DescRun, (s2.modChain core ch fun k => { k with run := some r, lastTag := d.tag }).runAt core ch =
      some ({ k with run := some r, lastTag := d.tag }, r) := fun r => by
    simp [State.runAt, State.chan_modChain, hcur]
  unfold State.startDesc
  simp only [hcheck, henergy]
  refine ⟨{ k with run := some (newRun d pva f (descEstimate d f) y), lastTag := d.tag },
    newRun d pva f (descEstimate d f) y, ?_, rfl, rfl, rfl, rfl, rfl⟩
  cases f with
  | none => exact hput _
  | some pb => exact (State.runAt_congr (State.wantFor_couch _ _ _ _) _ _).trans (hput _)

/-! ## Tiles -/

/-- A tile that is not answered, while retries are left, fails until its backoff has passed and takes one of them. -/
theorem tileTransient_retries {tile : Nat} {k : Chain} {r : DescRun} (st : Status) (h : s.runAt core ch = some (k, r))
    (hleft : 0 < r.retriesLeft) :
    (s.tileTransient core ch tile st).now = s.now ∧ ∃ k' r', (s.tileTransient core ch tile st).runAt core ch = some (k', r') ∧
      r'.retriesLeft + 1 = r.retriesLeft ∧ r'.tiles.find tile = some (.failed st (s.now + 10000 * 2 ^ r.retriesUsed)) := by
  unfold State.tileTransient
  simp only [h, Nat.ne_of_gt hleft, if_false]
  refine ⟨rfl, _, _, State.runAt_modRun _ (State.runAt_modRun _ h), ?_, ?_⟩
  · exact Nat.sub_add_cancel hleft
  · exact NMap.find_put ..

theorem State.openStatus_now (s : State) : s.openStatus.1.now = s.now := rfl
theorem State.openStatus_couch (s : State) : s.openStatus.1.couch = s.couch := rfl
theorem State.reach_couch (s : State) (t : Nat) : (s.reach t).couch = s.couch := rfl

end Sys2Proof.Machine

namespace Sys2Proof

open Machine

/-- Settles O28: what each couch command changes at its channel. -/
theorem couchCommandsComplete : Obligations.CouchCommandsComplete := by
  unfold Obligations.CouchCommandsComplete
  refine ⟨?submit, ?abort, ?chain, ?inline, ?read, ?tile, ?timeout, ?retry, ?rsp⟩
  case submit =>
    intro h b q s hpass s1 c hgood hroom hready
    obtain ⟨x, hgo⟩ := State.workGate_of_passes 0x0010 b.ctag (fun s q _ => s.admitCouch h b q)
      (fun s st => s.refuseCouch h b.ctag st 0) hpass
    obtain ⟨k, hchan, hwho, hwhat⟩ := admitCouch_queues (q := q) hgood hroom hready
    refine .of_next rfl ?_
    rw [hgo, hchan]
    exact ⟨rfl, k, rfl, hwho, hwhat⟩
  case abort =>
    intro h b q s hpass hgood x
    obtain ⟨y, hgo⟩ := State.workGate_of_passes 0x0010 b.ctag (fun s q _ =>
        match s.couchBad h b (b.inl.isNone && !b.anyChannel && b.chainPva == 0) with
        | some e => s.refuseCouch h b.ctag e.1 e.2
        | none =>
          let x := s.stopChains (fun k => k.deckle == h.deckle) (some (chanKey b.core b.channel)) .aborted
          x.1.sendCpl b.cplEp h.deckle h.cls q
            (couchCpl (if x.2 = 0 then .late else .ok) false false b.ctag 0 x.2 0 0 0 0 0 0 0 b.core b.channel))
      (fun s st => s.refuseCouch h b.ctag st 0) hpass
    refine .of_next (congrArg Host.Outcome.next hgo) ?_
    dsimp only
    rw [hgood]
  case chain =>
    intro core ch s hcur hne
    obtain ⟨k, hk, v, hexec⟩ := execCouchChainStart_takes hcur hne
    exact .of_next hexec ⟨k, hk, State.chan_setChan _ _ _ _⟩
  case inline =>
    intro core ch s s1 s2 k d f y hcur hrun hended hinl hcheck henergy hkept
    refine .of_next (by simp only [exec, execCouchDescStart, hcur, hrun, Option.isSome_none, Bool.false_eq_true, if_false,
      if_neg (Nat.not_le.mpr hended), hinl]; rfl) ?_
    exact startDesc_runs (pva := none) hcheck henergy hkept
  case read =>
    intro core ch b s s1 k hcur hrun hended hinl hread
    exact .of_next (by simp only [exec, execCouchDescStart, hcur, hrun, Option.isSome_none, Bool.false_eq_true, if_false,
      if_neg (Nat.not_le.mpr hended), hinl, hread]) rfl
  case tile =>
    intro core ch tile s k0 k r0 r a b htrip hrun0 hbroken hsync s1 hrun htile
    have hmir : (r0.d.mirRequired && !s.inSync) = false := by
      cases hm : r0.d.mirRequired <;> simp_all
    exact .of_next (by simp only [exec, execCouchTileDone, State.unlessTripped, htrip, Bool.false_eq_true, if_false, hrun0, hbroken,
      hmir, show (s.issueTo core ch tile 4).walkTile core ch tile = s1 from rfl, hrun, htile]) rfl
  case timeout =>
    intro core ch tile tag sent s k r htrip hrun htile hleft
    have hcouch : ((s.reach (sent + 1000000)).openStatus).1.runAt core ch = some (k, r) := by
      rw [State.runAt_congr (s := s) ((State.openStatus_couch _).trans (s.reach_couch _)), hrun]
    obtain ⟨hnow, k', r', hrun', hretries, hfailed⟩ :=
      tileTransient_retries (tile := tile) ((s.reach (sent + 1000000)).openStatus).2 hcouch hleft
    refine .of_next (by simp only [exec, execCouchTileTimeout, State.unlessTripped, htrip, Bool.false_eq_true, if_false, hrun,
      Option.bind_some, htile]) ⟨?_, k', r', ((s.reach (sent + 1000000)).openStatus).2, hrun', hretries, ?_⟩
    · rw [hnow, State.openStatus_now, State.reach_now]
      exact Nat.le_max_right _ _
    · rw [hnow]
      exact hfailed
  case retry =>
    intro core ch t at_ s k r hrun hdue
    exact .of_next (by simp only [exec, execCouchRetry, hrun, Option.bind_some, hdue]) rfl
  case rsp =>
    intro h data key tile tag sent s s0 hcarries hbound hvc htile
    refine .of_next (t := s0.landCouch (key / 8) (key % 8) tile none []) ?_ rfl
    have hif : (if h.vc = 1 ∧ True then s0.tileOfTag h.ep h.tag else none) = some (key, tile, .pushed tag sent) := by
      rw [if_pos ⟨hvc, trivial⟩, htile]
    simp only [exec, execRsp, show s.freeBuf h.port h.vc (Hdr.credits h) = s0 from rfl, hcarries, hbound, hif]
    rfl

end Sys2Proof
end

section
/-! PROOFS. Formed reads (R177 to R181), and the turns of the attention queue (R154, R156). -/

namespace Sys2Proof.Machine

variable {s t : State}

/-! ## The cache of adapter parts -/

/-- Pins that are answered leave the cache. -/
theorem State.answerPins_cache (s : State) : s.answerPins.form.cache = s.form.cache := by
  unfold State.answerPins
  generalize s.form.adapters.filter _ = l
  induction l generalizing s with
  | nil => rfl
  | cons a l ih =>
    have hw : ∀ (v : State) (r : Option Nat), (v.answerOpt r okAns).form = v.form := fun v r => by
      have h : Within [.mbx, .cells, .mem, .part, .link, .cal, .pair, .pkg] v (v.answerOpt r okAns) := by simp
      exact h.1 .form (by simp)
    rw [List.foldl_cons, ih, hw]
    rfl

theorem State.chargeTier_form (s : State) (d cls : Nat) (t : Tier) (pj n : Nat) : (s.chargeTier d cls t pj n).form = s.form := by
  have h : Within [.part, .cal] s (s.chargeTier d cls t pj n) := by simp
  exact h.1 .form (by simp)

/-! ## Formed reads -/

theorem State.wantFor_eng (s : State) (d : Nat) (b : FormBind) (p : FormProg) : (s.wantFor d b p).eng = s.eng := by
  have hw : Within [.form] s (s.wantFor d b p) := by simp
  exact hw.1 .eng (by simp)

/-- Work that is running does not start. -/
theorem State.not_startable_of_running {w : Nat} {x : Work} (h : x.state = .running) : s.startable w x = false := by
  simp [State.startable, h]

/-- A formed read that its binding, its policer and energy let in is one more work item. -/
theorem serveRdf_queues {h : Hdr} {f : FormProg} {b : FormBind} {qq : Nat} {y yl : Bool} {s2 s4 : State}
    (hbind : s.bindForm h.deckle f = .ok b)
    (hpolice : s.police h.port h.deckle h.cls ((formShape f).1 * f.outPitch) = (s2, .accept qq y))
    (henergy : State.admitEnergy { s2 with part := { s2.part with eps := s2.part.eps.upd h.ep fun e =>
      { e with outst := e.outst.map fun (r : OutReq) => if r.tag = h.tag then { r with queue := qq } else r } } }
      h.deckle (formEstimate b f true) = (s4, .go yl)) :
    ∃ w, (s.serveRdf h f).eng.work.find s4.eng.nextWork = some w ∧ w.body = .rdf h.tag f b ∧ w.state = .queued ∧ w.ep = h.ep ∧
      w.cores = [homeCore h.ep] ∧ w.engines = formEngines f := by
  unfold State.serveRdf
  simp only [hbind, hpolice, mkWork, henergy, State.wantFor_eng, State.addWork_work]
  exact ⟨_, rfl, rfl, rfl, rfl, rfl, rfl⟩

/-! ## Turns of the attention queue -/

theorem State.endAttn_attn (old u : State) (w : Nat) (x : Work) (st : Status) (detail seq tiles attended vstat : Nat) :
    (State.endAttn old u w x st detail seq tiles attended vstat).attn = u.attn := by
  have hw : Within [.free, .mbx, .cells, .mem, .part, .eng, .link, .cal, .pair, .pkg] u
      (State.endAttn old u w x st detail seq tiles attended vstat) := by simp
  exact hw.1 .attn (by simp)

theorem State.touchCtx_attn (s : State) (q : Nat) : (s.touchCtx q).attn = s.attn := by
  have hw : Within [.eng] s (s.touchCtx q) := by simp
  exact hw.1 .attn (by simp)

theorem State.dropCtx_attn (s : State) (d : Nat) : (s.dropCtx d).attn = s.attn := by
  have hw : Within [.grans, .part] s (s.dropCtx d) := by simp
  exact hw.1 .attn (by simp)

end Sys2Proof.Machine

namespace Sys2Proof

open Machine

/-- Settles O26: a loaded part, a queued formed read and a formed tile are each the one step past their checks. -/
theorem formedReadsComplete : Obligations.FormedReadsComplete := by
  unfold Obligations.FormedReadsComplete
  refine ⟨?load, ?read, ?tile⟩
  case load =>
    intro mapUid adapter layer tensor s s1 p ls htrip hp s0 hroom hread
    refine .of_next (by simp only [exec, execAdapterPartLoadDone, State.unlessTripped, htrip, Bool.false_eq_true, if_false, hp,
      show s.trimCache p.bytes = s0 from rfl, if_neg (Nat.not_lt.mpr hroom), hread]; rfl) ?_
    rw [State.answerPins_cache, State.chargeTier_form]
  case read =>
    intro h f b qu qq o y yl s s2 s4 hgate s1 hbind hpolice outs s3 henergy
    refine .of_next rfl ?_
    rw [State.ingress_of_accept _ hgate]
    exact serveRdf_queues hbind hpolice henergy
  case tile =>
    intro work tag bytes s s1 x f b htrip hx hbody hcause hrun hmore hnext
    have hstart : (s.startable work x && !s.outranked work x) = false := by rw [State.not_startable_of_running hrun, Bool.false_and]
    exact .of_next (by simp only [exec, execFormTileFormed, State.unlessTripped, htrip, Bool.false_eq_true, if_false, hx, hbody, hcause,
      hstart, hrun, ne_eq, not_true_eq_false, decide_false, Bool.false_and, hnext, if_neg (Nat.not_le.mpr hmore),
      if_neg (Nat.not_le.mpr (Nat.lt_of_succ_lt hmore))]) rfl

/-- Settles O23: the turn of a message changes the table of contexts before the message ends. -/
theorem attnTurnsChangeContexts : Obligations.AttnTurnsChangeContexts := by
  unfold Obligations.AttnTurnsChangeContexts
  refine ⟨?opens, ?truncates, ?closes⟩
  case opens =>
    intro w core s x b hbody hgood hhome hmir
    rw [hbody] at hgood
    simp only [State.runAttn, hbody, hgood, hhome, State.endAttn_attn, State.touchCtx_attn, NMap.find_put]
  case truncates =>
    intro w s x b c hbody hgood hseq hmir
    rw [hbody] at hgood
    simp only [State.runAttn, hbody, hgood, if_true, State.endAttn_attn, State.modSeq, State.touchCtx_attn, NMap.find_upd_same,
      hseq, Option.map_some]
  case closes =>
    intro w s x b hbody hgood hwf hmir
    rw [hbody] at hgood
    simp only [State.runAttn, hbody, hgood, OfNat.zero_ne_ofNat, Nat.zero_ne_one, if_false, State.endAttn_attn, State.dropCtx_attn]
    exact NMap.find_del hwf _

end Sys2Proof
end

section
/-! PROOFS. The wedged hub and the bedrock controller (R31, R36 to R38). -/

namespace Sys2Proof.Machine

variable {s t u : State} {c : Cmd} {q : Req} {act : State → Nat → State × Option Ans}

/-! ## A bedrock request that passes its checks -/

/-- The state in which a bedrock command acts. -/
def State.actingBr (s : State) (c : Cmd) (q : Req) : State :=
  { s.atBr q with mbx := { (s.atBr q).mbx with
      nextReply := (s.atBr q).mbx.nextReply + 1
      outst := (s.atBr q).mbx.outst.put (s.atBr q).mbx.nextReply
        { box := boxOf c.code q, req := q, code := c.code, accepted := (s.atBr q).now, progress := .running } } }

/-- The number under which it is outstanding. -/
def State.replyBr (s : State) (q : Req) : Nat := (s.atBr q).mbx.nextReply

theorem State.actingBr_within (s : State) (c : Cmd) (q : Req) : Within [.mbx, .link] s (s.actingBr c q) := by
  have h : Within [.mbx, .link] s (s.atBr q) := by
    unfold State.atBr
    split <;> simp
  simp [State.actingBr, h]

theorem State.actingBr_outst (s : State) (c : Cmd) (q : Req) :
    ∃ o, (s.actingBr c q).mbx.outst.find (s.replyBr q) = some o ∧ o.req = q ∧ o.code = c.code ∧ o.progress = .running :=
  ⟨_, NMap.find_put .., rfl, rfl, rfl⟩

/-- Past the checks the command acts and its answer follows. -/
theorem serveBr_of_passesBr (h : s.passesBr c q = true) :
    s.serveBr c q act = match (act (s.actingBr c q) (s.replyBr q)).2 with
      | some a => (act (s.actingBr c q) (s.replyBr q)).1.answer (s.replyBr q) a
      | none => (act (s.actingBr c q) (s.replyBr q)).1 := by
  unfold State.passesBr at h
  simp only [Bool.and_eq_true] at h
  obtain ⟨h, -⟩ := h
  cases hv : q.via with
  | link =>
    simp only [hv, Bool.and_eq_true, Option.isNone_iff_eq_none] at h
    obtain ⟨⟨⟨hcarries, hbound⟩, hport⟩, hbr⟩ := h
    have hat : s.atBr q = s.freeReq q := if_pos hv
    simp only [State.serveBr, hv, hcarries, hbound, hport, State.reachBr, hbr, State.actingBr, State.replyBr, hat]
    rfl
  | i3c =>
    simp only [hv, Bool.and_eq_true, Option.isNone_iff_eq_none] at h
    have hat : s.atBr q = s := if_neg (by simp [hv])
    simp only [State.serveBr, hv, h.1, State.reachBr, h.2, State.actingBr, State.replyBr, hat]
    rfl
  | tap => simp [hv] at h

theorem not_tripped_of_passesBr (h : s.passesBr c q = true) : s.pkg.tripped = false := by
  simp only [State.passesBr, Bool.and_eq_true, Bool.not_eq_true'] at h
  exact h.2

variable {i : Instr} {P : State → Prop}

/-- Behind the effect of a bedrock command only its answer's path changes. -/
theorem completesBr_of_effect {a : Ans} (hexec : exec i s = .next (s.serveBr c q act)) (hpass : s.passesBr c q = true)
    (hact : act (s.actingBr c q) (s.replyBr q) = (u, some a)) (harea : a.area = 0)
    (h : ∀ t, Within [.mbx, .link, .pair, .pkg] u t → P t) : Completes i s P := by
  rw [serveBr_of_passesBr hpass, hact] at hexec
  exact ⟨_, hexec, h _ (State.answer_inline_within _ _ harea (by simp))⟩

/-- A bedrock command whose effect leaves the mailbox and the pins is answered. -/
theorem completesBr_answering {a : Ans} {Z : List Spot} (hexec : exec i s = .next (s.serveBr c q act)) (hpass : s.passesBr c q = true)
    (hact : act (s.actingBr c q) (s.replyBr q) = (u, some a)) (harea : a.area = 0)
    (hkept : Within Z (s.actingBr c q) u) (hmbx : Spot.mbx ∉ Z) (hpkg : Spot.pkg ∉ Z)
    (h : ∀ t, Within [.mbx, .link, .pair, .pkg] u t → t.answers q c.code a → P t) : Completes i s P := by
  obtain ⟨o, ho, hreq, hcode, -⟩ := s.actingBr_outst c q
  have htrip : u.pkg.tripped = false := by
    rw [show u.pkg = _ from hkept.1 .pkg hpkg, show (s.actingBr c q).pkg = _ from (s.actingBr_within c q).1 .pkg (by simp),
      not_tripped_of_passesBr hpass]
  rw [serveBr_of_passesBr hpass, hact] at hexec
  refine ⟨_, hexec, h _ (State.answer_inline_within _ _ harea (by simp)) ?_⟩
  have hans := State.answers_of_answer a (show u.mbx.outst.find (s.replyBr q) = some o by
    rw [show u.mbx = _ from hkept.1 .mbx hmbx, ho]) htrip
  rwa [hreq, hcode] at hans

theorem State.actingBr_hub (s : State) (c : Cmd) (q : Req) : (s.actingBr c q).hub = s.hub :=
  (s.actingBr_within c q).1 .hub (by simp)

/-! ## The hub stops and runs again -/

/-- An activation that is dropped is answered in place. -/
theorem State.dropActivation_inline (s : State) (detail : Nat) : Within [.hub, .mbx, .link, .pair, .pkg] s (s.dropActivation detail) := by
  unfold State.dropActivation
  split
  · next a _ =>
    dsimp only
    unfold State.answerOpt
    split
    · simp
    · exact .trans (by simp) (State.answer_inline_within _ _ rfl (by simp))
  · exact .refl _ _

theorem State.answerOpt_hub (s : State) (r : Option Nat) (a : Ans) : (s.answerOpt r a).hub = s.hub := by
  have hw : Within [.mbx, .cells, .mem, .part, .link, .cal, .pair, .pkg] s (s.answerOpt r a) := by simp
  exact hw.1 .hub (by simp)

theorem State.dropActivation_phase (s : State) (detail : Nat) :
    (s.dropActivation detail).hub.phase = s.hub.phase ∧ (s.dropActivation detail).hub.ready = s.hub.ready ∧
      (s.dropActivation detail).hub.wedges = s.hub.wedges := by
  unfold State.dropActivation
  split
  · dsimp only
    rw [State.answerOpt_hub]
    exact ⟨rfl, rfl, rfl⟩
  · exact ⟨rfl, rfl, rfl⟩

/-- A hub that stops is not ready. -/
theorem State.stopHub_phase (s : State) (p : Phase) :
    (s.stopHub p).hub.phase = p ∧ (s.stopHub p).hub.ready = false ∧ (s.stopHub p).hub.wedges = s.hub.wedges :=
  State.dropActivation_phase (State.setPhase { s with hub := { s.hub with ready := false, stoppedAt := some (s.hub.stoppedAt.getD s.now) } } p) 3

theorem State.stopHub_inline (s : State) (p : Phase) : Within [.hub, .mbx, .link, .pair, .pkg] s (s.stopHub p) :=
  .trans (by simp) (State.dropActivation_inline _ _)

theorem State.respond_waiting (s : State) (q : Req) (r : MbxRsp) : (s.respond q r).mbx.waiting = s.mbx.waiting := by
  unfold State.respond
  split
  · unfold State.sendHeld
    split
    · next p _ =>
      have hw : Within [.link] s (s.enqueue p 5 61 r.deckle (.mbxRsp q.ep r)) := by simp
      rw [show _ = s.mbx from hw.1 .mbx (by simp)]
    · rfl
  · rfl
  · rfl

theorem State.answerNow_waiting (s : State) (q : Req) (code acc : Nat) (a : Ans) (dup : Bool) :
    (s.answerNow q code acc a dup).mbx.waiting = s.mbx.waiting := by
  have hw : Within [.cells, .mem, .part, .link, .cal, .pair] s (s.fillArea q a).1 := by simp
  unfold State.answerNow
  dsimp only
  rw [State.respond_waiting, show (s.fillArea q a).1.mbx = s.mbx from hw.1 .mbx (by simp)]

/-- No request waits after the waiting ones are aborted. -/
theorem State.abortWaiting_none (s : State) : s.abortWaiting.mbx.waiting = [] := by
  unfold State.abortWaiting
  have hfold : ∀ (l : List WaitReq) (v : State), (l.foldl (fun a w => a.answerNow w.req w.code w.at_ (Ans.of .aborted)) v).mbx.waiting
      = v.mbx.waiting := by
    intro l
    induction l with
    | nil => exact fun _ => rfl
    | cons w l ih => exact fun v => (ih _).trans (State.answerNow_waiting _ _ _ _ _ _)
  exact hfold _ _

theorem State.pumpRings_ringsOnly (s : State) : RingsOnly s s.pumpRings :=
  ringsOnly_foldl _ _ (fun a d => a.pumpRing_ringsOnly d) s

/-! ## Keys are destroyed -/

theorem State.destroyKeys_sec (s : State) : s.destroyKeys.sec = { s.sec with keys := [], pairKey := false, ready := false } := by
  have hw : ∀ (l : List Nat) (v : State), Within [.hub, .mbx, .part, .link, .pair] v (l.foldl (fun a p => a.portDown p 3) v) :=
    fun l v => within_foldl _ _ (fun a p => by simp) (.refl _ _)
  exact (hw _ _).1 .sec (by simp)

/-- What a zeroisation leaves of the hub and of the key store. -/
theorem State.zeroise_leaves (s : State) :
    s.zeroise.hub.phase = .zeroised ∧ s.zeroise.sec.keys = [] ∧ s.zeroise.sec.ready = false ∧ s.zeroise.board = s.board := by
  unfold State.zeroise
  extract_lets s1 s2 s3
  have hs3 : s3.hub.phase = .zeroised ∧ s3.sec = s2.sec ∧ s3.board = s2.board := by
    unfold s3
    split
    · next v _ =>
      have hw : Within [.mbx, .cells, .mem, .part, .link, .cal, .pair, .pkg] (s2.reopenWindow .aborted)
          ((s2.reopenWindow .aborted).answer v.reply (Ans.of .aborted)) := by simp
      exact ⟨by rw [show _ = _ from hw.1 .hub (by simp)]; rfl, hw.1 .sec (by simp), hw.1 .board (by simp)⟩
    · exact ⟨rfl, rfl, rfl⟩
  obtain ⟨hphase, hsec, hboard⟩ := hs3
  have hdrop := State.dropActivation_inline s3 0
  have hend : Within [.mbx, .cells, .mem, .part, .link, .cal, .pair, .pkg] (s3.dropActivation 0)
      (s3.dropActivation 0).answerCommitted.abortWaiting := by simp
  have hdestroy : Within [.hub, .mbx, .part, .link, .pair, .sec] s s1 := by simp [s1]
  have hsec' : (s3.dropActivation 0).answerCommitted.abortWaiting.sec = { s.sec with keys := [], pairKey := false, ready := false } := by
    rw [show _ = _ from hend.1 .sec (by simp), show _ = _ from hdrop.1 .sec (by simp), hsec]
    exact s.destroyKeys_sec
  refine ⟨?_, ?_, ?_, ?_⟩
  · exact (congrArg Hub.phase (hend.1 .hub (by simp))).trans ((State.dropActivation_phase s3 0).1.trans hphase)
  · exact congrArg Sec.keys hsec'
  · exact congrArg Sec.ready hsec'
  · exact (hend.1 .board (by simp) : _ = _).trans ((hdrop.1 .board (by simp) : _ = _).trans (hboard.trans (hdestroy.1 .board (by simp))))

/-- What a hub that runs again raises and answers leaves its phase. -/
theorem hubRuns_leaves (s : State) :
    (s.raiseReady.answerCommitted.abortWaiting.pumpRings).hub = s.hub ∧
      (s.raiseReady.answerCommitted.abortWaiting.pumpRings).mbx.waiting = [] := by
  have hw : Within [.mbx, .cells, .mem, .part, .link, .cal, .pair, .pkg] s (s.raiseReady.answerCommitted.abortWaiting.pumpRings) :=
    (State.pumpRings_within _ (by simp)).mpr (State.abortWaiting_within _ (by simp) (State.answerCommitted_within _ (by simp) (by simp)))
  refine ⟨hw.1 .hub (by simp), ?_⟩
  rw [State.pumpRings_ringsOnly]
  exact State.abortWaiting_none _

/-- A bedrock command that is accepted and not answered stands among the outstanding ones. -/
theorem State.accepted_of_find {r : Nat} {o : Outst} {code : Nat} (ho : s.mbx.outst.find r = some o) (hreq : o.req = q)
    (hcode : o.code = code) (hrun : o.progress = .running) : ∃ x, s.accepted q code = some x := by
  have hsome : (s.mbx.outst.find? fun o => o.2.req == q && o.2.code == code && o.2.progress == .running).isSome = true :=
    List.find?_isSome.mpr ⟨_, NMap.find_some_mem ho, by simp [hreq, hcode, hrun]⟩
  obtain ⟨x, hx⟩ := Option.isSome_iff_exists.mp hsome
  exact ⟨_, by rw [State.accepted, hx]; rfl⟩

/-- An answer before a reset leaves the device reset. -/
theorem State.answerReset_leaves (code acc : Nat) (a : Ans) (htrip : s.pkg.tripped = false) :
    (s.answerReset q code acc a).hub.phase = .bootRom ∧ (s.answerReset q code acc a).hub.resetCause = 2 ∧
      (s.answerReset q code acc a).pkg.resetAnswer.isSome = true ∧ (s.answerReset q code acc a).board = s.board ∧
      (s.answerReset q code acc a).mem.cells = [] := by
  unfold State.answerReset
  simp only [htrip, Bool.false_eq_true, if_false]
  exact ⟨rfl, rfl, rfl, rfl, rfl⟩

/-- The effect of BR_RESET HUB on a hub that runs. -/
theorem brResetHubAct_of_running {p : BrP} (r : Nat) (hword : p.word = 0)
    (hphase : s.hub.phase = .running ∨ s.hub.phase = .activating) : brResetHubAct p s r = (s.stopHub .restarting, some okAns) := by
  rw [brResetHubAct, if_neg (not_not_intro hword)]
  rcases hphase with h | h <;> rw [h]

end Sys2Proof.Machine

namespace Sys2Proof

open Machine

/-- Settles O41: what stops the hub, what dumps it and runs it again, and each bedrock command past its checks. -/
theorem wedgeAndBedrockComplete : Obligations.WedgeAndBedrockComplete := by
  unfold Obligations.WedgeAndBedrockComplete
  refine ⟨?wedge, ?dumped, ?restart, ?running, ?status, ?dump, ?dumpRead, ?dumpClear, ?zeroise, ?resetHub, ?resetDevice⟩
  case wedge =>
    intro s hfw
    refine .of_next (by simp only [exec, execHubWedge, hfw, Bool.not_true, Bool.false_eq_true, if_false]; rfl) ?_
    obtain ⟨hphase, hready, hwedges⟩ := s.stopHub_phase .wedged
    have hw := s.stopHub_inline .wedged
    refine ⟨hphase, hready, ?_, rfl, hw.part (by simp) (by simp), ?_⟩
    · exact congrArg (fun n => sat 16 (n + 1)) hwedges
    · exact hw.1 .cells (by simp)
  case dumped =>
    intro s hphase hdump hreset
    have hgo : ¬(s.hub.phase ≠ .wedged ∨ s.hub.dumping.isNone = true) := by
      rintro (h | h)
      · exact h hphase
      · simp [Option.isNone_iff_eq_none.mp h] at hdump
    have hraise : ∀ (v : State) a b c, (v.raiseBr a b c).hub = v.hub := fun v a b c => by
      have hw : Within [.mbx, .link] v (v.raiseBr a b c) := by simp
      exact hw.1 .hub (by simp)
    refine .of_next (by simp only [exec, execWedgeDumpDone, if_neg hgo]; rfl) ?_
    cases hv : s.hub.dumpValid <;> simp [hraise, hreset, hv, hphase, State.writeDump]
  case restart =>
    intro s d hdone hphase hms
    refine .of_next (by simp [exec, execWedgeRestart, hdone, hphase, hms]; rfl) ⟨rfl, ?_⟩
    exact (State.reach_now s (d + s.hub.wedgeMs * 1000000)).symm ▸ Nat.le_max_right _ _
  case running =>
    intro s hphase
    refine .of_next (by simp only [exec, execHubRestartDone, hphase, ne_eq, not_true_eq_false, if_false]; rfl) ?_
    obtain ⟨hhub, hnone⟩ := hubRuns_leaves (State.setPhase { s.thaw (s.now - s.hub.stoppedAt.getD s.now) with
      hub := { (s.thaw (s.now - s.hub.stoppedAt.getD s.now)).hub with ready := true }
      cal := { (s.thaw (s.now - s.hub.stoppedAt.getD s.now)).cal with wedgeFloor := false } } .running)
    rw [hhub]
    exact ⟨rfl, rfl, hnone⟩
  case status =>
    intro q s hpass
    exact completesBr_answering (Z := []) rfl hpass rfl rfl (.refl _ _) (by simp) (by simp) fun t ht hans => ⟨_, hans, rfl⟩
  case dump =>
    intro q p s hpass hword hlt
    refine completesBr_answering (Z := [.free, .hub]) rfl hpass
      (by rw [brDumpAct, if_neg (by omega)]) rfl (by simp) (by simp) (by simp) fun t ht hans => ⟨hans, ?_⟩
    rw [show t.hub = _ from ht.1 .hub (by simp)]
    rfl
  case dumpRead =>
    intro q p s hpass hword hlt
    refine completesBr_answering (Z := []) rfl hpass
      (by rw [brDumpReadAct, if_neg (by omega)]) rfl (.refl _ _) (by simp) (by simp) fun t ht hans => ?_
    rw [State.actingBr_hub] at hans
    constructor
    · intro hv
      rwa [hv] at hans
    · intro hv
      rwa [hv] at hans
  case dumpClear =>
    intro q p s hpass hword hlt
    refine completesBr_answering (Z := [.hub]) rfl hpass
      (by rw [brDumpClearAct, if_neg (by omega)]) rfl (by simp) (by simp) (by simp) fun t ht hans => ⟨hans, ?_⟩
    rw [show t.hub = _ from ht.1 .hub (by simp)]
  case zeroise =>
    intro q p s hpass hword
    refine completesBr_of_effect rfl hpass (by rw [brZeroiseAct, if_neg (not_not_intro hword)]) rfl fun t ht => ?_
    obtain ⟨hphase, hkeys, hready, hboard⟩ := (s.actingBr (brZeroiseCmd p) q).zeroise_leaves
    rw [show t.hub = _ from ht.1 .hub (by simp), show t.sec = _ from ht.1 .sec (by simp), show t.board = _ from ht.1 .board (by simp)]
    exact ⟨hphase, hkeys, hready, hboard.trans ((s.actingBr_within _ _).1 .board (by simp))⟩
  case resetHub =>
    intro q p s hpass hword hphase
    refine completesBr_of_effect rfl hpass (brResetHubAct_of_running _ hword (by rwa [State.actingBr_hub])) rfl fun t ht => ?_
    rw [show t.hub = _ from ht.1 .hub (by simp)]
    exact ⟨(State.stopHub_phase _ _).1, (State.stopHub_phase _ _).2.1⟩
  case resetDevice =>
    intro q p s hpass hword
    have hserve : s.serveBr (brResetDeviceCmd p) q (brResetDeviceAct p) = s.actingBr (brResetDeviceCmd p) q := by
      rw [serveBr_of_passesBr hpass, brResetDeviceAct, if_neg (not_not_intro hword)]
    obtain ⟨o, ho, hreq, hcode, hrun⟩ := s.actingBr_outst (brResetDeviceCmd p) q
    obtain ⟨x, hx⟩ := State.accepted_of_find (code := 0xFF05) ho hreq hcode hrun
    have hw := s.actingBr_within (brResetDeviceCmd p) q
    refine .of_next (by simp only [exec, execBrResetDevice, hserve, hx]; rfl) ?_
    obtain ⟨hphase, hcause, hans, hboard, hcells⟩ := State.answerReset_leaves (s := s.actingBr (brResetDeviceCmd p) q) (q := q) 0xFF05
      x.2.accepted okAns (by rw [show _ = s.pkg from hw.1 .pkg (by simp), not_tripped_of_passesBr hpass])
    exact ⟨hphase, hcause, hans, hboard.trans (hw.1 .board (by simp)), hcells⟩

end Sys2Proof
end

section
/-! PROOFS. Ending the laid table keeps the memory requests; the timers of a pair. -/

namespace Sys2Proof.Machine

/-- What moves neither memory nor the stored lines keeps memory's tables. -/
theorem MemKept.of_within {Z : List Spot} {s t : State} (h : Within Z s t) (hm : Spot.mem ∉ Z) (hc : Spot.cells ∉ Z) : MemKept s t :=
  .of_eq (h.mem hc hm)

theorem MemKept.jobs {s t : State} (h : MemKept s t) : t.mem.jobs = s.mem.jobs := by rw [show t.mem = _ from h]

theorem memKept_foldl {α : Type} (l : List α) (f : State → α → State) (h : ∀ a x, MemKept a (f a x)) (s : State) :
    MemKept s (l.foldl f s) := by
  induction l generalizing s with
  | nil => exact .refl s
  | cons x l ih => exact (h s x).trans (ih _)

theorem State.readTile_memKept (s : State) (refs : List LineRef) (cls : Nat) : MemKept s (s.readTile refs cls).1 := by
  unfold State.readTile
  split
  · exact (s.readLines_approach refs cls).mem
  · exact .refl s

theorem State.formRead_memKept (s : State) (owner payer cls : Nat) (lines : List Nat) :
    MemKept s (s.formRead owner payer cls lines).1 := by
  unfold State.formRead
  split
  · next refs _ =>
    have hread := s.readTile_memKept (refs.map fun r => { r with payer := some payer }) cls
    split
    · exact .refl s
    · split <;> next hx => rw [hx] at hread; exact hread
  · exact .of_within (Z := [.part]) (by split <;> simp) (by simp) (by simp)
  · exact .refl s
  · exact .refl s

theorem State.formNext_memKept (s : State) (d cls : Nat) (b : FormBind) (f : FormProg) (t : Nat) :
    MemKept s (s.formNext d cls b f t).1 := by
  unfold State.formNext
  extract_lets part
  split
  · split
    · exact .refl s
    · exact .of_within (Z := [.form]) (by simp) (by simp) (by simp)
  · have hread := s.formRead_memKept b.owner d cls (formLines b f t)
    split
    · next s1 ls hx =>
      rw [hx] at hread
      exact hread.trans (.of_within (Z := [.free, .part, .cal]) (by simp) (by simp) (by simp))
    · next hx => rw [hx] at hread; exact hread
    · next hx => rw [hx] at hread; exact hread

theorem State.laidTile_memKept (s : State) (t : LaidTable) (i : Nat) (e : LaidEntry) (off : Nat) :
    MemKept s (s.laidTile t i e off).1 := by
  unfold State.laidTile
  split
  · next f b _ =>
    extract_lets j
    have hform := s.formNext_memKept e.deckle 0 b f j
    split <;> next hx => rw [hx] at hform; exact hform
  · extract_lets n ls
    split
    · next refs _ =>
      have hread := s.readTile_memKept refs 0
      split
      · exact .refl s
      · split <;> next hx => rw [hx] at hread; exact hread
    · exact .of_within (Z := [.part]) (by split <;> simp) (by simp) (by simp)
    · exact .refl s

theorem State.nextTile_memKept (s : State) (slot i : Nat) (t : LaidTable) (e : LaidEntry) (left : Nat) :
    MemKept s (s.nextTile slot i t e left) := by
  have htile := s.laidTile_memKept t i e (e.length - left)
  unfold State.nextTile
  split <;> next hx =>
    rw [hx] at htile
    exact htile.trans (.of_within (Z := [.link, .laid]) (by simp) (by simp) (by simp))

theorem State.sendRest_memKept (fuel : Nat) (s : State) (slot i : Nat) : MemKept s (s.sendRest slot i fuel) := by
  induction fuel generalizing s with
  | zero => exact .refl s
  | succ fuel ih =>
    unfold State.sendRest
    split
    · exact .refl s
    · split
      · exact .refl s
      · exact .of_within (Z := [.link, .laid]) (by simp) (by simp) (by simp)
      · exact (s.nextTile_memKept slot i _ _ _).trans (ih _)

theorem State.finishTransfers_memKept (s : State) (slot : Nat) : MemKept s (s.finishTransfers slot) := by
  unfold State.finishTransfers
  split
  · exact .refl s
  · exact memKept_foldl _ _ (fun a i => State.sendRest_memKept 600 a slot i) s

/-- Stopping the laid schedule leaves no table active and keeps the memory requests. -/
theorem State.stopLaid_leaves (s : State) : s.stopLaid.laid.active = none ∧ s.stopLaid.mem.jobs = s.mem.jobs := by
  simp only [State.stopLaid, State.endTable]
  split
  · next hnone => exact ⟨hnone, rfl⟩
  · next i _ => exact ⟨rfl, (State.finishTransfers_memKept _ i).jobs⟩

theorem State.modPair_now (s : State) (f : Pair → Pair) : (s.modPair f).now = s.now := rfl
theorem State.modPair_pair (s : State) (f : Pair → Pair) : (s.modPair f).pair = f s.pair := rfl
theorem State.reach_pair (s : State) (t : Nat) : (s.reach t).pair = s.pair := rfl

theorem State.setGrade_grade (s : State) (g : Nat) : (s.setGrade g).pair.grade = g := by
  unfold State.setGrade
  split
  · next h => exact h.symm
  · have hw : Within [.mbx, .link] (s.modPair fun p => { p with grade := g })
        ((s.modPair fun p => { p with grade := g }).raise 0x0904 .device 0 (pack [(2, s.pair.grade), (2, g), (348, 0)])) := by simp
    rw [show State.pair _ = _ from hw.1 .pair (by simp)]
    rfl

theorem State.tryWitnesses_state (s : State) : s.tryWitnesses.pair.state = s.pair.state := by
  unfold State.tryWitnesses
  split <;> rfl

end Sys2Proof.Machine
namespace Sys2Proof
open Machine

/-- Settles O46: a timer's command that has what it waits for reaches its time and acts. The handover ends the
laid table and drops the requests; the grade, the heartbeat and the report time are set before what is sent, and
sending moves the ports alone. -/
theorem pairTimersComplete : Obligations.PairTimersComplete := by
  unfold Obligations.PairTimersComplete
  refine ⟨?report, ?timeout, ?hub, ?array, ?drain, ?promotion, ?ack, ?copy, ?hb, ?lostActive, ?lostStandby, ?unacked⟩
  case report =>
    intro s hrole
    refine .of_next (by simp only [exec, execHealthReportTick, hrole, ne_eq, not_true_eq_false, if_false]; rfl) ?_
    set s1 := (s.reach (s.pair.reportAt + 100000000)).modPair fun p => { p with reportAt := max s.now (p.reportAt + 100000000) } with hs1
    have hsent : ∀ t, Within [.link] s1 t → s.pair.reportAt + 100000000 ≤ t.now ∧ s.pair.reportAt + 100000000 ≤ t.pair.reportAt := by
      intro t ht
      rw [show t.now = _ from ht.1 .now (by simp), show t.pair = _ from ht.1 .pair (by simp)]
      rw [hs1, State.modPair_now, State.modPair_pair, State.reach_now, State.reach_pair]
      exact ⟨Nat.le_max_right _ _, Nat.le_max_right _ _⟩
    split <;> exact hsent _ (by simp)
  case timeout =>
    intro s hrole
    refine .of_next (by simp only [exec, execHealthReportTimeout, hrole, ne_eq, not_true_eq_false, if_false]; rfl) ⟨State.setGrade_grade _ 3, ?_⟩
    have hw : Within [.mbx, .link, .pair] (s.reach (s.pair.reportAt + 300000000)) ((s.reach (s.pair.reportAt + 300000000)).setGrade 3) := by simp
    rw [show State.now _ = _ from hw.1 .now (by simp), State.reach_now]
    exact Nat.le_max_right _ _
  case hub =>
    intro pass s hrole
    refine .of_next (by simp only [exec, execStandbySelfTest, hrole, ne_eq, not_true_eq_false, if_false]; rfl) ?_
    exact ⟨rfl, rfl⟩
  case array =>
    intro core pass s hrole
    refine .of_next (by simp only [exec, execStandbySelfTest, hrole, ne_eq, not_true_eq_false, if_false]; rfl) ?_
    rfl
  case drain =>
    intro s at_ hhand hnot hrole
    refine .of_next (by simp only [exec, execHandoverDrainEnd, hhand, hnot, hrole, bne_self_eq_false, Bool.or_self, Bool.false_eq_true, if_false]; rfl) ?_
    set s1 := State.abandon (if s.handoverDrained then s else s.reach at_) s.pair.reply with hs1
    have hw : Within [.link] (s1.stopLaid.modPair fun p => { p with handed := true })
        ((s1.stopLaid.modPair fun p => { p with handed := true }).sendCtrl .promote) := by simp
    obtain ⟨hactive, hjobs⟩ := s1.stopLaid_leaves
    rw [show State.pair _ = _ from hw.1 .pair (by simp), show State.laid _ = _ from hw.1 .laid (by simp), hw.mem (by simp) (by simp)]
    exact ⟨rfl, hactive, hjobs⟩
  case promotion =>
    intro s c g hp
    exact .of_next (by simp only [exec, execPromotionComplete, hp]) rfl
  case ack =>
    intro s hrole howed
    exact .of_next (by simp only [exec, execMirAckTimer, hrole, howed, ne_eq, not_true_eq_false, if_false, if_true]) rfl
  case copy =>
    intro s hrole hstate hstop hphase hrate bytes s1
    refine .of_next (by
      simp only [exec, execSyncCopyDone, hrole, hstate, hstop, beq_false_of_ne hphase, beq_false_of_ne hrate, bne_self_eq_false,
        beq_self_eq_true, Bool.true_or, Bool.not_true, Bool.or_self, Bool.false_eq_true, if_false, if_true]; rfl) ?_
    rfl
  case hb =>
    intro s hp
    refine .of_next (by simp only [exec, execMirHbTick, hp, Bool.not_true, Bool.false_and, Bool.false_eq_true, if_false]; rfl) ?_
    set s1 := s.reach (s.pair.hbAt + 250000) with hs1
    have hw : Within [.link] (s1.modPair fun p => { p with hbAt := s1.now }) (s1.modPair fun p => { p with hbAt := s1.now }).sendHb := by simp
    rw [show State.now _ = _ from hw.1 .now (by simp), show State.pair _ = _ from hw.1 .pair (by simp)]
    exact ⟨(s.reach_now _).symm ▸ Nat.le_max_right _ _, rfl⟩
  case lostActive =>
    intro s hp hrole hstate
    exact .of_next (by simp [exec, execHeartbeatLost, hp, hrole, hstate]) rfl
  case lostStandby =>
    intro s hrole hstate
    have hp : s.paired = true := by simp [State.paired, hrole]
    refine .of_next (by simp [exec, execHeartbeatLost, hp, hrole, hstate]; rfl) ?_
    set s1 := s.reach (s.pair.lastHb + 5000000) with hs1
    have hw : Within [.pair] (s1.setPair .linkLost) (s1.setPair .linkLost).tryWitnesses := by simp
    rw [State.tryWitnesses_state, show State.now _ = _ from hw.1 .now (by simp)]
    exact ⟨rfl, (s.reach_now _).symm ▸ Nat.le_max_right _ _⟩
  case unacked =>
    intro s hm hret
    exact .of_next (by simp [exec, execMirrorAckTimeout, hm, hret]) rfl

end Sys2Proof
end

section
/-! PROOFS. Scrubs, injections, error counting, rebuilds, seals and the poison list (R293 to R303). -/

namespace Sys2Proof.Machine

variable {s t u : State}

/-- What every step of a fold keeps, the fold keeps. -/
theorem foldl_same {α γ : Type} (F : State → γ) (l : List α) (f : State → α → State) (h : ∀ a x, F (f a x) = F a) (s : State) :
    F (l.foldl f s) = F s := by
  induction l generalizing s with
  | nil => rfl
  | cons x l ih => exact (ih _).trans (h s x)

theorem foldl_fst_same {α β γ : Type} (F : State → γ) (l : List α) (f : State × β → α → State × β)
    (h : ∀ a x, F (f a x).1 = F a.1) (p : State × β) : F (l.foldl f p).1 = F p.1 := by
  induction l generalizing p with
  | nil => rfl
  | cons x l ih => exact (ih _).trans (h p x)

/-! ## A scrub keeps the other runs -/

theorem MemKept.scrubs (h : MemKept s t) : t.mem.scrubs = s.mem.scrubs := by rw [show t.mem = _ from h]

theorem State.readLineN_memKept (s : State) (r : LineRef) (cls : Nat) : MemKept s (s.readLineN r cls).1 :=
  (s.readLine_approach r cls).mem

theorem State.listPoison_scrubs (s : State) (p : Poison) : (s.listPoison p).mem.scrubs = s.mem.scrubs := by
  unfold State.listPoison
  (repeat' split) <;> rfl

theorem State.rewriteLine_memKept (s : State) (t : Tier) (line : Nat) : MemKept s (s.rewriteLine t line) := by
  unfold State.rewriteLine
  split
  · exact s.storeCell_memKept _ _ _ _
  · exact .refl s

theorem State.scrubOwned_scrubs (s : State) (r : LineRef) (rewrite : Bool) (addr : Nat) (y : Tally) :
    (s.scrubOwned r rewrite addr y).1.mem.scrubs = s.mem.scrubs := by
  have hread := (s.readLineN_memKept r 0).scrubs
  simp only [State.scrubOwned]
  split
  · exact (State.listPoison_scrubs _ _).trans hread
  · split
    · exact (State.rewriteLine_memKept _ _ _).scrubs.trans hread
    · exact hread

theorem State.scrubFree_memKept (s : State) (t : Tier) (line : Nat) (rewrite : Bool) (addr : Nat) (y : Tally) :
    MemKept s (s.scrubFree t line rewrite addr y).1 := by
  unfold State.scrubFree
  extract_lets d s1 y1
  have h1 : MemKept s s1 := .of_within (Z := [.cal]) (by simp [s1]) (by simp) (by simp)
  split
  · exact h1
  · split
    · exact h1
    · split
      · exact h1
      · have h2 := h1.trans (s1.countCe_approach (s1.unitOf t line).1).mem
        dsimp only
        split
        · exact h2.trans (State.rewriteLine_memKept _ _ _)
        · exact h2

theorem State.scrubParity_memKept (s : State) (t : Tier) (line : Nat) (rewrite : Bool) (y : Tally) :
    MemKept s (s.scrubParity t line rewrite y).1 := by
  unfold State.scrubParity
  split
  · exact .refl s
  · next p _ =>
    extract_lets e v
    split
    · exact .refl s
    · split
      · exact .refl s
      · next k _ =>
        have h1 := (s.countCe_approach (unitKey p.group ((s.group p.group).unitAt p.group p.parity p.stripe))).mem
        dsimp only
        split
        · exact h1.trans rfl
        · exact h1

theorem State.scrubPhys_scrubs (s : State) (t : Tier) (p : ScrubP) : (s.scrubPhys t p).1.mem.scrubs = s.mem.scrubs := by
  refine foldl_fst_same (fun x => x.mem.scrubs) _ _ (fun a i => ?_) _
  extract_lets l b
  have hb : b.1.mem.scrubs = a.1.mem.scrubs := by
    unfold b
    split
    · exact State.scrubOwned_scrubs _ _ _ _ _
    · exact (State.scrubFree_memKept _ _ _ _ _ _).scrubs
  split
  · exact (State.scrubParity_memKept _ _ _ _ _).scrubs.trans hb
  · exact hb

theorem State.scrubPva_scrubs (s : State) (p : ScrubP) : (s.scrubPva p).1.mem.scrubs = s.mem.scrubs := by
  unfold State.scrubPva
  extract_lets lines
  refine foldl_fst_same (fun x => x.mem.scrubs) _ _ (fun a page => ?_) _
  extract_lets mine
  split
  · exact foldl_fst_same (fun x => x.mem.scrubs) _ _ (fun b x => State.scrubOwned_scrubs _ _ _ _ _) a
  · rfl

theorem State.scrubbedRange_scrubs (s : State) (t : Tier) (p : ScrubP) : (s.scrubbedRange t p).mem.scrubs = s.mem.scrubs := by
  unfold State.scrubbedRange
  dsimp only
  (repeat' split) <;> rfl

/-! ## A rebuild keeps its group listed -/

/-- The groups listed are the same. -/
def GroupsListed (s t : State) : Prop := ∀ g, (t.mem.groups.find g).isSome = (s.mem.groups.find g).isSome

theorem GroupsListed.refl (s : State) : GroupsListed s s := fun _ => rfl
theorem GroupsListed.of_eq (h : t.mem.groups = s.mem.groups) : GroupsListed s t := fun g => by rw [h]
theorem GroupsListed.trans (h : GroupsListed s t) (k : GroupsListed t u) : GroupsListed s u := fun g => (k g).trans (h g)

theorem groupsListed_foldl {α : Type} (l : List α) (f : State → α → State) (h : ∀ a x, GroupsListed a (f a x)) (s : State) :
    GroupsListed s (l.foldl f s) := by
  induction l generalizing s with
  | nil => exact .refl s
  | cons x l ih => exact (h s x).trans (ih _)

theorem State.modGroup_groupsListed (s : State) (g : Nat) (f : Group → Group) : GroupsListed s (s.modGroup g f) := by
  intro k
  simp only [State.modGroup, NMap.find_upd]
  split <;> simp

theorem State.takeInject_groups (s : State) (k row : Nat) (parity : Bool) : (s.takeInject k row parity).2.mem.groups = s.mem.groups := by
  unfold State.takeInject
  dsimp only
  (repeat' split) <;> rfl

theorem State.logRec_groups (s : State) (r : LogRec) : (s.logRec r).mem.groups = s.mem.groups := by
  unfold State.logRec
  split <;> rfl

theorem State.storeCell_groups (s : State) (t : Tier) (line : Nat) (c : Cell) (full : Bool) :
    (s.storeCell t line c full).mem.groups = s.mem.groups := by
  unfold State.storeCell
  extract_lets put u
  have hput : ∀ a c, (put a c).mem.groups = a.mem.groups := fun a c => rfl
  split
  · exact (hput _ _).trans (s.takeInject_groups _ _ _)
  · next p _ =>
    extract_lets g pe i s1 j pe' rows mem
    have hi : i.2.mem.groups = s.mem.groups := by
      unfold i
      split
      · rfl
      · exact s.takeInject_groups _ _ _
    have hj : j.2.mem.groups = s1.mem.groups := by
      unfold j
      split
      · rfl
      · exact s1.takeInject_groups _ _ _
    exact hj.trans ((hput _ _).trans hi)

theorem State.poisonLine_groupsListed (s : State) (r : LineRef) (cause : Nat) : GroupsListed s (s.poisonLine r cause) := by
  unfold State.poisonLine State.poisonAt
  extract_lets p s1 s2
  have h1 : GroupsListed s s1 := .of_eq (s.storeCell_groups _ _ _ _)
  have h2 : GroupsListed s1 s2 := by
    unfold s2
    split
    · split
      · exact State.modGroup_groupsListed _ _ _
      · exact .refl _
    · exact .refl _
  exact (h1.trans h2).trans (.of_eq (State.logRec_groups _ _))

theorem State.rebuildLine_groupsListed (s : State) (g line : Nat) : GroupsListed s (s.rebuildLine g line) := by
  unfold State.rebuildLine
  extract_lets t
  split
  · next p r _ _ =>
    extract_lets put
    have hput : ∀ a c d, GroupsListed a (put a c d) := fun a c d => .of_eq (a.takeInject_groups _ _ _)
    split
    · exact s.poisonLine_groupsListed _ _
    · split
      · split
        · exact hput _ _ _
        · exact hput _ _ _
        · exact hput _ _ _
        · exact s.poisonLine_groupsListed _ _
      · exact s.poisonLine_groupsListed _ _
      · exact .refl s
  · exact .refl s

theorem State.reparity_groups (s : State) (g : Nat) (test : Place → Bool) : (s.reparity g test).mem.groups = s.mem.groups := by
  unfold State.reparity
  extract_lets t hit rows
  refine foldl_same (fun x => x.mem.groups) _ _ (fun a l => ?_) _
  dsimp only
  split <;> rfl

/-- A listed group reads as it was set. -/
theorem State.group_modGroup_of_listed {g : Nat} (s : State) (f : Group → Group) (h : (s.mem.groups.find g).isSome = true) :
    (s.modGroup g f).group g = f (s.group g) := by
  obtain ⟨x, hx⟩ := Option.isSome_iff_exists.mp h
  simp [State.group, State.modGroup, hx]

/-- A group in a state that no unlisted one is in is listed. -/
theorem State.group_listed {g : Nat} {s : State} (h : s.group g ≠ Group.reset 17) : (s.mem.groups.find g).isSome = true := by
  cases hx : s.mem.groups.find g with
  | some x => rfl
  | none => simp [State.group, hx] at h

/-- The end of a rebuild: its lines are rebuilt, its parity, and then its group is set and the end logged. -/
theorem State.rebuild_ends {g : Nat} (s : State) (lines : List Nat) (test : Place → Bool) (f : Group → Group) (r : LogRec)
    (h : (s.mem.groups.find g).isSome = true) :
    let s2 := (lines.foldl (fun a l => a.rebuildLine g l) s).reparity g test
    let t := (s2.modGroup g f).logRec r
    t.group g = f (s2.group g) ∧ t.rgn = s.rgn ∧ t.part = s.part := by
  intro s2 t
  have hlisted : (s2.mem.groups.find g).isSome = true := by
    rw [State.reparity_groups, groupsListed_foldl _ _ (fun a l => a.rebuildLine_groupsListed g l) s g, h]
  have hw : Within [.cells, .mem] s t := by simp [t, s2, within_foldl]
  refine ⟨?_, hw.1 .rgn (by simp), hw.part (by simp) (by simp)⟩
  rw [← s2.group_modGroup_of_listed f hlisted, State.group, State.logRec_groups]
  rfl

/-! ## The log and the list -/

theorem State.listPoison_log (s : State) (p : Poison) : (s.listPoison p).mem.log = s.mem.log := by
  unfold State.listPoison
  (repeat' split) <;> rfl

/-- Raising the event of a record leaves the records logged. -/
theorem State.raiseLog_log (s : State) (r : LogRec) (lost : Nat) : (s.raiseLog r lost).1.mem.log = s.mem.log := by
  have hraise : ∀ (a : State) code who source params, (a.raise code who source params).mem.log = a.mem.log := fun a _ _ _ _ =>
    congrArg Mem.log (Within.mem (Z := [.mbx, .link]) (s := a) (by simp) (by simp) (by simp))
  unfold State.raiseLog
  split
  · exact hraise _ _ _ _ _
  · exact hraise _ _ _ _ _
  · exact (hraise _ _ _ _ _).trans (s.listPoison_log _)
  · exact hraise _ _ _ _ _
  · exact hraise _ _ _ _ _

theorem length_insertPoison (x : Poison) (l : List Poison) : (insertPoison x l).length = l.length + 1 := by
  induction l with
  | nil => rfl
  | cons y l ih =>
    unfold insertPoison
    split
    · rfl
    · simp [ih]

theorem length_foldr_insertPoison (l : List Poison) : (l.foldr insertPoison []).length = l.length := by
  induction l with
  | nil => rfl
  | cons x l ih => simp [length_insertPoison, ih]

/-- What becomes of memory's settings on the way to a request's effect: nothing. -/
theorem State.acting_memKept (s : State) (c : Cmd) (q : Req) : MemKept s (s.acting c q) := (s.acting_approach c q).mem

end Sys2Proof.Machine

namespace Sys2Proof

open Machine

/-- Settles O38: each command sets its own part of memory; a scrub removes its run, a rebuild ends with its group
listed, and the drained log stays empty while its events are raised. -/
theorem integrityCommandsComplete : Obligations.IntegrityCommandsComplete := by
  unfold Obligations.IntegrityCommandsComplete
  refine ⟨?scrub, ?scrubDone, ?inject, ?cancel, ?config, ?failOut, ?leak, ?lost, ?status, ?rebuilt, ?sealing, ?list, ?drain⟩
  case scrub =>
    intro q p s hpass
    refine completes_of_effect rfl hpass rfl (by simp) fun t ht => ?_
    rw [ht.mem (by simp) (by simp)]
    exact NMap.find_put _ _ _
  case scrubDone =>
    intro n s w hwf hfind hdefer
    refine .of_next (by simp only [exec, execScrubDone, hfind, hdefer, Bool.false_eq_true, if_false]; rfl) ?_
    set s0 := { s with mem := { s.mem with scrubs := s.mem.scrubs.del n } } with hs0
    set y := if w.p.pva then s0.scrubPva w.p else s0.scrubPhys (tierOf w.p.group) w.p with hy
    have hscrub : y.1.mem.scrubs = s0.mem.scrubs := by
      rw [hy]
      split
      · exact s0.scrubPva_scrubs _
      · exact s0.scrubPhys_scrubs _ _
    have hyw : Within [.cells, .mem, .part, .link, .cal, .pair] s y.1 := by
      rw [hy]
      split <;> simp [hs0]
    set z := if w.p.pva then y.1 else y.1.scrubbedRange (tierOf w.p.group) w.p with hz
    have hzs : z.mem.scrubs = y.1.mem.scrubs := by
      rw [hz]
      split
      · rfl
      · exact y.1.scrubbedRange_scrubs _ _
    have hzw : Within [.cells, .mem, .part, .link, .cal, .pair] s z := by
      rw [hz]
      split <;> simp [hyw]
    have hans : Within [.mbx, .link, .pair, .pkg] z (z.answer w.reply y.2.ans) := State.answer_inline_within _ _ rfl (by simp)
    rw [hans.mem (by simp) (by simp), hzs, hscrub, show (z.answer w.reply y.2.ans).rgn = _ from hans.1 .rgn (by simp),
      show (z.answer w.reply y.2.ans).lode = _ from hans.1 .lode (by simp)]
    exact ⟨NMap.find_del hwf n, hzw.1 .rgn (by simp), hzw.1 .lode (by simp)⟩
  case inject =>
    intro q p s hpass
    refine completes_answering (Z := [.mem]) rfl hpass rfl rfl (by simp) (by simp) (by simp) fun t ht hans => ⟨hans, ?_⟩
    rw [ht.mem (by simp) (by simp)]
    exact NMap.find_put _ _ _
  case cancel =>
    intro q p s hpass hwf
    refine completes_answering (Z := [.mem]) rfl hpass rfl rfl (by simp) (by simp) (by simp) fun t ht hans => ⟨hans, ?_⟩
    rw [ht.mem (by simp) (by simp)]
    exact NMap.find_del hwf _
  case config =>
    intro q p s hpass
    refine completes_answering (Z := [.mem]) rfl hpass rfl rfl (by simp) (by simp) (by simp) fun t ht hans => ⟨hans, ?_⟩
    have hm : (s.acting (ceConfigSetCmd p) q).mem = _ := s.acting_memKept (ceConfigSetCmd p) q
    rw [ht.mem (by simp) (by simp), hm]
    exact ⟨rfl, rfl, rfl, rfl, rfl⟩
  case failOut =>
    intro q p s hpass
    refine completes_answering (Z := [.mem]) rfl hpass rfl rfl (by simp) (by simp) (by simp) fun t ht hans => ⟨hans, ?_⟩
    rw [ht.mem (by simp) (by simp)]
  case leak =>
    intro g u s x hx
    refine .of_next rfl ⟨?_, rfl⟩
    dsimp only
    rw [NMap.find_upd_same, hx]
    rfl
  case lost =>
    intro g u s hg hready hu
    exact .of_next (by simp [exec, execStackTrainingLost, hg, hready, hu]) rfl
  case status =>
    intro q s hpass
    exact completes_answering (Z := []) rfl hpass rfl rfl (.refl _ _) (by simp) (by simp) fun t ht hans => ⟨_, hans, rfl, rfl⟩
  case rebuilt =>
    intro g s hreb hstop hphase
    refine .of_next (by simp only [exec, execRebuildDone, hreb, hstop, beq_false_of_ne hphase, Bool.not_true, Bool.or_self,
      Bool.false_eq_true, if_false]; rfl) ?_
    have hlisted : (s.mem.groups.find g).isSome = true := State.group_listed fun h => by simp [h, Group.reset] at hreb
    obtain ⟨hgroup, hrgn, hpart⟩ := s.rebuild_ends _ _ _ _ hlisted
    exact ⟨congrArg Group.rebuilding hgroup, congrArg Group.spareFree hgroup, hrgn, hpart⟩
  case sealing =>
    intro g s hready hsealed hstop
    refine .of_next (by
      simp only [exec, execSealDone, hready, hsealed, hstop, Bool.not_true, Bool.or_self, Bool.false_eq_true, if_false]; rfl) ?_
    have hlisted : ((s.reparity g fun _ => true).mem.groups.find g).isSome = true := by
      rw [State.reparity_groups]
      exact State.group_listed fun h => by simp [h, Group.reset] at hready
    constructor
    · rw [State.group_modGroup_of_listed _ _ hlisted]
    · have hw : ∀ f, Within [.mem] s ((s.reparity g fun _ => true).modGroup g f) := fun f => by simp
      exact (hw _).1 .cells (by simp)
  case list =>
    intro q p s hpass
    refine completes_answering_area (Z := []) rfl hpass rfl (.refl _ _) (by simp) (by simp) fun t ht hans => ⟨_, hans, rfl, rfl, ?_⟩
    exact congrArg (32 * ·) (length_foldr_insertPoison _)
  case drain =>
    intro s hruns hready
    refine .of_next (by
      simp only [exec, execIntegrityLogDrain, hruns, hready, Bool.not_true, Bool.or_self, Bool.false_eq_true, if_false]; rfl) ?_
    set f := fun (a : State × Nat) (r : LogRec) => ((a.1.raiseLog r a.2).1, if (a.1.raiseLog r a.2).2 then 0 else a.2) with hf
    set s0 := { s with mem := { s.mem with log := [] } } with hs0
    have hlog : (s.mem.log.foldl f (s0, s.mem.logLost)).1.mem.log = [] :=
      foldl_fst_same (fun x => x.mem.log) _ f (fun a r => a.1.raiseLog_log r a.2) _
    have hw : Within [.mbx, .mem, .link] s (s.mem.log.foldl f (s0, s.mem.logLost)).1 :=
      within_foldl_fst _ _ _ (fun a r => by simp [hf]) (by simp [hs0])
    exact ⟨hlog, hw.1 .cells (by simp), hw.part (by simp) (by simp)⟩

end Sys2Proof
end

section
/-! PROOFS. Of the links and the pair an answer moves the ports and the mirror stream alone; reports, keys, trust and
debug sessions (R323 to R337). -/

namespace Sys2Proof.Machine

variable {s t u : State}

/-! ## What an answer leaves of the links and the pair -/

/-- Of the pair the mirror stream alone changes. -/
def StreamOnly (s t : State) : Prop :=
  t.pair = { s.pair with mseq := t.pair.mseq, retained := t.pair.retained, ackedAt := t.pair.ackedAt, fetches := t.pair.fetches }

/-- From `s` to `t` messages are posted. -/
structure Posted (s t : State) : Prop where
  link : PortsOnly s t
  pair : StreamOnly s t

theorem PortsOnly.of_eq (h : t.link = s.link) : PortsOnly s t := by rw [PortsOnly, h]
theorem StreamOnly.of_eq (h : t.pair = s.pair) : StreamOnly s t := by rw [StreamOnly, h]
theorem StreamOnly.trans (h : StreamOnly s t) (k : StreamOnly t u) : StreamOnly s u := by
  unfold StreamOnly at h k ⊢
  rw [h] at k
  exact k

theorem Posted.refl (s : State) : Posted s s := ⟨rfl, rfl⟩
theorem Posted.trans (h : Posted s t) (k : Posted t u) : Posted s u := ⟨h.link.trans k.link, h.pair.trans k.pair⟩
theorem Posted.of_approach (h : Approach s t) : Posted s t := ⟨h.link, h.pair⟩
theorem Posted.of_within {Z : List Spot} (h : Within Z s t) (hl : Spot.link ∉ Z) (hp : Spot.pair ∉ Z) : Posted s t :=
  ⟨.of_eq (h.1 .link hl), .of_eq (h.1 .pair hp)⟩
theorem Posted.of_ports {Z : List Spot} (h : PortsOnly s t) (hw : Within Z s t) (hp : Spot.pair ∉ Z) : Posted s t :=
  ⟨h, .of_eq (hw.1 .pair hp)⟩

theorem posted_foldl {α : Type} (l : List α) (f : State → α → State) (h : ∀ a x, Posted a (f a x)) (s : State) :
    Posted s (l.foldl f s) := by
  induction l generalizing s with
  | nil => exact .refl s
  | cons x l ih => exact (h s x).trans (ih _)

theorem State.respond_posted (s : State) (q : Req) (r : MbxRsp) : Posted s (s.respond q r) := by
  unfold State.respond State.sendHeld
  split
  · split
    · next p _ =>
      have hw : Within [.link] s (s.enqueue p 5 61 r.deckle (.mbxRsp q.ep r)) := by simp
      exact .of_ports (s.enqueue_portsOnly _ _ _ _ _ _) hw (by simp)
    · exact .of_within (Z := [.mbx]) (by simp) (by simp) (by simp)
  · exact .of_within (Z := [.mbx]) (by simp) (by simp) (by simp)
  · exact .of_within (Z := [.pkg]) (by simp) (by simp) (by simp)

theorem State.mirrorCommit_posted (old s : State) (ep rtag : Nat) (fw : Bool) (done : List MetaRec) :
    Posted s (State.mirrorCommit old s ep rtag fw done).1 := by
  unfold State.mirrorCommit
  generalize s.mirrors = b
  generalize metaDiff old s = l
  cases b with
  | false => exact .refl s
  | true =>
    cases l with
    | nil => exact .refl s
    | cons m ms => exact posted_foldl _ _ (fun a x => .of_approach (State.pushMeta_approach _ _ _ _ _ _)) s

theorem State.answer_inline_posted (s : State) (r : Nat) {a : Ans} (ha : a.area = 0) : Posted s (s.answer r a) := by
  unfold State.answer
  split
  · exact .refl s
  · next o _ =>
    have h1 : Posted s ((s.withoutOutst r).answerNow o.req o.code o.accepted a) := by
      have hfill : (s.withoutOutst r).fillArea o.req a = (s.withoutOutst r, a) := if_pos ha
      have hout : Posted s (s.withoutOutst r) := .of_within (Z := [.mbx]) (by simp [State.withoutOutst]) (by simp) (by simp)
      rw [State.answerNow, hfill]
      exact hout.trans (State.respond_posted _ _ _)
    extract_lets waits s1
    split
    · exact .of_within (Z := [.mbx]) (by simp) (by simp) (by simp)
    · split
      · exact h1.trans (.of_approach (State.pushMeta_approach _ _ _ _ _ _))
      · exact h1

variable {i self : Instr} {c : Cmd} {q : Req} {checks : State → List Check} {act : State → Nat → State × Option Ans} {P : State → Prop}

/-- The conclusion of a request without a result area posts messages alone. -/
theorem State.conclusion_posted {o : Option Ans} (hact : act (s.acting c q) (s.replyOf c q) = (u, o)) (harea : ∀ a ∈ o, a.area = 0) :
    Posted u (s.conclusion c q act) := by
  unfold State.conclusion State.closed
  rw [hact]
  dsimp -zeta only
  extract_lets o' m s1 mbx s4
  have h4 : Posted u s4 :=
    (State.mirrorCommit_posted (s.acting c q) u q.ep q.tag false _).trans
      (.of_within (Z := [.mbx]) ((within_mbx _ (by simp)).mpr (.refl _ _)) (by simp) (by simp))
  cases o with
  | some a => exact h4.trans (s4.answer_inline_posted _ (harea a rfl))
  | none => exact h4

/-- A request whose answer needs no result area, with what its posting leaves. -/
theorem completes_posting {o : Option Ans} (hexec : exec i s = .next (s.serve self c q checks act))
    (hpass : s.passes c q checks = true) (hact : act (s.acting c q) (s.replyOf c q) = (u, o)) (harea : ∀ a ∈ o, a.area = 0)
    (h : ∀ t, Within [.mbx, .link, .pair, .pkg] u t → Posted u t → P t) : Completes i s P := by
  refine completes_of_passes hexec hpass (h _ ?_ (State.conclusion_posted hact harea))
  have hw := s.conclusion_inline_within c q act (by rw [hact]; exact harea) (List.Subset.refl _)
  rwa [hact] at hw

/-- A request that is answered in place, with what its posting leaves. -/
theorem completes_answering_posting {a : Ans} {Z : List Spot} (hexec : exec i s = .next (s.serve self c q checks act))
    (hpass : s.passes c q checks = true) (hact : act (s.acting c q) (s.replyOf c q) = (u, some a)) (harea : a.area = 0)
    (hkept : Within Z (s.acting c q) u) (hmbx : Spot.mbx ∉ Z) (hpkg : Spot.pkg ∉ Z)
    (h : ∀ t, Within [.mbx, .link, .pair, .pkg] u t → Posted u t → t.answers q c.code a → P t) : Completes i s P := by
  refine completes_of_passes hexec hpass (h _ ?_ (State.conclusion_posted hact (by simp [harea])) ?_)
  · have hw := s.conclusion_inline_within c q act (by simp [hact, harea]) (List.Subset.refl _)
    rwa [hact] at hw
  · exact State.conclusion_answers hpass (by rw [hact]) (by rw [hact]; exact hkept) hmbx hpkg

/-! ## Reports -/

theorem State.report_len_pos (s : State) (a : ReportAsk) : 0 < (s.report a).len := by
  unfold State.report
  extract_lets kernels listed cOff dOff room ds kOff len
  have hlen : len = kOff + up64 (96 * kernels.length) + 128 := rfl
  rw [hlen]
  exact Nat.succ_pos _

/-! ## The sweep of an old key -/

theorem State.sweepLine_tenancy (s : State) (r : LineRef) : Tenancy s (s.sweepLine r).1 := by
  have hread : Tenancy s (s.readLineN r).1 := (s.readLine_approach r 0).tenancy
  unfold State.sweepLine
  generalize s.readLineN r = x at hread
  obtain ⟨s1, o, n⟩ := x
  cases o with
  | data l => exact hread.trans (State.writeWhole_tenancy _ _ _ _ _)
  | recon b => exact hread
  | wait => exact hread
  | fail st =>
    cases st with
    | uncorrectable =>
      dsimp only
      split
      · exact hread.trans (State.storeCell_tenancy _ _ _ _ _)
      · exact hread
    | _ => exact hread

/-- The sweep ends: the deckle has no sweep, and the old key is destroyed. -/
theorem State.sweep_ends {d key : Nat} {k : Deckle} (lines : List LineRef) (n : Nat) (f : State → Nat × State)
    (hf : ∀ a, Within [.free] a (f a).2) (hk : s.part.deckles.find d = some k) :
    let x := lines.foldl (fun (a : State × Nat) r => ((a.1.sweepLine r).1, a.2 + b2n (a.1.sweepLine r).2)) (s, n)
    let u := ((f (x.1.sweepZero d key).1).2.dropKey key).modDeckle d fun d => { d with sweep := none }
    (u.part.deckles.find d).map (·.sweep) = some none ∧ key ∉ u.sec.keys := by
  intro x u
  have hx : Tenancy s x.1 := tenancy_foldl_fst (β := Nat) lines
    (fun a r => ((a.1.sweepLine r).1, a.2 + b2n (a.1.sweepLine r).2)) (fun a r => a.1.sweepLine_tenancy r) (s, n)
  have hz : Tenancy x.1 (f (x.1.sweepZero d key).1).2 :=
    Tenancy.trans (t := (x.1.sweepZero d key).1) (.of_part (by simp [State.sweepZero])) (.of_within (hf _) (by simp))
  obtain ⟨k', hk', -⟩ := (hx.trans hz).deckle hk
  constructor
  · simp [u, State.modDeckle, State.dropKey, hk']
  · simp [u, State.modDeckle, State.dropKey]

/-- Opening a session raises its events. -/
theorem State.openSession_ringsOnly (s : State) (ms : Nat) (jtag : Bool) : RingsOnly s (s.openSession ms jtag) := by
  unfold State.openSession
  extract_lets sec s1
  exact RingsOnly.trans (t := s1) rfl ((s1.raise_ringsOnly _ _ _ _ _).trans
    (ringsOnly_foldl _ _ (fun a d => a.raise_ringsOnly _ _ _ _ _) _))

/-- LINK_REKEY answers with what it leaves. -/
theorem linkRekeyAct_answers (p : KeyP) (u : State) (r : Nat) :
    ∃ a, linkRekeyAct p u r = ((linkRekeyAct p u r).1, some a) ∧ a.status = .ok ∧ a.area = 0 := by
  unfold linkRekeyAct
  extract_lets s1
  exact ⟨_, rfl, rfl, rfl⟩

theorem State.acting_link (s : State) (c : Cmd) (q : Req) : PortsOnly s (s.acting c q) := (s.acting_approach c q).link

theorem State.acting_runningSec (s : State) (c : Cmd) (q : Req) : (s.acting c q).runningSec = s.runningSec := by
  rw [State.runningSec, (s.acting_approach c q).hub]
  rfl

end Sys2Proof.Machine

namespace Sys2Proof

open Machine

/-- Settles O39: each command sets its part of the keys, the trust table, the board or the debug session. -/
theorem securityCommandsComplete : Obligations.SecurityCommandsComplete := by
  unfold Obligations.SecurityCommandsComplete
  refine ⟨?attest, ?rotate, ?sweep, ?rekey, ?add, ?remove, ?policy, ?kernel, ?opened, ?read, ?closed, ?timeout, ?raised⟩
  case attest =>
    intro q p s hpass
    refine completes_answering_area (Z := []) rfl hpass rfl (.refl _ _) (by simp) (by simp) fun t ht hans => ⟨_, hans, rfl, rfl, ?_⟩
    exact State.report_len_pos _ _
  case rotate =>
    intro q p s hpass
    refine completes_of_effect rfl hpass rfl (by rintro a ⟨⟩; rfl) fun t ht => ?_
    rw [ht.part (by simp) (by simp)]
    have hplain := (s.acting_approach (keyRotateDeckleKeyCmd p s) q).deckles p.deckle
    have hsec := s.acting_sec (keyRotateDeckleKeyCmd p s) q
    set u := s.acting (keyRotateDeckleKeyCmd p s) q
    cases hk : s.part.deckles.find p.deckle with
    | none =>
      rw [hk, Option.map_none, Option.map_eq_none_iff] at hplain
      simp [State.modDeckle, State.newKey, hplain]
    | some k =>
      rw [hk] at hplain
      obtain ⟨k', hk', hkk⟩ := Option.map_eq_some_iff.mp hplain
      have hepoch : k'.epoch = k.epoch := (congrArg Deckle.epoch hkk :)
      have hkey : k'.key = k.key := (congrArg Deckle.key hkk :)
      simp [State.modDeckle, State.newKey, State.keyOf, hk', hsec, hepoch, hkey]
  case sweep =>
    intro d s k w hk hw hdefer
    refine .of_next (by simp only [exec, execKeySweepDone, hk, hw, hdefer, Bool.false_eq_true, if_false]; rfl) ?_
    obtain ⟨hsweep, hkeys⟩ := s.sweep_ends (s.oldLines d w.oldKey) w.lines (fun a => a.draw (k.storeGranules * 32768 + 1))
      (key := w.oldKey) (fun a => by simp [State.draw]) hk
    have hpast : ∀ (u : State) code who source params, Within [.mbx, .link, .pair] u ((State.commitFw s u).raise code who source params) :=
      fun u _ _ _ _ => by simp
    rw [(hpast _ _ _ _ _).part (by simp) (by simp), show State.sec _ = _ from (hpast _ _ _ _ _).1 .sec (by simp)]
    exact ⟨hsweep, hkeys⟩
  case rekey =>
    intro q p s hpass
    obtain ⟨a, hact, hok, harea⟩ := linkRekeyAct_answers p (s.acting (linkRekeyCmd p) q) (s.replyOf (linkRekeyCmd p) q)
    have hw : Within [.free, .link] (s.acting (linkRekeyCmd p) q) (linkRekeyAct p (s.acting (linkRekeyCmd p) q) (s.replyOf (linkRekeyCmd p) q)).1 :=
      (linkRekeyAct_within p _ _ (by simp)).mpr (.refl _ _)
    refine completes_answering rfl hpass hact harea hw (by simp) (by simp) fun t ht hans => ⟨a, hans, hok, ?_⟩
    exact (ht.1 .sec (by simp)).trans ((hw.1 .sec (by simp)).trans (s.acting_sec _ _))
  case add =>
    intro q p s hpass
    refine completes_posting rfl hpass rfl (by rintro a ⟨⟩; rfl) fun t ht hposted => ?_
    rw [show t.link = _ from hposted.link]
    exact NMap.find_put _ _ _
  case remove =>
    intro q p s hwf hpass
    refine completes_posting rfl hpass rfl (by rintro a ⟨⟩; rfl) fun t ht hposted => ?_
    rw [show t.link = _ from hposted.link, show (s.acting (trustRemoveCmd p) q).link = _ from s.acting_link (trustRemoveCmd p) q]
    exact NMap.find_del hwf _
  case policy =>
    intro q p s hpass
    refine completes_posting rfl hpass rfl (by rintro a ⟨⟩; rfl) fun t ht hposted => ?_
    rw [show t.link = _ from hposted.link, show (s.acting (trustPolicyCmd p) q).link = _ from s.acting_link (trustPolicyCmd p) q]
    exact ⟨rfl, rfl⟩
  case kernel =>
    intro q p s hpass
    refine completes_of_effect rfl hpass rfl (by rintro a ⟨⟩; rfl) fun t ht => ?_
    rw [show t.sec = _ from ht.1 .sec (by simp), ← s.acting_sec (operatorKernelKeyCmd p) q]
  case opened =>
    intro q p s hpass
    refine completes_answering_past rfl hpass rfl rfl (State.openSession_ringsOnly _ _ _).outst ?_ fun t ht hans => ?_
    · have hw : Within [.mbx, .link, .sec] (s.acting (debugOpenCmd p) q)
        ((s.acting (debugOpenCmd p) q).openSession ((debugMs p.timeoutMs).getD 0) false) := by simp
      rw [show State.pkg _ = _ from hw.1 .pkg (by simp)]
    · rw [show t.sec = _ from ht.1 .sec (by simp), State.openSession_sec, s.acting_sec]
      exact ⟨hans, rfl, Bool.or_false _, rfl⟩
  case read =>
    intro q p v s s1 hpass hbytes
    have hw : Within [.cells, .mem, .part, .link, .cal, .pair] (s.acting (debugReadCmd p) q) s1 :=
      .of_fst hbytes (by simp)
    have hact : debugReadAct p (s.acting (debugReadCmd p) q) (s.replyOf (debugReadCmd p) q) =
        (if p.space < 3 then { s1 with free := s1.free + 1 } else s1,
          some { status := .ok, area := p.len, entry := 64, content := v }) := by
      simp only [debugReadAct, hbytes]
    have hkept : Within [.free, .cells, .mem, .part, .link, .cal, .pair] (s.acting (debugReadCmd p) q)
        (if p.space < 3 then { s1 with free := s1.free + 1 } else s1) := by
      have h1 := hw.mono (Z := [.free, .cells, .mem, .part, .link, .cal, .pair]) (by simp)
      split <;> simp [h1]
    refine completes_answering_area rfl hpass hact hkept (by simp) (by simp) fun t ht hans => ⟨hans, ?_⟩
    exact (ht.1 .sec (by simp)).trans ((hkept.1 .sec (by simp)).trans (s.acting_sec _ _))
  case closed =>
    intro q s hpass
    refine completes_answering (Z := [.sec]) rfl hpass rfl rfl (by simp [State.closeSession]) (by simp) (by simp) fun t ht hans => ⟨hans, ?_⟩
    rw [show t.sec = _ from ht.1 .sec (by simp), ← s.acting_sec debugCloseCmd q]
    rfl
  case timeout =>
    intro s x hx
    refine .of_next (by simp only [exec, execDebugSessionTimeout, hx]; rfl) ⟨rfl, ?_⟩
    exact (s.reach_now x.deadline).symm ▸ Nat.le_max_right _ _
  case raised =>
    intro q p s hpass
    refine completes_of_effect rfl hpass rfl (by rintro a ⟨⟩; rfl) fun t ht => ?_
    have hchk := State.check_of_passes hpass (List.mem_cons_of_mem _ List.mem_cons_self)
    have hentry := s.acting_of_entry (raiseSecCmd p) q
    simp only [Bool.and_eq_true, decide_eq_true_eq] at hchk
    rw [show (s.entry (raiseSecCmd p) q).board = s.board from ((hentry.1 .board (by simp)).symm.trans (s.acting_board _ _)),
      show (s.entry (raiseSecCmd p) q).runningSec = s.runningSec by
        rw [← s.acting_runningSec (raiseSecCmd p) q, State.runningSec, State.runningSec, show (s.acting _ _).hub = _ from hentry.1 .hub (by simp)]]
      at hchk
    refine ⟨hchk.2, ?_, (ht.1 .sec (by simp)).trans (s.acting_sec _ _), (ht.1 .rgn (by simp)).trans (s.acting_rgn _ _)⟩
    rw [show t.board = _ from ht.1 .board (by simp), ← s.acting_board (raiseSecCmd p) q, ← s.acting_runningSec (raiseSecCmd p) q]

end Sys2Proof
end

section
/-! PROOFS. The profile, the driver and the images of the firmware (R19 to R34, R356). -/

namespace Sys2Proof.Machine

variable {s t u : State}

/-! ## Keying the ports leaves the requests under way and the profile -/

/-- What is outstanding, the trip, the profile and the wedge time are the same. -/
structure Unbroken (s t : State) : Prop where
  outst : t.mbx.outst = s.mbx.outst
  tripped : t.pkg.tripped = s.pkg.tripped
  bulk : t.part.bulk = s.part.bulk
  wedge : t.hub.wedgeMs = s.hub.wedgeMs

theorem Unbroken.refl (s : State) : Unbroken s s := ⟨rfl, rfl, rfl, rfl⟩
theorem Unbroken.trans (h : Unbroken s t) (k : Unbroken t u) : Unbroken s u :=
  ⟨k.outst.trans h.outst, k.tripped.trans h.tripped, k.bulk.trans h.bulk, k.wedge.trans h.wedge⟩

/-- What changes neither the hub, the pins nor the partition, and of the mailbox the rings alone. -/
theorem Unbroken.of_rings {Z : List Spot} (h : RingsOnly s t) (hw : Within Z s t)
    (hZ : Spot.hub ∉ Z ∧ Spot.pkg ∉ Z ∧ Spot.grans ∉ Z ∧ Spot.part ∉ Z) : Unbroken s t := by
  obtain ⟨hhub, hpkg, hgrans, hpart⟩ := hZ
  exact ⟨h.outst, by rw [show t.pkg = _ from hw.1 .pkg hpkg], by rw [hw.part hgrans hpart], by rw [show t.hub = _ from hw.1 .hub hhub]⟩

theorem Unbroken.of_within {Z : List Spot} (hw : Within Z s t) (hmbx : Spot.mbx ∉ Z)
    (hZ : Spot.hub ∉ Z ∧ Spot.pkg ∉ Z ∧ Spot.grans ∉ Z ∧ Spot.part ∉ Z) : Unbroken s t := .of_rings (.of_within hw hmbx) hw hZ

theorem unbroken_foldl {α : Type} (l : List α) (f : State → α → State) (h : ∀ a x, Unbroken a (f a x)) (s : State) :
    Unbroken s (l.foldl f s) := by
  induction l generalizing s with
  | nil => exact .refl s
  | cons x l ih => exact (h s x).trans (ih _)

theorem State.raise_unbroken (s : State) (code : Nat) (who : Recv) (source params about : Nat) :
    Unbroken s (s.raise code who source params about) :=
  .of_rings (Z := [.mbx, .link]) (s.raise_ringsOnly _ _ _ _ _) (by simp) (by simp)

theorem State.freeIfIdle_unbroken (s : State) (ep : Nat) : Unbroken s (s.freeIfIdle ep) := by
  unfold State.freeIfIdle State.freeEp State.discardHeld
  split
  · split <;> exact ⟨rfl, rfl, rfl, rfl⟩
  · exact .refl s

theorem State.portDown_unbroken (s : State) (p cause : Nat) : Unbroken s (s.portDown p cause) := by
  unfold State.portDown
  extract_lets x evs s1 rings mbx s2 s3 s4
  have h2 : Unbroken s s2 := ⟨rfl, rfl, rfl, rfl⟩
  have h3 : Unbroken s2 s3 := .of_within (Z := [.link, .pair]) (by simp [s3]) (by simp) (by simp)
  have h4 : Unbroken s3 s4 := s3.raise_unbroken _ _ _ _ _
  exact ((h2.trans h3).trans h4).trans (unbroken_foldl _ _ (fun a e => a.freeIfIdle_unbroken e) s4)

theorem State.announce_unbroken (s : State) (fn index : Nat) (lost : Option Nat) (filled : Bool) (peer : Option Nat) :
    Unbroken s (s.announce fn index lost filled peer) := by
  simp only [State.announce]
  split
  · exact s.raise_unbroken _ _ _ _ _
  · exact ⟨rfl, rfl, rfl, rfl⟩

theorem State.deliverHeld_unbroken (s : State) (ep : Nat) : Unbroken s (s.deliverHeld ep) := by
  unfold State.deliverHeld
  split
  · exact .refl s
  · next p _ =>
    extract_lets mine todo mbx s1 s2
    have h1 : Unbroken s s1 := ⟨rfl, rfl, rfl, rfl⟩
    have h2 : Unbroken s1 s2 :=
      unbroken_foldl _ _ (fun a m => .of_within (Z := [.link]) (by simp) (by simp) (by simp)) s1
    exact (h1.trans h2).trans (unbroken_foldl _ _ (fun a d =>
      .of_rings (Z := [.mbx, .link]) (a.pumpRing_ringsOnly d) (by simp) (by simp)) s2)

theorem State.wakePort_unbroken (s : State) (p : Nat) : Unbroken s (s.wakePort p) :=
  unbroken_foldl _ _ (fun a e => a.deliverHeld_unbroken e) s

theorem State.modPort_unbroken (s : State) (p : Nat) (f : Port → Port) : Unbroken s (s.modPort p f) :=
  .of_within (Z := [.link]) (by simp) (by simp) (by simp)

theorem State.setPort_unbroken (s : State) (p : Nat) (x : Port) : Unbroken s (s.setPort p x) :=
  .of_within (Z := [.link]) (by simp) (by simp) (by simp)

theorem State.becomeActive_unbroken (s : State) (p : Nat) : Unbroken s (s.becomeActive p) := by
  unfold State.becomeActive
  extract_lets x s1 s2 n first s1'
  split
  · have h1 : Unbroken s s1 := s.setPort_unbroken _ _
    have h2 : Unbroken s1 s2 := by
      unfold s2
      split
      · exact .of_within (Z := [.link]) (by simp) (by simp) (by simp)
      · exact s1.announce_unbroken _ _ _ _ _
    exact (h1.trans h2).trans (s2.wakePort_unbroken p)
  · exact (s.setPort_unbroken _ _).trans (s1'.raise_unbroken _ _ _ _ _)

theorem State.sendKeyx_unbroken (s : State) (p epoch : Nat) : Unbroken s (s.sendKeyx p epoch) :=
  .of_within (Z := [.free, .link]) (by simp) (by simp) (by simp)

theorem State.takeKeyx_unbroken (s : State) (p : Nat) (m : KeyxMsg) : Unbroken s (s.takeKeyx p m) := by
  unfold State.takeKeyx
  extract_lets x partner t lead s1 s2
  split
  · exact s.portDown_unbroken _ _
  · have h1 : Unbroken s s1 := by
      unfold s1
      split
      · exact .refl s
      · exact s.sendKeyx_unbroken _ _
    have h2 : Unbroken s s2 := h1.trans (s1.modPort_unbroken _ _)
    split
    · exact h2.trans (s2.becomeActive_unbroken p)
    · exact h2

theorem State.keyPort_unbroken (s : State) (p : Nat) : Unbroken s (s.keyPort p) := by
  unfold State.keyPort
  dsimp only
  split
  · exact .refl s
  · split
    · split
      · exact s.takeKeyx_unbroken _ _
      · split
        · split
          · exact s.sendKeyx_unbroken _ _
          · exact .refl s
        · split
          · exact .refl s
          · split
            · exact s.portDown_unbroken _ _
            · split
              · exact .of_within (Z := [.free, .link]) (by simp) (by simp) (by simp)
              · exact .refl s
    · exact .refl s

theorem State.keyPorts_unbroken (s : State) : Unbroken s s.keyPorts := unbroken_foldl _ _ (fun a p => a.keyPort_unbroken p) s

/-- The profile is set, and what is under way stays so. -/
theorem State.setProfile_sets (s : State) (bulk : Bool) :
    (s.setProfile bulk).part.bulk = bulk ∧ (s.setProfile bulk).mbx.outst = s.mbx.outst ∧
      (s.setProfile bulk).pkg.tripped = s.pkg.tripped ∧ (s.setProfile bulk).hub.wedgeMs = s.hub.wedgeMs := by
  unfold State.setProfile
  split
  · next h => exact ⟨h.symm, rfl, rfl, rfl⟩
  · extract_lets part s1 pol cal
    split
    · have h : Unbroken s1 (s1.link.ports.keys.foldl (fun a p => a.grantShared p) s1) :=
        unbroken_foldl _ _ (fun a p => .of_within (Z := [.link]) (by simp) (by simp) (by simp)) s1
      exact ⟨h.bulk, h.outst, h.tripped, h.wedge⟩
    · have h := State.keyPorts_unbroken { s1 with cal := { s1.cal with policers := pol } }
      exact ⟨h.bulk, h.outst, h.tripped, h.wedge⟩

/-! ## The firmware starts -/

/-- What the firmware's start sets. -/
theorem State.startFirmware_leaves (s : State) (i : Image) (fill : Bool) :
    (s.startFirmware i fill).hub.running = some i ∧ (s.startFirmware i fill).hub.phase = .running ∧
      (s.startFirmware i fill).hub.verifying = none ∧ (s.startFirmware i fill).part.deckles.has 0 = true ∧
      (s.startFirmware i fill).board = s.board := by
  have hhas : ∀ (m : NMap Deckle) (d : Deckle), (m.put 0 d).has 0 = true := fun m d => by simp [NMap.has]
  unfold State.startFirmware
  extract_lets k d s1 part mbx hub s2 s3
  have h3 : s3.hub = s2.hub ∧ s3.part.deckles = s2.part.deckles ∧ s3.board = s2.board := by
    unfold s3
    split <;> exact ⟨rfl, rfl, rfl⟩
  obtain ⟨hhub, hdeckles, hboard⟩ := h3
  exact ⟨congrArg Hub.running hhub, rfl, congrArg Hub.verifying hhub, (congrArg (fun m => m.has 0) hdeckles).trans (hhas _ _), hboard⟩

/-! ## The way to the effect -/

theorem State.acting_hub (s : State) (c : Cmd) (q : Req) : (s.acting c q).hub = { s.hub with driverDeadline := (s.acting c q).hub.driverDeadline } :=
  (s.acting_approach c q).hub

theorem State.acting_emergency (s : State) (c : Cmd) (q : Req) : (s.acting c q).cal.emergency = s.cal.emergency := by
  rw [(s.acting_approach c q).cal]

theorem State.reach_hub (s : State) (t : Nat) : (s.reach t).hub = s.hub := rfl
theorem State.setPhase_hub (s : State) (p : Phase) : (s.setPhase p).hub = { s.hub with phase := p } := rfl

/-- An answer to an activation and its event leave the hub and the partition. -/
theorem State.answerOpt_raise_leaves (u : State) (r : Option Nat) (st : Status) (d : Nat) :
    ((u.answerOpt r (Ans.of st d)).raise 0x0B01 .device).hub = u.hub ∧ ((u.answerOpt r (Ans.of st d)).raise 0x0B01 .device).part = u.part := by
  have hans : Within [.mbx, .link, .pair, .pkg] u (u.answerOpt r (Ans.of st d)) := by
    unfold State.answerOpt
    split
    · exact .refl _ _
    · exact State.answer_inline_within _ _ rfl (by simp)
  have hw : Within [.mbx, .link, .pair, .pkg] u ((u.answerOpt r (Ans.of st d)).raise 0x0B01 .device) := by simp [hans]
  exact ⟨hw.1 .hub (by simp), hw.part (by simp) (by simp)⟩

/-- An activation that is dropped leaves no image staged. -/
theorem State.dropActivation_hub {a : Activation} (detail : Nat) (h : s.hub.activation = some a) :
    (s.dropActivation detail).hub = { s.hub with activation := none, staged := none, lastStatus := .aborted } := by
  rw [State.dropActivation, h]
  exact State.answerOpt_hub _ _ _

/-- An activation that passes its checks stops the firmware for the image staged. -/
theorem State.liveActivate_of_staged {p : FwP} {i : Image} (r : Nat) (hpva : p.imagePva = 0) (hlen : p.imageLen = 0) (hfill : p.fillAtStart = false)
    (hcancel : p.cancel = false) (hstaged : s.hub.staged = some i) (hem : s.cal.emergency = none) :
    s.liveActivate p r = (s.startActivation (some r), none) := by
  simp [State.liveActivate, hpva, hlen, hfill, hcancel, hstaged, hem]

theorem State.startActivation_of_staged {i : Image} (reply : Option Nat) (hstaged : s.hub.staged = some i) :
    (s.startActivation reply).hub.phase = .activating ∧ (s.startActivation reply).hub.activation.map (·.image) = some i ∧
      (s.startActivation reply).sec.session = none := by
  unfold State.startActivation
  rw [hstaged]
  exact ⟨rfl, rfl, rfl⟩

/-! ## The driver -/

theorem State.loseDriver_ringsOnly (s : State) : RingsOnly s s.loseDriver := State.raise_ringsOnly _ _ _ _ _ _

theorem State.loseDriver_hub (s : State) : s.loseDriver.hub = { s.hub with driver := none, unattended := true } := by
  have hw : ∀ v : State, Within [.mbx, .link] v (v.raise 0x0002 .device) := fun v => by simp
  exact (hw _).1 .hub (by simp)

theorem State.loseDriver_inline (s : State) : Within [.hub, .mbx, .link] s s.loseDriver := by simp [State.loseDriver]

theorem State.adoptLease_member (s : State) (ep : Nat) : (s.adoptLease ep).member 0 ep = true := by
  unfold State.adoptLease
  split
  · assumption
  · rw [State.member, setLease_lease]
    rfl

/-- An adoption makes the sender the driver and a member. -/
theorem driverAttachAdoptAct_adopts (q : Req) (p : AttachP) (s : State) (r : Nat) :
    (driverAttachAdoptAct q p s r).1.hub.driver = some q.ep ∧ (driverAttachAdoptAct q p s r).1.hub.unattended = false ∧
      (driverAttachAdoptAct q p s r).1.member 0 q.ep = true := by
  unfold driverAttachAdoptAct State.setEvEp
  extract_lets a s1 hub s2
  have hw : ∀ v : State, Within [.mbx, .link] v ((v.pumpRing 0).raise 0x0003 .device) := fun v => by simp
  refine ⟨?_, ?_, ?_⟩
  · exact congrArg Hub.driver ((hw _).1 .hub (by simp))
  · exact congrArg Hub.unattended ((hw _).1 .hub (by simp))
  · dsimp only
    rw [State.member, State.lease, (hw _).part (by simp) (by simp)]
    exact s.adoptLease_member q.ep

/-- A request without an answer stays outstanding, while it passes. -/
theorem State.conclusion_unanswered_leaves {c : Cmd} {q : Req} {checks : State → List Check} (h : s.passes c q checks = true) :
    ∃ o, (s.conclusion c q fun s _ => (s, none)).mbx.outst.find (s.replyOf c q) = some o ∧ o.req = q ∧ o.code = c.code ∧
      o.progress = .running ∧ (s.conclusion c q fun s _ => (s, none)).pkg.tripped = false ∧
      (s.conclusion c q fun s _ => (s, none)).board = s.board := by
  obtain ⟨o, hopen, hreq, hcode, hrun⟩ : ∃ o, (s.acting c q).mbx.outst.find (s.replyOf c q) = some o ∧ o.req = q ∧ o.code = c.code ∧
      o.progress = .running := ⟨_, State.opened_outst .., rfl, rfl, rfl⟩
  have hw := s.acting_within c q (List.Subset.refl _)
  have htrip : s.pkg.tripped = false := by
    simp only [State.passes, Bool.and_eq_true, Bool.not_eq_true'] at h
    exact h.2
  unfold State.conclusion State.closed
  extract_lets o' m s1 mbx s4
  obtain ⟨-, -, hmbx, -, -, -, hpkg⟩ : OnSent (s.acting c q) m.1 := State.mirrorCommit_sent ..
  have hm : Within [.link, .pair] (s.acting c q) m.1 := (State.mirrorCommit_within _ _ _ _ _ _ (by simp)).mpr (.refl _ _)
  refine ⟨{ o with mseq := m.2 }, by simp [s4, hmbx, hopen], hreq, hcode, hrun, ?_, ?_⟩
  · exact (congrArg Pkg.tripped (hpkg.trans (hw.1 .pkg (by simp)))).trans htrip
  · exact (hm.1 .board (by simp)).trans (hw.1 .board (by simp))

/-- The conclusion of a request leaves the tenants of its effect. -/
theorem State.closed_tenancy (s : State) (c : Cmd) (q : Req) (acc r : Nat) (y : State × Option Ans) : Tenancy y.1 (s.closed c q acc r y) := by
  unfold State.closed
  extract_lets o' m s1 mbx s4
  have h4 : Tenancy y.1 s4 := by
    have hm : Within [.link, .pair] y.1 m.1 := (State.mirrorCommit_within _ _ _ _ _ _ (by simp)).mpr (.refl _ _)
    exact .of_part (t := s4) (congrArg (fun x : Part => { x with granules := y.1.part.granules }) (hm.part (by simp) (by simp)))
  split
  · exact h4.trans (s4.answer_tenancy _ _)
  · exact h4

end Sys2Proof.Machine

namespace Sys2Proof

open Machine

/-- Settles O40: an image that is good starts, stages or activates; the driver's commands move the driver and its lease. -/
theorem hubCommandsComplete : Obligations.HubCommandsComplete := by
  unfold Obligations.HubCommandsComplete
  refine ⟨?boot, ?bootActivate, ?activate, ?cancel, ?stage, ?status, ?switch, ?timeout, ?query, ?profile, ?wedge, ?attest, ?adopt,
    ?reset, ?detach, ?lapse⟩
  case boot =>
    intro s v hv hboot hgood
    refine .of_next (by simp only [exec, execBootImageVerified, hv, hboot, hgood, Bool.not_true, Bool.false_eq_true, if_false]; rfl) ?_
    obtain ⟨hrun, hphase, hnone, hhas, hboard⟩ :=
      (s.answer v.reply (Ans.of .ok (imageOf (s.windowBytes 0 4096)).fwVersion)).startFirmware_leaves (imageOf (s.windowBytes 0 4096)) v.fill
    have hans : Within [.mbx, .link, .pair, .pkg] s (s.answer v.reply (Ans.of .ok (imageOf (s.windowBytes 0 4096)).fwVersion)) :=
      State.answer_inline_within _ _ rfl (by simp)
    exact ⟨hrun, hphase, hnone, hhas, hboard.trans (hans.1 .board (by simp))⟩
  case bootActivate =>
    intro q p s hpass hboot hver hload hcancel hpva hform
    set u := s.acting (fwActivateCmd p s) q with hu
    have hhub := s.acting_hub (fwActivateCmd p s) q
    have hv : u.hub.verifying = none := by rw [hu, hhub]; exact hver
    have hl : u.hub.loader = s.hub.loader := by rw [hu, hhub]
    have hact : fwActivateAct q p u (s.replyOf (fwActivateCmd p s) q) =
        ({ u with hub := { u.hub with verifying := some ⟨s.replyOf (fwActivateCmd p s) q, p.imageLen, p.fillAtStart⟩ } }, none) := by
      have hbusy : ¬(u.hub.verifying.isSome = true ∨ (u.hub.loader.isSome = true ∧ u.hub.loader ≠ some q.ep)) := by
        rw [hv, hl]
        rcases hload with h | h <;> simp [h]
      rw [fwActivateAct, if_pos hboot, State.bootActivate, if_neg hbusy, if_neg (by simp [hcancel]), if_neg (not_not_intro hpva),
        if_neg (by simp [hform])]
    refine completes_of_effect rfl hpass hact (by simp) fun t ht => ?_
    rw [show t.hub = _ from ht.1 .hub (by simp)]
  case activate =>
    intro q p s i hpass hboot hpva hlen hfill hcancel hstaged hem
    have hs : (s.acting (fwActivateCmd p s) q).hub.staged = some i := by rw [s.acting_hub]; exact hstaged
    have hact : fwActivateAct q p (s.acting (fwActivateCmd p s) q) (s.replyOf (fwActivateCmd p s) q) =
        ((s.acting (fwActivateCmd p s) q).startActivation (some (s.replyOf (fwActivateCmd p s) q)), none) := by
      rw [fwActivateAct, if_neg (by simp [hboot]),
        State.liveActivate_of_staged _ hpva hlen hfill hcancel hs ((s.acting_emergency _ _).trans hem)]
    refine completes_of_effect rfl hpass hact (by simp) fun t ht => ?_
    rw [show t.hub = _ from ht.1 .hub (by simp), show t.sec = _ from ht.1 .sec (by simp)]
    obtain ⟨hphase, himage, hsession⟩ := State.startActivation_of_staged (some (s.replyOf (fwActivateCmd p s) q)) hs
    exact ⟨hphase, hsession, himage⟩
  case cancel =>
    intro q p s hpass hboot hpva hlen hfill
    set c := fwActivateCmd { p with cancel := true } s with hc
    have hact : fwActivateAct q { p with cancel := true } (s.acting c q) (s.replyOf c q) =
        ({ s.acting c q with hub := { (s.acting c q).hub with autoPending := false } }, some okAns) := by
      rw [fwActivateAct, if_neg (by simp [hboot]), State.liveActivate, if_neg (by simp [hpva, hlen, hfill]), if_pos rfl]
    have hkept : Within [.hub] (s.acting c q) { s.acting c q with hub := { (s.acting c q).hub with autoPending := false } } := by simp
    refine completes_answering rfl hpass hact rfl hkept (by simp) (by simp) fun t ht hans => ⟨hans, ?_⟩
    rw [show t.hub = _ from ht.1 .hub (by simp)]
    exact ⟨rfl, by dsimp only; rw [s.acting_hub]⟩
  case stage =>
    intro q p s s1 s2 h body hpass hhead hform hbody hgood
    have hact : fwStageAct p (s.acting (fwStageCmd p) q) (s.replyOf (fwStageCmd p) q) =
        ({ s2 with hub := { s2.hub with staged := some (imageOf h), lastStatus := .ok } }, some (Ans.of .ok 0)) := by
      simp only [fwStageAct, State.stage, hhead, hform, hbody, hgood, Bool.not_true, Bool.false_eq_true, if_false]
    refine completes_of_effect rfl hpass hact (by rintro a ⟨⟩; rfl) fun t ht => ?_
    rw [show t.hub = _ from ht.1 .hub (by simp)]
    refine ⟨rfl, rfl, ?_⟩
    have h1 : Approach (s.acting (fwStageCmd p) q) s1 := by
      have h := (s.acting (fwStageCmd p) q).readBytes_approach 0 p.imagePva 4096
      rwa [hhead] at h
    have h2 : Approach s1 s2 := by
      have h := s1.readBytes_approach 0 (p.imagePva + 4096) (p.imageLen - 4096)
      rwa [hbody] at h
    dsimp only
    rw [(((s.acting_approach (fwStageCmd p) q).trans h1).trans h2).hub]
  case status =>
    intro q s hpass
    exact completes_answering (Z := []) rfl hpass rfl rfl (.refl _ _) (by simp) (by simp) fun t ht hans => hans
  case switch =>
    intro s a ha hphase
    refine .of_next (by simp only [exec, execFwSwitchPoint, ha, hphase, ne_eq, not_true_eq_false, if_false]; rfl) ?_
    rw [(State.answerOpt_raise_leaves _ _ _ _).1, (State.answerOpt_raise_leaves _ _ _ _).2]
    exact ⟨rfl, rfl, rfl, rfl, rfl⟩
  case timeout =>
    intro s a ha hphase
    refine .of_next (by simp only [exec, execFwActivateTimeout, ha, hphase, ne_eq, not_true_eq_false, if_false]; rfl) ?_
    have ha' : ((s.reach (a.start + 100000000)).setPhase .running).hub.activation = some a := by
      rw [State.setPhase_hub, State.reach_hub]
      exact ha
    have hdrop := ((s.reach (a.start + 100000000)).setPhase .running).dropActivation_inline 0
    have hpins : Within [.hub, .pkg] (s.reach (a.start + 100000000)) ((s.reach (a.start + 100000000)).setPhase .running) := by simp
    rw [State.dropActivation_hub 0 ha', show State.now _ = _ from hdrop.1 .now (by simp), show State.now _ = _ from hpins.1 .now (by simp),
      State.setPhase_hub, State.reach_hub, State.reach_now]
    exact ⟨rfl, rfl, rfl, rfl, Nat.le_max_right _ _⟩
  case query =>
    intro q s hpass
    exact completes_answering (Z := []) rfl hpass rfl rfl (.refl _ _) (by simp) (by simp) fun t ht hans => hans
  case profile =>
    intro q p s hpass
    set u := s.acting (configureCmd { p with setProfile := true }) q
    set v := if p.setWedge then { u with hub := { u.hub with wedgeMs := p.wedgeMs } } else u with hv
    obtain ⟨hmbx, hpkg⟩ : v.mbx = u.mbx ∧ v.pkg = u.pkg := by
      rw [hv]
      split <;> exact ⟨rfl, rfl⟩
    obtain ⟨hbulk, houtst, htrip, -⟩ := v.setProfile_sets p.bulk
    refine completes_answering_past (u := v.setProfile p.bulk) rfl hpass rfl rfl (by rw [houtst, hmbx]) (by rw [htrip, hpkg])
      fun t ht hans => ⟨hans, ?_⟩
    rw [ht.part (by simp) (by simp), hbulk]
  case wedge =>
    intro q p s hpass
    set u := s.acting (configureCmd { p with setWedge := true }) q
    set v : State := { u with hub := { u.hub with wedgeMs := p.wedgeMs } } with hv
    obtain ⟨houtst, htrip, hwedge⟩ : (if p.setProfile then v.setProfile p.bulk else v).mbx.outst = u.mbx.outst ∧
        (if p.setProfile then v.setProfile p.bulk else v).pkg.tripped = u.pkg.tripped ∧
        (if p.setProfile then v.setProfile p.bulk else v).hub.wedgeMs = p.wedgeMs := by
      split
      · obtain ⟨-, houtst, htrip, hwedge⟩ := v.setProfile_sets p.bulk
        exact ⟨houtst, htrip, hwedge⟩
      · exact ⟨rfl, rfl, rfl⟩
    refine completes_answering_past rfl hpass rfl rfl houtst htrip fun t ht hans => ⟨hans, ?_⟩
    rw [show t.hub = _ from ht.1 .hub (by simp)]
    exact hwedge
  case attest =>
    intro q p s hpass
    refine completes_answering_area (Z := []) rfl hpass rfl (.refl _ _) (by simp) (by simp) fun t ht hans => ⟨hans, ?_⟩
    rw [show t.hub = _ from ht.1 .hub (by simp), s.acting_hub]
  case adopt =>
    intro q p s hpass
    refine completes_of_passes rfl hpass ?_
    set c := driverAttachAdoptCmd p s with hc
    have hw := s.conclusion_within c q (driverAttachAdoptAct q p) (List.Subset.refl _)
    have hten : Tenancy _ (s.conclusion c q (driverAttachAdoptAct q p)) := State.closed_tenancy _ _ _ _ _ _
    obtain ⟨hdriver, hatt, hmember⟩ := driverAttachAdoptAct_adopts q p (s.acting c q) (s.replyOf c q)
    rw [show State.hub _ = _ from hw.1 .hub (by simp), State.member, hten.lease]
    exact ⟨hdriver, hatt, hmember⟩
  case reset =>
    intro q p s hpass
    set c := s.attachCmd p with hc
    have hserve : s.serve (.driverAttachReset q p) c q (driverAttachAttestOnlyChecks q) (fun s _ => (s, none)) =
        s.conclusion c q (fun s _ => (s, none)) := serve_of_passes hpass
    obtain ⟨o, ho, hreq, hcode, hrun, hpkg, hboard⟩ := s.conclusion_unanswered_leaves hpass
    obtain ⟨x, hx⟩ := State.accepted_of_find (code := 0x0003) ho hreq hcode hrun
    refine .of_next (by simp only [exec, execDriverAttachReset, ← hc, hserve, hx]; rfl) ?_
    obtain ⟨hphase, hcause, hans, hkept, hcells⟩ := State.answerReset_leaves (s := s.conclusion c q fun s _ => (s, none)) (q := q) 0x0003
      x.2.accepted ((s.conclusion c q fun s _ => (s, none)).attachAns q p) hpkg
    exact ⟨hphase, hcause, hans, hkept.trans hboard, hcells⟩
  case detach =>
    intro q s hpass
    refine completes_answering_past rfl hpass rfl rfl (State.loseDriver_ringsOnly _).outst ?_ fun t ht hans => ?_
    · rw [show State.pkg _ = _ from (State.loseDriver_inline _).1 .pkg (by simp)]
    · rw [show t.hub = _ from ht.1 .hub (by simp), State.loseDriver_hub]
      exact ⟨hans, rfl, rfl⟩
  case lapse =>
    intro s hdriver hstop
    refine .of_next (by simp only [exec, execDriverLeaseLapse, hdriver, hstop, Bool.not_false, Bool.and_self, if_true]; rfl) ?_
    rw [State.loseDriver_hub, show State.now _ = _ from (State.loseDriver_inline _).1 .now (by simp), State.reach_now]
    exact ⟨rfl, rfl, Nat.le_max_right _ _⟩

end Sys2Proof
end

section
/-! PROOFS. Laid tables: loading, activating, running and the writes that come in (R272 to R288). -/

namespace Sys2Proof.Machine

variable {Z : List Spot} {s t u : State}

/-! ## Loading a table reads memory and stores the table -/

theorem State.entryForm_reads (s : State) (e : LaidEntry) : Within [.cells, .mem, .part, .link, .cal, .pair] s (s.entryForm e).1 := by
  have hread : Within [.cells, .mem, .part, .link, .cal, .pair] s (s.readBytes e.deckle e.srcPva 64).1 := by simp
  unfold State.entryForm
  generalize s.readBytes e.deckle e.srcPva 64 = x at hread
  obtain ⟨s1, st, v⟩ := x
  cases st with
  | ok =>
    dsimp only
    split
    · exact hread
    · split <;> exact hread
  | _ => exact hread

theorem State.bindLaid_reads (s : State) (slot : Nat) (es : List LaidEntry) :
    Within [.cells, .mem, .part, .link, .cal, .pair] s (s.bindLaid slot es).1 := by
  refine within_foldl_fst _ _ _ (fun a x => ?_) (.refl _ _)
  have hform := a.1.entryForm_reads x.1
  split
  · exact .refl _ _
  · split
    · exact .refl _ _
    · dsimp only
      split
      · next hx =>
        rw [hx] at hform
        split <;> exact hform
      · next hx => rw [hx] at hform; exact hform

theorem State.loadLaid_reads (s : State) (p : LaidLoadP) : Within [.cells, .mem, .part, .link, .cal, .laid, .pair] s (s.loadLaid p).1 := by
  have hread : Within [.cells, .mem, .part, .link, .cal, .laid, .pair] s (s.readBytes 0 p.imagePva p.imageLen).1 := by simp
  unfold State.loadLaid
  split
  · exact .refl _ _
  · generalize s.readBytes 0 p.imagePva p.imageLen = x at hread
    obtain ⟨s0, st, img⟩ := x
    cases st with
    | ok =>
      dsimp only
      split
      · exact hread
      · have hbind : ∀ es, Within [.cells, .mem, .part, .link, .cal, .laid, .pair] s (s0.bindLaid p.slot es).1 :=
          fun es => hread.trans ((s0.bindLaid_reads p.slot es).mono (by simp))
        split
        · next hx => exact .of_fst hx (hbind _)
        · next s1 forms hx =>
          have h1 : Within [.cells, .mem, .part, .link, .cal, .laid, .pair] s s1 := .of_fst hx (hbind _)
          split
          · exact h1
          · split
            · exact h1
            · exact (within_laid _ (by simp)).mpr h1
    | _ => exact hread

/-! ## Tables -/

theorem State.modTable_find (s : State) (o i : Nat) (f : LaidTable → LaidTable) :
    (s.modTable o f).laid.tables.find i = if i = o then (s.laid.tables.find i).map f else s.laid.tables.find i := by
  simp only [State.modTable, NMap.find_upd]

theorem State.setReserved_laid (s : State) : s.setReserved.laid = s.laid := rfl

/-- An activation makes its slot pending from its start and leaves the active one. -/
theorem laidActivateAct_sets {x : LaidTable} (p : LaidActP) (r : Nat) (hx : s.laid.tables.find p.slot = some x) :
    (laidActivateAct p s r).1.laid.pendSlot = some p.slot ∧ (laidActivateAct p s r).1.laid.active = s.laid.active ∧
      ((laidActivateAct p s r).1.laid.tables.find p.slot).map (·.start) = some p.startNs := by
  unfold laidActivateAct
  extract_lets old s1 s2
  have h1 : s1.laid.active = s.laid.active ∧ (s1.laid.tables.find p.slot).isSome = true := by
    unfold s1
    cases old with
    | some o =>
      refine ⟨rfl, ?_⟩
      dsimp only
      rw [State.modTable_find]
      split <;> simp [hx]
    | none => exact ⟨rfl, by dsimp only; rw [hx]; rfl⟩
  obtain ⟨hactive, hsome⟩ := h1
  obtain ⟨y, hy⟩ := Option.isSome_iff_exists.mp hsome
  refine ⟨rfl, hactive, ?_⟩
  dsimp only
  rw [State.modTable_find, if_pos rfl, hy]
  rfl

/-- A cancellation leaves no slot pending, and the active one. -/
theorem laidCancelAct_sets (s : State) (r : Nat) :
    (laidCancelAct s r).1.laid.pendSlot = none ∧ (laidCancelAct s r).1.laid.active = s.laid.active := by
  unfold laidCancelAct
  cases s.laid.pendSlot with
  | some o => exact ⟨rfl, rfl⟩
  | none => exact ⟨rfl, rfl⟩

/-! ## Writes that come in -/

/-- A write that comes in becomes the next job, of its lines and data. -/
theorem State.newJob_listed (s : State) (h : Hdr) (yellow : Bool) (kind : JobKind) (addr : Nat) (ls : List (LineRef × Line × BitVec 64)) :
    ∃ x, (s.newJob h yellow kind addr ls).1.mem.jobs.find s.mem.nextJob = some x ∧ x.kind = kind ∧ x.lines.map (·.data) = ls.map (·.2.1) ∧
      x.lines.map (fun l => (l.tier, l.line)) = ls.map fun y => (y.1.tier, y.1.line) := by
  unfold State.newJob
  extract_lets j lines x mem s1 idx
  have hw : Within [.lode] s1 ((ls.zip idx).foldl (fun a y =>
      if decide (y.1.2.2 ≠ 0#64) && (a.lodeOf y.1.1).isSome then a.atHome y.1.1 h.ep h.tag (addr / 64 * 64 + 64 * y.2) (.job j y.2) else a) s1) :=
    within_foldl _ _ (fun a y => by split <;> simp) (.refl _ _)
  refine ⟨x, ?_, rfl, ?_, ?_⟩
  · dsimp only
    rw [hw.mem (by simp) (by simp)]
    exact NMap.find_put _ _ _
  · simp [x, lines, Function.comp_def]
  · simp [x, lines, Function.comp_def]

/-- Lines paired with their data give the data, and the lines. -/
theorem zip_laid {α : Type} (refs : List LineRef) (data : List Line) (f : Nat → α) (h : refs.length = data.length) :
    ((refs.zip (data.zip (List.range data.length))).map fun x => (x.1, x.2.1, f x.2.2)).map (·.2.1) = data ∧
      ((refs.zip (data.zip (List.range data.length))).map fun x => (x.1, x.2.1, f x.2.2)).map (·.1) = refs := by
  simp only [List.map_map, Function.comp_def]
  constructor
  · rw [show (fun x : LineRef × Line × Nat => x.2.1) = Prod.fst ∘ Prod.snd from rfl, ← List.map_map, List.map_snd_zip (by simp [h]),
      List.map_fst_zip (by simp)]
  · exact List.map_fst_zip (by simp [h])

end Sys2Proof.Machine

namespace Sys2Proof

open Machine

/-- Settles O37: a table is loaded, set, run and ended by its own part of the schedule; a write that comes in becomes a job. -/
theorem laidCommandsComplete : Obligations.LaidCommandsComplete := by
  unfold Obligations.LaidCommandsComplete
  refine ⟨?load, ?activate, ?stop, ?cancel, ?status, ?start, ?cycle, ?lead, ?slot, ?next, ?last, ?write⟩
  case load =>
    intro q p s s' a hpass hload hok
    have hw : Within [.cells, .mem, .part, .link, .cal, .laid, .pair] (s.acting (laidLoadCmd p) q) s' :=
      .of_fst hload (State.loadLaid_reads _ p)
    refine completes_answering_area rfl hpass hload hw (by simp) (by simp) fun t ht hans => ⟨hans, ?_⟩
    rw [show t.laid = _ from ht.1 .laid (by simp)]
  case activate =>
    intro q p s x hpass hx
    set u := s.acting (laidActivateCmd p) q with hu
    have hlaid : u.laid = s.laid := s.acting_laid _ _
    have hact : laidActivateAct p u (s.replyOf (laidActivateCmd p) q) = ((laidActivateAct p u (s.replyOf (laidActivateCmd p) q)).1, some okAns) := rfl
    have hw : Within [.laid] u (laidActivateAct p u (s.replyOf (laidActivateCmd p) q)).1 := (laidActivateAct_within p u _ (by simp)).mpr (.refl _ _)
    obtain ⟨hpend, hactive, hstart⟩ := laidActivateAct_sets p (s.replyOf (laidActivateCmd p) q) (s := u) (by rw [hlaid]; exact hx)
    refine completes_answering rfl hpass hact rfl hw (by simp) (by simp) fun t ht hans => ⟨hans, ?_⟩
    rw [show t.laid = _ from ht.1 .laid (by simp), ← hlaid]
    exact ⟨hpend, hactive, hstart⟩
  case stop =>
    intro q p s hpass
    refine completes_answering (Z := [.laid]) rfl hpass rfl rfl (by simp) (by simp) (by simp) fun t ht hans => ⟨hans, ?_⟩
    rw [show t.laid = _ from ht.1 .laid (by simp), ← s.acting_laid (laidStopCmd p) q]
    exact ⟨rfl, rfl⟩
  case cancel =>
    intro q p s hpass
    set u := s.acting (laidCancelCmd p) q
    have hact : laidCancelAct u (s.replyOf (laidCancelCmd p) q) = ((laidCancelAct u (s.replyOf (laidCancelCmd p) q)).1, some okAns) := rfl
    have hw : Within [.laid] u (laidCancelAct u (s.replyOf (laidCancelCmd p) q)).1 := (laidCancelAct_within _ _ (by simp)).mpr (.refl _ _)
    refine completes_answering rfl hpass hact rfl hw (by simp) (by simp) fun t ht hans => ⟨hans, ?_⟩
    rw [show t.laid = _ from ht.1 .laid (by simp), ← s.acting_laid (laidCancelCmd p) q]
    exact laidCancelAct_sets _ _
  case status =>
    intro q p s hpass
    obtain ⟨a, hact, hok, hlen⟩ : ∃ a, laidStatusAct p (s.acting (laidStatusCmd p) q) (s.replyOf (laidStatusCmd p) q) =
        (s.acting (laidStatusCmd p) q, some a) ∧ a.status = .ok ∧ a.rlen = 64 := by
      unfold laidStatusAct
      dsimp only
      split
      · exact ⟨_, rfl, rfl, rfl⟩
      · exact ⟨_, rfl, rfl, rfl⟩
    refine completes_answering_area (Z := []) rfl hpass hact (.refl _ _) (by simp) (by simp) fun t ht hans => ⟨a, hans, hok, hlen, ?_⟩
    exact (ht.1 .laid (by simp)).trans (s.acting_laid _ _)
  case start =>
    intro s i x hpend hx
    have hpend' : (s.reachDom x.start).laid.pendSlot = some i := by rw [← hpend]; rfl
    refine .of_next (by simp only [exec, execLaidTableStart, hpend, Option.bind_some, hx, State.startTable, hpend']; rfl) ?_
    rw [State.setReserved_laid]
    exact ⟨rfl, rfl⟩
  case cycle =>
    intro s i x hactive hdone
    exact .of_next (by simp only [exec, execLaidCycleBoundary, hactive, hdone, if_true]) rfl
  case lead =>
    intro entry slot s x e hentry hdone hlead htrip s1 hlate
    exact .of_next (by simp [exec, execLaidLead, hentry, hdone, hlead, htrip, show State.modEntry _ _ _ _ = s1 from rfl, hlate]) rfl
  case slot =>
    intro entry slot n bytes s s2 x e hentry hdone htrip hskip htile
    exact .of_next (by simp only [exec, execLaidSlot, hentry, hdone, htrip, Bool.or_self, Bool.false_eq_true, if_false, hskip, htile]) rfl
  case next =>
    intro entry slot left s x e hentry hleft hpos hactive hqueue htrip hdeckle hlate
    exact .of_next (by simp [exec, execLaidTileBoundary, hentry, hleft, Port.up, hactive, hqueue, htrip, Nat.ne_of_gt hpos, hdeckle, hlate]) rfl
  case last =>
    intro entry slot s x e hentry hleft hactive hqueue htrip
    exact .of_next (by simp [exec, execLaidTileBoundary, hentry, hleft, Port.up, hactive, hqueue, htrip]) rfl
  case write =>
    intro h m data refs s hcarries hvc s0 hadm htrans hlode hlodes hlen
    refine .of_next (by
      simp only [exec, execLaidInboundWr, hcarries, hvc, show s.freeBuf h.port 2 (Hdr.credits h) = s0 from rfl, hadm, htrans, hlode,
        hlodes, List.foldl_nil, Bool.not_true, ne_eq, not_true_eq_false, Bool.false_eq_true, or_self, if_false, Option.isSome_none]; rfl) ?_
    have hnext : ((s0.countInbound h m).fillTlb (homeCore h.ep) h.deckle (lineRun m.addr m.lines) refs).mem = s0.mem :=
      Within.mem (Z := [.xlat, .laid]) (by simp) (by simp) (by simp)
    obtain ⟨x, hx, hkind, hdata, hlines⟩ := ((s0.countInbound h m).fillTlb (homeCore h.ep) h.deckle (lineRun m.addr m.lines) refs).newJob_listed
      h false .laidIn m.addr ((refs.zip (data.zip (List.range data.length))).map fun x => (x.1, x.2.1, wrMask m x.2.2))
    obtain ⟨hzdata, hzrefs⟩ := zip_laid refs data (wrMask m) hlen
    refine ⟨x, by rw [← hnext]; exact hx, hkind, hdata.trans hzdata, hlines.trans ?_⟩
    have hplaces := congrArg (List.map fun r : LineRef => (r.tier, r.line)) hzrefs
    rwa [List.map_map] at hplaces

end Sys2Proof
end

section
/-! PROOFS. Memory requests at work: their lines, their end and the assembly buffers (R45 to R47, R291, R292). -/

namespace Sys2Proof.Machine

variable {s t : State} {j : Nat} {x : Job}

/-! ## The end of a request -/

/-- A request with a line undone does not end. -/
theorem State.finishJob_of_open (hx : s.mem.jobs.find j = some x) (hdone : x.lines.all (·.done) = false) : s.finishJob j = s := by
  simp [State.finishJob, hx, hdone]

/-- A request whose lines are done ends, where no record of it waits for the standby. -/
theorem State.finishJob_of_done (hx : s.mem.jobs.find j = some x) (hdone : x.lines.all (·.done) = true) (hm : s.mirrors = false) :
    (s.finishJob j).mem = { s.mem with jobs := s.mem.jobs.del j } := by
  unfold State.finishJob
  rw [hx]
  simp -zeta only [hdone, hm, Bool.not_true, Bool.false_and, Bool.or_self, Bool.false_eq_true, if_false]
  extract_lets src s1
  have h1 : s1.mem = { s.mem with jobs := s.mem.jobs.del j } :=
    Within.mem (Z := [.part]) (s := { s with mem := { s.mem with jobs := s.mem.jobs.del j } }) (by simp [s1, src]) (by simp) (by simp)
  split
  · exact h1
  · rw [← h1]
    exact Within.mem (Z := [.part, .link]) (by simp) (by simp) (by simp)

theorem State.reach_mem (s : State) (t : Nat) : (s.reach t).mem = s.mem := rfl
theorem State.reach_mirrors (s : State) (t : Nat) : (s.reach t).mirrors = s.mirrors := rfl
theorem State.setJob_now (s : State) (j : Nat) (x : Job) : (s.setJob j x).now = s.now := rfl
theorem State.setJob_mirrors (s : State) (j : Nat) (x : Job) : (s.setJob j x).mirrors = s.mirrors := rfl

/-- A request that is set ends where its lines are done, and stays otherwise. -/
theorem State.finishJob_setJob (hwf : NMap.wf s.mem.jobs = true) (hm : s.mirrors = false) :
    ((s.setJob j x).finishJob j).mem.jobs.find j = (if x.lines.all (·.done) then none else some x) ∧
      ((s.setJob j x).finishJob j).mem.cells = s.mem.cells := by
  have hfind : (s.setJob j x).mem.jobs.find j = some x := NMap.find_put ..
  cases hdone : x.lines.all (·.done) with
  | true =>
    rw [State.finishJob_of_done hfind hdone hm]
    exact ⟨NMap.find_del (NMap.wf_put hwf _ _) j, rfl⟩
  | false =>
    rw [State.finishJob_of_open hfind hdone]
    exact ⟨hfind, rfl⟩

/-! ## Lines served -/

/-- A line past the one that is changed stays. -/
theorem drop_modAt {α : Type} (l : List α) (i : Nat) (f : α → α) : (modAt l i f).drop (i + 1) = l.drop (i + 1) := by
  induction l generalizing i with
  | nil => cases i <;> rfl
  | cons a l ih =>
    cases i with
    | zero => rfl
    | succ i => exact ih i

/-- Serving a line leaves a request open that has a later line undone. -/
theorem Job.open_of_later (x : Job) (i : Nat) (f : JobLine → JobLine) (h : (x.lines.drop (i + 1)).any (fun k => !k.done) = true) :
    (x.doneLine i f).lines.all (·.done) = false := by
  obtain ⟨k, hk, hopen⟩ := List.any_eq_true.mp h
  rw [List.all_eq_false]
  refine ⟨k, ?_, by simpa using hopen⟩
  rw [← drop_modAt x.lines i fun l => { f l with done := true, recon := none }] at hk
  exact List.mem_of_mem_drop hk

theorem State.flipLine_zero (s : State) (l : JobLine) : s.flipLine l 0#640 = s := by
  unfold State.flipLine
  split
  · exact if_pos rfl
  · rfl

/-! ## Assembly buffers -/

theorem MemKept.asm (h : MemKept s t) : t.mem.asm = s.mem.asm := by rw [show t.mem = _ from h]

theorem State.mirrorWrite_memKept (s : State) (r : LineRef) (c : Cell) (ep rtag : Nat) (fw last : Bool) :
    MemKept s (s.mirrorWrite r c ep rtag fw last).1 := .of_within (Z := [.part, .link, .pair]) (by simp) (by simp) (by simp)

theorem State.dualWrite_memKept (s : State) (r : LineRef) (c : Cell) (full : Bool) : MemKept s (s.dualWrite r c full) := by
  have hwrite : ∀ n : LineRef, MemKept s ((s.storeCell n.tier n.line c full).mirrorWrite n c 0 0 true true).1 :=
    fun n => (s.storeCell_memKept _ _ _ _).trans (State.mirrorWrite_memKept _ _ _ _ _ _ _)
  unfold State.dualWrite
  split
  · dsimp only
    split
    · split
      · exact hwrite _
      · exact .refl s
    · split
      · exact hwrite _
      · exact .refl s
  · exact .refl s

theorem State.unpoison_memKept (s : State) (t : Tier) (line : Nat) : MemKept s (s.unpoison t line) := rfl

theorem State.storeLine_memKept (s : State) (r : LineRef) (c : Cell) (full : Bool) : MemKept s (s.storeLine r c full) :=
  ((s.storeCell_memKept _ _ _ _).trans (State.unpoison_memKept _ _ _)).trans (State.dualWrite_memKept _ _ _ _)

/-- A buffer that closes is gone. -/
theorem State.closeAsm_gone {n : Nat} {b : AsmBuf} (hwf : NMap.wf s.mem.asm = true) (hb : s.mem.asm.find n = some b) :
    (s.closeAsm n).mem.asm.find n = none := by
  unfold State.closeAsm
  rw [hb]
  dsimp only
  rw [MemKept.asm (memKept_foldl b.lines _ (fun a y => ?_) _)]
  · exact NMap.find_del hwf n
  · split
    · exact (a.storeLine_memKept _ _ _).trans (State.chargeTier_approach _ _ _ _ _ _).mem
    · exact .refl a

end Sys2Proof.Machine

namespace Sys2Proof

open Machine

/-- Settles O10: the writes are accepted and the reads failed, reconstructed or discarded line by line, and a request
ends with its last line. -/
theorem memoryJobsComplete : Obligations.MemoryJobsComplete := by
  unfold Obligations.MemoryJobsComplete
  refine ⟨?accepted, ?revoked, ?reconstructed, ?stale, ?window⟩
  case accepted =>
    intro j s x hx hw hm
    exact .of_next (by simp only [exec, execLineWriteAccepted, hx, hw, hm, Bool.not_true, Bool.false_and, Bool.or_self, Bool.false_eq_true,
      if_false]) rfl
  case revoked =>
    intro j flip s x l i hx hw hline hblocked hlive hm hwf
    refine .of_next (by
      simp only [exec, execLineRead, hx, hw, hline, hblocked, hlive, Bool.false_eq_true, Bool.not_false, if_false, if_true]; rfl) ?_
    exact State.finishJob_setJob hwf hm
  case reconstructed =>
    intro j s x l i hx hline hlive
    exact .of_next (by simp only [exec, execReconstructionDone, hx, hline, hlive, Bool.not_true, Bool.false_eq_true, if_false]) ⟨_, rfl, rfl⟩
  case stale =>
    intro j s x hwf hx hdone hm
    refine .of_next (by simp only [exec, execRequestStaleDiscard, hx, hdone, Bool.false_eq_true, if_false]; rfl) ?_
    obtain ⟨hfind, hcells⟩ := State.finishJob_setJob (s := s.reach (x.admitted + 10000000)) (j := j)
      (x := { x with lines := x.lines.map fun l => { l with done := true, recon := none }, fail := some (x.fail.getD .aborted) })
      (by rw [State.reach_mem]; exact hwf) ((s.reach_mirrors _).trans hm)
    have hw : ∀ u : State, Within [.mem, .part, .link] u (u.finishJob j) := fun u => by simp
    rw [State.reach_mem] at hcells
    refine ⟨hfind.trans (if_pos (by simp)), ?_, hcells⟩
    rw [show State.now _ = _ from (hw _).1 .now (by simp), State.setJob_now, State.reach_now]
    exact Nat.le_max_right _ _
  case window =>
    intro n s b hwf hb
    refine .of_next (by simp only [exec, execAsmWindowExpire, hb]; rfl) ⟨State.closeAsm_gone (b := b) ?_ ?_, ?_⟩
    · rw [State.reach_mem]
      exact hwf
    · rw [State.reach_mem]
      exact hb
    have hw : ∀ u : State, Within [.cells, .mem, .part, .link, .cal, .pair] u (u.closeAsm n) := fun u => by simp
    rw [show State.now _ = _ from (hw _).1 .now (by simp), State.reach_now]
    exact Nat.le_max_right _ _

/-- Settles O11: a clean read gives its data to the line, and a later line keeps the request open. -/
theorem lineReadReturnsData : Obligations.LineReadReturnsData := by
  unfold Obligations.LineReadReturnsData
  intro j s x l i d hx hw hline hblocked hlive hlater hread
  rw [State.flipLine_zero] at hread
  have hm : (s.chargeTier x.deckle (x.cls + 8) l.tier (readPj l.tier) 1).mem = s.mem := Within.mem (Z := [.part, .cal]) (by simp) (by simp) (by simp)
  refine .of_next (t := ((s.chargeTier x.deckle (x.cls + 8) l.tier (readPj l.tier) 1).setJob j (x.doneLine i fun k => { k with data := d })).finishJob j) ?_ ?_
  · simp only [exec, execLineRead, hx, hw, hline, hblocked, hlive, State.flipLine_zero, hread, Bool.false_eq_true, Bool.not_true, if_false,
      State.takeRead]
  · rw [State.finishJob_of_open (NMap.find_put ..) (x.open_of_later i _ hlater)]
    exact ⟨NMap.find_put .., (congrArg Mem.cells hm :)⟩

end Sys2Proof
end

section
/-! PROOFS. The zero lines that the end of a zeroing leaves (R64). -/

namespace Sys2Proof.Machine

variable {s t : State} {x : Nat} {e : Extent}

/-! ## Keys -/

/-- A line of a granule is found in that granule. -/
theorem granOf_cellKey (tr : Tier) {g j : Nat} (hg : g < 2 ^ 25) (hj : j < 32768) :
    granOf (cellKey tr (g * 32768 + j)) = granKey tr g := by
  unfold granOf cellKey granKey
  omega

/-- What a run over keys makes of each one listed, where doing it twice is doing it once. -/
theorem NMap.find_foldl_upd_listed {α : Type} (ks : List Nat) (key : Nat → Nat) {f : α → α} (hf : ∀ y, f (f y) = f y)
    (m : NMap α) (j : Nat) (h : ∃ k ∈ ks, key k = j) :
    (ks.foldl (fun a k => NMap.upd a (key k) f) m).find j = (NMap.find m j).map f := by
  have hrun : ∀ (ks : List Nat) (m : NMap α), (ks.foldl (fun a k => NMap.upd a (key k) f) m).find j =
      if ∃ k ∈ ks, key k = j then (NMap.find m j).map f else NMap.find m j := by
    intro ks
    induction ks with
    | nil => simp
    | cons k ks ih =>
      intro m
      rw [List.foldl_cons, ih, NMap.find_upd]
      by_cases hk : j = key k
      · cases hm : NMap.find m j <;> simp [hk ▸ hm, hk, hf]
      · simp [hk, Ne.symm hk]
  rw [hrun, if_pos h]

/-- A line that is not stored reads as its granule says. -/
theorem State.cell_of_unlisted {tr : Tier} {line : Nat} (h : s.mem.cells.find (cellKey tr line) = none) :
    s.cell tr line = ((s.part.granules.find (granOf (cellKey tr line))).bind (·.zero)).map Stamp.zeroCell := by
  unfold State.cell
  rw [h]
  rfl

/-! ## The zeroing -/

theorem State.zeroRun_extents (s : State) (x : Nat) (e : Extent) : (s.zeroRun x e).part.extents = s.part.extents := by
  unfold State.zeroRun
  rw [(State.chargeTier_approach ..).part]

/-- The granules of a zeroed run read as zero lines of the extent. -/
theorem State.zeroRun_granules {g : Nat} (hg : g ∈ runGranules e.tier e.first e.granules)
    (hlist : s.part.granules.has (granKey e.tier g)) :
    (((s.zeroRun x e).part.granules.find (granKey e.tier g)).bind (·.zero)) =
      some ⟨e.deckle, (s.keyOf e.deckle).1, (s.keyOf e.deckle).2, e.gen⟩ := by
  unfold State.zeroRun
  rw [(State.chargeTier_approach ..).part]
  dsimp only
  rw [NMap.find_foldl_upd_listed (f := fun y : Granule => { y with zero := some ⟨e.deckle, (s.keyOf e.deckle).1, (s.keyOf e.deckle).2, e.gen⟩ })
    _ (granKey e.tier) (fun _ => rfl) _ _ ⟨g, hg, rfl⟩]
  obtain ⟨y, hy⟩ := Option.isSome_iff_exists.mp hlist
  rw [hy]
  rfl

/-- No line of a zeroed run stays stored. -/
theorem State.zeroRun_cells {g j : Nat} (hg : g ∈ runGranules e.tier e.first e.granules) (hlt : g < 2 ^ 25) (hj : j < 32768) :
    (s.zeroRun x e).mem.cells.find (cellKey e.tier (g * 32768 + j)) = none := by
  unfold State.zeroRun
  dsimp only
  have hcells : ∀ u : State, (u.chargeTier e.deckle 8 e.tier (writePj e.tier true false) (e.granules * 32768)).mem.cells = u.mem.cells :=
    fun u => ((State.chargeTier_within (Z := [.part, .cal]) _ _ _ _ _ _ (by simp)).mpr (.refl _ u)).1 .cells (by simp)
  rw [hcells]
  dsimp only
  refine (NMap.find_keep_key _ _ _).trans (if_neg ?_)
  simpa using ⟨g, hg, granOf_cellKey _ hlt hj⟩

/-! ## Its end -/

/-- An answer without a result area leaves the partition and the stored lines as the effect made them. -/
theorem State.settle_inline_within (s u : State) (r : Option Nat) {a : Ans} (ha : a.area = 0) :
    Within [.mbx, .link, .pair, .pkg] u (State.settle s u r a) := by
  unfold State.settle
  split
  · exact (State.commitFw_within _ _ (by simp)).mpr (.refl _ _)
  · exact .trans ((within_mbx _ (by simp)).mpr ((State.mirrorCommit_within _ _ _ _ _ _ (by simp)).mpr (.refl _ _)))
      (State.answer_inline_within _ _ ha (by simp))

/-- Settles O3: the run's granules take the stamp of the zero line, and no line of them stays stored. -/
theorem zeroingWritesZeroLines : Obligations.ZeroingWritesZeroLines := by
  unfold Obligations.ZeroingWritesZeroLines
  intro x s e r hx hstate hgran
  refine .of_next (by simp only [exec, execExtentZeroDone, hx, hstate]; rfl) ?_
  set s1 := (s.zeroRun x e).modExtent x fun e => { e with state := .allocated } with hs1
  have hw : Within [.mbx, .link, .pair, .pkg] s1 (State.settle s s1 r (extentResult x e)) := s.settle_inline_within s1 r rfl
  have hpart : (State.settle s s1 r (extentResult x e)).part = s1.part := hw.part (by simp) (by simp)
  have hcells : (State.settle s s1 r (extentResult x e)).mem.cells = s1.mem.cells := hw.1 .cells (by simp)
  refine ⟨?_, fun g hg j hj => ?_⟩
  · rw [hpart, hs1]
    simp [State.modExtent, State.zeroRun_extents, hx]
  · obtain ⟨hlt, hlist⟩ := hgran g hg
    rw [State.cell_of_unlisted (by rw [hcells]; exact State.zeroRun_cells hg hlt hj), hpart, granOf_cellKey _ hlt hj]
    exact congrArg (Option.map Stamp.zeroCell) (State.zeroRun_granules hg hlist)

end Sys2Proof.Machine
end

section
/-! PROOFS. Extents are allocated, revoked and removed, and granules return (R64, R70 to R72, R80). -/

namespace Sys2Proof.Machine

variable {s t : State} {x : Nat} {e : Extent}

/-! ## A new extent -/

/-- The extent that an allocation makes, as the command names it. -/
theorem State.newExtent_find (s : State) (n : NewExtent) (reply : Option Nat) :
    ∃ e, (s.newExtent n reply).1.part.extents.find (s.part.lastExtent + 1) = some e ∧
      (e.deckle, e.granules, e.policy, e.mir) = (n.deckle, n.granules, n.policy, n.mir) ∧ (e.tier, e.first) = (n.tier, n.first) ∧
      (n.zero = false → e.state = .allocated) := by
  unfold State.newExtent
  extract_lets y gen e s1 part s2
  have hfind : s2.part.extents.find (s.part.lastExtent + 1) = some e := by simp [s2, y, e]
  refine ⟨e, ?_, rfl, rfl, fun hz => by simp [e, hz]⟩
  dsimp only
  split
  · exact hfind
  · exact hfind

/-- An allocation with room makes its extent, whatever it then zeroes and tells. -/
theorem extentAllocAct_makes {p : AllocP} {hint r : Nat} {y : Tier × Nat} (h : s.placeBy p.deckle p.policy p.granules hint = .ok y) :
    (∃ e, (extentAllocAct p hint s r).1.part.extents.find (s.part.lastExtent + 1) = some e ∧
      (e.deckle, e.granules, e.policy, e.mir) = (p.deckle, p.granules, p.policy, p.mir) ∧ (e.tier, e.first) = y ∧
      (p.zero = false → s.hub.fillAtStart = false → e.state = .allocated)) ∧
    ∀ a ∈ (extentAllocAct p hint s r).2, a.area = 0 := by
  unfold extentAllocAct
  obtain ⟨tr, g⟩ := y
  simp -zeta only [h]
  extract_lets zero n s1
  have hpart : s1.part = n.1.part := by
    unfold s1
    split
    · exact Within.part (Z := [.mbx, .link]) (by simp [State.spill]) (by simp) (by simp)
    · rfl
  obtain ⟨e, hfind, hnamed, hplace, hstate⟩ :=
    s.newExtent_find { deckle := p.deckle, tier := tr, first := g, granules := p.granules, policy := p.policy, mir := p.mir,
                       zero := zero, holder := if p.held then some p.holder else none } (some r)
  refine ⟨⟨e, by rw [hpart]; exact hfind, hnamed, hplace, fun hz hf => hstate (by simp [zero, hz, hf])⟩, fun a ha => ?_⟩
  split at ha
  · simp at ha
  · obtain ⟨f, -, rfl⟩ := Option.mem_map.mp ha
    rfl

/-! ## Revocation -/

theorem State.revokeExtent_revoking (cause timeoutUs : Nat) (reply : Option Nat) (h : s.part.extents.find x = some e) :
    ∃ f, (s.revokeExtent x cause timeoutUs reply).part.extents.find x = some f ∧ f.state = .revoking := by
  obtain ⟨f, hf, hr⟩ := s.revokeOne_revoking cause timeoutUs reply h
  unfold State.revokeExtent
  dsimp only
  split
  · obtain ⟨f', hf', hr'⟩ := (State.endDraft_tenancy _ _ _).extents x f hf
    exact ⟨f', hf', hr' hr⟩
  · exact ⟨f, hf, hr⟩

/-- A request whose effect revokes an extent leaves it being revoked. -/
theorem completes_revoking {i self : Instr} {c : Cmd} {q : Req} {checks : State → List Check} {act : State → Nat → State × Option Ans}
    {d : Nat} (cause timeoutUs : Nat) (hexec : exec i s = .next (s.serve self c q checks act)) (hpass : s.passes c q checks = true)
    (hsub : ∀ u : State, u.extentChecks d x ⊆ checks u)
    (hact : ∀ u r, act u r = (u.revokeExtent x cause timeoutUs (some r), none)) :
    Completes i s fun t => ∃ e, t.part.extents.find x = some e ∧ e.state = .revoking := by
  obtain ⟨e, he, -⟩ := extent_of_passes hpass hsub
  obtain ⟨f, hf, hr⟩ := State.revokeExtent_revoking cause timeoutUs (some (s.replyOf c q)) he
  refine completes_of_passes hexec hpass ?_
  obtain ⟨g, hg, hr'⟩ := (State.closed_tenancy _ c q _ _ (act (s.acting c q) (s.replyOf c q))).extents x f (by rw [hact]; exact hf)
  exact ⟨g, hg, hr' hr⟩

theorem State.reach_part (s : State) (t : Nat) : (s.reach t).part = s.part := rfl

theorem State.reach_jobsOn (s : State) (t : Nat) (x : Nat) : (s.reach t).jobsOn x = s.jobsOn x := rfl

/-- With no request left on a revoked extent its revocation removes it, and takes no time. -/
theorem State.endRevoke_removes {r : Revoke} (timedOut : Bool) (hwf : NMap.wf s.part.extents) (hx : s.part.extents.find x = some e)
    (hr : e.revoke = some r) (hjobs : (s.jobsOn x).isEmpty) :
    (s.endRevoke x timedOut).part.extents.find x = none ∧ (s.endRevoke x timedOut).now = s.now := by
  have hdiscard : s.discardOn x = s := by
    unfold State.discardOn
    rw [List.isEmpty_iff.mp hjobs]
    rfl
  unfold State.endRevoke
  extract_lets s0
  rw [show s0 = s from hdiscard]
  simp -zeta only [hx, hr]
  extract_lets s1 part s2 res s3
  have hs2 : s2.part.extents.find x = none := NMap.find_del hwf _
  have h3 : Within [.mbx, .link, .pair, .pkg] s2 s3 := s.settle_inline_within s2 _ rfl
  have hleft : ∀ u, Within [.mbx, .link, .pair, .pkg] s2 u → u.part.extents.find x = none ∧ u.now = s.now := fun u hu =>
    ⟨by rw [hu.part (by simp) (by simp), hs2], hu.1 .now (by simp)⟩
  split
  · exact hleft _ (h3.trans (by simp))
  · exact hleft _ h3

/-- Settles O2: the frames the policy finds, the revocation of what is named, its end and the return of a granule. -/
theorem extentCommandsComplete : Obligations.ExtentCommandsComplete := by
  unfold Obligations.ExtentCommandsComplete
  refine ⟨?alloc, ?free, ?revoke, ?drained, ?timeout, ?granule⟩
  case alloc =>
    intro q p hint s y hpass hplace
    obtain ⟨⟨e, hfind, hnamed, hat, hstate⟩, harea⟩ := extentAllocAct_makes (r := s.replyOf (extentAllocCmd p s) q) hplace
    refine completes_of_effect rfl hpass rfl harea fun t ht => ⟨e, ?_, hnamed, hat, fun hz hf => hstate hz ?_⟩
    · rw [ht.part (by simp) (by simp)]
      exact hfind
    · rw [State.acting_hub]
      exact hf
  case free =>
    intro q p s hpass
    exact completes_revoking 2 1000 rfl hpass (fun u => List.subset_cons_self _ _) fun _ _ => rfl
  case revoke =>
    intro q p s hpass
    exact completes_revoking 0 (if p.timeoutUs = 0 then 1000 else p.timeoutUs) rfl hpass (fun u => List.subset_cons_self _ _) fun _ _ => rfl
  case drained =>
    intro x s e r hwf hx hr hjobs htiles
    refine .of_next (by simp only [exec, execRevokeDrainEnd, hjobs, htiles, Bool.not_false, Bool.and_self, if_true]; rfl) ?_
    exact (State.endRevoke_removes false hwf hx hr hjobs).1
  case timeout =>
    intro x s e r hwf hx hr hjobs
    refine .of_next (by simp only [exec, execRevokeTimeout, hx, hr, Option.bind_some]; rfl) ?_
    have hpart := s.reach_part (r.point + r.timeout)
    obtain ⟨hgone, hnow⟩ := State.endRevoke_removes (s := s.reach (r.point + r.timeout)) true (by rwa [hpart]) (by rwa [hpart]) hr
      (by rwa [s.reach_jobsOn])
    exact ⟨hgone, hnow.trans (s.reach_now _)⟩
  case granule =>
    intro tr g s y hy hret
    refine .of_next (by simp only [exec, execGranuleReturn, hy, hret, if_true]; rfl) ?_
    have hpart := s.reach_part (y.lastHeld + 11000000)
    have hnow := s.reach_now (y.lastHeld + 11000000)
    have hmem := s.reach_mem (y.lastHeld + 11000000)
    generalize s.reach (y.lastHeld + 11000000) = u at hpart hnow hmem ⊢
    refine ⟨by simp [hpart, hy], ?_, ?_, by rw [hmem]⟩
    · exact hnow ▸ Nat.le_max_right _ _
    · exact hnow ▸ Nat.le_max_left _ _

end Sys2Proof.Machine
end

section
/-! PROOFS. A device that has tripped puts no grant of a lode line on its ports (R350, R87). -/

namespace Sys2Proof.Machine

/-- The lode's extent. -/
def lodeExtent : Extent :=
  { deckle := 1, tier := .t1, first := 200, granules := 1, gen := 1, mir := false, policy := .t1Only, holder := none
    state := .allocated, revoke := none, draft := none, published := none, lost := false, dirty := [] }

/-- A lode of one endpoint, which owns the first line. -/
def ownedLode : Lode :=
  { deckle := 1, extent := 1, offset := 0, size := 1, snoopUs := 50, pva := 0, down := none, agents := [(0, 2)], uncached := []
    dir := [(0, .ownedExcl 0)], work := [], leaving := [], salvage := none }

/-- A device with that lode, and its agent on a port that is up, which has tripped. -/
def trippedLode : State :=
  { State.reset with
    hub := { Hub.reset with phase := .running, running := some { fwVersion := 0, secVersion := 0, buildId := 0, digest := 0#512 } }
    part := { Part.reset with
      deckles := [(1, { freshDeckle 0 2 with tables := [(0, ⟨0, [(0, 0x9C3)]⟩)], root := 0 })], extents := [(1, lodeExtent)]
      leases := [(leaseKey 1 2, { state := .held, duration := 1000, grace := 50, deadline := 1000000000 })], eps := [(2, ⟨65, 0, []⟩)] }
    lode := { lodes := [(1, ownedLode)], lastLode := 1, nextSnoop := 0 }
    link := { State.reset.link with ports := [(0, { Port.reset with train := .active })] }
    pkg := { Pkg.reset with tripped := true } }

/-- The agent writes its line back. -/
def writeBack : Hdr := { port := 0, vc := 3, ep := 2, deckle := 1, tag := 9, len := 80 }
def writeBackExt : LodeExt := { addr := 200 * 2 ^ 21 }

set_option maxRecDepth 100000 in
/-- The trip keeps the grant off the port. -/
theorem trippedLode_sends_nothing :
    (trippedLode.lodeRequest writeBack writeBackExt 80 [.wr] (.wb 0#512)).sent.isEmpty = true := by decide

end Sys2Proof.Machine

namespace Sys2Proof

open Machine

set_option maxRecDepth 100000 in
/-- Refutes O9: the clauses on RDS, RDX and WB do not ask that the device has not tripped, and a device that has tripped
puts nothing but the messages of its trip on a port; here the write back of a line by its owner is served, and its LGRANT
is not sent. -/
theorem not_lodeRequestsComplete : ¬ Obligations.LodeRequestsComplete := by
  unfold Obligations.LodeRequestsComplete
  rintro ⟨-, -, hwb, -⟩
  obtain ⟨t, hexec, hsent, -⟩ := hwb writeBack writeBackExt 0#512 trippedLode 4 false false
    { lodeExtent.lineAt 1 0 with payer := some 1 } (lodeExtent.lineAt 1 0) 1 0 ownedLode (by decide) (by decide) (by decide) (by decide)
    (by decide) (by decide) (by decide) (by decide) (by decide) (by decide) (by decide) (by decide)
  cases hexec
  have hempty := List.isEmpty_iff.mp trippedLode_sends_nothing
  rw [hempty] at hsent
  exact List.not_mem_nil hsent

end Sys2Proof
end

section
/-! PROOFS. What keeps its standing while work drains: the deckles that exist, and of the pair all but the stream of
records for the standby, which only grows. -/

namespace Sys2Proof.Machine

variable {s₀ s t u : State}

/-- From `s` to `t` no deckle comes or goes, and the pair changes at most in its stream, whose records are those of
before and later ones. -/
structure Standing (s t : State) : Prop where
  deckles : ∀ d, (t.part.deckles.find d).isSome = (s.part.deckles.find d).isSome
  pair : StreamOnly s t
  mseq : s.pair.mseq ≤ t.pair.mseq
  retained : ∀ r ∈ t.pair.retained, r ∈ s.pair.retained ∨ s.pair.mseq < r.mseq

theorem Standing.refl (s : State) : Standing s s := ⟨fun _ => rfl, rfl, le_refl _, fun _ h => .inl h⟩

@[simp] theorem standing_self : Standing s s ↔ True := iff_true_intro (.refl s)

theorem Standing.trans (h : Standing s t) (k : Standing t u) : Standing s u where
  deckles d := (k.deckles d).trans (h.deckles d)
  pair := h.pair.trans k.pair
  mseq := h.mseq.trans k.mseq
  retained r hr := (k.retained r hr).elim (h.retained r) fun hlt => .inr (h.mseq.trans_lt hlt)

/-- An update that leaves the deckles that exist and the pair. -/
theorem standing_congr (hd : ∀ d, (u.part.deckles.find d).isSome = (t.part.deckles.find d).isSome) (hp : u.pair = t.pair) :
    Standing s u ↔ Standing s t := by
  have htu : Standing t u := ⟨hd, .of_eq hp, hp ▸ le_refl _, fun r hr => .inl (hp ▸ hr)⟩
  have hut : Standing u t := ⟨fun d => (hd d).symm, .of_eq hp.symm, hp ▸ le_refl _, fun r hr => .inl (hp ▸ hr)⟩
  exact ⟨fun h => h.trans hut, fun h => h.trans htu⟩

theorem standing_iff_of_within {Z : List Spot} (h : Within Z t u) (hpart : Spot.part ∉ Z) (hpair : Spot.pair ∉ Z) :
    Standing s u ↔ Standing s t := by
  have hrest : { u.part with granules := t.part.granules } = t.part := h.1 .part hpart
  have hdeckles : u.part.deckles = t.part.deckles := by rw [← hrest]
  exact standing_congr (fun d => by rw [hdeckles]) (h.1 .pair hpair)

/-! ## Single updates -/

@[simp] theorem standing_free (v : Nat) : Standing s { t with free := v } ↔ Standing s t := standing_congr (fun _ => rfl) rfl
@[simp] theorem standing_mbx (v : Mbx) : Standing s { t with mbx := v } ↔ Standing s t := standing_congr (fun _ => rfl) rfl
@[simp] theorem standing_mem (v : Mem) : Standing s { t with mem := v } ↔ Standing s t := standing_congr (fun _ => rfl) rfl
@[simp] theorem standing_rgn (v : Rgn) : Standing s { t with rgn := v } ↔ Standing s t := standing_congr (fun _ => rfl) rfl
@[simp] theorem standing_lode (v : Lodes) : Standing s { t with lode := v } ↔ Standing s t := standing_congr (fun _ => rfl) rfl
@[simp] theorem standing_eng (v : Eng) : Standing s { t with eng := v } ↔ Standing s t := standing_congr (fun _ => rfl) rfl
@[simp] theorem standing_attn (v : Attn) : Standing s { t with attn := v } ↔ Standing s t := standing_congr (fun _ => rfl) rfl
@[simp] theorem standing_form (v : Form) : Standing s { t with form := v } ↔ Standing s t := standing_congr (fun _ => rfl) rfl
@[simp] theorem standing_part (v : Part) (hd : v.deckles = t.part.deckles) : Standing s { t with part := v } ↔ Standing s t :=
  standing_congr (fun d => congrArg (fun m : NMap Deckle => (m.find d).isSome) hd) rfl
@[simp] theorem standing_part_cal (v : Part) (c : Cal) (hd : ∀ d, (v.deckles.find d).isSome = (t.part.deckles.find d).isSome) :
    Standing s { t with part := v, cal := c } ↔ Standing s t := standing_congr hd rfl
@[simp] theorem standing_part_mbx (v : Part) (m : Mbx) (hd : v.deckles = t.part.deckles) :
    Standing s { t with part := v, mbx := m } ↔ Standing s t :=
  standing_congr (fun d => congrArg (fun m : NMap Deckle => (m.find d).isSome) hd) rfl
@[simp] theorem standing_part_mbx_hub (v : Part) (m : Mbx) (h : Hub) (hd : v.deckles = t.part.deckles) :
    Standing s { t with part := v, mbx := m, hub := h } ↔ Standing s t :=
  standing_congr (fun d => congrArg (fun m : NMap Deckle => (m.find d).isSome) hd) rfl
@[simp] theorem standing_rgn_retr_attn_xlat_eng (v0 : Rgn) (v1 : Retr) (v2 : Attn) (v3 : Xlat) (v4 : Eng) :
    Standing s { t with rgn := v0, retr := v1, attn := v2, xlat := v3, eng := v4 } ↔ Standing s t := standing_congr (fun _ => rfl) rfl

/-! ## Branches and loops -/

@[simp] theorem standing_ite (p : Prop) [Decidable p] : Standing s (if p then t else u) ↔ if p then Standing s t else Standing s u := by
  split <;> rfl

@[simp] theorem standing_ite_fst {β : Type} (p : Prop) [Decidable p] (a b : State × β) :
    Standing s (if p then a else b).1 ↔ if p then Standing s a.1 else Standing s b.1 := by
  split <;> rfl

theorem standing_foldl {α : Type} (l : List α) (f : State → α → State) (h : ∀ a x, Standing a (f a x)) (hx : Standing s t) :
    Standing s (l.foldl f t) := by
  induction l generalizing t with
  | nil => exact hx
  | cons x l ih => exact ih (hx.trans (h t x))

theorem standing_foldl_fst {α β : Type} (l : List α) (f : State × β → α → State × β) (p : State × β)
    (h : ∀ a x, Standing a.1 (f a x).1) (hx : Standing s p.1) : Standing s (l.foldl f p).1 := by
  induction l generalizing p with
  | nil => exact hx
  | cons x l ih => exact ih _ (hx.trans (h p x))

@[simp] theorem standing_foldl_iff {α : Type} (l : List α) (f : State → α → State) (h : ∀ a x, Standing s (f a x) ↔ Standing s a) :
    Standing s (l.foldl f t) ↔ Standing s t := by
  induction l generalizing t with
  | nil => rfl
  | cons x l ih => exact ih.trans (h t x)

/-- A pair's first component, by the equation that a match gives. -/
theorem Standing.of_fst {β : Type} {p : State × β} {b : β} (e : p = (t, b)) (h : Standing s p.1) : Standing s t := by
  subst e; exact h

/-! ## Operations that leave the partition and the pair -/

@[simp] theorem State.draw_standing (s : State) (n : Nat) : Standing s₀ (s.draw n).2 ↔ Standing s₀ s :=
  standing_iff_of_within (Z := [.free]) (by simp) (by simp) (by simp)
@[simp] theorem State.enqueue_standing (s : State) (p vc queue deckle : Nat) (m : Msg) (cls : Nat) : Standing s₀ (s.enqueue p vc queue deckle m cls) ↔ Standing s₀ s :=
  standing_iff_of_within (Z := [.link]) (by simp) (by simp) (by simp)
@[simp] theorem State.sendEp_standing (s : State) (ep vc queue deckle : Nat) (m : Msg) (cls : Nat) : Standing s₀ (s.sendEp ep vc queue deckle m cls) ↔ Standing s₀ s :=
  standing_iff_of_within (Z := [.link]) (by simp) (by simp) (by simp)
@[simp] theorem State.raise_standing (s : State) (code : Nat) (who : Recv) (source : Nat) (params : Nat) (about : Nat) : Standing s₀ (s.raise code who source params about) ↔ Standing s₀ s :=
  standing_iff_of_within (Z := [.mbx, .link]) (by simp) (by simp) (by simp)
@[simp] theorem State.discardHeld_standing (s : State) (test : Nat → Nat → Bool) : Standing s₀ (s.discardHeld test) ↔ Standing s₀ s :=
  standing_iff_of_within (Z := [.hub, .mbx]) (by simp) (by simp) (by simp)
@[simp] theorem State.putCell_standing (s : State) (t : Tier) (line : Nat) (c : Cell) : Standing s₀ (s.putCell t line c) ↔ Standing s₀ s :=
  standing_iff_of_within (Z := [.cells]) (by simp) (by simp) (by simp)
@[simp] theorem State.logRec_standing (s : State) (r : LogRec) : Standing s₀ (s.logRec r) ↔ Standing s₀ s :=
  standing_iff_of_within (Z := [.mem]) (by simp) (by simp) (by simp)
@[simp] theorem State.countCe_standing (s : State) (k : Nat) : Standing s₀ (s.countCe k) ↔ Standing s₀ s :=
  standing_iff_of_within (Z := [.mem]) (by simp) (by simp) (by simp)
@[simp] theorem State.countUe_standing (s : State) (g u : Nat) : Standing s₀ (s.countUe g u) ↔ Standing s₀ s :=
  standing_iff_of_within (Z := [.mem]) (by simp) (by simp) (by simp)
@[simp] theorem State.unpoison_standing (s : State) (t : Tier) (line : Nat) : Standing s₀ (s.unpoison t line) ↔ Standing s₀ s :=
  standing_iff_of_within (Z := [.mem]) (by simp) (by simp) (by simp)
@[simp] theorem State.storeCell_standing (s : State) (t : Tier) (line : Nat) (c : Cell) (full : Bool) : Standing s₀ (s.storeCell t line c full) ↔ Standing s₀ s :=
  standing_iff_of_within (Z := [.cells, .mem]) (by simp) (by simp) (by simp)
@[simp] theorem State.poisonLine_standing (s : State) (r : LineRef) (cause : Nat) : Standing s₀ (s.poisonLine r cause) ↔ Standing s₀ s :=
  standing_iff_of_within (Z := [.cells, .mem]) (by simp) (by simp) (by simp)
@[simp] theorem State.freeBuf_standing (s : State) (p vc n : Nat) : Standing s₀ (s.freeBuf p vc n) ↔ Standing s₀ s :=
  standing_iff_of_within (Z := [.link]) (by simp) (by simp) (by simp)
@[simp] theorem State.respond_standing (s : State) (q : Req) (r : MbxRsp) : Standing s₀ (s.respond q r) ↔ Standing s₀ s :=
  standing_iff_of_within (Z := [.mbx, .link, .pkg]) (by simp) (by simp) (by simp)
@[simp] theorem State.setJob_standing (s : State) (j : Nat) (x : Job) : Standing s₀ (s.setJob j x) ↔ Standing s₀ s :=
  standing_iff_of_within (Z := [.mem]) (by simp) (by simp) (by simp)
@[simp] theorem State.setLode_standing (s : State) (i : Nat) (l : Lode) : Standing s₀ (s.setLode i l) ↔ Standing s₀ s :=
  standing_iff_of_within (Z := [.lode]) (by simp) (by simp) (by simp)
@[simp] theorem State.trimCache_standing (s : State) (extra : Nat) : Standing s₀ (s.trimCache extra) ↔ Standing s₀ s :=
  standing_iff_of_within (Z := [.form]) (by simp) (by simp) (by simp)
@[simp] theorem State.retireRun_standing (s : State) (t : Tier) (first n : Nat) (ver : Bool) : Standing s₀ (s.retireRun t first n ver) ↔ Standing s₀ s :=
  standing_iff_of_within (Z := [.grans]) (by simp) (by simp) (by simp)
@[simp] theorem State.migrateEvent_standing (s : State) (x : Nat) (e : Extent) (m : Migration) (st : Status) : Standing s₀ (s.migrateEvent x e m st) ↔ Standing s₀ s :=
  standing_iff_of_within (Z := [.mbx, .link]) (by simp) (by simp) (by simp)
@[simp] theorem State.modDraft_standing (s : State) (i : Nat) (f : Draft → Draft) : Standing s₀ (s.modDraft i f) ↔ Standing s₀ s :=
  standing_iff_of_within (Z := [.rgn]) (by simp) (by simp) (by simp)
@[simp] theorem State.spill_standing (s : State) (d x n : Nat) : Standing s₀ (s.spill d x n) ↔ Standing s₀ s :=
  standing_iff_of_within (Z := [.mbx, .link]) (by simp) (by simp) (by simp)
@[simp] theorem State.modLode_standing (s : State) (i : Nat) (f : Lode → Lode) : Standing s₀ (s.modLode i f) ↔ Standing s₀ s :=
  standing_iff_of_within (Z := [.lode]) (by simp) (by simp) (by simp)
@[simp] theorem State.sendSnoops_standing (s : State) (l : Lode) (addr : Nat) (xs : List (Nat × Option Nat)) : Standing s₀ (s.sendSnoops l addr xs).1 ↔ Standing s₀ s :=
  standing_iff_of_within (Z := [.lode, .link]) (by simp) (by simp) (by simp)
@[simp] theorem State.leaveHome_standing (s : State) (i : Nat) (w : LodeWork) (d : Option DirState) : Standing s₀ (s.leaveHome i w d) ↔ Standing s₀ s :=
  standing_iff_of_within (Z := [.lode]) (by simp) (by simp) (by simp)
@[simp] theorem State.wroteHome_standing (s : State) (i : Nat) (w : LodeWork) (d : Option DirState) (m : Option Nat) : Standing s₀ (s.wroteHome i w d m) ↔ Standing s₀ s :=
  standing_iff_of_within (Z := [.lode]) (by simp) (by simp) (by simp)
@[simp] theorem State.leaveFaults_standing (s : State) (test : Waiter → Bool) : Standing s₀ (s.leaveFaults test) ↔ Standing s₀ s :=
  standing_iff_of_within (Z := [.xlat]) (by simp) (by simp) (by simp)
@[simp] theorem State.modCore_standing (s : State) (c : Nat) (f : Core → Core) : Standing s₀ (s.modCore c f) ↔ Standing s₀ s :=
  standing_iff_of_within (Z := [.eng]) (by simp) (by simp) (by simp)
@[simp] theorem State.modWork_standing (s : State) (w : Nat) (f : Work → Work) : Standing s₀ (s.modWork w f) ↔ Standing s₀ s :=
  standing_iff_of_within (Z := [.eng]) (by simp) (by simp) (by simp)
@[simp] theorem State.stopWork_standing (s : State) (w : Nat) (st : Status) (detail : Nat) : Standing s₀ (s.stopWork w st detail) ↔ Standing s₀ s :=
  standing_iff_of_within (Z := [.xlat, .eng]) (by simp) (by simp) (by simp)
@[simp] theorem State.measure_standing (s : State) : Standing s₀ s.measure.2 ↔ Standing s₀ s :=
  standing_iff_of_within (Z := [.free]) (by simp) (by simp) (by simp)
@[simp] theorem State.sendCpl_standing (s : State) (ep d cls queue : Nat) (body : Nat) : Standing s₀ (s.sendCpl ep d cls queue body) ↔ Standing s₀ s :=
  standing_iff_of_within (Z := [.mbx, .link]) (by simp) (by simp) (by simp)
@[simp] theorem State.freeWork_standing (s : State) (w : Nat) : Standing s₀ (s.freeWork w) ↔ Standing s₀ s :=
  standing_iff_of_within (Z := [.eng]) (by simp) (by simp) (by simp)
@[simp] theorem State.dropKernels_standing (s : State) : Standing s₀ s.dropKernels ↔ Standing s₀ s :=
  standing_iff_of_within (Z := [.eng]) (by simp) (by simp) (by simp)
@[simp] theorem State.landed_standing (s : State) (c e slot w : Nat) (mseq : Option Nat) : Standing s₀ (s.landed c e slot w mseq) ↔ Standing s₀ s :=
  standing_iff_of_within (Z := [.eng]) (by simp) (by simp) (by simp)
@[simp] theorem State.endParts_standing (s : State) (test : CachePart → Bool) : Standing s₀ (s.endParts test) ↔ Standing s₀ s :=
  standing_iff_of_within (Z := [.form]) (by simp) (by simp) (by simp)
@[simp] theorem State.touchCtx_standing (s : State) (seq : Nat) : Standing s₀ (s.touchCtx seq) ↔ Standing s₀ s :=
  standing_iff_of_within (Z := [.eng]) (by simp) (by simp) (by simp)
@[simp] theorem State.modSeq_standing (s : State) (q : Nat) (f : SeqCtx → SeqCtx) : Standing s₀ (s.modSeq q f) ↔ Standing s₀ s :=
  standing_iff_of_within (Z := [.attn]) (by simp) (by simp) (by simp)
@[simp] theorem State.setChan_standing (s : State) (core ch : Nat) (c : Channel) : Standing s₀ (s.setChan core ch c) ↔ Standing s₀ s :=
  standing_iff_of_within (Z := [.couch]) (by simp) (by simp) (by simp)
@[simp] theorem State.modChain_standing (s : State) (core ch : Nat) (f : Chain → Chain) : Standing s₀ (s.modChain core ch f) ↔ Standing s₀ s :=
  standing_iff_of_within (Z := [.couch]) (by simp) (by simp) (by simp)

end Sys2Proof.Machine
end

section
/-! PROOFS. Operations under which a state keeps its standing, in the order of the model: each follows from the operations it
is made of. -/

namespace Sys2Proof.Machine

variable {s₀ : State}

@[simp] theorem State.modDeckle_standing (s : State) (d : Nat) (f : Deckle → Deckle) :
    Standing s₀ (s.modDeckle d f) ↔ Standing s₀ s :=
  standing_congr (fun k => by simp only [State.modDeckle, NMap.find_upd]; split <;> simp) rfl
@[simp] theorem State.modExtent_standing (s : State) (x : Nat) (f : Extent → Extent) :
    Standing s₀ (s.modExtent x f) ↔ Standing s₀ s := by simp [State.modExtent]
@[simp] theorem State.mismatch_standing (s : State) (d : Nat) :
    Standing s₀ (s.mismatch d) ↔ Standing s₀ s := by simp [State.mismatch]
/-- A record is appended to the stream under the next number. -/
theorem standing_append (s : State) {r : MirRec} (n : Nat) (hr : r.mseq = s.pair.mseq + 1) : Standing s { s with pair := { s.pair with
    mseq := s.pair.mseq + 1, retained := s.pair.retained ++ [r], ackedAt := n } } where
  deckles _ := rfl
  pair := rfl
  mseq := Nat.le_succ _
  retained q hq := (List.mem_append.mp hq).imp_right fun h => by rw [List.mem_singleton.mp h, hr]; exact Nat.lt_succ_self _
@[simp] theorem State.pushRecord_standing (s : State) (mk : Nat → Msg) (hx : Standing s₀ s) :
    Standing s₀ (s.pushRecord mk).1 := hx.trans (by
  unfold State.pushRecord
  extract_lets n m p src s1
  have h1 : Standing s s1 := standing_append s _ rfl
  dsimp only
  split
  · exact (State.enqueue_standing ..).mpr h1
  · exact h1)
@[simp] theorem State.pushMeta_standing (s : State) (ep rtag : Nat) (fw : Bool) (last : Bool) (r : MetaRec) (hx : Standing s₀ s) :
    Standing s₀ (s.pushMeta ep rtag fw last r) := hx.trans (by simp [State.pushMeta])
@[simp] theorem State.markDirty_standing (s : State) (r : LineRef) :
    Standing s₀ (s.markDirty r) ↔ Standing s₀ s := by simp [State.markDirty]
@[simp] theorem State.mirrorWrite_standing (s : State) (r : LineRef) (c : Cell) (ep rtag : Nat) (fw last : Bool) (hx : Standing s₀ s) :
    Standing s₀ (s.mirrorWrite r c ep rtag fw last).1 := hx.trans (by simp [State.mirrorWrite])
@[simp] theorem State.fetchLine_standing (s : State) (r : LineRef) (hx : Standing s₀ s) :
    Standing s₀ (s.fetchLine r) := hx.trans (by
  have hfetch : ∀ fs, Standing s { s with pair := { s.pair with fetches := fs } } :=
    fun fs => ⟨fun _ => rfl, rfl, le_refl _, fun _ h => .inl h⟩
  unfold State.fetchLine
  dsimp only
  split
  · exact .refl s
  · simp [hfetch])
@[simp] theorem State.charge_standing (s : State) (d cls kind pj : Nat) :
    Standing s₀ (s.charge d cls kind pj) ↔ Standing s₀ s := by simp [State.charge]
@[simp] theorem State.chargeTier_standing (s : State) (d cls : Nat) (t : Tier) (pj n : Nat) :
    Standing s₀ (s.chargeTier d cls t pj n) ↔ Standing s₀ s := by unfold State.chargeTier; split <;> simp
@[simp] theorem State.dualWrite_standing (s : State) (r : LineRef) (c : Cell) (full : Bool) (hx : Standing s₀ s) :
    Standing s₀ (s.dualWrite r c full) := hx.trans (by unfold State.dualWrite; split <;> simp)
@[simp] theorem State.storeLine_standing (s : State) (r : LineRef) (c : Cell) (full : Bool) (hx : Standing s₀ s) :
    Standing s₀ (s.storeLine r c full) := hx.trans (by simp [State.storeLine])
@[simp] theorem State.endPoison_standing (s : State) (r : LineRef) (cause : Nat) (hx : Standing s₀ s) :
    Standing s₀ (s.endPoison r cause).1 := hx.trans (by simp [State.endPoison])
@[simp] theorem State.reconstruct_standing (s : State) (r : LineRef) (step4 : Bool) (cls : Nat) (hx : Standing s₀ s) :
    Standing s₀ (s.reconstruct r step4 cls).1 := hx.trans (by unfold State.reconstruct; dsimp only; (repeat' split) <;> simp)
@[simp] theorem State.readLineN_standing (s : State) (r : LineRef) (cls : Nat) (hx : Standing s₀ s) :
    Standing s₀ (s.readLineN r cls).1 := hx.trans (by unfold State.readLineN; dsimp only; (repeat' split) <;> simp)
@[simp] theorem State.readLine_standing (s : State) (r : LineRef) (cls : Nat) (hx : Standing s₀ s) :
    Standing s₀ (s.readLine r cls).1 := hx.trans (by simp [State.readLine])
@[simp] theorem State.writeWhole_standing (s : State) (r : LineRef) (data : Line) (full : Bool) (o : Origin) (hx : Standing s₀ s) :
    Standing s₀ (s.writeWhole r data full o).1 := hx.trans (by simp [State.writeWhole])
@[simp] theorem State.writeLine_standing (s : State) (r : LineRef) (data : Line) (mask : BitVec 64) (full : Bool) (o : Origin) (hx : Standing s₀ s) :
    Standing s₀ (s.writeLine r data mask full o).1 := hx.trans (by
  unfold State.writeLine; dsimp only
  (repeat' split) <;> (try simp) <;> (have h1 := Standing.of_fst (s := s) (by assumption) (by simp); simp [h1]))
@[simp] theorem State.closeAsm_standing (s : State) (stripe : Nat) (hx : Standing s₀ s) :
    Standing s₀ (s.closeAsm stripe) := hx.trans (by
  unfold State.closeAsm
  split
  · simp
  · exact standing_foldl _ _ (fun a x => by split <;> simp) (by simp))
@[simp] theorem State.closeAsmOf_standing (s : State) (t : Tier) (line : Nat) (hx : Standing s₀ s) :
    Standing s₀ (s.closeAsmOf t line) := hx.trans (by simp [State.closeAsmOf])
@[simp] theorem State.writeBytes_standing (s : State) (d pva n v : Nat) (hx : Standing s₀ s) :
    Standing s₀ (s.writeBytes d pva n v) := hx.trans (by
  unfold State.writeBytes
  split
  · exact standing_foldl_fst _ _ _ (fun a x => by simp) (.refl _)
  · simp)
@[simp] theorem State.freeEp_standing (s : State) (ep : Nat) :
    Standing s₀ (s.freeEp ep) ↔ Standing s₀ s := by simp [State.freeEp]
@[simp] theorem State.freeIfIdle_standing (s : State) (ep : Nat) :
    Standing s₀ (s.freeIfIdle ep) ↔ Standing s₀ s := by unfold State.freeIfIdle; split <;> simp
@[simp] theorem State.fillArea_standing (s : State) (q : Req) (a : Ans) (hx : Standing s₀ s) :
    Standing s₀ (s.fillArea q a).1 := hx.trans (by simp [State.fillArea])
@[simp] theorem State.answerNow_standing (s : State) (q : Req) (code accepted : Nat) (a : Ans) (dup : Bool) (hx : Standing s₀ s) :
    Standing s₀ (s.answerNow q code accepted a dup) := hx.trans (by simp [State.answerNow])
@[simp] theorem State.answer_standing (s : State) (r : Nat) (a : Ans) (hx : Standing s₀ s) :
    Standing s₀ (s.answer r a) := hx.trans (by unfold State.answer; split <;> simp)
@[simp] theorem State.answerOpt_standing (s : State) (r : Option Nat) (a : Ans) (hx : Standing s₀ s) :
    Standing s₀ (s.answerOpt r a) := hx.trans (by unfold State.answerOpt; split <;> simp)
@[simp] theorem State.mirrorCommit_standing (old new : State) (ep rtag : Nat) (fw : Bool) (done : List MetaRec) (hx : Standing s₀ new) :
    Standing s₀ (old.mirrorCommit new ep rtag fw done).1 := hx.trans (by unfold State.mirrorCommit; (repeat' split) <;> simp [standing_foldl])
@[simp] theorem State.commitFw_standing (old new : State) (hx : Standing s₀ new) :
    Standing s₀ (old.commitFw new) := hx.trans (by simp [State.commitFw])
@[simp] theorem State.settle_standing (old new : State) (r : Option Nat) (a : Ans) (hx : Standing s₀ new) :
    Standing s₀ (old.settle new r a) := hx.trans (by
  unfold State.settle
  split
  · simp
  · exact State.answer_standing _ _ _ ((standing_mbx _).mpr (State.mirrorCommit_standing _ _ _ _ _ _ (.refl _))))
@[simp] theorem State.closeReq_standing (s : State) (ep tag : Nat) :
    Standing s₀ (s.closeReq ep tag).1 ↔ Standing s₀ s := by unfold State.closeReq; split <;> simp
@[simp] theorem State.answerReq_standing (s : State) (ep tag deckle : Nat) (st : Status) (len : Nat) (data : List Line) (aux : Nat) :
    Standing s₀ (s.answerReq ep tag deckle st len data aux) ↔ Standing s₀ s := by simp [State.answerReq]
@[simp] theorem State.countDrain_standing (s : State) (x : Job) (discard : Bool) :
    Standing s₀ (s.countDrain x discard) ↔ Standing s₀ s := by simp [State.countDrain]
@[simp] theorem State.finishJob_standing (s : State) (j : Nat) :
    Standing s₀ (s.finishJob j) ↔ Standing s₀ s := by unfold State.finishJob; (repeat' split) <;> simp
@[simp] theorem State.finishJobs_standing (s : State) :
    Standing s₀ s.finishJobs ↔ Standing s₀ s := by simp [State.finishJobs]
@[simp] theorem State.grantLode_standing (s : State) (ep tag deckle addr gstate : Nat) (st : Status) (data : Option Line) :
    Standing s₀ (s.grantLode ep tag deckle addr gstate st data) ↔ Standing s₀ s := by simp [State.grantLode]
@[simp] theorem State.failLode_standing (s : State) (deckle : Nat) (w : LodeWork) (st : Status) :
    Standing s₀ (s.failLode deckle w st) ↔ Standing s₀ s := by unfold State.failLode; (repeat' split) <;> simp
@[simp] theorem State.lodeDown_standing (s : State) (i cause ep : Nat) (hx : Standing s₀ s) :
    Standing s₀ (s.lodeDown i cause ep) := hx.trans (by
  unfold State.lodeDown; dsimp only
  (repeat' split) <;> simp (disch := simp) [standing_foldl])
@[simp] theorem State.lodesDown_standing (s : State) (test : Nat → Lode → Bool) (cause ep : Nat) (hx : Standing s₀ s) :
    Standing s₀ (s.lodesDown test cause ep) := hx.trans (standing_foldl _ _ (fun a i => by simp) (.refl _))
@[simp] theorem State.endMigration_standing (s : State) (x : Nat) (st : Status) :
    Standing s₀ (s.endMigration x st) ↔ Standing s₀ s := by unfold State.endMigration; split <;> simp
@[simp] theorem State.revokeOne_standing (s : State) (x cause timeoutUs : Nat) (reply : Option Nat) (hx : Standing s₀ s) :
    Standing s₀ (s.revokeOne x cause timeoutUs reply) := hx.trans (by
  unfold State.revokeOne; dsimp only
  (repeat' split) <;> simp (disch := simp) [standing_foldl])
@[simp] theorem State.runPublishes_standing (s : State) (i : Nat) (ws : List PubWait) (hx : Standing s₀ s) :
    Standing s₀ (s.runPublishes i ws) := hx.trans (by
  clear hx
  induction ws generalizing s with
  | nil => simp [State.runPublishes]
  | cons w ws ih =>
    have ih' : ∀ u, Standing s u → Standing s (u.runPublishes i ws) :=
      fun u h => h.trans (ih u)
    unfold State.runPublishes
    dsimp only
    split
    · exact ih' _ (by simp)
    · split
      · simp
      · (repeat' split) <;> exact ih' _ (by simp))
@[simp] theorem State.pumpPublishes_standing (s : State) (i : Nat) (hx : Standing s₀ s) :
    Standing s₀ (s.pumpPublishes i) := hx.trans (by unfold State.pumpPublishes; split <;> simp)
@[simp] theorem State.endDraft_standing (s : State) (i cause : Nat) (hx : Standing s₀ s) :
    Standing s₀ (s.endDraft i cause) := hx.trans (by
  unfold State.endDraft
  dsimp only
  split
  · simp
  · exact State.pumpPublishes_standing _ _ (standing_foldl _ _ (fun a g => by simp) (by simp)))
@[simp] theorem State.revokeExtent_standing (s : State) (x cause timeoutUs : Nat) (reply : Option Nat) (hx : Standing s₀ s) :
    Standing s₀ (s.revokeExtent x cause timeoutUs reply) := hx.trans (by unfold State.revokeExtent; dsimp only; (repeat' split) <;> simp)
@[simp] theorem State.retainOne_standing (s : State) (i : Nat) (hx : Standing s₀ s) :
    Standing s₀ (s.retainOne i) := hx.trans (by
  have h1 : ∀ (g : Rgn) (xs : List Nat), Standing s
      (xs.foldl (fun a x => a.revokeExtent x 2 1000 none) { s with rgn := g }) := fun g xs =>
    standing_foldl _ _ (fun a x => by simp) ((standing_rgn g).mpr (.refl _))
  unfold State.retainOne
  split
  · simp
  · dsimp only
    split
    · split <;> simp
    · split
      · exact (standing_rgn _).mpr (h1 _ _)
      · exact h1 _ _)
@[simp] theorem State.checkRetention_standing (s : State) (hx : Standing s₀ s) :
    Standing s₀ s.checkRetention := hx.trans (standing_foldl _ _ (fun a i => by simp) (.refl _))
@[simp] theorem State.completeHome_standing (s : State) (i : Nat) (l : Lode) (w : LodeWork) (hx : Standing s₀ s) :
    Standing s₀ (s.completeHome i l w) := hx.trans (by
  unfold State.completeHome; dsimp only
  (repeat' split) <;> simp (disch := simp))
@[simp] theorem State.startHome_standing (s : State) (i : Nat) (l : Lode) (w : LodeWork) (hx : Standing s₀ s) :
    Standing s₀ (s.startHome i l w) := hx.trans (by
  unfold State.startHome; dsimp only
  (repeat' split) <;> simp (disch := simp))
@[simp] theorem State.ackHome_standing (s : State) (i : Nat) :
    Standing s₀ (s.ackHome i) ↔ Standing s₀ s := by
  unfold State.ackHome
  split
  · rfl
  · exact standing_foldl_iff _ _ fun a w => by split <;> simp
@[simp] theorem State.runHome_standing (s : State) (i n : Nat) (hx : Standing s₀ s) :
    Standing s₀ (s.runHome i n) := hx.trans (by
  clear hx
  induction n generalizing s with
  | zero => exact .refl _
  | succ n ih =>
    unfold State.runHome
    split
    · exact .refl _
    · split
      · exact .refl _
      · split
        · exact .refl _
        · exact (State.startHome_standing _ _ _ _ (.refl _)).trans (ih _))
@[simp] theorem State.pumpLode_standing (s : State) (i : Nat) (hx : Standing s₀ s) :
    Standing s₀ (s.pumpLode i) := hx.trans (by
  unfold State.pumpLode; dsimp only
  simp (disch := simp))
@[simp] theorem State.pumpLodes_standing (s : State) (hx : Standing s₀ s) :
    Standing s₀ s.pumpLodes := hx.trans (standing_foldl _ _ (fun a i => by simp) (.refl _))
@[simp] theorem State.mirrorItem_standing (s : State) (i : Option ItemRec) (ended : Bool) (hx : Standing s₀ s) :
    Standing s₀ (s.mirrorItem i ended) := hx.trans (by unfold State.mirrorItem; split <;> simp)
@[simp] theorem State.settleEnergy_standing (s : State) (d : Nat) (yellow : Bool) (est nj : Nat) (hx : Standing s₀ s) :
    Standing s₀ (s.settleEnergy d yellow est nj) := hx.trans (by simp [State.settleEnergy])
@[simp] theorem State.closeWork_standing (s : State) (w : Nat) (x : Work) (nj : Nat) (hx : Standing s₀ s) :
    Standing s₀ (s.closeWork w x nj) := hx.trans (by simp [State.closeWork])
@[simp] theorem State.endWork_standing (s : State) (w : Nat) (x : Work) (nj : Nat) (body : Nat) (hx : Standing s₀ s) :
    Standing s₀ (s.endWork w x nj body) := hx.trans (by simp [State.endWork])
@[simp] theorem State.finishWork_standing (s : State) (w : Nat) (x : Work) (nj body : Nat) (hx : Standing s₀ s) :
    Standing s₀ (s.finishWork w x nj body) := hx.trans (by simp [State.finishWork])
@[simp] theorem State.endLaunch_standing (s : State) (w : Nat) (x : Work) (b : LaunchB) (hx : Standing s₀ s) :
    Standing s₀ (s.endLaunch w x b) := hx.trans (by unfold State.endLaunch; split <;> simp)
@[simp] theorem State.endAdapters_standing (s : State) (test : Adapter → Bool) (hx : Standing s₀ s) :
    Standing s₀ (s.endAdapters test) := hx.trans
  ((State.endParts_standing _ _).mpr (standing_foldl _ _ (fun a x => by simp) (by simp)))
@[simp] theorem State.retireMap_standing (s : State) (uid : Nat) (hx : Standing s₀ s) :
    Standing s₀ (s.retireMap uid) := hx.trans (by simp [State.retireMap])
@[simp] theorem State.endRdf_standing (s : State) (w : Nat) (x : Work) (tag : Nat) (st : Status) (hx : Standing s₀ s) :
    Standing s₀ (s.endRdf w x tag st) := hx.trans (by simp [State.endRdf])
@[simp] theorem State.endTopk_standing (s : State) (w : Nat) (x : Work) (sc : Scan) (cands : Nat) (hx : Standing s₀ s) :
    Standing s₀ (s.endTopk w x sc cands) := hx.trans (by unfold State.endTopk; dsimp only; (repeat' split) <;> simp)
@[simp] theorem State.dropCtx_standing (s : State) (d : Nat) :
    Standing s₀ (s.dropCtx d) ↔ Standing s₀ s := by
  unfold State.dropCtx
  split
  · split
    · simp
    · simp
  · simp
@[simp] theorem State.endAttn_standing (old s : State) (w : Nat) (x : Work) (st : Status) (detail seq tiles attended vstat : Nat) (hx : Standing s₀ s) :
    Standing s₀ (old.endAttn s w x st detail seq tiles attended vstat) := hx.trans (by
  unfold State.endAttn
  extract_lets m run e body
  have h1 : Standing s m.1 := by simp [m]
  have h2 : Standing s e.2 := by
    unfold e
    split
    · simp [h1]
    · exact h1
  exact State.finishWork_standing _ _ _ _ _ h2)
@[simp] theorem State.runAttn_standing (s : State) (w : Nat) (x : Work) (hx : Standing s₀ s) :
    Standing s₀ (s.runAttn w x) := hx.trans (by
  unfold State.runAttn
  split
  · split <;> (try dsimp only) <;> refine State.endAttn_standing _ _ _ _ _ _ _ _ _ _ ?_ <;> simp
  · split
    · simp
    · dsimp only
      (repeat' split) <;> refine State.endAttn_standing _ _ _ _ _ _ _ _ _ _ ?_
      · simp
      · simp
      · exact (State.dropCtx_standing _ _).mpr ((standing_attn _).mpr ((State.modCore_standing _ _ _).mpr (.refl _)))
  · simp)
@[simp] theorem State.pumpAttn_standing (s : State) (hx : Standing s₀ s) :
    Standing s₀ s.pumpAttn := hx.trans (standing_foldl _ _ (fun a w => by (repeat' split) <;> simp) (.refl _))
@[simp] theorem State.pumpReady_standing (s : State) (hx : Standing s₀ s) :
    Standing s₀ s.pumpReady := hx.trans (State.pumpAttn_standing _
  (standing_foldl _ _ (fun a w => by (repeat' split) <;> simp) (.refl _)))
@[simp] theorem State.chainCpl_standing (s : State) (core ch : Nat) (k : Chain) (st : Status) (halted : Bool) (detail : Nat) (hx : Standing s₀ s) :
    Standing s₀ (s.chainCpl core ch k st halted detail) := hx.trans (by simp [State.chainCpl])
@[simp] theorem State.endChain_standing (s : State) (core ch : Nat) (st : Status) (halted : Bool) (detail : Nat) (hx : Standing s₀ s) :
    Standing s₀ (s.endChain core ch st halted detail) := hx.trans (by unfold State.endChain; dsimp only; (repeat' split) <;> simp)
@[simp] theorem State.writeBack_standing (s : State) (d pva : Nat) (st : Status) (bad : Bool) (retries tiles : Nat) (hx : Standing s₀ s) :
    Standing s₀ (s.writeBack d pva st bad retries tiles).1 := hx.trans (by
  unfold State.writeBack; dsimp only
  (repeat' split) <;> (try simp) <;> (have h1 := Standing.of_fst (s := s) (by assumption) (by simp); simp [h1]))
@[simp] theorem State.closeDesc_standing (s : State) (core ch : Nat) (st : Status) (bad : Bool) (detail : Nat) (hx : Standing s₀ s) :
    Standing s₀ (s.closeDesc core ch st bad detail).1 := hx.trans (by
  unfold State.closeDesc; dsimp only
  (repeat' split) <;> simp (disch := simp))
@[simp] theorem State.endDesc_standing (s : State) (core ch : Nat) (st : Status) (bad : Bool) (detail : Nat) (hx : Standing s₀ s) :
    Standing s₀ (s.endDesc core ch st bad detail) := hx.trans (by unfold State.endDesc; split <;> simp)
@[simp] theorem State.stopChain_standing (s : State) (core ch : Nat) (st : Status) (hx : Standing s₀ s) :
    Standing s₀ (s.stopChain core ch st) := hx.trans (by simp [State.stopChain])
@[simp] theorem State.stopChains_standing (s : State) (test : Chain → Bool) (only : Option Nat) (st : Status) (hx : Standing s₀ s) :
    Standing s₀ (s.stopChains test only st).1 := 
  hx.trans (standing_foldl_fst _ _ _ (fun a key => by
    split
    · exact .refl _
    · extract_lets core ch c gone s1 s2
      have h2 : Standing a.1 s2 := standing_foldl _ _ (fun b k => by simp) (by simp [s1])
      split
      · split
        · exact State.stopChain_standing _ _ _ _ h2
        · exact h2
      · exact h2) (.refl _))
@[simp] theorem State.settleDesc_standing (s : State) (core ch : Nat) (hx : Standing s₀ s) :
    Standing s₀ (s.settleDesc core ch) := hx.trans (by unfold State.settleDesc; split <;> simp)
@[simp] theorem State.pumpCouch_standing (s : State) (hx : Standing s₀ s) :
    Standing s₀ s.pumpCouch := hx.trans (standing_foldl _ _ (fun a k => by simp) (.refl _))
@[simp] theorem State.endStopped_standing (s : State) (w : Nat) (hx : Standing s₀ s) :
    Standing s₀ (s.endStopped w) := hx.trans (by unfold State.endStopped; (repeat' split) <;> simp)
@[simp] theorem State.stopItem_standing (s : State) (w : Nat) (st : Status) (hx : Standing s₀ s) :
    Standing s₀ (s.stopItem w st) := hx.trans (by unfold State.stopItem; split <;> simp)
@[simp] theorem State.stopItems_standing (s : State) (test : Work → Bool) (st : Status) (hx : Standing s₀ s) :
    Standing s₀ (s.stopItems test st).1 := hx.trans (State.pumpAttn_standing _ (standing_foldl _ _ (fun a w => by simp) (.refl _)))
@[simp] theorem State.answerCommitted_standing (s : State) (hx : Standing s₀ s) :
    Standing s₀ s.answerCommitted := hx.trans (standing_foldl _ _ (fun a r => by (repeat' split) <;> simp) (.refl _))
@[simp] theorem State.endTenant_standing (s : State) (d : Nat) (hx : Standing s₀ s) :
    Standing s₀ (s.endTenant d) := hx.trans (by
  unfold State.endTenant
  extract_lets mine drafts s1 s2 grant rgn retr attn xlat eng s3
  have h1 : Standing s s1 := standing_foldl _ _ (fun a i => by simp) (.refl _)
  have h2 : Standing s s2 := standing_foldl _ _ (fun a m => by simp) h1
  have h3 : Standing s s3 := (standing_rgn_retr_attn_xlat_eng _ _ _ _ _).mpr h2
  simp [h3])
@[simp] theorem State.endLeases_standing (s : State) (d : Nat) (hx : Standing s₀ s) :
    Standing s₀ (s.endLeases d) := hx.trans (by
  unfold State.endLeases
  extract_lets eps rcs s1 part s2
  have h1 : Standing s s1 := standing_foldl _ _ (fun a r => by simp) (.refl _)
  have h2 : Standing s s2 := (standing_part _ (by rfl)).mpr h1
  exact standing_foldl _ _ (fun a e => by simp) ((State.discardHeld_standing _ _).mpr h2))
@[simp] theorem deckleDissolveAct_standing (p : DeckleP) (u : State) (r : Nat) (hx : Standing s₀ u) :
    Standing s₀ (deckleDissolveAct p u r).1 := hx.trans (by
  unfold deckleDissolveAct
  extract_lets d exts bytes x s1 a b s2 s3
  have h1 : Standing u s1 := by simp [s1]
  have h2 : Standing u a.1 := State.stopItems_standing _ _ _ h1
  have h3 : Standing u b.1 := State.stopChains_standing _ _ _ _ h2
  have h4 : Standing u s2 := standing_foldl _ _ (fun a i => by simp) h3
  have h5 : Standing u s3 := State.endTenant_standing _ _ (State.lodesDown_standing _ _ _ _ h4)
  simp [h5])
@[simp] theorem State.pumpMir_standing (s : State) (hx : Standing s₀ s) :
    Standing s₀ s.pumpMir := hx.trans
  (State.pumpCouch_standing _ (State.pumpReady_standing _ (by simp)))

end Sys2Proof.Machine
end

section
/-! PROOFS. A pair is armed, formed, dissolved, reported, watched, handed over and forced (R305, R313, R316 to R322). -/

namespace Sys2Proof.Machine

variable {s t u : State}

/-- What the stream of records does not hold is the same. -/
theorem StreamOnly.congr {α : Type} (h : StreamOnly s t) (f : Pair → α)
    (hf : ∀ p m l a g, f { p with mseq := m, retained := l, ackedAt := a, fetches := g } = f p) : f t.pair = f s.pair :=
  (congrArg f h).trans (hf _ _ _ _ _)

theorem State.acting_streamOnly (s : State) (c : Cmd) (q : Req) : StreamOnly s (s.acting c q) := (s.acting_approach c q).pair

/-- An active that leaves has no role and no state, whatever it then answers and ends. -/
theorem State.leavePair_leaves (s : State) : s.leavePair.pair.role = .none ∧ s.leavePair.pair.state = .none := by
  unfold State.leavePair
  extract_lets s1 sec pair s2
  have hpair : StreamOnly s2 s2.pumpMir := (State.pumpMir_standing _ (Standing.refl s2)).pair
  exact ⟨hpair.congr (·.role) fun _ _ _ _ _ => rfl, hpair.congr (·.state) fun _ _ _ _ _ => rfl⟩

theorem State.sendCtrl_pair (s : State) (k : MirCtrlKind) : (s.sendCtrl k).pair = s.pair := by
  have hw : Within [.link] s (s.sendCtrl k) := by simp
  exact hw.1 .pair (by simp)

theorem State.blank_role (s : State) : s.blank.pair.role = .none := rfl

theorem State.tryWitnesses_witnesses (s : State) : s.tryWitnesses.pair.witnesses = s.pair.witnesses := by
  unfold State.tryWitnesses
  split <;> rfl

theorem pairDissolveAct_role (u : State) (r : Nat) :
    (pairDissolveAct u r).1.pair.role = .none ∧ ∀ a ∈ (pairDissolveAct u r).2, a.area = 0 := by
  cases hr : u.pair.role == .active with
  | true =>
    simp only [pairDissolveAct, hr, if_true]
    exact ⟨(State.leavePair_leaves _).1, by simp [okAns]⟩
  | false =>
    simp only [pairDissolveAct, hr, Bool.false_eq_true, if_false]
    exact ⟨State.blank_role _, by simp⟩

theorem healthReportAct_answers (u : State) (r : Nat) :
    ∃ a, healthReportAct u r = (u, some a) ∧ a.status = .ok ∧ a.area = 0 ∧ a.rlen = 128 := by
  unfold healthReportAct
  split
  · split
    · exact ⟨_, rfl, rfl, rfl, rfl⟩
    · exact ⟨_, rfl, rfl, rfl, rfl⟩
  · exact ⟨_, rfl, rfl, rfl, rfl⟩

/-- A fenced device has no role. -/
theorem State.fence_leaves (s : State) : s.fence.pair.state = .fenced ∧ s.fence.pair.role = .none := ⟨rfl, rfl⟩

end Sys2Proof.Machine

namespace Sys2Proof

open Machine

/-- Settles O45: what each command makes of the pair, which its answer leaves but for the stream of records; a device that
leaves has no role whatever it then answers. -/
theorem pairCommandsComplete : Obligations.PairCommandsComplete := by
  unfold Obligations.PairCommandsComplete
  refine ⟨?arm, ?form, ?dissolve, ?armEnd, ?status, ?health, ?witnessSet, ?witnessReport, ?handover, ?force, ?out⟩
  case arm =>
    intro q p s hpass
    refine completes_answering_posting (Z := [.link, .pair]) rfl hpass rfl rfl (by simp) (by simp) (by simp) fun t ht hp hans => ⟨hans, ?_, ?_⟩
    · rw [show t.pair.state = _ from hp.pair.congr (·.state) fun _ _ _ _ _ => rfl, State.sendCtrl_pair]
      rfl
    · rw [show t.pair.partnerId = _ from hp.pair.congr (·.partnerId) fun _ _ _ _ _ => rfl, State.sendCtrl_pair]
      rfl
  case form =>
    intro q p s hpass
    refine completes_posting rfl hpass rfl (by simp) fun t ht hp => ⟨?_, ?_, ?_⟩
    · rw [show t.pair.partnerId = _ from hp.pair.congr (·.partnerId) fun _ _ _ _ _ => rfl, State.sendCtrl_pair]
      rfl
    · rw [show t.pair.reply = _ from hp.pair.congr (·.reply) fun _ _ _ _ _ => rfl, State.sendCtrl_pair]
      rfl
    · rw [show t.pair.share = _ from hp.pair.congr (·.share) fun _ _ _ _ _ => rfl, State.sendCtrl_pair]
      rfl
  case dissolve =>
    intro q p s hpass
    obtain ⟨hrole, harea⟩ := pairDissolveAct_role (s.acting (pairDissolveCmd p) q) (s.replyOf (pairDissolveCmd p) q)
    exact completes_posting rfl hpass rfl harea fun t ht hp => (hp.pair.congr (·.role) fun _ _ _ _ _ => rfl).trans hrole
  case armEnd =>
    intro s harmed
    refine .of_next (by simp only [exec, execPairArmTimeout, harmed, ne_eq, not_true_eq_false, if_false]; rfl) ⟨rfl, rfl, ?_⟩
    have hnow := s.reach_now (s.pair.armedAt + 10000000000)
    generalize s.reach (s.pair.armedAt + 10000000000) = u at hnow ⊢
    have hw : Within [.link] u (u.sendCtrl .dissolve) := by simp
    show _ ≤ (u.sendCtrl .dissolve).now
    rw [show (u.sendCtrl .dissolve).now = _ from hw.1 .now (by simp), hnow]
    exact Nat.le_max_right _ _
  case status =>
    intro q s hpass
    exact completes_answering (Z := []) rfl hpass rfl rfl (.refl _ _) (by simp) (by simp) fun t ht hans => ⟨_, hans, rfl, rfl⟩
  case health =>
    intro q s hpass
    obtain ⟨a, hact, hok, harea, hlen⟩ := healthReportAct_answers (s.acting healthReportCmd q) (s.replyOf healthReportCmd q)
    exact completes_answering (Z := []) rfl hpass hact harea (.refl _ _) (by simp) (by simp) fun t ht hans => ⟨a, hans, hok, hlen⟩
  case witnessSet =>
    intro q p s hpass
    refine completes_answering_posting (Z := [.pair]) rfl hpass rfl rfl (by simp) (by simp) (by simp) fun t ht hp hans => ⟨hans, ?_⟩
    rw [show t.pair.witnesses = _ from hp.pair.congr (·.witnesses) fun _ _ _ _ _ => rfl]
    simp [State.modPair, Function.comp_def]
  case witnessReport =>
    intro q p s hpass
    refine completes_answering_posting (Z := [.link, .pair]) rfl hpass rfl rfl (by simp) (by simp) (by simp) fun t ht hp hans => ⟨hans, ?_⟩
    rw [show t.pair.witnesses = _ from hp.pair.congr (·.witnesses) fun _ _ _ _ _ => rfl, State.tryWitnesses_witnesses]
    intro w hw hep
    obtain ⟨v, -, rfl⟩ := List.mem_map.mp hw
    split at hep
    · next hv => simp [hv]
    · next hv => exact absurd hep hv
  case handover =>
    intro q p s hpass
    refine completes_posting rfl hpass rfl (by simp) fun t ht hp => ⟨?_, ?_, ?_⟩
    · exact congrArg Option.isSome (hp.pair.congr (·.handover) fun _ _ _ _ _ => rfl)
    · exact hp.pair.congr (·.reply) fun _ _ _ _ _ => rfl
    · exact (hp.pair.congr (·.role) fun _ _ _ _ _ => rfl).trans ((s.acting_streamOnly _ q).congr (·.role) fun _ _ _ _ _ => rfl)
  case force =>
    intro q p s hpass
    have hterm : (s.acting (failoverForceCmd p) q).pair.term = s.pair.term :=
      (s.acting_streamOnly _ q).congr (·.term) fun _ _ _ _ _ => rfl
    refine completes_posting rfl hpass rfl (by simp) fun t ht hp => ⟨?_, ?_⟩
    · exact congrArg (Option.map (·.1)) (hp.pair.congr (·.promoting) fun _ _ _ _ _ => rfl)
    · rw [← hterm]
      exact hp.pair.congr (·.term) fun _ _ _ _ _ => rfl
  case out =>
    intro q s hpass hrole
    have hact : (s.actingBr brFailoverOutCmd q).pair.role = .active := by
      rw [show (s.actingBr brFailoverOutCmd q).pair = _ from (s.actingBr_within _ q).1 .pair (by simp), hrole]
    set u := ((s.actingBr brFailoverOutCmd q).modPair fun p => { p with promoteHb := true }).sendHb.fence with hu
    have hserve : exec (.brFailoverOut q) s = .next (u.answer (s.replyBr q) okAns) := by
      simp only [exec, execBrFailoverOut, serveBr_of_passesBr hpass, brFailoverOutAct, hact, ne_eq, not_true_eq_false, if_false, hu]
    have hp := (u.answer_inline_posted (s.replyBr q) (a := okAns) rfl).pair
    obtain ⟨hstate, hrole'⟩ := State.fence_leaves (((s.actingBr brFailoverOutCmd q).modPair fun p => { p with promoteHb := true }).sendHb)
    exact .of_next hserve ⟨(hp.congr (·.state) fun _ _ _ _ _ => rfl).trans hstate, (hp.congr (·.role) fun _ _ _ _ _ => rfl).trans hrole'⟩

end Sys2Proof
end

section
/-! PROOFS. What a pair port takes: records, acknowledgements, heartbeats, fetches and control (R305, R306, R309 to R312). -/

namespace Sys2Proof.Machine

variable {s t : State} {p : Nat}

/-! ## A message that arrives -/

/-- A freed receive buffer leaves the port trained as it was, and its partner. -/
theorem State.freeBuf_port (s : State) (p vc n : Nat) : ((s.freeBuf p vc n).port p).up = (s.port p).up ∧
    ((s.freeBuf p vc n).port p).partner = (s.port p).partner := by
  unfold State.freeBuf
  extract_lets x k back owed x1
  rw [State.port_setPort]
  split
  · exact ⟨rfl, rfl⟩
  · exact ⟨rfl, rfl⟩

theorem State.freeBuf_portActive (s : State) (p vc n : Nat) : (s.freeBuf p vc n).portActive p = s.portActive p :=
  (s.freeBuf_port p vc n).1

theorem State.freeBuf_partnerOn (s : State) (p vc n id : Nat) : (s.freeBuf p vc n).partnerOn p id = s.partnerOn p id := by
  unfold State.partnerOn
  rw [s.freeBuf_portActive, (s.freeBuf_port p vc n).2]

/-- An active pair port takes what the device is ready for. -/
theorem State.takeMir_of_active {vc bytes : Nat} {ok : Bool} (go : State → State) (hp : isPairPort p = true)
    (htrain : (s.port p).train = .active) (hok : ok = true) : s.takeMir p vc bytes ok go = go (s.freeBuf p vc (cdiv bytes 64)) := by
  have hactive : s.portActive p = true := by simp [State.portActive, Port.up, htrain]
  simp [State.takeMir, hp, hok, s.freeBuf_portActive, hactive]

theorem State.freeBuf_pair (s : State) (p vc n : Nat) : (s.freeBuf p vc n).pair = s.pair := rfl
theorem State.freeBuf_now (s : State) (p vc n : Nat) : (s.freeBuf p vc n).now = s.now := rfl

/-! ## Its effect -/

theorem State.setGrade_health (s : State) (g : Nat) : (s.setGrade g).pair.health = s.pair.health := by
  unfold State.setGrade
  split
  · rfl
  · have hw : Within [.mbx, .link] (s.modPair fun q => { q with grade := g })
        ((s.modPair fun q => { q with grade := g }).raise 0x0904 .device 0 (pack [(2, s.pair.grade), (2, g), (348, 0)])) := by simp
    rw [show State.pair _ = _ from hw.1 .pair (by simp)]
    rfl

/-- The records that the standby has acknowledged are dropped, and what goes on adds later ones alone. -/
theorem State.pumpMir_acked {n : Nat} (hn : n ≤ s.pair.mseq) :
    let u := s.modPair fun q => { q with acked := n, ackedAt := s.now, retained := q.retained.filter fun r => n < r.mseq }
    u.pumpMir.pair.acked = n ∧ ∀ r ∈ u.pumpMir.pair.retained, n < r.mseq := by
  intro u
  have hst : Standing u u.pumpMir := State.pumpMir_standing _ (.refl u)
  refine ⟨hst.pair.congr (·.acked) fun _ _ _ _ _ => rfl, fun r hr => ?_⟩
  rcases hst.retained r hr with hold | hnew
  · exact of_decide_eq_true (List.mem_filter.mp hold).2
  · exact hn.trans_lt hnew

/-- A heartbeat that does not promote refreshes a standby. -/
theorem State.hbAtStandby_leaves {x : MirExt} (h : x.promote = false) :
    (s.hbAtStandby x).pair.lastHb = s.pair.lastHb ∧ (x.solo = true → (s.hbAtStandby x).pair.detached = true) := by
  unfold State.hbAtStandby
  extract_lets s1 s2
  have h2 : s2.pair.lastHb = s.pair.lastHb ∧ s2.pair.detached = (s.pair.detached || x.solo) := by
    unfold s2
    split
    · exact ⟨rfl, rfl⟩
    · exact ⟨rfl, rfl⟩
  rw [h, if_neg Bool.false_ne_true]
  exact ⟨h2.1, fun hsolo => by rw [h2.2, hsolo, Bool.or_true]⟩

theorem State.hbAtActive_fences {x : MirExt} (hterm : s.pair.term < x.term) (hhand : s.pair.handed = false) : s.hbAtActive x = s.fence := by
  simp [State.hbAtActive, hterm, hhand]

/-- A device that becomes a standby drops its deckles. -/
theorem State.becomeStandby_leaves (s : State) (x : MirExt) : (s.becomeStandby x).pair.role = .standby ∧
    (s.becomeStandby x).pair.state = .syncing ∧ (s.becomeStandby x).pair.term = x.term ∧ (s.becomeStandby x).part.deckles = [] :=
  ⟨rfl, rfl, rfl, rfl⟩

theorem State.sendCtrl_part (s : State) (k : MirCtrlKind) : (s.sendCtrl k).part = s.part := by
  have hw : Within [.link] s (s.sendCtrl k) := by simp
  exact hw.part (by simp) (by simp)

/-- The end of a resynchronisation that all records have reached. -/
theorem State.syncReached_leaves {n : Nat} (hn : n ≤ s.pair.mseq) :
    let u := (s.modPair fun q => { q with syncEnd := some n }).syncReached
    u.pair.state = .inSync ∧ u.pair.synced = true := by
  intro u
  have hu : u = (((s.modPair fun q => { q with syncEnd := some n }).setPair .inSync).modPair fun q =>
      { q with syncEnd := none, synced := true, detached := false }) := if_pos hn
  rw [hu]
  exact ⟨rfl, rfl⟩

end Sys2Proof.Machine

namespace Sys2Proof

open Machine

/-- Settles O47: each message frees its buffer and acts; what an acknowledgement or a dissolution then lets go on adds to the
stream of records alone. -/
theorem pairMessagesComplete : Obligations.PairMessagesComplete := by
  unfold Obligations.PairMessagesComplete
  intro p s hp htrain
  refine ⟨?health, ?data, ?metaRec, ?ack, ?fence, ?hb, ?fetch, ?line, ?armed, ?form, ?formAck, ?promote, ?promoted, ?resyncStart,
    ?resyncEnd, ?dissolve⟩
  case health =>
    intro r hrole
    refine .of_next (by simp only [exec, execMirHealth]; rw [State.takeMir_of_active _ hp htrain (by simp [hrole])]) ?_
    exact ⟨by rw [State.setGrade_health]; rfl, State.setGrade_grade _ _⟩
  case data =>
    intro x l htakes h1 h57
    exact .of_next (by simp only [exec, execMirData]; rw [State.takeMir_of_active _ hp htrain (by simp [htakes, h1, h57])]) rfl
  case metaRec =>
    intro x r htakes
    exact .of_next (by simp only [exec, execMirMeta]; rw [State.takeMir_of_active _ hp htrain htakes]) rfl
  case ack =>
    intro n hrole hacked hmseq
    refine .of_next (t := ((s.freeBuf p 1 (cdiv 48 64)).modPair fun q =>
      { q with acked := n, ackedAt := (s.freeBuf p 1 (cdiv 48 64)).now, retained := q.retained.filter fun r => n < r.mseq }).pumpMir) ?_
      (State.pumpMir_acked hmseq)
    simp only [exec, execMirAck]
    rw [State.takeMir_of_active _ hp htrain (by simp [hrole])]
    simp [State.freeBuf_pair, hacked, hmseq]
  case fence =>
    intro x hrole hterm hhand
    refine .of_next (by simp only [exec, execMirHb]; rw [State.takeMir_of_active _ hp htrain (by simp [State.paired, hrole])]) ?_
    rw [if_pos (by simp [State.freeBuf_pair, hrole]), State.hbAtActive_fences (by exact hterm) (by exact hhand)]
    exact State.fence_leaves _
  case hb =>
    intro x hrole hpromote
    refine .of_next (by simp only [exec, execMirHb]; rw [State.takeMir_of_active _ hp htrain (by simp [State.paired, hrole])]) ?_
    rw [if_neg (by simp [State.freeBuf_pair, hrole])]
    exact State.hbAtStandby_leaves hpromote
  case fetch =>
    intro d g x hpaired s0
    exact .of_next (by simp only [exec, execMirFetch]; rw [State.takeMir_of_active _ hp htrain hpaired]) rfl
  case line =>
    intro x st l hfetch href
    have hgone : ∀ f : Pair → Pair, ((s.freeBuf p 1 (cdiv 128 64)).modPair f).refAt x.tier (x.phys / 64) = none := fun _ => href
    refine .of_next (by simp only [exec, execMirLine]; rw [State.takeMir_of_active _ hp htrain hfetch]) ?_
    rw [hgone]
    rintro f hf ⟨htier, hline⟩
    have hkeep := (List.mem_filter.mp hf).2
    simp [htier, hline] at hkeep
  case armed =>
    intro x i hun hon
    refine .of_next (by
      simp only [exec, execMirCtrl]
      rw [State.takeMir_of_active _ hp htrain rfl, s.freeBuf_partnerOn, hon, show (s.freeBuf p 5 (cdiv 112 64)).unpaired = true from hun]) rfl
  case form =>
    intro x i harmed hid
    refine .of_next (by
      simp only [exec, execMirCtrl]
      rw [State.takeMir_of_active _ hp htrain rfl, if_pos (by simp [State.freeBuf_pair, harmed, hid])]) ?_
    rw [State.sendCtrl_pair, State.sendCtrl_part]
    exact State.becomeStandby_leaves _ x
  case formAck =>
    intro x i r hrole hreply
    exact .of_next (by
      simp only [exec, execMirCtrl]
      rw [State.takeMir_of_active _ hp htrain rfl, if_pos (by simp [State.freeBuf_pair, hrole])]) rfl
  case promote =>
    intro x i happ hlt
    refine .of_next (by
      simp only [exec, execMirCtrl]
      rw [State.takeMir_of_active _ hp htrain rfl, if_neg (by simp [show (s.freeBuf p 5 (cdiv 112 64)).applies = true from happ]), if_neg (by exact not_le.mpr hlt)]) rfl
  case promoted =>
    intro x i hhand
    exact .of_next (by
      simp only [exec, execMirCtrl]
      rw [State.takeMir_of_active _ hp htrain rfl, if_pos (by exact hhand)]) rfl
  case resyncStart =>
    intro x i happ
    exact .of_next (by
      simp only [exec, execMirCtrl]
      rw [State.takeMir_of_active _ hp htrain rfl, if_pos (by exact happ)]) ⟨rfl, rfl, rfl⟩
  case resyncEnd =>
    intro x i happ hle
    refine .of_next (by
      simp only [exec, execMirCtrl]
      rw [State.takeMir_of_active _ hp htrain rfl, if_pos (by exact happ)]) (State.syncReached_leaves (by exact hle))
  case dissolve =>
    intro x i hrole
    refine .of_next (by
      simp only [exec, execMirCtrl]
      rw [State.takeMir_of_active _ hp htrain rfl]
      simp only [State.freeBuf_pair, hrole]
      rfl) (State.leavePair_leaves _)

end Sys2Proof
end

section
/-! PROOFS. Deckles are made, changed, queried, dissolved and ended (R58 to R63, R338). -/

namespace Sys2Proof.Machine

variable {s t u : State}

/-! ## A new deckle -/

theorem State.newExtent_deckles (s : State) (n : NewExtent) (reply : Option Nat) : (s.newExtent n reply).1.part.deckles = s.part.deckles := by
  unfold State.newExtent
  dsimp only
  split
  · rfl
  · rfl

/-- What a zeroing charges leaves every deckle but its accounts. -/
theorem State.zeroRun_deckles (s : State) (x : Nat) (e : Extent) (d : Nat) :
    ((s.zeroRun x e).part.deckles.find d).map Deckle.plain = (s.part.deckles.find d).map Deckle.plain := by
  unfold State.zeroRun
  exact (State.chargeTier_approach ..).deckles d

theorem State.foldl_setLease_deckles (d : Nat) (l : Option Lease) (eps : List Nat) (s : State) :
    (eps.foldl (fun a ep => a.setLease d ep l) s).part.deckles = s.part.deckles := by
  induction eps generalizing s with
  | nil => rfl
  | cons ep eps ih => exact ih _

/-- The deckle of DECKLE_CREATE has the quotas and the control extent it names, at epoch 0. -/
theorem deckleCreateAct_makes (p : DeckleCreateP) (hint : Nat) (u : State) (r : Nat) :
    (∃ k, (deckleCreateAct p hint u r).1.part.deckles.find (u.deckleFor p.deckle) = some k ∧
      (k.qT1, k.qT2, k.qStg, k.qLodeMib) = (p.qT1, p.qT2, p.qStg, p.qLodeMib) ∧
      (k.ctrlPva, k.ctrlGranules, k.epoch) = (p.ctrlPva, p.ctrlGranules, 0)) ∧
    ∀ a ∈ (deckleCreateAct p hint u r).2, a.area = 0 := by
  unfold deckleCreateAct
  extract_lets d key g base x0 src part s1 n e s2 l s3
  refine ⟨?_, by simp [okFields]⟩
  have h1 : s1.part.deckles.find d = some x0 := NMap.find_put ..
  have hn : n.1.part.deckles.find d = some x0 := by
    unfold n
    rw [State.newExtent_deckles, h1]
  have hzero : ∀ o : Option Extent, ((match o with | some e => n.1.zeroRun n.2 e | none => n.1 : State).part.deckles.find d).map Deckle.plain =
      some x0.plain := by
    intro o
    cases o with
    | some e => rw [State.zeroRun_deckles, hn]; rfl
    | none => rw [hn]; rfl
  have h2 : (s2.part.deckles.find d).map Deckle.plain = some x0.plain := hzero e
  obtain ⟨y, hy, hplain⟩ := Option.map_eq_some_iff.mp h2
  refine ⟨y, ?_, ?_, ?_⟩
  · rw [← hy]
    exact congrArg (NMap.find · d) (State.foldl_setLease_deckles d (some l) (createEps p) s2)
  · exact congrArg (fun k : Deckle => (k.qT1, k.qT2, k.qStg, k.qLodeMib)) hplain
  · exact congrArg (fun k : Deckle => (k.ctrlPva, k.ctrlGranules, k.epoch)) hplain

/-! ## Dissolving a deckle -/

/-- A dissolution ends with the deckle marked. -/
theorem deckleDissolveAct_marks (p : DeckleP) (u : State) (r : Nat) :
    ∃ v x, deckleDissolveAct p u r = (State.modDeckle v p.deckle fun k => { k with dissolving := some x }, none) := ⟨_, _, rfl⟩

/-- What a dissolution stops, revokes and ends takes no deckle away. -/
theorem deckleDissolveAct_dissolves {p : DeckleP} (h : (u.part.deckles.find p.deckle).isSome) (r : Nat) :
    (deckleDissolveAct p u r).1.isDissolving p.deckle = true := by
  have hst := (deckleDissolveAct_standing p u r (.refl u)).deckles p.deckle
  obtain ⟨v, x, hv⟩ := deckleDissolveAct_marks p u r
  rw [hv, h] at hst
  rw [hv]
  have hfind : ∀ f, (v.modDeckle p.deckle f).part.deckles.find p.deckle = (v.part.deckles.find p.deckle).map f :=
    fun f => NMap.find_upd_same _ _ _
  rw [hfind, Option.isSome_map] at hst
  obtain ⟨y, hy⟩ := Option.isSome_iff_exists.mp hst
  unfold State.isDissolving
  rw [hfind, hy]
  rfl

/-- A dissolution that completes destroys the deckle's key and leaves the regions. -/
theorem execDissolveComplete_leaves {d : Nat} {k : Deckle} {x : Dissolve} (hk : s.part.deckles.find d = some k)
    (hx : k.dissolving = some x) (hdrained : s.drained d = true) (hrun : s.hubStopped = false) :
    ∃ t, execDissolveComplete d s = .next t ∧ k.key ∉ t.sec.keys ∧ t.rgn = s.rgn ∧ t.board = s.board := by
  unfold execDissolveComplete
  simp -zeta only [hk, hx, hdrained, hrun, Bool.not_true, Bool.or_self, Bool.false_eq_true, if_false]
  extract_lets s1 s2 late s3 res s4 part lode mbx eng s5
  have h1 : Within [.grans] s s1 := within_foldl _ _ (fun a r => by simp) (.refl _ _)
  have h3 : Within [.mbx, .link, .pair, .pkg] s2 s3 :=
    within_foldl _ _ (fun a r => a.answer_inline_within _ rfl (List.Subset.refl _)) (.refl _ _)
  have h4 : Within [.mbx, .link, .pair, .pkg] s2 s4 := h3.trans (by simp [s4])
  have hsettle := s.settle_inline_within (s5.dropTlb d) (some x.reply) (a := okFields 24 res) rfl
  refine ⟨_, rfl, ?_, ?_, ?_⟩
  · rw [show State.sec _ = _ from hsettle.1 .sec (by simp), show (s5.dropTlb d).sec = s4.sec from rfl, show s4.sec = _ from h4.1 .sec (by simp)]
    simp [s2, State.dropKey]
  · rw [show State.rgn _ = _ from hsettle.1 .rgn (by simp), show (s5.dropTlb d).rgn = s4.rgn from rfl, show s4.rgn = _ from h4.1 .rgn (by simp)]
    exact h1.1 .rgn (by simp)
  · rw [show State.board _ = _ from hsettle.1 .board (by simp), show (s5.dropTlb d).board = s4.board from rfl, show s4.board = _ from h4.1 .board (by simp)]
    exact h1.1 .board (by simp)

/-- A deckle that a check finds is there when the request acts. -/
theorem State.acting_deckle_of_entry {c : Cmd} {q : Req} {d : Nat} (h : (s.entry c q).deckleExists d = true) :
    ((s.acting c q).part.deckles.find d).isSome := by
  rw [show (s.acting c q).part = (s.entry c q).part from (s.acting_of_entry c q).part (by simp) (by simp)]
  exact h

theorem deckleQueryAct_answers {p : DeckleP} {k : Deckle} (hk : u.part.deckles.find p.deckle = some k) (r : Nat) :
    ∃ a, deckleQueryAct p u r = (u, some a) ∧ a.status = .ok ∧ a.bits = pack (u.deckleResult p.deckle k) := by
  unfold deckleQueryAct
  simp only [hk]
  exact ⟨_, rfl, rfl, rfl⟩

end Sys2Proof.Machine

namespace Sys2Proof

open Machine

/-- Settles O1: the deckle that is made, changed, answered for, dissolving or gone; what its dissolution stops and ends on the
way takes no deckle away. -/
theorem deckleCommandsComplete : Obligations.DeckleCommandsComplete := by
  unfold Obligations.DeckleCommandsComplete
  refine ⟨?create, ?query, ?quota, ?dissolve, ?complete⟩
  case create =>
    intro q p hint s hpass
    obtain ⟨⟨k, hk, hquota, hctrl⟩, harea⟩ :=
      deckleCreateAct_makes p hint (s.acting (deckleCreateCmd p s) q) (s.replyOf (deckleCreateCmd p s) q)
    refine completes_of_effect rfl hpass rfl harea fun t ht => ⟨k, ?_, hquota, hctrl⟩
    rw [ht.part (by simp) (by simp)]
    exact hk
  case query =>
    intro q p s k hpass hk
    obtain ⟨a, hact, hok, hbits⟩ := deckleQueryAct_answers hk (s.replyOf (deckleQueryCmd p) q)
    refine completes_answering_area (Z := []) rfl hpass hact (.refl _ _) (by simp) (by simp) fun t ht hans => ⟨a, hans, hok, hbits, ?_, ?_⟩
    · rw [show t.rgn = _ from ht.1 .rgn (by simp), State.acting_rgn]
    · rw [show t.board = _ from ht.1 .board (by simp), State.acting_board]
  case quota =>
    intro q p s hpass
    have hcheck := State.check_of_passes hpass List.mem_cons_self
    simp only [Bool.and_eq_true] at hcheck
    obtain ⟨k, hk⟩ := Option.isSome_iff_exists.mp (State.acting_deckle_of_entry hcheck.1.1.1.1.2)
    refine completes_answering (Z := [.part]) rfl hpass rfl rfl (by simp) (by simp) (by simp) fun t ht hans => ⟨hans, ?_⟩
    rw [ht.part (by simp) (by simp)]
    simp [State.modDeckle, hk]
  case dissolve =>
    intro q p s hpass
    have hcheck := State.check_of_passes hpass List.mem_cons_self
    simp only [Bool.and_eq_true] at hcheck
    have hmark := deckleDissolveAct_dissolves (State.acting_deckle_of_entry hcheck.2) (s.replyOf (deckleDissolveCmd p) q)
    refine completes_of_effect rfl hpass rfl (by simp) fun t ht => ?_
    unfold State.isDissolving at hmark ⊢
    rwa [ht.part (by simp) (by simp)]
  case complete =>
    intro d s k x hk hx hdrained hrun
    obtain ⟨t, hexec, h⟩ := execDissolveComplete_leaves hk hx hdrained hrun
    exact .of_next hexec h

end Sys2Proof
end
